-- ==== Sys2Proof/Word.lean ====
section
/-! DEFINITION. The machine's words, the numbers of its resources, complex values and sparse tables. -/

namespace Sys2Proof

/-- The native 40-bit word (INDEX terms; R6). -/
abbrev Word := BitVec 40

/-- One byte of a message, an image or a flash. -/
abbrev Byte := BitVec 8

/-- Band path number BP0 to BP127 (R21). -/
abbrev BpId := BitVec 7
/-- Chain number CH0 to CH15, also the number of its lanes, FE port and PA port. -/
abbrev ChainId := BitVec 4
/-- Engine number E0 to E255. -/
abbrev EngId := BitVec 8
/-- Quay number Q0 to Q15. -/
abbrev QuayId := BitVec 4
/-- Guvan port number GV0 to GV7. -/
abbrev PortId := BitVec 3
/-- Coexistence port number CX0 to CX3. -/
abbrev CxId := BitVec 2
/-- Converter number ADC0 to ADC3. -/
abbrev AdcId := BitVec 2
/-- Measurement channel MC0 to MC31. -/
abbrev McId := BitVec 5
/-- Loop slot LP0 to LP31. -/
abbrev LoopId := BitVec 5
/-- Berth B0 to B15 of one engine. -/
abbrev BerthId := BitVec 4

/-- An 18-bit device address, span in [17:10], node in [9:4], device in [3:0] (R12). -/
abbrev DevAddr := BitVec 18

/-- A level or ratio in dB, kept as a whole number of 2^-24 dB: the integer of the s16.24 format (R7). -/
abbrev Db := Int

/-- A complex value with exact integer components, in the unit its user names. -/
structure Cplx where
  re : Int
  im : Int
  deriving DecidableEq, Repr

namespace Cplx
/-- The complex zero. -/
def zero : Cplx := ⟨0, 0⟩
/-- Componentwise sum. -/
def add (a b : Cplx) : Cplx := ⟨a.re + b.re, a.im + b.im⟩
/-- Componentwise difference. -/
def sub (a b : Cplx) : Cplx := ⟨a.re - b.re, a.im - b.im⟩
/-- Complex product. -/
def mul (a b : Cplx) : Cplx := ⟨a.re * b.re - a.im * b.im, a.re * b.im + a.im * b.re⟩
/-- Complex conjugate. -/
def conj (a : Cplx) : Cplx := ⟨a.re, -a.im⟩
/-- Squared magnitude. -/
def normSq (a : Cplx) : Nat := (a.re * a.re + a.im * a.im).toNat
end Cplx

/-- A sparse table: keys strictly rising, no entry equal to what an unlisted key reads as. -/
abbrev Tbl (α : Type) := List (Nat × α)

namespace Tbl

/-- The entry of key `k`, or the default `d k` of an unlisted key. -/
def get {α : Type} (d : Nat → α) : Tbl α → Nat → α
  | [], k => d k
  | (j, v) :: t, k => if k = j then v else get d t k

/-- Insert a key known to differ from its default, keeping keys rising. -/
def put {α : Type} : Tbl α → Nat → α → Tbl α
  | [], k, v => [(k, v)]
  | (j, w) :: t, k, v =>
    if k < j then (k, v) :: (j, w) :: t
    else if k = j then (k, v) :: t
    else (j, w) :: put t k v

/-- Remove every entry of a key. -/
def del {α : Type} : Tbl α → Nat → Tbl α
  | [], _ => []
  | (j, w) :: t, k => if k = j then del t k else (j, w) :: del t k

/-- Write key `k`; writing the default removes the entry, so equal tables are equal lists. -/
def set {α : Type} [DecidableEq α] (d : Nat → α) (t : Tbl α) (k : Nat) (v : α) : Tbl α :=
  if v = d k then del t k else put t k v

/-- All keys of a table lie above `k`. -/
def above {α : Type} (k : Nat) : Tbl α → Bool
  | [] => true
  | (j, _) :: _ => decide (k < j)

/-- The canonical form: keys strictly rising, no entry equal to its default. -/
def wf {α : Type} [DecidableEq α] (d : Nat → α) : Tbl α → Bool
  | [] => true
  | (j, v) :: t => !(decide (v = d j)) && above j t && wf d t

end Tbl
end Sys2Proof
end

