-- ==== Sys2Proof/Image.lean ====
section
/-! DEFINITION. What a configuration image carries beyond its header (R414 to R418): the sections, as the records the blocks read.
BAND_PLAN, LIMITS and CLASSIFY keep the word layouts the manual gives them; the sections whose word layout it does not give are records of the fields it names. -/

namespace Sys2Proof

/-- Kinds of berth (R268). -/
inductive BerthKind where
  | unused | timed | urgent | handler
  deriving DecidableEq, Repr

/-- One berth of an engine: kind, start offset and length of a timed berth, budget of an urgent one in quanta, SHED mark, entry point and XBASE of its task (R268, R351, R415). -/
structure BerthCfg where
  berth : BerthId
  kind : BerthKind
  start : Nat
  len : Nat
  budget : Nat
  shed : Bool
  entry : Nat
  xbase : BitVec 24
  deriving DecidableEq, Repr

/-- The ENGINE section of one engine. -/
structure EngImage where
  eng : EngId
  imem : List (Nat × Word)
  dmem : List (Nat × Word)
  berths : List BerthCfg
  deriving DecidableEq, Repr

/-- The QUAY section of one quay: memory contents and the owner of each of its 32 burst slots, as a channel number: 0 to 31 L0 to L31, 32 + k DLk (R263). -/
structure QuayImage where
  quay : QuayId
  mem : List (Nat × Word)
  slots : List (Nat × Nat)
  deriving DecidableEq, Repr

/-- One FE device slot: prefix bits, address width 7 or 15, data width (R146). -/
structure FeDevice where
  slot : BitVec 3
  prefixLen : Nat
  prefixBits : BitVec 8
  addr15 : Bool
  dataBits : Nat
  deriving DecidableEq, Repr

/-- A TDD switch point (R150). -/
structure TddPoint where
  offset : Nat
  toTx : Bool
  gap : Bool
  deriving DecidableEq, Repr

/-- The FE section of one chain beyond CH_FE_CFG (R147, R150): first entries of its 16 slots (absent: empty), durations in SCLK cycles, calibration flags and intervals, times in ns, the TDD frame and its points. -/
structure ChainCfg where
  chain : ChainId
  configured : Bool
  slots : List (Nat × Nat)
  durations : List (Nat × Nat)
  devices : List FeDevice
  startup : BitVec 8
  background : BitVec 8
  rxOk : BitVec 8
  bgInt : List (Nat × Nat)
  calReqTimeout : Nat
  settleRx : Nat
  settleTx : Nat
  paLead : Nat
  tddPeriod : Nat
  tddPhase : Nat
  points : List TddPoint
  deriving DecidableEq, Repr

/-- One measurement channel (R175), NOTCH in hertz. -/
structure McCfg where
  mc : McId
  adc : AdcId
  input : Nat
  k : Nat
  notch : Nat
  offset0 : BitVec 20
  gain0 : BitVec 20
  deriving DecidableEq, Repr

/-- Sources of a conversion trigger (R178). -/
inductive TrigSrc where
  | trig (n : BitVec 2) (rising : Bool)
  | fe (c : ChainId) (e : BitVec 2)
  | paEn (c : ChainId) (rising : Bool)
  deriving DecidableEq, Repr

/-- A trigger entry (R178). An entry that names both edges of a ball lists both sources. -/
structure TrigCfg where
  sources : List TrigSrc
  mc : McId
  delay : Nat
  urgent : Bool
  deriving DecidableEq, Repr

/-- Feed-forward sources of a loop (R190). -/
inductive FfSrc where
  | none | mc (m : McId) | gain (bp : BpId)
  deriving DecidableEq, Repr

/-- A loop slot's fields beyond its registers (R190): gains in 2^-24, references and bounds in 2^-32. -/
structure LoopCfg where
  slot : LoopId
  reverse : Bool
  kp : Int
  ki : Int
  kd : Int
  kff : Int
  ffSrc : FfSrc
  ffX0 : Int
  spMin : Int
  spMax : Int
  outMin : Int
  outMax : Int
  ramp : Int
  idleHold : Bool
  mode0 : BitVec 2
  deriving DecidableEq, Repr

/-- One container map: the band path of each group G0 to G77, absent where empty (R293), its MAP_ID, and the band rate share S of each stream in samples per frame. -/
structure GvMap where
  port : PortId
  mode : BitVec 3
  inbound : Bool
  mapId : BitVec 16
  groups : List (Nat × Nat)
  deriving DecidableEq, Repr

/-- A thermal sensor slot's parameters (R338): remote diode ideality in 1/1000 and series resistance in mΩ, thermistor resistances in mΩ and B in mK. -/
structure TsCfg where
  slot : BitVec 4
  ideality : Nat
  seriesRes : Nat
  nomRes : Nat
  beta : Nat
  divRes : Nat
  deriving DecidableEq, Repr

/-- Settings of one temperature band (R344): JRX preset and JTX drive level, PA bias as loop set points and MAN_CODEs. -/
structure BandCfg where
  tb : BitVec 3
  jrxPreset : Nat
  jtxDrive : Nat
  sp : List (LoopId × Word)
  man : List (ChainId × BitVec 14)
  deriving DecidableEq, Repr

/-- An entry of the keep list: source group and kind (R370). -/
structure KeepEnt where
  group : BitVec 4
  kind : BitVec 6
  deriving DecidableEq, Repr

/-- An image: its byte string, header included (R414), and what its sections say to the blocks. `regs` are the values the sections give to registers, REGINIT apart. -/
structure Image where
  bytes : List Byte
  hasAddress : Option DevAddr
  engines : List EngImage
  quays : List QuayImage
  /-- Owner engine of lighter channels: channel number (32q + c, or 512 + k for DLk) and engine (R258). -/
  ltrOwner : List (Nat × EngId)
  plan : List Word
  feSeq : List Word
  chains : List ChainCfg
  mcs : List McCfg
  scan : List (Nat × Word)
  trigs : List TrigCfg
  loops : List LoopCfg
  almanac : List (List Nat)
  limits : List Word
  classify : List Word
  keep : List KeepEnt
  maps : List GvMap
  /-- Sample period of each Guvan-sourced band path: band path and the period as a fraction, in samples of 614.4 Msps. The manual gives such a band path the container rate (R32) and no word for it. -/
  gvPeriod : List (Nat × (Nat × Nat))
  routes : List (Nat × Byte)
  headEnd : DevAddr
  sensors : List TsCfg
  bands : List BandCfg
  regs : List (Nat × Word)
  regInit : List (Nat × Word)
  deriving DecidableEq, Repr

/-- No image: what stands before one has been accepted (R411) and under the ROM loader. -/
def Image.none : Image where
  bytes := []
  hasAddress := Option.none
  engines := []
  quays := []
  ltrOwner := []
  plan := []
  feSeq := []
  chains := []
  mcs := []
  scan := []
  trigs := []
  loops := []
  almanac := []
  limits := []
  classify := []
  keep := []
  maps := []
  gvPeriod := []
  routes := []
  headEnd := 0
  sensors := []
  bands := []
  regs := []
  regInit := []

end Sys2Proof
end

