-- ==== Sys2Proof/Syntax.lean ====
section
/-! DEFINITION. The commands of the block, one constructor for each row of the operation table, and the operands they carry. -/

namespace Sys2Proof

/-- A requester of register accesses (R433). -/
inductive Requester where
  | mgmt
  | session (i : BitVec 3)
  | debug
  | engine (e : EngId)
  deriving DecidableEq, Repr

/-- Where a management COMMAND comes from: the originator of a session, with the port its message arrived by, or the debug port (R391). -/
inductive Origin where
  | addr (src : DevAddr) (p : PortId)
  | debug
  deriving DecidableEq, Repr

/-- A flash at a start (R412, R413): the one of before, or one with other slot sectors, of each of which the bytes up to the last programmed one are given; and whether its programming and erasing fail (R390). -/
inductive SlotView where
  | kept (fails : Bool)
  | sectors (s0 s1 : List Byte) (fails : Bool)
  deriving DecidableEq, Repr

/-- The fields of a T-format engine instruction below its opcode (R208). -/
structure T3 where
  d : BitVec 5
  a : BitVec 5
  b : BitVec 5
  fn : BitVec 17
  deriving DecidableEq, Repr

/-- The fields of an I-, M- or B-format engine instruction below its opcode (R208): dst, reg or condition; a, base or register; immediate, offset or displacement. -/
structure I2 where
  d : BitVec 5
  a : BitVec 5
  imm : BitVec 22
  deriving DecidableEq, Repr

/-- The fields of a K-format engine instruction below its opcode (R208). -/
structure K5 where
  acc : BitVec 2
  a : BitVec 5
  b : BitVec 5
  count : BitVec 10
  mode : BitVec 10
  deriving DecidableEq, Repr

/-- The protected memories a scrubber walks (R256, R257). -/
inductive MemId where
  | imem (e : EngId)
  | dmem (e : EngId)
  | quay (q : QuayId)
  | hold
  | bankA
  | bankB
  | desc
  | seqMem
  | logRec
  | logKey
  | scan
  | cls
  | almanac
  | refs
  | mgmt
  | mask
  | routes
  deriving DecidableEq, Repr

/-- A soft error: the bits of a protected word, with its check symbols, that it flips (R255). -/
structure SoftHit where
  mem : MemId
  addr : BitVec 22
  flips : BitVec 64
  deriving DecidableEq, Repr

/-- Where the parity readback finds a failure (R257, R438): nowhere, in a register of the fabric, or in the state of a block whose chapter gives a reaction. -/
inductive ParityAt where
  | none
  | reg (addr : BitVec 24)
  | breakwater (bp : BpId)
  | gain (bp : BpId)
  | chain (ch : ChainId)
  | engine (e : EngId) (saving : Bool)
  | lighter (ch : BitVec 10)
  | loop (lp : LoopId)
  | port (p : PortId)
  | timeBase
  | thermal
  | books
  | collector
  | core
  deriving DecidableEq, Repr

/-- An inbound Guvan frame as the port's receiver has taken it: signs of the marker that agree, symbols in error in each of the 16 codewords, the 5 440 payload symbols, arrival of the marker at the ball in 2^-24 ns of the own clock, and the receiver's measures in s16.24 (SNR, idle noise, loss, frequency, and the gain correction in dB that the pilots ask for). -/
structure RxFrame where
  markerSigns : Nat
  errors : List Nat
  syms : List (BitVec 10)
  arrival : Int
  snr : Int
  noise : Int
  loss : Int
  freq : Int
  gainErr : Int
  deriving DecidableEq, Repr

/-- A TRAIN turn as the receiver has taken it: the information word of its last block, and the longest run of training markers found 4 096 symbols apart (R298). -/
structure TrainTurn where
  info : BitVec 16
  markers : BitVec 6
  deriving DecidableEq, Repr

/-- The commands and events of the block: one constructor for each row of the operation table, in its order. -/
inductive Instr where
  /-- COLD_START (R408): The later rising edge of PWR_GOOD and RESET_N starts the device: BOOT_SEL and TEST_EN are sampled, the PLL locks and the slot records are applied by the boot ROM. -/
  | coldStart (bootSel testEn vddIoLost : Bool) (primary alternate : SlotView)
  /-- PWR_GOOD_FALL (R409): PWR_GOOD falling kills PA_EN, PA_DRV and JTX through the kill path and puts the device into reset. -/
  | pwrGoodFall
  /-- PLL_LOCK (R317): The root PLL locks and releases every divider on the alignment edge, with CYC at 0; without lock after 2 ms ALARM_N goes low and the lock is retried every 10 ms. -/
  | pllLock (locked : Bool) (lockUs : BitVec 16)
  /-- SRAM_CLEAR_DONE (R411): The clearing of every SRAM after PLL lock completes, and the logbook starts taking intake entries. -/
  | sramClearDone
  /-- IMAGE_LOADED (R421): The image stream completes and checks 7 to 9 decide whether the loaded image is accepted or cleared and the other flash tried. -/
  | imageLoaded (flash readOk : Bool) (img : Image)
  /-- BRINGUP_STEP_END (R423): A bring-up step (JESD, FE, Guvan or soft start) ends when its units are up, and the next step starts. -/
  | bringupStepEnd (step : BitVec 2)
  /-- BRINGUP_STEP_BOUND (R423): A bring-up step reaches its bound, sends BOOT_STEP naming the units not up, and start-up continues. -/
  | bringupStepBound (step : BitVec 2)
  /-- ROM_LOADER_RESET (R426): 100 ms after a successful commit under the ROM loader, the ROM loader pulls RESET_N low for 1 ms. -/
  | romLoaderReset
  /-- TRIAL_CONFIRM (R398): A TRIAL image that has run for 60 s past the soft-start step without harbour mode is set to VALID. -/
  | trialConfirm
  /-- VDD_CORE_POWER_CYCLE (R455): VDD_CORE held below 0.3 V for at least 1 ms clears the C4 latch, and the emergency register file is kept. -/
  | vddCorePowerCycle
  /-- JRX_LOCK_LOST (R37): A JRX lane loses extended multiblock lock, its chain delivers zero samples with VALID clear and JRX_LOCK is reported with hint C1. -/
  | jrxLockLost (ch : ChainId)
  /-- JRX_LOCK_REGAINED (R37): A JRX lane regains lock, its band paths count invalid samples as at a start and JRX_LOCK is reported with hint C0. -/
  | jrxLockRegained (ch : ChainId)
  /-- SYSREF_MISALIGN (R34): A SYSREF edge off the established boundary sets SYSREF_MISALIGN in every running lane. -/
  | sysrefMisalign
  /-- FREQ_WRITE (R39): A write of FREQ takes effect at a chain sample boundary with continuous phase, after a range check, and clears VALID. -/
  | freqWrite (who : Requester) (bp : BpId) (freq : BitVec 32)
  /-- BP_PATH_WRITE (R62): A BP_PATH write switches half-band or channel filter responses, one change per altered field. -/
  | bpPathWrite (who : Requester) (bp : BpId) (w : Word)
  /-- STEP_WRITE (R44): A STEP write in RESAMPLER mode changes the resampler step and, if altered, the band rate. -/
  | stepWrite (who : Requester) (bp : BpId) (stp : BitVec 34)
  /-- DC_FREEZE_SET (R53): Setting DC_FREEZE holds the DC estimate from the next band-rate sample. -/
  | dcFreezeSet (who : Requester) (bp : BpId)
  /-- DC_FREEZE_CLEAR (R53): Clearing DC_FREEZE resumes adaptation and clears VALID by the unfreeze row of R60. -/
  | dcFreezeClear (who : Requester) (bp : BpId)
  /-- METER_RESTART (R55): A write of 1 to METER_RESTART restarts both ingress meters. -/
  | meterRestart (who : Requester) (bp : BpId)
  /-- RSMP_RETRY (R47): A write of 1 to RSMP_RETRY requests a resampler instance; a grant is a preset switch and a refusal changes nothing. -/
  | rsmpRetry (who : Requester) (bp : BpId)
  /-- RESAMPLER_RESET_DONE (R46): A released resampler instance finishes its 32 CLK_F reset and becomes free. -/
  | resamplerResetDone (inst : BitVec 6)
  /-- FINE_METER_BLOCK_DONE (R54): A fine meter block of 65 536 VALID samples completes and BP_PWR_FINE is replaced. -/
  | fineMeterBlockDone (bp : BpId) (egress : Bool)
  /-- VALID_CLEAR_RUN_END (R60): The count of VALID-clear samples after a change runs out, and the first VALID sample restarts the meters. -/
  | validClearRunEnd (bp : BpId)
  /-- SWAP_ARM (R72): A write of SWAP_ARM checks the lead, locks the inactive bank and starts its scan, or is refused as off, late or busy. -/
  | swapArm (who : Requester) (bp : BpId) (seq : BitVec 24)
  /-- SWAP_SCAN_DONE (R72): The scan of the inactive bank completes with its energy, peak index and spread. -/
  | swapScanDone (bp : BpId)
  /-- SWAP_TAKE_EFFECT (R73): At the sample named by SWAP_SEQ the swap takes place, or is refused for energy, poison or lateness, and the bank is unlocked. -/
  | swapTakeEffect (bp : BpId)
  /-- PROBE_MEASUREMENT_DONE (R81): A probe measurement completes after 2^20 band samples, writes its isolation results and updates I_p. -/
  | probeMeasurementDone (bp : BpId)
  /-- BW_INTERVAL_END (R82): At the end of each 15.999 µs evaluation interval the breakwater forms the fast estimate and I_bw, evaluates the margin and writes the records. -/
  | bwIntervalEnd
  /-- TRIP_SUBWINDOW_END (R89): A trip sub-window closes, and its output, input and loop powers are formed and compared with earlier sub-windows. -/
  | tripSubwindowEnd (bp : BpId)
  /-- FLOOR_WRITE (R84): A FLOOR write is accepted unless it is below the limits minimum, and takes effect from the following interval. -/
  | floorWrite (who : Requester) (bp : BpId) (floor : BitVec 11)
  /-- GAIN_SET_WRITE (R124): A GAIN_SET write within GAIN_MAX sets the wanted band gain. -/
  | gainSetWrite (who : Requester) (bp : BpId) (gain : BitVec 16)
  /-- AGC_HOLD_SET (R100): Setting AGC_HOLD holds the gain and suspends the capture rule. -/
  | agcHoldSet (who : Requester) (bp : BpId)
  /-- AGC_HOLD_CLEAR (R100): Clearing AGC_HOLD resumes tracking unless the gate is CONFIRMED. -/
  | agcHoldClear (who : Requester) (bp : BpId)
  /-- NR_CAPTURE (R114): A write of 1 to NR_CAPTURE replaces NR_REF with FLOOR_DBM, or is refused while FLOOR_VALID is 0. -/
  | nrCapture (who : Requester) (bp : BpId)
  /-- EG_METER_RESTART (R115): A write of 1 to EG_METER_RESTART restarts the egress meters. -/
  | egMeterRestart (who : Requester) (bp : BpId)
  /-- MASK_VERDICT (R120): A verdict write is judged for tag and period and, if accepted, applied by R121. -/
  | maskVerdict (who : Requester) (bp : BpId) (verdict : BitVec 5)
  /-- MASK_PERIOD_END (R118): A 10 ms mask period ends, and a completed capture without a verdict counts as a fail. -/
  | maskPeriodEnd (bp : BpId)
  /-- MASK_CAPTURE_DONE (R118): The mask capture of MASK_AVG × 4 096 VALID samples completes within its period. -/
  | maskCaptureDone (bp : BpId)
  /-- SOFT_START_BEGIN (R101): When COARSE_N first reaches 64 in STARTING, the gain and g_ramp start from the start level. -/
  | softStartBegin (bp : BpId)
  /-- RAMP_STEP (R101): g_ramp rises by 0.05 dB each 0.05/RAMP_RATE ms. -/
  | rampStep (bp : BpId)
  /-- GATE_OPEN_ENERGY (R104): DETECT_N consecutive above samples open a CLOSED gate. -/
  | gateOpenEnergy (bp : BpId)
  /-- GATE_REF_MATCH (R103): A reference sequence match opens a CLOSED gate. -/
  | gateRefMatch (bp : BpId)
  /-- GATE_CONFIRM (R105): An OPEN gate is confirmed, the AGC freezes and P_frz is set. -/
  | gateConfirm (bp : BpId)
  /-- GATE_VERIFY_EXPIRY (R104): VERIFY_N samples without confirmation close the gate as a false open. -/
  | gateVerifyExpiry (bp : BpId)
  /-- GATE_CAPTURE (R110): The capture condition moves the gate to RESETTLE and unfreezes the AGC. -/
  | gateCapture (bp : BpId)
  /-- GATE_RESETTLE_END (R110): After RS_N samples the AGC refreezes and the gate returns to CONFIRMED. -/
  | gateResettleEnd (bp : BpId)
  /-- GATE_CLOSE (R106): A CONFIRMED gate closes once enough of the last HANG_N samples are quiet. -/
  | gateClose (bp : BpId)
  /-- FLOOR_BLOCK_DONE (R111): A 1 024-sample floor block completes and, if it qualifies, the idle floor is recomputed. -/
  | floorBlockDone (bp : BpId)
  /-- FLOOR_STALE (R113): FLOOR_AGE exceeds FLOOR_AGE_MAX, FLOOR_STALE sets and a C0 message is sent. -/
  | floorStale (bp : BpId)
  /-- BP_ENABLE (R140): A write of ENABLE 1 to a band path in OFF takes grants and checks ranges, then enters STARTING, stays OFF or enters BARRED. -/
  | bpEnable (who : Requester) (bp : BpId)
  /-- BP_DISABLE (R140): A write of ENABLE 0 sends the band path to OFF and returns its grants. -/
  | bpDisable (who : Requester) (bp : BpId)
  /-- LOCK_ACK (R140): LOCK_ACK in LOCKED_OUT moves the band path to MUTED, clears its history and starts a 1 s timer. -/
  | lockAck (who : Requester) (bp : BpId)
  /-- RETRY_TIMER_EXPIRY (R139): A band path's retry timer expires and, with no held cause, the band path returns to STARTING. -/
  | retryTimerExpiry (bp : BpId)
  /-- RETRY_EXP_RESET (R139): After 3 600 s of continuous service without a tripped mute, e resets to 0. -/
  | retryExpReset (bp : BpId)
  /-- DONOR_LOSS (R131): Donor power below DONOR_MIN for LOSS_T declares the donor lost and holds DONOR. -/
  | donorLoss (bp : BpId)
  /-- DONOR_RESTORE (R131): Donor power at or above DONOR_MIN + 3 dB for 100 ms declares the donor restored. -/
  | donorRestore (bp : BpId)
  /-- DUTY_BUCKET_END (R132): At a duty bucket boundary the duty is evaluated and the DUTY cause is held or released. -/
  | dutyBucketEnd (bp : BpId)
  /-- PROT_LIM_DATA_WRITE (R136): A write of a limits item is accepted only in the stricter direction and becomes pending. -/
  | protLimDataWrite (who : Requester) (value : Word)
  /-- MUTE_N_FALL (R137): A deglitched falling MUTE_N applies the held cause MUTE_N to bound band paths and counts MN_CNT. -/
  | muteNFall
  /-- MUTE_N_RISE (R137): MUTE_N reading high removes the cause MUTE_N 2 CLK_S cycles later. -/
  | muteNRise
  /-- POWER_UP (R151): POWER_UP from POWERED_DOWN enters BIASING and runs UP. -/
  | powerUp (who : Requester) (ch : ChainId)
  /-- POWER_DOWN (R151): POWER_DOWN aborts the running sequence, discards any held command and runs DOWN. -/
  | powerDown (who : Requester) (ch : ChainId)
  /-- RECEIVE (R151): RECEIVE switches a chain to RECEIVE by TO_RX, or joins a SCHEDULE chain to its schedule. -/
  | receive (who : Requester) (ch : ChainId)
  /-- TRANSMIT (R151): TRANSMIT switches a chain to TRANSMIT by TO_TX and aborts a running calibration. -/
  | transmit (who : Requester) (ch : ChainId)
  /-- READY (R151): READY switches a chain to READY by TO_READY and leaves the schedule. -/
  | ready (who : Requester) (ch : ChainId)
  /-- RETUNE (R151): RETUNE k runs its RETUNE sequence in SYNTH_LOCKING. -/
  | retune (who : Requester) (ch : ChainId) (k : BitVec 4)
  /-- CAL (R162): CAL k marks calibration k pending, or runs it at once from READY when a gap fits. -/
  | cal (who : Requester) (ch : ChainId) (k : BitVec 4)
  /-- CLEAR_FAULT (R151): CLEAR_FAULT from FE_FAULT runs DOWN and enters POWERED_DOWN. -/
  | clearFault (who : Requester) (ch : ChainId)
  /-- SEQ_ENTRY (R148): A sequence entry runs its operation (write, check, poll read, store, wait, event or stored write) after its DELAY. -/
  | seqEntry (ch : ChainId) (data : BitVec 32)
  /-- POLL_TIMEOUT (R148): A POLL reaches its timeout and its sequence fails. -/
  | pollTimeout (ch : ChainId)
  /-- SEQ_ABORT_SAFE_POINT (R149): An abort takes effect at the next safe point of the running sequence. -/
  | seqAbortSafePoint (ch : ChainId)
  /-- SEQUENCE_COMPLETE (R151): A sequence reaches END and the chain proceeds by the transition table. -/
  | sequenceComplete (ch : ChainId)
  /-- SYNTH_SETTLE_ELAPSED (R155): SYNTH_SETTLE elapses after lock, and the chain calibrates, returns, or executes its held command. -/
  | synthSettleElapsed (ch : ChainId)
  /-- LOCK_TIMEOUT (R158): LOCK_TIMEOUT expires in SYNTH_LOCKING, the held command is refused and the chain enters FE_FAULT. -/
  | lockTimeout (ch : ChainId)
  /-- SWITCH_SETTLE_ELAPSED (R151): SETTLE_RX or SETTLE_TX elapses and the chain enters its target state. -/
  | switchSettleElapsed (ch : ChainId)
  /-- TDD_FRAME_START (R156): A TDD frame starts at the calendar instant of TDD_PHASE, and its switch points are scheduled. -/
  | tddFrameStart (ch : ChainId)
  /-- SWITCH_POINT_PREROLL (R156): The target sequence of a switch point starts PREROLL before the point, or the point is skipped or held. -/
  | switchPointPreroll (ch : ChainId) (point : BitVec 4)
  /-- CAL_GAP_START (R161): At a gap, pending calibrations that fit run in ascending order. -/
  | calGapStart (ch : ChainId)
  /-- CAL_REQ_TIMEOUT (R162): A mode S request not committed within CAL_REQ_TIMEOUT is refused and its PENDING bit cleared. -/
  | calReqTimeout (ch : ChainId) (k : BitVec 3)
  /-- BG_INTERVAL_EXPIRY (R162): In mode B a calibration becomes pending BG_INT after its last commitment. -/
  | bgIntervalExpiry (ch : ChainId) (k : BitVec 3)
  /-- GNT_FALL (R165): In the requester role a deglitched low GNT applies the held cause CX to bound band paths. -/
  | gntFall (cx : CxId)
  /-- GNT_RISE (R165): In the requester role GNT reading high removes the cause CX 2 CLK_S cycles later. -/
  | gntRise (cx : CxId)
  /-- REQ_RELEASE_TIMER (R165): REQ falls 10 µs after the last bound band path stops wanting the band. -/
  | reqReleaseTimer (cx : CxId)
  /-- REQ_UNANSWERED (R165): A REQ unanswered for 1 s sends one C0 note. -/
  | reqUnanswered (cx : CxId)
  /-- GRANTOR_REQ_CHANGE (R166): In the grantor role a change of REQ, PRI or the bound band paths' states is judged by GPOL to yield or release. -/
  | grantorReqChange (cx : CxId) (req pri : Bool)
  /-- GRANT_DELAY_EXPIRY (R166): GRANT_DELAY after a decision to yield, GNT is driven high. -/
  | grantDelayExpiry (cx : CxId)
  /-- SCAN_CONVERSION_START (R176): At a slot boundary the scan list's conversion, or waiting work, starts on a free converter. -/
  | scanConversionStart (adc : AdcId)
  /-- CONVERSION_COMPLETE (R181): A conversion result becomes valid, is calibrated, filtered, recorded and journalled, and the converter runs its next waiting work. -/
  | conversionComplete (adc : AdcId) (code : BitVec 12)
  /-- TRIGGER_EDGE (R178): A TRIG edge, FE event or PA_EN change is recognised for each trigger entry that names it. -/
  | triggerEdge (src : TrigSrc)
  /-- TRIGGER_REQUEST (R178): DELAY CLK_S after recognition, the trigger's conversion request is made. -/
  | triggerRequest (entry : BitVec 5)
  /-- MEAS_REQ_ORDINARY (R177): A MEAS_REQ with GO and URGENT clear queues an ordinary conversion request or drops it. -/
  | measReqOrdinary (who : Requester) (mc : McId)
  /-- MEAS_REQ_URGENT (R179): A MEAS_REQ with GO and URGENT set makes an urgent conversion request. -/
  | measReqUrgent (who : Requester) (mc : McId)
  /-- CAL_ZERO (R184): CAL_CMD with OP CAL_ZERO restarts the channel's filter to measure its offset. -/
  | calZero (who : Requester) (mc : McId)
  /-- CAL_FULL (R184): CAL_CMD with OP CAL_FULL restarts the channel's filter to measure its gain against FS_REF. -/
  | calFull (who : Requester) (mc : McId) (fsRef : BitVec 20)
  /-- CAL_OP_COMPLETE (R184): After settling and 16 fine values, the calibration operation sets OFFSET or GAIN, or is refused. -/
  | calOpComplete
  /-- MC_CAL_WRITE (R183): A write of MC_CAL sets OFFSET and GAIN and restarts the channel's filter. -/
  | mcCalWrite (who : Requester) (mc : McId) (offset gain : BitVec 20)
  /-- TRIM_ACT_WRITE (R188): A write of TRIM_ACT registers makes a trim set pending for the quiet slot. -/
  | trimActWrite (who : Requester) (r : BitVec 3) (w : Word)
  /-- TRIM_APPLY (R187): A pending trim set is applied at the first quiet slot with no conversion in flight, restarting the filters and holding the loops. -/
  | trimApply
  /-- UPTIME_SECOND (R323): UPTIME advances, and the once-per-second duties run. -/
  | uptimeSecond
  /-- LOOP_OUTPUT_WRITE (R191): 184 CLK_S after a loop's sample instant the loop computes and writes its output, or holds. -/
  | loopOutputWrite (lp : LoopId)
  /-- LOOP_MODE_WRITE (R193): A write of a loop MODE enters OFF, MANUAL or AUTO, presetting or loading state. -/
  | loopModeWrite (who : Requester) (lp : LoopId) (mode : BitVec 2)
  /-- LOOP_SP_WRITE (R193): A write of SP within its bounds makes the loop ramp toward it. -/
  | loopSpWrite (who : Requester) (lp : LoopId) (w : Word)
  /-- LOOP_MAN_WRITE (R194): A write of MAN sets the manual output of the loop. -/
  | loopManWrite (who : Requester) (lp : LoopId) (w : Word)
  /-- ADD (R231): Integer add. -/
  | add (e : EngId) (f : T3)
  /-- SUB (R231): Integer subtract. -/
  | sub (e : EngId) (f : T3)
  /-- CADD (R231): Complex add. -/
  | cadd (e : EngId) (f : T3)
  /-- CSUB (R231): Complex subtract. -/
  | csub (e : EngId) (f : T3)
  /-- MUL (R231): Integer multiply. -/
  | mul (e : EngId) (f : T3)
  /-- FMUL (R231): Fraction multiply. -/
  | fmul (e : EngId) (f : T3)
  /-- MIN (R231): Signed minimum. -/
  | min (e : EngId) (f : T3)
  /-- MAX (R231): Signed maximum. -/
  | max (e : EngId) (f : T3)
  /-- ABS (R231): Absolute value. -/
  | abs (e : EngId) (f : T3)
  /-- AND (R231): Bitwise and. -/
  | andW (e : EngId) (f : T3)
  /-- OR (R231): Bitwise or. -/
  | orW (e : EngId) (f : T3)
  /-- XOR (R231): Bitwise exclusive or. -/
  | xor (e : EngId) (f : T3)
  /-- SEL (R231): Select by predicate. -/
  | sel (e : EngId) (f : T3)
  /-- CONJ (R231): Complex conjugate. -/
  | conj (e : EngId) (f : T3)
  /-- ADDI (R231): Add immediate, wrapping. -/
  | addi (e : EngId) (f : I2)
  /-- ADDIS (R231): Add immediate, saturating. -/
  | addis (e : EngId) (f : I2)
  /-- ANDI (R231): And with zero-extended immediate. -/
  | andi (e : EngId) (f : I2)
  /-- ORI (R231): Or with zero-extended immediate. -/
  | ori (e : EngId) (f : I2)
  /-- XORI (R231): Exclusive or with zero-extended immediate. -/
  | xori (e : EngId) (f : I2)
  /-- LUI (R231): Load upper immediate. -/
  | lui (e : EngId) (f : I2)
  /-- RDCYC (R231): Read CYC. -/
  | rdcyc (e : EngId) (f : T3)
  /-- RDTIME (R231): Read calendar time into a register pair. -/
  | rdtime (e : EngId) (f : T3)
  /-- RDST (R231): Read STATUS. -/
  | rdst (e : EngId) (f : T3)
  /-- CLST (R231): Clear SAT or ACCSAT. -/
  | clst (e : EngId) (f : T3)
  /-- RDP (R231): Read predicates. -/
  | rdp (e : EngId) (f : T3)
  /-- SHL (R232): Shift left by register. -/
  | shl (e : EngId) (f : T3)
  /-- SHR (R232): Logical shift right by register. -/
  | shr (e : EngId) (f : T3)
  /-- SRA (R232): Arithmetic shift right by register. -/
  | sra (e : EngId) (f : T3)
  /-- SHLI (R232): Shift left by immediate. -/
  | shli (e : EngId) (f : I2)
  /-- SHRI (R232): Logical shift right by immediate. -/
  | shri (e : EngId) (f : I2)
  /-- SRAI (R232): Arithmetic shift right by immediate. -/
  | srai (e : EngId) (f : I2)
  /-- EXTU (R232): Extract an unsigned bit field. -/
  | extu (e : EngId) (f : I2)
  /-- EXTS (R232): Extract a signed bit field. -/
  | exts (e : EngId) (f : I2)
  /-- INS (R232): Insert a bit field. -/
  | ins (e : EngId) (f : I2)
  /-- NORM (R232): Count redundant sign bits. -/
  | norm (e : EngId) (f : T3)
  /-- POPC (R232): Count set bits. -/
  | popc (e : EngId) (f : T3)
  /-- CSRA (R232): Complex arithmetic shift right with rounding. -/
  | csra (e : EngId) (f : I2)
  /-- PEQ (R233): Set predicate on equal. -/
  | peq (e : EngId) (f : T3)
  /-- PNE (R233): Set predicate on not equal. -/
  | pne (e : EngId) (f : T3)
  /-- PLT (R233): Set predicate on signed less than. -/
  | plt (e : EngId) (f : T3)
  /-- PLE (R233): Set predicate on signed less or equal. -/
  | ple (e : EngId) (f : T3)
  /-- PLTU (R233): Set predicate on unsigned less than. -/
  | pltu (e : EngId) (f : T3)
  /-- PBIT (R233): Set predicate from a bit. -/
  | pbit (e : EngId) (f : T3)
  /-- PEQI (R233): Set predicate on equal to immediate. -/
  | peqi (e : EngId) (f : I2)
  /-- PLTI (R233): Set predicate on less than immediate. -/
  | plti (e : EngId) (f : I2)
  /-- PGTI (R233): Set predicate on greater than immediate. -/
  | pgti (e : EngId) (f : I2)
  /-- PAND (R233): Predicate and. -/
  | pand (e : EngId) (f : T3)
  /-- POR (R233): Predicate or. -/
  | por (e : EngId) (f : T3)
  /-- PXOR (R233): Predicate exclusive or. -/
  | pxor (e : EngId) (f : T3)
  /-- PANDN (R233): Predicate and not. -/
  | pandn (e : EngId) (f : T3)
  /-- PNZ (R233): Set predicate on nonzero. -/
  | pnz (e : EngId) (f : T3)
  /-- WRP (R233): Write predicates from a register. -/
  | wrp (e : EngId) (f : T3)
  /-- CMUL (R234): Complex multiply with rounding and saturation. -/
  | cmul (e : EngId) (f : T3)
  /-- CMAC (R234): Complex multiply-accumulate. -/
  | cmac (e : EngId) (f : T3)
  /-- CMSU (R234): Complex multiply-subtract. -/
  | cmsu (e : EngId) (f : T3)
  /-- ACLR (R234): Clear an accumulator. -/
  | aclr (e : EngId) (f : T3)
  /-- ANRW (R234): Narrow an accumulator into a register. -/
  | anrw (e : EngId) (f : T3)
  /-- ARD (R234): Read an accumulator word. -/
  | ard (e : EngId) (f : T3)
  /-- AWR (R234): Write an accumulator word. -/
  | awr (e : EngId) (f : T3)
  /-- LD (R235): Load a word from data, quay or hold memory. -/
  | ld (e : EngId) (f : I2)
  /-- ST (R235): Store a word to data, quay or hold memory. -/
  | st (e : EngId) (f : I2)
  /-- LDR (R235): Load a register through the device slot. -/
  | ldr (e : EngId) (f : I2)
  /-- STR (R235): Store a register through the device slot under its access types. -/
  | str (e : EngId) (f : I2)
  /-- LOAD_DATA_RETURN (R237): A load's data is written at its data cycle, or a poisoned word faults the task. -/
  | loadDataReturn (e : EngId) (berth : BerthId) (reg : BitVec 5)
  /-- TLB_WALK (R252): A translation-buffer miss walks the table in a quay slot and fills an entry, or the walk fails. -/
  | tlbWalk (e : EngId)
  /-- BR (R238): Conditional branch. -/
  | br (e : EngId) (f : I2)
  /-- CALL (R238): Conditional call. -/
  | call (e : EngId) (f : I2)
  /-- JR (R238): Jump through a register. -/
  | jr (e : EngId) (f : I2)
  /-- JRL (R238): Jump and link through a register. -/
  | jrl (e : EngId) (f : I2)
  /-- VMAC (R240): Vector multiply-accumulate. -/
  | vmac (e : EngId) (f : K5)
  /-- FIRS (R240): FIR step over backward samples. -/
  | firs (e : EngId) (f : K5)
  /-- CORR (R240): Multi-lag correlation. -/
  | corr (e : EngId) (f : K5)
  /-- BFLY (R240): Scaled radix-2 butterflies. -/
  | bfly (e : EngId) (f : K5)
  /-- VMUL (R240): Vector complex multiply. -/
  | vmul (e : EngId) (f : K5)
  /-- VFILL (R240): Vector fill. -/
  | vfill (e : EngId) (f : K5)
  /-- BLOCK_ELEMENT_EFFECT (R241): An element of a block instruction takes effect, or faults and stops the block. -/
  | blockElementEffect (e : EngId)
  /-- LQUE (R262): Queue a lighter descriptor, or refuse it. -/
  | lque (e : EngId) (f : T3)
  /-- LSTAT (R244): Read a lighter channel's status. -/
  | lstat (e : EngId) (f : T3)
  /-- LABORT (R267): Abort a lighter channel after its burst in progress. -/
  | labort (e : EngId) (f : T3)
  /-- LRES (R267): Resume a lighter channel stopped on a fault. -/
  | lres (e : EngId) (f : T3)
  /-- BEND (R245): End the task's berth for this round. -/
  | bend (e : EngId) (f : T3)
  /-- BWAKE (R245): Mark an urgent task ready. -/
  | bwake (e : EngId) (f : T3)
  /-- BSLEEP (R245): End an urgent task's run. -/
  | bsleep (e : EngId) (f : T3)
  /-- BSTAT (R245): Read berth status. -/
  | bstat (e : EngId) (f : T3)
  /-- MRECV (R246): Receive the oldest visible inbound mailbox word. -/
  | mrecv (e : EngId) (f : T3)
  /-- MSEND (R246): Append a word to the outbound mailbox. -/
  | msend (e : EngId) (f : T3)
  /-- MSTAT (R246): Read mailbox occupancy. -/
  | mstat (e : EngId) (f : T3)
  /-- ENG_MB_IN_WRITE (R222): A word written to ENG_MB_IN is accepted into the inbound mailbox, or dropped when it is full. -/
  | engMbInWrite (who : Requester) (e : EngId) (w : Word)
  /-- MAILBOX_WORD_VISIBLE (R222): An accepted inbound word becomes visible at the first multiple of 64 CYC at least 64 cycles later. -/
  | mailboxWordVisible (e : EngId)
  /-- OUTBOUND_WORD_MOVE (R223): At the engine's move cycle the oldest outbound word moves to the management ring, or is dropped at a full ring. -/
  | outboundWordMove (e : EngId)
  /-- HALT (R227): A write of HALT halts the engine at the next instruction or element boundary. -/
  | halt (who : Requester) (e : EngId)
  /-- RESUME (R227): A write of RESUME resumes a halted engine, unless it halted on a double fault or parity. -/
  | resume (who : Requester) (e : EngId)
  /-- RESTART (R227): A write of RESTART clears every task's state, and takes effect at the next round start. -/
  | restart (who : Requester) (e : EngId)
  /-- BERTH_ROUND_START (R220): A berth and lighter round begins at each multiple of 1 024 CYC. -/
  | berthRoundStart (e : EngId)
  /-- TIMED_BERTH_START (R269): At S − 12 a context switch restores the timed berth's task. -/
  | timedBerthStart (e : EngId) (berth : BerthId)
  /-- TIMED_BERTH_END (R269): At the end of its berth a running timed task is interrupted and counted as an overrun. -/
  | timedBerthEnd (e : EngId)
  /-- URGENT_PREEMPT (R270): At a quantum boundary a ready urgent task takes the engine. -/
  | urgentPreempt (e : EngId)
  /-- URGENT_BUDGET_END (R271): An urgent task that exhausts its budget is interrupted at a quantum boundary. -/
  | urgentBudgetEnd (e : EngId)
  /-- LIGHTER_BURST (R264): In a slot or window it owns, a channel starts a descriptor, walks, or moves a burst of words. -/
  | lighterBurst (ch : BitVec 10)
  /-- TAP_RECORD_COMPLETE (R261): An adaptation or mask tap record completes, or is discarded when two are held. -/
  | tapRecordComplete (bp : BpId) (mask : Bool)
  /-- LTR_POS_ABORT (R267): A write of ABORT in LTR_POS or DL_POS aborts the channel as LABORT. -/
  | ltrPosAbort (who : Requester) (ch : BitVec 10)
  /-- LTR_POS_RESUME (R267): A write of RESUME in LTR_POS or DL_POS resumes the channel as LRES. -/
  | ltrPosResume (who : Requester) (ch : BitVec 10)
  /-- SCRUB_READ (R256): The scrubber reads its next word and repairs or poisons it. -/
  | scrubRead (mem : MemId) (addr : BitVec 22) (hits : List SoftHit)
  /-- SCRUB_WRITEBACK (R255): A corrected word is written back through the scrub port, unless a newer write has reached it. -/
  | scrubWriteback (mem : MemId) (addr : BitVec 22)
  /-- PARITY_READBACK (R257): The register fabric's once-per-millisecond readback checks every register's parity. -/
  | parityReadback (failed : ParityAt)
  /-- GV_ENABLE (R296): A write of ENABLE 1 takes the port's credits and moves it from DISABLED to DETECT. -/
  | gvEnable (who : Requester) (p : PortId)
  /-- GV_DISABLE (R296): A write of ENABLE 0 sends the port to DISABLED, silencing it and resetting its credit books. -/
  | gvDisable (who : Requester) (p : PortId)
  /-- GV_RETRAIN (R296): A write of RETRAIN sends RETRAIN in 8 frames and moves the port to DETECT. -/
  | gvRetrain (who : Requester) (p : PortId)
  /-- DETECT_SILENCE_EXPIRY (R296): After its silence delay, a port in DETECT begins HELLO as leader. -/
  | detectSilenceExpiry (p : PortId)
  /-- HELLO_TURN_RECEIVED (R297): A HELLO turn from the partner is heard, agreeing or echoing the mode. -/
  | helloTurnReceived (p : PortId) (hello : BitVec 64) (delay : BitVec 16)
  /-- HELLO_TURN_START (R297): After its gap, a side sends its HELLO turn. -/
  | helloTurnStart (p : PortId)
  /-- MODES_DISJOINT_EXPIRY (R297): One second after disjoint mode ranges, both sides return to DETECT with GV_MODE. -/
  | modesDisjointExpiry (p : PortId)
  /-- TRAIN_TURN_RECEIVED (R298): A TRAIN turn from the partner is received and the receiver adapts: the turn, and the SNR at the equaliser and the residual echo against the partner's signal in s8.8 dB. -/
  | trainTurnReceived (p : PortId) (turn : TrainTurn) (snr echo : BitVec 16)
  /-- TRAIN_TURN_START (R298): After its gap, a side sends its TRAIN turn. -/
  | trainTurnStart (p : PortId)
  /-- TRAINING_TIMEOUT (R296): 150 ms after leaving DETECT without completing training, the port returns to DETECT with TRAIN_FAIL. -/
  | trainingTimeout (p : PortId)
  /-- HUNT_TIMEOUT (R296): 100 ms in HUNT returns the port to DETECT. -/
  | huntTimeout (p : PortId)
  /-- GV_FRAME_SEND (R294): A frame is formed at its cut instant with header, credits, management bytes, alarm words and containers, and is transmitted. -/
  | gvFrameSend (p : PortId)
  /-- GV_FRAME_RECEIVE (R295): An inbound frame is decoded and its header, credits, containers and management bytes are taken. -/
  | gvFrameReceive (p : PortId) (f : RxFrame)
  /-- MSG_RECEIVE (R308): A whole management message is checked, then delivered, flooded, routed or discarded, and its blocks are freed. -/
  | msgReceive (p : PortId)
  /-- ALARM_WORD_RECEIVE (R310): A received alarm word is logged and forwarded on other ports when permitted. -/
  | alarmWordReceive (p : PortId) (w : Word)
  /-- REF_LOSS (R318): Reference loss holds the PLL control word, sets REF_LOSS and sends CLK_REF_LOSS with hint C3. -/
  | refLoss
  /-- PLL_UNLOCK (R319): The PLL lock detector reports loss of lock and CLK_UNLOCK is sent with hint C4. -/
  | pllUnlock
  /-- PPS_IN_EDGE (R328): A PPS_IN rising edge is stamped and steers, steps or is ignored at a lodestar. -/
  | ppsInEdge (eighth : BitVec 3)
  /-- PPS_GAP_EXPIRY (R328): More than 2 s without a PPS_IN edge sends a lodestar in LOCKED to HOLDOVER. -/
  | ppsGapExpiry
  /-- PPS_OUT_EDGE (R334): PPS_OUT rises PPS_OUT_COMP before each whole second. -/
  | ppsOutEdge
  /-- LODESTAR_NOTICE_RECEIVE (R329): A lodestar notice is taken for seconds; a second lodestar sets CONFLICT and withdraws a lodestar. -/
  | lodestarNoticeReceive (src : DevAddr) (withdrawn : Bool) (state : BitVec 2) (seconds : BitVec 48)
  /-- LODESTAR_WITHDRAW_END (R329): A withdrawn lodestar resumes 3 s after the last foreign notice. -/
  | lodestarWithdrawEnd
  /-- NO_LODESTAR_TIMER (R329): 10 s without an upstream, and each hour after, sends TIME_NO_LODESTAR. -/
  | noLodestarTimer
  /-- TIME_SET_LO_WRITE (R337): A write of TIME_SET_LO steps the counter to the pair at the next CLK_T edge, or is ignored. -/
  | timeSetLoWrite (who : Requester) (w : Word)
  /-- THERMAL_EVALUATION (R343): At each measurement frame boundary temperatures, band, throttles, limits, THERM_N and the current check are evaluated. -/
  | thermalEvaluation
  /-- THERMAL_GRACE_EXPIRY (R349): A privileged band path's grace expires, T_RED and THERM apply, and a notice is sent. -/
  | thermalGraceExpiry (bp : BpId)
  /-- ANALOGUE_TRIP (R351): The 135 °C comparator sends THERM_TRIP with hint C4 and drives THERM_N low. -/
  | analogueTrip
  /-- GOV_TRANSFER_END (R354): A credit transfer completes, updating the grantee's ledger word and the books. -/
  | govTransferEnd
  /-- FAULT_CLASSIFY (R367): The collector classifies the oldest queued message and issues its reaction. -/
  | faultClassify
  /-- C2_GRACE_EXPIRY (R370): A C2 grace ends without acknowledge and the source is taken out of service. -/
  | c2GraceExpiry (index : BitVec 5)
  /-- C3_GRACE_EXPIRY (R371): The 1 ms C3 grace ends and the device enters harbour mode. -/
  | c3GraceExpiry
  /-- FC_ACK_KEEP (R370): An acknowledge with KEEP closes an open entry and keeps its source in service. -/
  | fcAckKeep (who : Requester) (index : BitVec 5) (source : BitVec 14) (cls : BitVec 3)
  /-- FC_ACK_OUT (R370): An acknowledge with OUT closes an open entry and takes its source out of service. -/
  | fcAckOut (who : Requester) (index : BitVec 5) (source : BitVec 14) (cls : BitVec 3)
  /-- LOGBOOK_TAKE (R378): At each CLK_S edge the logbook takes one intake entry, coalescing it or writing a new record. -/
  | logbookTake
  /-- LOG_W0_READ (R382): A read of LOG_W0 snapshots the record selected by the cursor. -/
  | logW0Read (who : Requester)
  /-- HIST_W0_READ (R374): A read of HIST_W0 snapshots the selected history entry. -/
  | histW0Read (who : Requester)
  /-- HIST_CLR (R374): A write of HIST_CLR empties the frozen snapshot. -/
  | histClr (who : Requester)
  /-- EMR_W0_READ (R385): A read of EMR_W0 snapshots the selected emergency entry. -/
  | emrW0Read (who : Requester)
  /-- EMR_CLR (R385): A write of EMR_CLR empties the emergency register file. -/
  | emrClr (who : Requester)
  /-- FI_GO (R375): In factory test mode a write of FI_GO injects a message into the intake queue, or is refused. -/
  | fiGo (who : Requester)
  /-- MGMT_RING_DRAIN (R389): The management core empties the management ring, storing DATA and acting on NOTE and REPORT. -/
  | mgmtRingDrain
  /-- LOGBOOK_MIRROR (R389): The management core mirrors new logbook records to flash. -/
  | logbookMirror
  /-- MGMT_WATCHDOG_EXPIRY (R390): The hardware watchdog expires and restarts the core's firmware. -/
  | mgmtWatchdogExpiry
  /-- MGMT_RESTART_DONE (R390): The firmware restart of the management core completes and commands are answered again. -/
  | mgmtRestartDone
  /-- SESSION_IDLE_CLOSE (R391): A session idle for 60 s closes. -/
  | sessionIdleClose (session : BitVec 3)
  /-- IDENT (R392): The IDENT command returns identity and flags. -/
  | ident (o : Origin) (seq : BitVec 16)
  /-- REG_READ (R441): The REG_READ command reads consecutive registers. -/
  | regRead (o : Origin) (seq : BitVec 16) (addr : BitVec 24) (count : Byte)
  /-- REG_WRITE (R394): The REG_WRITE command makes a live write. -/
  | regWrite (o : Origin) (seq : BitVec 16) (addr : BitVec 24) (w : Word)
  /-- LOG_READ (R392): The LOG_READ command returns logbook records. -/
  | logRead (o : Origin) (seq : BitVec 16) (mode : Byte) (at_ : BitVec 24) (count : Byte)
  /-- FAULT_ACK (R370): The FAULT_ACK command acknowledges an open entry. -/
  | faultAck (o : Origin) (seq : BitVec 16) (index : Byte) (source : BitVec 16) (cls action : Byte)
  /-- HOLD_READ (R392): The HOLD_READ command returns hold memory words. -/
  | holdRead (o : Origin) (seq : BitVec 16) (addr : BitVec 24) (count : Byte)
  /-- HOLD_WRITE (R404): The HOLD_WRITE command writes replay data in replay mode. -/
  | holdWrite (o : Origin) (seq : BitVec 16) (addr : BitVec 24) (count : Byte) (words : List Word)
  /-- MB_READ (R392): The MB_READ command returns stored DATA word pairs. -/
  | mbRead (o : Origin) (seq : BitVec 16) (count : Byte)
  /-- TIME_OF_DAY (R328): The TIME_OF_DAY command names the seconds of the next PPS_IN edge at a lodestar. -/
  | timeOfDay (o : Origin) (seq : BitVec 16) (seconds : BitVec 48)
  /-- ADDR_SET (R309): The ADDR_SET command assigns the device's address. -/
  | addrSet (o : Origin) (seq : BitVec 16) (addr : BitVec 24)
  /-- ROUTE_LOAD (R392): The ROUTE_LOAD command loads route table entries. -/
  | routeLoad (o : Origin) (seq : BitVec 16) (table first count : Byte) (entries : List Byte)
  /-- IMG_BEGIN (R396): The IMG_BEGIN command opens staging and sets the target to STAGING. -/
  | imgBegin (o : Origin) (seq : BitVec 16) (len : BitVec 32) (hash : List Byte) (target : Byte)
  /-- IMG_DATA (R396): The IMG_DATA command writes and verifies image bytes at the expected offset. -/
  | imgData (o : Origin) (seq : BitVec 16) (offset : BitVec 32) (bytes : List Byte)
  /-- IMG_COMMIT (R397): The IMG_COMMIT command verifies the staged image and writes PENDING, or sets EMPTY. -/
  | imgCommit (o : Origin) (seq : BitVec 16)
  /-- IMG_ABORT (R396): The IMG_ABORT command ends staging and leaves the target in STAGING. -/
  | imgAbort (o : Origin) (seq : BitVec 16)
  /-- REPLAY_FREEZE (R402): FREEZE, by command or register, freezes recording. -/
  | replayFreeze (o : Origin) (seq : BitVec 16)
  /-- REPLAY_THAW (R402): THAW empties recording and restarts it. -/
  | replayThaw (o : Origin) (seq : BitVec 16)
  /-- REPLAY_ENTER (R404): ENTER puts the device into replay mode when no chain transmits. -/
  | replayEnter (o : Origin) (seq : BitVec 16)
  /-- REPLAY_START (R404): START checks the checkpoint header, restores it and begins the replay. -/
  | replayStart (o : Origin) (seq : BitVec 16)
  /-- CHECKPOINT_START (R401): At each CYC_CP a checkpoint snapshot into the older slot begins. -/
  | checkpointStart
  /-- CHECKPOINT_DONE (R401): The checkpoint copy completes and a CP_MARK is journalled. -/
  | checkpointDone
  /-- JOURNAL_ENTRY_APPLY (R404): During replay a journal entry is applied, supplied or compared when RCYC reaches its CYC. -/
  | journalEntryApply
  /-- REPLAY_END (R404): The replay stops at the freeze CYC with STATE done. -/
  | replayEnd
  /-- LIM_BURN (R427): The JTAG LIM_BURN instruction burns the limits fuse group from the running image. -/
  | limBurn (vddIoOk : Bool)
  /-- KEY_BURN (R427): The JTAG KEY_BURN instruction burns the signer key hash. -/
  | keyBurn (vddIoOk : Bool)
  /-- LOCK_BURN (R427): The JTAG LOCK_BURN instruction burns the factory-lock fuse. -/
  | lockBurn (vddIoOk : Bool)
  /-- IDCODE (R469): The JTAG IDCODE instruction selects the 32-bit identification register. -/
  | idcode
  /-- SAMPLE_PRELOAD (R469): The JTAG SAMPLE/PRELOAD instruction selects the boundary register. -/
  | samplePreload
  /-- EXTEST (R470): The JTAG EXTEST instruction drives the boundary register when permitted, and otherwise acts as BYPASS. -/
  | extest
  /-- CLAMP (R470): The JTAG CLAMP instruction holds outputs from the boundary register when permitted. -/
  | clamp
  /-- HIGHZ (R470): The JTAG HIGHZ instruction puts boundary outputs at high impedance when permitted. -/
  | highz
  /-- REG_ACCESS (R469): At Update-DR, the JTAG REG_ACCESS instruction makes one register access as the debug port. -/
  | regAccess (go write : Bool) (addr : BitVec 24) (w : Word)
  /-- EMR_READ (R469): The JTAG EMR_READ instruction shifts out an emergency register file entry. -/
  | emrRead (index : BitVec 4)
  /-- BYPASS (R469): The JTAG BYPASS instruction selects the 1-bit bypass register. -/
  | bypass
  /-- UART_FRAME_RECEIVE (R468): A framed message on UART_RX is accepted for the debug port, or discarded. -/
  | uartFrameReceive (frame : List Byte)
  /-- TWO_HALF_READ_LO (R440): A read of a _LO register copies the live _HI into the requester's shadow. -/
  | twoHalfReadLo (who : Requester) (addr : BitVec 24)
  /-- REGISTER_WRITE (R435): A write to a register without a row of its own is applied field by field by access type, or refused whole. -/
  | registerWrite (who : Requester) (addr : BitVec 24) (w : Word)
  /-- RESET_N_FALL (R408): RESET_N falling while the device runs puts it into reset, and the interrupted boot counts as a failed TRIAL boot. -/
  | resetNFall
  /-- BAND_SAMPLE (R17): Each band-rate sample passes through a band path's stages, updating the NCO, DC blocker, meters, canceller, AGC, gate tags, saturation counts, duty count and Guvan receive release with its underflow. -/
  | bandSample (bp : BpId)
  /-- JTX_SAMPLE (R57): Each JTX sample sums the band paths' contributions, narrows them, counts CH_JTX_SATCNT and applies blanking. -/
  | jtxSample (ch : ChainId)
  /-- MULTIBLOCK_CRC_FAIL (R33): A received JRX multiblock that fails the CRC-12 check increments CH_JRX_CRCERR. -/
  | multiblockCrcFail (ch : ChainId)
  /-- REFCLK_RETURN (R318): REFCLK returning within the monitor's limits after a reference loss sets REF_OK again without restoring normal operation. -/
  | refclkReturn
  /-- VDD_IO_LOSS (R385): VDD_IO leaving its range while VDD_CORE is off loses the emergency register file, and the next start is as from power-up. -/
  | vddIoLoss
  /-- MGMT_FIRMWARE_START_DONE (R422): The management firmware started at the configuration lock finishes starting, CORE_STATE becomes running and commands are answered from then on. -/
  | mgmtFirmwareStartDone
  /-- FUSE_BURN_DONE (R427): A fuse burn completes within 50 ms, is verified by readback, burns its commit bit, sets BURN_GROUP and BURN_OK and sends FUSE_BURN. -/
  | fuseBurnDone (verified : Bool)
  /-- TEST_LOGIC_RESET (R469): The JTAG TAP entering test-logic-reset, by TRST_N or TMS, makes IDCODE the instruction in force. -/
  | testLogicReset
  /-- IMAGE_HEADER_READ (R419): The image header read completes, the QSPI sampling point is found, and checks 1 to 6 accept it or reject the flash. -/
  | imageHeaderRead (flash readOk : Bool) (delays : List (List Byte)) (header : List Byte)
  deriving DecidableEq, Repr

end Sys2Proof
end

