-- ==== Sys2Proof/Decode.lean ====
section
/-! DEFINITION. Words and what they spell: the table of commands gives no row a word, so no word spells one; the instruction words of the engines (R208 to R246) with their encoder, their decoder and the rule of unused fields (R229). -/

namespace Sys2Proof

/-- The command a word spells by the bits of the operation table. The table gives its rows no bits. -/
def decodeTableWord (_nbits _w : Nat) : Option Instr := none

/-! ### Engine instruction words (R208) -/

/-- A T-format word. -/
def encT (op : BitVec 8) (f : T3) : Word := op ++ f.d ++ f.a ++ f.b ++ f.fn
/-- An I-, M- or B-format word. -/
def encI (op : BitVec 8) (f : I2) : Word := op ++ f.d ++ f.a ++ f.imm
/-- A K-format word. -/
def encK (op : BitVec 8) (f : K5) : Word := op ++ f.acc ++ f.a ++ f.b ++ f.count ++ f.mode

/-- The opcode of a word. -/
def opOf (w : Word) : BitVec 8 := w.extractLsb' 32 8
/-- The fields of a word read as T. -/
def t3Of (w : Word) : T3 := ⟨w.extractLsb' 27 5, w.extractLsb' 22 5, w.extractLsb' 17 5, w.extractLsb' 0 17⟩
/-- The fields of a word read as I, M or B. -/
def i2Of (w : Word) : I2 := ⟨w.extractLsb' 27 5, w.extractLsb' 22 5, w.extractLsb' 0 22⟩
/-- The fields of a word read as K. -/
def k5Of (w : Word) : K5 := ⟨w.extractLsb' 30 2, w.extractLsb' 25 5, w.extractLsb' 20 5, w.extractLsb' 10 10, w.extractLsb' 0 10⟩

/-- What a register field of an instruction names. -/
inductive Use where
  /-- Nothing: the field must be zero (R229). -/
  | no
  /-- W0 to W31. -/
  | reg
  /-- A predicate in the low three bits of the field's place, the two others zero (R229, R233). -/
  | predHi
  /-- A predicate in the low three bits, the two upper bits zero (R233). -/
  | predLo
  /-- An accumulator in the two low bits, the others zero (R229). -/
  | acc
  /-- An even register from 2 to 30, with the next one (R231). -/
  | pair
  deriving DecidableEq, Repr

/-- Formats (R208). -/
inductive Fmt where
  | t | i | m | b | k
  deriving DecidableEq, Repr

/-- One row of the instruction tables: format, the use of its register fields, and the function bits it defines. -/
structure OpRow where
  fmt : Fmt
  d : Use
  a : Use
  b : Use
  fn : Nat
  deriving DecidableEq, Repr

/-- The S bit alone. -/
def fnS : Nat := 65536
/-- A predicate in fn[2:0]. -/
def fnP : Nat := 7

/-- The instruction tables of R231 to R246. -/
def opRow (op : Nat) : Option OpRow :=
  match op with
  | 0x01 | 0x02 | 0x03 | 0x04 | 0x05 | 0x06 => some ⟨.t, .reg, .reg, .reg, fnS⟩
  | 0x07 | 0x08 | 0x0A | 0x0B | 0x0C => some ⟨.t, .reg, .reg, .reg, 0⟩
  | 0x09 | 0x0E => some ⟨.t, .reg, .reg, .no, fnS⟩
  | 0x0D => some ⟨.t, .reg, .reg, .reg, fnP⟩
  | 0x10 | 0x11 | 0x12 | 0x13 | 0x14 => some ⟨.i, .reg, .reg, .no, 0⟩
  | 0x15 => some ⟨.i, .reg, .no, .no, 0⟩
  | 0x18 | 0x1A | 0x1C => some ⟨.t, .reg, .no, .no, 0⟩
  | 0x19 => some ⟨.t, .pair, .no, .no, 0⟩
  | 0x1B => some ⟨.t, .no, .no, .no, 12⟩
  | 0x20 => some ⟨.t, .reg, .reg, .reg, fnS⟩
  | 0x21 | 0x22 => some ⟨.t, .reg, .reg, .reg, 0⟩
  | 0x23 | 0x24 | 0x25 | 0x26 | 0x27 | 0x28 | 0x2B => some ⟨.i, .reg, .reg, .no, 0⟩
  | 0x29 | 0x2A => some ⟨.t, .reg, .reg, .no, 0⟩
  | 0x30 | 0x31 | 0x32 | 0x33 | 0x34 | 0x35 => some ⟨.t, .predHi, .reg, .reg, 0⟩
  | 0x36 | 0x37 | 0x38 => some ⟨.i, .predHi, .reg, .no, 0⟩
  | 0x39 | 0x3A | 0x3B | 0x3C => some ⟨.t, .predHi, .predLo, .predLo, 0⟩
  | 0x3D => some ⟨.t, .predHi, .reg, .no, 0⟩
  | 0x3E => some ⟨.t, .no, .reg, .no, 0⟩
  | 0x40 => some ⟨.t, .reg, .reg, .reg, 1⟩
  | 0x41 | 0x42 => some ⟨.t, .acc, .reg, .reg, 1⟩
  | 0x43 => some ⟨.t, .acc, .no, .no, 0⟩
  | 0x44 => some ⟨.t, .reg, .acc, .no, 31⟩
  | 0x45 => some ⟨.t, .reg, .acc, .no, 3⟩
  | 0x46 => some ⟨.t, .acc, .reg, .no, 3⟩
  | 0x50 | 0x51 | 0x52 | 0x53 => some ⟨.m, .reg, .reg, .no, 0⟩
  | 0x60 | 0x61 | 0x62 | 0x63 => some ⟨.b, .reg, .reg, .no, 0⟩
  | 0x68 | 0x69 | 0x6A | 0x6B | 0x6C | 0x6D => some ⟨.k, .reg, .reg, .reg, 0⟩
  | 0x80 => some ⟨.t, .no, .reg, .reg, fnP⟩
  | 0x81 => some ⟨.t, .reg, .reg, .no, 0⟩
  | 0x82 | 0x83 => some ⟨.t, .no, .reg, .no, fnP⟩
  | 0x88 | 0x8A => some ⟨.t, .no, .no, .no, 0⟩
  | 0x89 => some ⟨.t, .no, .reg, .no, fnP⟩
  | 0x8C => some ⟨.t, .reg, .no, .no, 0⟩
  | 0x90 => some ⟨.t, .reg, .no, .no, fnP⟩
  | 0x91 => some ⟨.t, .no, .reg, .no, fnP⟩
  | 0x92 => some ⟨.t, .reg, .no, .no, 0⟩
  | _ => none

/-- A register field holds what its use permits (R229). -/
def Use.ok (u : Use) (x : BitVec 5) : Bool :=
  match u with
  | .no => x == 0
  | .reg => true
  | .predHi => x.toNat < 8
  | .predLo => x.toNat < 8
  | .acc => x.toNat < 4
  | .pair => x.toNat % 2 == 0 && 2 ≤ x.toNat

/-- The immediate of a shift or bit-field instruction is one R232 permits. -/
def immOk (op : Nat) (imm : Nat) : Bool :=
  if op = 0x23 ∨ op = 0x24 ∨ op = 0x25 then imm < 40
  else if op = 0x26 ∨ op = 0x27 ∨ op = 0x28 then
    imm < 4096 && imm / 64 ≤ 39 && 1 ≤ imm % 64 && imm % 64 ≤ 40 && imm / 64 + imm % 64 ≤ 40
  else if op = 0x2B then imm ≤ 19
  else true

/-- A stride code is legal (R212); FIRS forbids 5 and 6 for stream b (R240). -/
def strideOk (c : Nat) : Bool := c != 7

/-- The fields of a block instruction are legal (R212, R240). -/
def blockOk (op : Nat) (f : K5) : Bool :=
  let m := f.mode.toNat
  let sa := m / 16 % 8
  let sb := m / 2 % 8
  strideOk sa && strideOk sb &&
  (if op = 0x69 then sb != 5 && sb != 6
   else if op = 0x6B then f.acc == 0 && m % 2 == 0
   else if op = 0x6C then f.acc == 0
   else if op = 0x6D then f.acc == 0 && sb == 0 && m % 2 == 0
   else true)

/-- The word is a legal instruction: a defined opcode, and every unused field and bit zero (R209, R229, R210, R232, R234, R240). -/
def legalWord (w : Word) : Bool :=
  let op := (opOf w).toNat
  match opRow op with
  | none => false
  | some r =>
    match r.fmt with
    | .t =>
      let f := t3Of w
      r.d.ok f.d && r.a.ok f.a && r.b.ok f.b && (f.fn &&& ~~~ BitVec.ofNat 17 r.fn) == 0 &&
        (op != 0x44 || f.fn.toNat % 16 ≤ 9)
    | .i =>
      let f := i2Of w
      r.d.ok f.d && r.a.ok f.a && immOk op f.imm.toNat
    | .m => true
    | .b =>
      let f := i2Of w
      if op = 0x62 ∨ op = 0x63 then f.d.toNat < 16
      else f.d.toNat ≤ 21 && (16 ≤ f.d.toNat || f.a == 0)
    | .k => blockOk op (k5Of w)

/-- The general registers a word reads or writes, for the waits of R213. -/
def regsNamed (w : Word) : List (BitVec 5) :=
  let op := (opOf w).toNat
  match opRow op with
  | none => []
  | some r =>
    match r.fmt with
    | .t =>
      let f := t3Of w
      (match r.d with | .reg => [f.d] | .pair => [f.d, f.d + 1] | _ => []) ++
      (match r.a with | .reg => [f.a] | _ => []) ++ (match r.b with | .reg => [f.b] | _ => [])
    | .i =>
      let f := i2Of w
      (match r.d with | .reg => [f.d] | _ => []) ++ (match r.a with | .reg => [f.a] | _ => [])
    | .m => let f := i2Of w; [f.d, f.a]
    | .b => let f := i2Of w; f.a :: (if op = 0x61 ∨ op = 0x63 then [31] else [])
    | .k => let f := k5Of w; [f.a, f.b] ++ (if op = 0x6B then [f.a + 1] else [])

/-- The engine and the word of an instruction; `none` for a command that is no engine instruction. -/
def encode : Instr → Option (EngId × Word)
  | .add e f => some (e, encT 0x01 f)
  | .sub e f => some (e, encT 0x02 f)
  | .cadd e f => some (e, encT 0x03 f)
  | .csub e f => some (e, encT 0x04 f)
  | .mul e f => some (e, encT 0x05 f)
  | .fmul e f => some (e, encT 0x06 f)
  | .min e f => some (e, encT 0x07 f)
  | .max e f => some (e, encT 0x08 f)
  | .abs e f => some (e, encT 0x09 f)
  | .andW e f => some (e, encT 0x0A f)
  | .orW e f => some (e, encT 0x0B f)
  | .xor e f => some (e, encT 0x0C f)
  | .sel e f => some (e, encT 0x0D f)
  | .conj e f => some (e, encT 0x0E f)
  | .addi e f => some (e, encI 0x10 f)
  | .addis e f => some (e, encI 0x11 f)
  | .andi e f => some (e, encI 0x12 f)
  | .ori e f => some (e, encI 0x13 f)
  | .xori e f => some (e, encI 0x14 f)
  | .lui e f => some (e, encI 0x15 f)
  | .rdcyc e f => some (e, encT 0x18 f)
  | .rdtime e f => some (e, encT 0x19 f)
  | .rdst e f => some (e, encT 0x1A f)
  | .clst e f => some (e, encT 0x1B f)
  | .rdp e f => some (e, encT 0x1C f)
  | .shl e f => some (e, encT 0x20 f)
  | .shr e f => some (e, encT 0x21 f)
  | .sra e f => some (e, encT 0x22 f)
  | .shli e f => some (e, encI 0x23 f)
  | .shri e f => some (e, encI 0x24 f)
  | .srai e f => some (e, encI 0x25 f)
  | .extu e f => some (e, encI 0x26 f)
  | .exts e f => some (e, encI 0x27 f)
  | .ins e f => some (e, encI 0x28 f)
  | .norm e f => some (e, encT 0x29 f)
  | .popc e f => some (e, encT 0x2A f)
  | .csra e f => some (e, encI 0x2B f)
  | .peq e f => some (e, encT 0x30 f)
  | .pne e f => some (e, encT 0x31 f)
  | .plt e f => some (e, encT 0x32 f)
  | .ple e f => some (e, encT 0x33 f)
  | .pltu e f => some (e, encT 0x34 f)
  | .pbit e f => some (e, encT 0x35 f)
  | .peqi e f => some (e, encI 0x36 f)
  | .plti e f => some (e, encI 0x37 f)
  | .pgti e f => some (e, encI 0x38 f)
  | .pand e f => some (e, encT 0x39 f)
  | .por e f => some (e, encT 0x3A f)
  | .pxor e f => some (e, encT 0x3B f)
  | .pandn e f => some (e, encT 0x3C f)
  | .pnz e f => some (e, encT 0x3D f)
  | .wrp e f => some (e, encT 0x3E f)
  | .cmul e f => some (e, encT 0x40 f)
  | .cmac e f => some (e, encT 0x41 f)
  | .cmsu e f => some (e, encT 0x42 f)
  | .aclr e f => some (e, encT 0x43 f)
  | .anrw e f => some (e, encT 0x44 f)
  | .ard e f => some (e, encT 0x45 f)
  | .awr e f => some (e, encT 0x46 f)
  | .ld e f => some (e, encI 0x50 f)
  | .st e f => some (e, encI 0x51 f)
  | .ldr e f => some (e, encI 0x52 f)
  | .str e f => some (e, encI 0x53 f)
  | .br e f => some (e, encI 0x60 f)
  | .call e f => some (e, encI 0x61 f)
  | .jr e f => some (e, encI 0x62 f)
  | .jrl e f => some (e, encI 0x63 f)
  | .vmac e f => some (e, encK 0x68 f)
  | .firs e f => some (e, encK 0x69 f)
  | .corr e f => some (e, encK 0x6A f)
  | .bfly e f => some (e, encK 0x6B f)
  | .vmul e f => some (e, encK 0x6C f)
  | .vfill e f => some (e, encK 0x6D f)
  | .lque e f => some (e, encT 0x80 f)
  | .lstat e f => some (e, encT 0x81 f)
  | .labort e f => some (e, encT 0x82 f)
  | .lres e f => some (e, encT 0x83 f)
  | .bend e f => some (e, encT 0x88 f)
  | .bwake e f => some (e, encT 0x89 f)
  | .bsleep e f => some (e, encT 0x8A f)
  | .bstat e f => some (e, encT 0x8C f)
  | .mrecv e f => some (e, encT 0x90 f)
  | .msend e f => some (e, encT 0x91 f)
  | .mstat e f => some (e, encT 0x92 f)
  | _ => none

/-- The instruction an engine reads from a word, or `none` where the word is illegal (R209, R229). -/
def decodeEngine (e : EngId) (w : Word) : Option Instr :=
  if legalWord w then
    match opOf w with
    | 0x01 => some (.add e (t3Of w))
    | 0x02 => some (.sub e (t3Of w))
    | 0x03 => some (.cadd e (t3Of w))
    | 0x04 => some (.csub e (t3Of w))
    | 0x05 => some (.mul e (t3Of w))
    | 0x06 => some (.fmul e (t3Of w))
    | 0x07 => some (.min e (t3Of w))
    | 0x08 => some (.max e (t3Of w))
    | 0x09 => some (.abs e (t3Of w))
    | 0x0A => some (.andW e (t3Of w))
    | 0x0B => some (.orW e (t3Of w))
    | 0x0C => some (.xor e (t3Of w))
    | 0x0D => some (.sel e (t3Of w))
    | 0x0E => some (.conj e (t3Of w))
    | 0x10 => some (.addi e (i2Of w))
    | 0x11 => some (.addis e (i2Of w))
    | 0x12 => some (.andi e (i2Of w))
    | 0x13 => some (.ori e (i2Of w))
    | 0x14 => some (.xori e (i2Of w))
    | 0x15 => some (.lui e (i2Of w))
    | 0x18 => some (.rdcyc e (t3Of w))
    | 0x19 => some (.rdtime e (t3Of w))
    | 0x1A => some (.rdst e (t3Of w))
    | 0x1B => some (.clst e (t3Of w))
    | 0x1C => some (.rdp e (t3Of w))
    | 0x20 => some (.shl e (t3Of w))
    | 0x21 => some (.shr e (t3Of w))
    | 0x22 => some (.sra e (t3Of w))
    | 0x23 => some (.shli e (i2Of w))
    | 0x24 => some (.shri e (i2Of w))
    | 0x25 => some (.srai e (i2Of w))
    | 0x26 => some (.extu e (i2Of w))
    | 0x27 => some (.exts e (i2Of w))
    | 0x28 => some (.ins e (i2Of w))
    | 0x29 => some (.norm e (t3Of w))
    | 0x2A => some (.popc e (t3Of w))
    | 0x2B => some (.csra e (i2Of w))
    | 0x30 => some (.peq e (t3Of w))
    | 0x31 => some (.pne e (t3Of w))
    | 0x32 => some (.plt e (t3Of w))
    | 0x33 => some (.ple e (t3Of w))
    | 0x34 => some (.pltu e (t3Of w))
    | 0x35 => some (.pbit e (t3Of w))
    | 0x36 => some (.peqi e (i2Of w))
    | 0x37 => some (.plti e (i2Of w))
    | 0x38 => some (.pgti e (i2Of w))
    | 0x39 => some (.pand e (t3Of w))
    | 0x3A => some (.por e (t3Of w))
    | 0x3B => some (.pxor e (t3Of w))
    | 0x3C => some (.pandn e (t3Of w))
    | 0x3D => some (.pnz e (t3Of w))
    | 0x3E => some (.wrp e (t3Of w))
    | 0x40 => some (.cmul e (t3Of w))
    | 0x41 => some (.cmac e (t3Of w))
    | 0x42 => some (.cmsu e (t3Of w))
    | 0x43 => some (.aclr e (t3Of w))
    | 0x44 => some (.anrw e (t3Of w))
    | 0x45 => some (.ard e (t3Of w))
    | 0x46 => some (.awr e (t3Of w))
    | 0x50 => some (.ld e (i2Of w))
    | 0x51 => some (.st e (i2Of w))
    | 0x52 => some (.ldr e (i2Of w))
    | 0x53 => some (.str e (i2Of w))
    | 0x60 => some (.br e (i2Of w))
    | 0x61 => some (.call e (i2Of w))
    | 0x62 => some (.jr e (i2Of w))
    | 0x63 => some (.jrl e (i2Of w))
    | 0x68 => some (.vmac e (k5Of w))
    | 0x69 => some (.firs e (k5Of w))
    | 0x6A => some (.corr e (k5Of w))
    | 0x6B => some (.bfly e (k5Of w))
    | 0x6C => some (.vmul e (k5Of w))
    | 0x6D => some (.vfill e (k5Of w))
    | 0x80 => some (.lque e (t3Of w))
    | 0x81 => some (.lstat e (t3Of w))
    | 0x82 => some (.labort e (t3Of w))
    | 0x83 => some (.lres e (t3Of w))
    | 0x88 => some (.bend e (t3Of w))
    | 0x89 => some (.bwake e (t3Of w))
    | 0x8A => some (.bsleep e (t3Of w))
    | 0x8C => some (.bstat e (t3Of w))
    | 0x90 => some (.mrecv e (t3Of w))
    | 0x91 => some (.msend e (t3Of w))
    | 0x92 => some (.mstat e (t3Of w))
    | _ => none
  else none

end Sys2Proof
end

