-- ==== Sys2Proof/Config.lean ====
section
/-! DEFINITION. The values the manual leaves open: constants without a body, so that a statement about one holds whatever it is. -/

namespace Sys2Proof.Config

/-- A fresh open value for every draw: the argument is the model's own counter. Used where the manual states that something holds a value and gives no rule for it. -/
opaque freeValue : Nat → BitVec 40

/-- The error of a power meter in 2^-24 dB, before it is bounded to 0.01 dB (R54): the sum and the number of samples. -/
opaque meterError : Nat → Nat → Int

/-- Tap of a half-band ROM response in 2^-40 (R40 gives lengths and characteristics, no coefficients): stage, variant, tap. -/
opaque hbRom : Nat → Nat → Nat → Int

/-- Tap of a channel filter ROM response in 2^-40 (R42): response, tap. -/
opaque cfRom : Nat → Nat → Int

/-- Tap of a polyphase branch of the resampler's decimating section, and of its interpolating section, in 2^-40 (R44, R45): branch, tap. -/
opaque rsmpRom : Nat → Nat → Int

/-- See `rsmpRom`. -/
opaque rsmpUpRom : Nat → Nat → Int

/-- The error of exp(j·2π·φ/2^32) in an NCO, in 2^-40, before it is bounded (R38): phase, imaginary part or real. -/
opaque ncoError : BitVec 32 → Bool → Int

/-- A draw of the 16-bit linear feedback register of a port, seeded with its number and the CYC at entry to DETECT (R296 gives the seed and no polynomial). -/
opaque detectDraw : Nat → Nat → BitVec 16

/-- Tap of an emission mask's ROM low-pass in 2^-40 (R284 gives attenuation and group delay): mask 1 EMI_A or 2 EMI_B, mode, tap. -/
opaque txMaskRom : Nat → Nat → Nat → Int

/-- The context word of a message whose chapter states none: source, kind and a detail that tells occurrences apart. -/
opaque msgContext : Nat → Nat → Nat → BitVec 40

/-- HOPS of a message the device originates (R303 gives the field and no first value). -/
opaque hopLimit : BitVec 8

/-- The SHA-256 of a byte string, as 32 bytes (the standard's function; no rule of the manual computes it). -/
opaque sha256 : List (BitVec 8) → List (BitVec 8)

/-- Whether an Ed25519 signature verifies (RFC 8032): key, message, signature. -/
opaque ed25519 : List (BitVec 8) → List (BitVec 8) → List (BitVec 8) → Bool

/-- Ollahorn's firmware key, which the boot ROM holds (R416). -/
opaque fwKey : List (BitVec 8)

/-- The IDREV values a firmware release was tested on, as its bytes carry them (R416 gives the list no place). -/
opaque fwTested : List (BitVec 8) → List (BitVec 40)

/-- Where the units of the JESD step stand in the 32-bit mask of units not up (R429 gives no order): the JRX and the JTX lanes that are down, by chain. -/
opaque jesdMask : BitVec 16 → BitVec 16 → BitVec 32

end Sys2Proof.Config
end

