-- ==== Sys2Proof/Machine/Arith.lean ====
section
/-! DEFINITION. The arithmetic the manual names: convergent rounding and saturation (R8), levels in dB (R4, R7), the symbol code of the protected store (R254) and the CRC-32 of messages (R303). -/

namespace Sys2Proof.Machine

/-! ### Rounding and saturation -/

/-- `n / d` to the nearest integer, an exact half to the even one (R8). -/
def roundEven (n : Int) (d : Nat) : Int :=
  let q := n / (d : Int)
  let r := 2 * (n % (d : Int))
  if r < d then q else if (d : Int) < r then q + 1 else if q % 2 = 0 then q else q + 1

/-- `n / 2^k` by convergent rounding. -/
def roundBits (n : Int) (k : Nat) : Int := roundEven n (2 ^ k)

/-- Clamp to a range. -/
def clampI (lo hi x : Int) : Int := if x < lo then lo else if hi < x then hi else x

/-- Saturation to a signed field of `w` bits (R8). -/
def satS (w : Nat) (x : Int) : Int := clampI (-(2 ^ (w - 1))) (2 ^ (w - 1) - 1) x

/-- Saturation to an unsigned field of `w` bits. -/
def satU (w : Nat) (x : Int) : Nat := (clampI 0 (2 ^ w - 1) x).toNat

/-- The signed value of the low `w` bits of `n`. -/
def sx (w : Nat) (n : Nat) : Int :=
  let m := n % 2 ^ w
  if m < 2 ^ (w - 1) then m else (m : Int) - 2 ^ w

/-- The two's complement pattern of `x` in `w` bits. -/
def ux (w : Nat) (x : Int) : Nat := (x % 2 ^ w).toNat

/-- A word holding an integer in two's complement. -/
def wordOfInt (x : Int) : Word := BitVec.ofInt 40 x

/-- A level as it stands in an s16.24 word, saturated. -/
def dbWord (x : Db) : Word := BitVec.ofInt 40 (satS 40 x)

/-- A level from an s16.24 word. -/
def wordDb (w : Word) : Db := w.toInt

/-- One dB, and a level given in hundredths of a dB rounded to the s16.24 step. -/
def dB1 : Db := 16777216
/-- A level given in hundredths of a dB. -/
def centiDb (n : Int) : Db := roundEven (n * 16777216) 100

/-- A level of 2^-24 dB narrowed to `f` fraction bits in `w` bits, truncated and saturated, as the fields s9.7, s8.8 and u7.4 report it (R7, R8). -/
def dbField (w f : Nat) (x : Db) : Nat := ux w (satS w (roundBits x (24 - f)))

/-- Read a signed field of `f` fraction bits as a level. -/
def fieldDb (w f : Nat) (n : Nat) : Db := sx w n * 2 ^ (24 - f)

/-! ### Logarithms -/

/-- Fraction bits of log2 of a mantissa `m` in [2^62, 2^63), by repeated squaring: `k` bits more below the value `acc`. -/
def logBits : Nat → Nat → Nat → Nat
  | 0, _, acc => acc
  | k + 1, m, acc =>
    let q := m * m / 2 ^ 62
    if 2 ^ 63 ≤ q then logBits k (q / 2) (2 * acc + 1) else logBits k q (2 * acc)

/-- log2 of a positive natural number in units of 2^-40. -/
def log2Fix (n : Nat) : Int :=
  let e := Nat.log2 n
  let m := if e ≤ 62 then n * 2 ^ (62 - e) else n / 2 ^ (e - 62)
  (e * 2 ^ 40 + logBits 40 m 0 : Nat)

/-- 10·log10(a / b) in 2^-24 dB, for a and b above zero: log2 times 10·log10 2 = 3.010 299 956 64, held in 2^-40. -/
def ratioDb (a b : Nat) : Db :=
  roundBits ((log2Fix a - log2Fix b) * 3309859805419) 56

/-- The level that stands for no power (R54): −200 dB. -/
def dbFloor : Db := -200 * 16777216

/-- A mean power num / den as a level, −200 dB when it is zero or lower than that (R54). -/
def powerDb (num den : Nat) : Db :=
  if num = 0 ∨ den = 0 then dbFloor else max dbFloor (ratioDb num den)

/-- The integer square root below 2^`k`, bit by bit from the top, of `n`, at or above `r`. -/
def isqrt : Nat → Nat → Nat → Nat
  | 0, _, r => r
  | k + 1, n, r => if (r + 2 ^ k) * (r + 2 ^ k) ≤ n then isqrt k n (r + 2 ^ k) else isqrt k n r

/-- 2^(x · 2^-40) for 0 ≤ x < 2^40 in units of 2^-62, by successive square roots of 2: bit `k` from the top of the fraction. -/
def exp2Bits : Nat → Nat → Nat → Nat → Nat
  | 0, _, _, acc => acc
  | k + 1, frac, root, acc =>
    let r := isqrt 64 (root * 2 ^ 62) 0
    if 2 ^ k ≤ frac then exp2Bits k (frac - 2 ^ k) r (acc * r / 2 ^ 62) else exp2Bits k frac r acc

/-- 10^(x/10) for a level x in 2^-24 dB, as a natural number of units 2^-`s`; rounded down. -/
def dbPower (x : Db) (s : Nat) : Nat :=
  -- log2(10)/10 = 0.332 192 809 488 736 in units of 2^-56 over 2^-24 dB gives units of 2^-80
  let y : Int := x * 23937014608458091
  let t : Int := y / 2 ^ 40
  let e : Int := t / 2 ^ 40
  let f := (t % 2 ^ 40).toNat
  let m := exp2Bits 40 f (2 ^ 63) (2 ^ 62)
  let sh : Int := e + s - 62
  if 0 ≤ sh then m * 2 ^ sh.toNat else m / 2 ^ (-sh).toNat

/-! ### The Reed-Solomon code of the protected store (R254) -/

/-- Multiply by α in GF(2^8) with x^8 + x^4 + x^3 + x^2 + 1. -/
def gfA (x : BitVec 8) : BitVec 8 := if x.msb then (x <<< 1) ^^^ 0x1D else x <<< 1

/-- Multiply by α^k. -/
def gfPow : Nat → BitVec 8 → BitVec 8
  | 0, x => x
  | k + 1, x => gfA (gfPow k x)

/-- Symbol `i` of a 64-bit codeword: the coefficient of x^i of the code polynomial d(x)·x^3 + r(x). -/
def symOf (c : BitVec 64) (i : Nat) : BitVec 8 := (c >>> (8 * i)).setWidth 8

/-- Syndrome j: the code polynomial at α^j, by Horner from symbol 7 down. -/
def syndrome (c : BitVec 64) (j : Nat) : BitVec 8 :=
  [7, 6, 5, 4, 3, 2, 1, 0].foldl (fun acc i => gfPow j acc ^^^ symOf c i) 0

/-- What a decoder makes of a pattern of flipped bits. -/
inductive RsOut where
  | clean | corrected (fix : BitVec 64) | bad
  deriving DecidableEq, Repr

/-- Search for one symbol position whose error explains all three syndromes. -/
def rsFind (s0 s1 s2 : BitVec 8) : Nat → RsOut
  | 0 => .bad
  | k + 1 =>
    if gfPow k s0 = s1 ∧ gfPow k s1 = s2 then .corrected (s0.setWidth 64 <<< (8 * k))
    else rsFind s0 s1 s2 k

/-- Decode the flips that have reached a codeword. The code is linear, so the outcome does not depend on the word. -/
def rsDecode (flips : BitVec 64) : RsOut :=
  let s0 := syndrome flips 0
  let s1 := syndrome flips 1
  let s2 := syndrome flips 2
  if s0 = 0 ∧ s1 = 0 ∧ s2 = 0 then .clean
  else if s0 = 0 ∨ s1 = 0 ∨ s2 = 0 then .bad
  else rsFind s0 s1 s2 8

/-- The check symbols of a word: r(x) = d(x)·x^3 mod g(x), g = (x + 1)(x + α)(x + α^2), in bits 23 to 0. Each step takes the next data symbol from the top. -/
def rsCheck (w : Word) : BitVec 24 :=
  [4, 3, 2, 1, 0].foldl (fun (r : BitVec 24) k =>
    let fb : BitVec 8 := (r >>> 16).setWidth 8 ^^^ (w >>> (8 * k)).setWidth 8
    -- g(x) = x^3 + (1 + α + α^2) x^2 + (α + α^2 + α^3) x + α^3
    let g2 := fb ^^^ gfPow 1 fb ^^^ gfPow 2 fb
    let g1 := gfPow 1 fb ^^^ gfPow 2 fb ^^^ gfPow 3 fb
    let g0 := gfPow 3 fb
    (r <<< 8) ^^^ (g2.setWidth 24 <<< 16) ^^^ (g1.setWidth 24 <<< 8) ^^^ g0.setWidth 24) 0

/-- The 64 stored bits of a word (R254). -/
def rsEncode (w : Word) : BitVec 64 := (w ++ rsCheck w)

/-! ### CRC-32 (R303) -/

/-- One bit of the reflected CRC-32 register, polynomial 0x04C1_1DB7 reflected. -/
def crcBit : Nat → BitVec 32 → BitVec 32
  | 0, c => c
  | k + 1, c => crcBit k (if c.getLsbD 0 then (c >>> 1) ^^^ 0xEDB88320 else c >>> 1)

/-- The CRC-32 of a byte string. -/
def crc32 (bytes : List Byte) : BitVec 32 :=
  ~~~ bytes.foldl (fun c b => crcBit 8 (c ^^^ b.setWidth 32)) 0xFFFFFFFF

/-! ### Bytes and words -/

/-- A natural number from big-endian bytes. -/
def beNat (bytes : List Byte) : Nat := bytes.foldl (fun n b => n * 256 + b.toNat) 0

/-- `k` big-endian bytes of a number. -/
def beBytes : Nat → Nat → List Byte
  | 0, _ => []
  | k + 1, n => BitVec.ofNat 8 (n / 256 ^ k) :: beBytes k n

/-- A 40-bit word as five bytes, big-endian. -/
def wordBytes (w : Word) : List Byte := beBytes 5 w.toNat

/-- Element `i` of a list, or `d` beyond its end. -/
def atD {α : Type} : List α → Nat → α → α
  | [], _, d => d
  | x :: _, 0, _ => x
  | _ :: t, i + 1, d => atD t i d

/-- The list with element `i` replaced; unchanged beyond its end. -/
def setAt' {α : Type} : List α → Nat → α → List α
  | [], _, _ => []
  | _ :: t, 0, v => v :: t
  | x :: t, i + 1, v => x :: setAt' t i v

/-- Replace the value of a key in an association list, or add it. -/
def assocSet {α : Type} (t : List (Nat × α)) (k : Nat) (v : α) : List (Nat × α) :=
  t.filter (fun p => p.1 != k) ++ [(k, v)]

/-- The value of a key in an association list. -/
def assoc {α : Type} (t : List (Nat × α)) (k : Nat) : Option α := (t.find? (fun p => p.1 == k)).map (·.2)

end Sys2Proof.Machine
end

