-- ==== Sys2Proof/Machine/Records.lean ====
section
/-! DEFINITION. The records of the block's hidden state: what each one of a block holds beside its registers. -/

namespace Sys2Proof.Machine

/-- A saturating event counter kept outside a register (R9 SAT, R443): the count and its sticky overflow. -/
structure Sat where
  n : Nat
  ovf : Bool
  deriving DecidableEq, Repr

/-- A word of a protected memory with its check symbols and poison mark (R254, R255). `flips` is the soft-error pattern that has reached the stored 64-bit codeword, zero where none has. -/
structure Cell where
  word : Word
  flips : BitVec 64
  poison : Bool
  deriving DecidableEq, Repr

/-! ### Band paths (chapters 02 to 05) -/

/-- One power meter pair (R54, R55, R115): the coarse window of |x|² (in 2^-38), the coarse value last reported, and the fine meter. -/
structure Meter where
  window : List Nat
  coarse : Db
  fineSum : Nat
  fineN : Nat
  fine : Db
  fineReady : Bool
  /-- Sums of whole fine blocks whose completion has not been taken, oldest first. -/
  blocks : List Nat
  deriving DecidableEq, Repr

/-- The filters of a band path, every line newest first (R38 to R45, R56, R116): the half-band lines by stage, the channel filter's and the resampler's lines on ingress; on egress the shaping line, the interpolating section's line and position, the half-band lines, and for each of the four destinations the samples that wait for their JTX lane and the NCO phase. -/
structure BpDsp where
  hb : Tbl (List Cplx)
  cf : List Cplx
  rs : List Cplx
  shape : List Cplx
  up : List Cplx
  upPos : Nat
  ehb : Tbl (List Cplx)
  out : Tbl (List Cplx)
  ephase : Tbl (BitVec 32)
  deriving DecidableEq, Repr

/-- The datapath of a band path (chapter 02): NCO phase, resampler position, DC estimate (2^-40 per component), samples still to be cleared of VALID, meters, the latest output and the canceller's reference history (stage 10 output with the probe, newest first). -/
structure BpFlow where
  phase : BitVec 32
  rsmpPos : Nat
  dc : Cplx
  /-- VALID is cleared until this count of samples has left (R60, R61). -/
  clearLeft : Nat
  meterIn : Meter
  meterOut : Meter
  validOut : Bool
  gatedOut : Bool
  outWord : Word
  /-- 24-bit band sample sequence at the stage 7 input (R72). -/
  seq : BitVec 24
  ref : List Cplx
  dsp : BpDsp
  /-- Delay-pool words and tap-units granted (R29, R48). -/
  delayWords : Nat
  tapUnits : Nat
  /-- The resampler held, if any (R46). -/
  inst : Option (BitVec 6)
  /-- The band path runs on its fallback preset (R47). -/
  fallback : Bool
  deriving DecidableEq, Repr

/-- The result of a scan of the inactive bank (R72, R79). The energy is Σ|c|² in 2^-38. -/
structure SwapScan where
  energy : Nat
  kPeak : Nat
  spread : Db
  poison : Bool
  deriving DecidableEq, Repr

/-- A probe measurement in progress (R77 to R81): level and component amplitude fixed at its start, its lags and spread, chips taken, chips with VALID, the two sets of four correlation sums, the two powers of z and the four reference powers. -/
structure Probe where
  level : Db
  amp : Int
  /-- First of its four lags, and the spread S in force at its start (R73, R79). -/
  lag : Nat
  spread : Db
  count : Nat
  nValid : Nat
  corrIn : List Cplx
  corrOut : List Cplx
  powIn : Nat
  powOut : Nat
  refPow : List Nat
  chips : List Cplx
  deriving DecidableEq, Repr

/-- The accumulators of the fast estimate over one evaluation interval (R82). -/
structure Fast where
  total : Nat
  usable : Nat
  corr : List Cplx
  refPow : List Nat
  pow : Nat
  deriving DecidableEq, Repr

/-- A compared trip sub-window (R89): the sample count at its end, its output power and L in dB. -/
structure TripPt where
  at_ : Nat
  out : Db
  loop : Db
  deriving DecidableEq, Repr

/-- The trip sub-window in progress (R89). -/
structure TripWin where
  n : Nat
  outSum : Nat
  inSum : Nat
  tainted : Bool
  /-- Sample count and band gain at its end, once whole. -/
  endAt : Nat
  endGain : Db
  deriving DecidableEq, Repr

/-- Canceller and breakwater state of a band path (chapter 03). Levels are in 2^-24 dB. -/
structure BpBw where
  ceiling : Db
  /-- What the ceiling holds above `ceiling`, in fifths of 2^-24 dB: rises of 0.1 dB are exact (R86). -/
  ceilFifths : Nat
  isoP : Db
  /-- ISO_SRC of the last interval, and the source of I_p itself. -/
  isoSrc : BitVec 2
  pSrc : BitVec 2
  isoUnc : Db
  isoRes : Db
  isoFast : Db
  isoBw : Db
  margin : Db
  uncResolved : Option Db
  fastQual : Bool
  resBound : Bool
  uncBound : Bool
  peakLag : Nat
  spread : Db
  /-- Lag and spread taken from a swap, in force from the next interval and measurement (R73). -/
  peakNext : Option (Nat × Db)
  /-- FLOOR (u7.4) in use until the end of the current interval (R91). -/
  floorUse : BitVec 11
  /-- Intervals the ceiling still holds after a back-off (R86). -/
  holdOff : Nat
  measSeq : BitVec 24
  backoffCnt : Sat
  tripCnt : Sat
  probeHi : Word
  probeLo : Word
  bankB : Bool
  armed : Bool
  scan : Option SwapScan
  swapResult : BitVec 3
  /-- The probe measurement in progress, if any. -/
  probe : Option Probe
  fast : Fast
  trip : TripWin
  /-- Band samples since the sub-windows last started, whole sub-windows not yet closed (oldest first), compared ones (newest first). -/
  tripN : Nat
  tripDone : List TripWin
  tripHist : List TripPt
  /-- Taps of the active bank already reported as poisoned (R92). -/
  coefBad : List Nat
  deriving DecidableEq, Repr

/-- Gate states (R104); the codes of GATE_STATE follow the order. -/
inductive GateSt where
  | closed | opened | confirmed | resettle
  deriving DecidableEq, Repr

/-- One sample the gate still looks back on: |x|² in 2^-38, above or not, quiet or not (R105, R106). -/
structure GateSample where
  pow : Nat
  above : Bool
  aboveRef : Bool
  quiet : Bool
  deriving DecidableEq, Repr

/-- AGC and gate state of a band path (chapter 04). -/
structure BpGain where
  /-- Internal gain g in 2^-24 dB (R98). -/
  g : Db
  /-- Applied step k, 0 to 1400 (R96), and the one applied to the last sample (R60). -/
  step : Nat
  lastStep : Nat
  /-- The last 8 |x|² at the stage 8 input, newest first (R97). -/
  det : List Nat
  frozen : Bool
  /-- Soft start has begun (COARSE_N reached 64 in STARTING, R101). -/
  softStarted : Bool
  /-- The bound g_ramp while it applies (R101). -/
  ramp : Option Db
  /-- Cycle at which the soft start began, and how often g_ramp has risen since. -/
  rampAt : Nat
  rampN : Nat
  rampDone : Bool
  /-- g_want of the last sample. -/
  want : Db
  pFrz : Db
  nrRef : Db
  nrValid : Bool
  /-- Coarse ingress power at the entry to STARTING (R112). -/
  enablePwr : Db
  gate : GateSt
  openSrc : BitVec 3
  /-- Consecutive above samples, newest judged samples, verify samples left, capture run, re-settle samples left, their |x|² sum and number. -/
  run : Nat
  recent : List GateSample
  verifyN : Nat
  capRun : Nat
  rsLeft : Nat
  rsSum : Nat
  rsN : Nat
  /-- Signs of the newest samples with VALID, newest first, for the reference correlators (R103). -/
  signs : List (Cplx × Bool)
  /-- Reference sequences disabled by poison until the next STARTING (R123). -/
  refOff : BitVec 4
  openCnt : Sat
  falseCnt : Sat
  capCnt : Sat
  deriving DecidableEq, Repr

/-- Idle noise floor (R111 to R113). -/
structure BpFloor where
  blocks : List Nat
  /-- Whole blocks whose completion has not been taken, oldest first, each with its qualification. -/
  whole : List (Nat × Bool)
  held : Option Db
  curSum : Nat
  curN : Nat
  curOk : Bool
  /-- Cycle from which FLOOR_AGE counts. -/
  since : Nat
  /-- There has been an entry to STARTING, from which FLOOR_AGE counts (R113). -/
  begun : Bool
  stale : Bool
  deriving DecidableEq, Repr

/-- Mask monitor (R118 to R121). -/
structure BpMask where
  period : Nat
  /-- Samples captured in the period, whole blocks and the block in progress. -/
  captured : Nat
  block : Nat
  done : Bool
  judged : Bool
  consec : Nat
  passRun : Nat
  backoff : Nat
  periodStart : Nat
  violCnt : Sat
  maskSeq : BitVec 24
  staleCnt : Sat
  deriving DecidableEq, Repr

/-- Band path states (R140); the codes of STATE follow the order. -/
inductive BpSt where
  | off | starting | active | backedOff | muted | lockedOut | barred
  deriving DecidableEq, Repr

/-- Held mute causes (R128). -/
structure Held where
  muteN : Bool
  cx : Bool
  donor : Bool
  duty : Bool
  therm : Bool
  deriving DecidableEq, Repr

/-- One duty bucket: emitting samples and samples (R132). -/
structure Bucket where
  emit : Nat
  total : Nat
  deriving DecidableEq, Repr

/-- Network protection of a band path (chapter 05). -/
structure BpProt where
  st : BpSt
  cause : BitVec 4
  held : Held
  retryExp : Nat
  /-- Cycle at which the retry timer expires. -/
  retryAt : Option Nat
  /-- Uptime seconds of the last eight tripped mutes, newest first (R139). -/
  history : List Nat
  offReason : BitVec 3
  /-- Evaluation interval of the last tripped mute: a second cause in it is not counted again (R142). -/
  tripIv : Option (BitVec 24)
  /-- State left at the entry to MUTED, cycle of that entry, and whether a tripped cause has come since. -/
  left : BpSt
  mutedAt : Nat
  tripped : Bool
  /-- Start of the present continuous service without a tripped mute (R139). -/
  serviceFrom : Option Nat
  donorLost : Bool
  /-- Since when the donor's power has been below DONOR_MIN, or at or above DONOR_MIN + 3 dB (R131). -/
  donorLow : Option Nat
  donorOk : Option Nat
  buckets : List Bucket
  bucket : Bucket
  /-- Cycle of the passage from OFF to STARTING, from which the buckets are laid, and how many have ended (R132). -/
  bucketFrom : Nat
  bucketN : Nat
  duty : Db
  nDonor : Db
  muteCnt : Sat
  holdCnt : Sat
  lockCnt : Sat
  lastMuteHi : Word
  lastMuteLo : Word
  deriving DecidableEq, Repr

/-- Everything one band path holds beside its registers. -/
structure Bp where
  flow : BpFlow
  bw : BpBw
  gain : BpGain
  floor : BpFloor
  mask : BpMask
  prot : BpProt
  deriving DecidableEq, Repr

/-- A transfer of tap-units between the free pool and the array's slot map (R26, R27): it is in flight from cycle `from_` until the map has it at `till`; `grant` for a grant, else a return. -/
structure TapMove where
  units : Nat
  from_ : Nat
  till : Nat
  grant : Bool
  deriving DecidableEq, Repr

/-- An item of a limits entry accepted and waiting for the interval end (R136). -/
structure LimPend where
  entry : Nat
  item : Nat
  value : Db
  deriving DecidableEq, Repr

/-- State of a resampler of the pool (R46): free, held, released at a cycle and waiting for the reset of another (one transfer at a time, R26), or in its reset. -/
inductive RsmpSt where
  | free | held (bp : BpId) | released (bp : BpId) (at_ : Nat) | resetting (doneAt : Nat)
  deriving DecidableEq, Repr

/-! ### Chains and coexistence (chapter 06) -/

/-- Chain states (R151); the codes of STATE follow the order. -/
inductive ChSt where
  | poweredDown | biasing | synthLocking | calibrating | ready | receive | transmit | switching | feFault
  deriving DecidableEq, Repr

/-- Why a running sequence is to be aborted at its next safe point (R149). -/
inductive AbortWhy where
  | powerDown | transmit | c4
  deriving DecidableEq, Repr

/-- A running sequence: slot, index of its next entry, cycle of its start, cycle from which the next transfer, WAIT or EVENT counts its DELAY, cycle from which an END counts it and at which a reached END completes, cycle of the first read of a POLL in progress, a wanted abort, the cycle of the switch point it serves, and whether its END has been reached. -/
structure SeqRun where
  slot : BitVec 4
  entry : Nat
  startedAt : Nat
  nextAt : Nat
  doneAt : Nat
  pollFrom : Option Nat
  abort : Option AbortWhy
  point : Option Nat
  ended : Bool
  deriving DecidableEq, Repr

/-- The last transfer on an FE port (R146): device slot, read or write, address, data sent or read, cycle at which CS_N fell, the bits the device sends in their order, and the length b in SCLK cycles with the turnaround counted. -/
structure FeXfer where
  dev : BitVec 3
  read : Bool
  addr : BitVec 15
  data : BitVec 32
  start : Nat
  bits : List Bool
  len : Nat
  deriving DecidableEq, Repr

/-- A held command (R158); `fromPoint` when a switch point gave it. -/
structure HeldCmd where
  cmd : BitVec 4
  arg : BitVec 4
  fromPoint : Bool
  deriving DecidableEq, Repr

/-- Front-end state of a chain. -/
structure Chain where
  st : ChSt
  target : ChSt
  held : Option HeldCmd
  seq : Option SeqRun
  /-- Cycle at which a settle (synthesiser or switch) elapses. -/
  settleAt : Option Nat
  lockFrom : Nat
  /-- State when the lock began (R155), and whether CALIBRATING was entered from SYNTH_LOCKING (R158). -/
  lockLeft : ChSt
  calFromLock : Bool
  calBusy : Bool
  calRun : BitVec 3
  pending : BitVec 8
  done : BitVec 8
  /-- Start-up calibrations still to run since POWER_UP. -/
  startup : BitVec 8
  failConsec : List Nat
  /-- Deadlines of mode S requests, by calibration (R162); a request past its deadline is judged when its attempt ends. -/
  reqDue : List (Nat × Nat)
  /-- Cycle of the last commitment, by calibration (mode B). -/
  committedAt : List (Nat × Nat)
  scratch : List (Nat × BitVec 32)
  joined : Bool
  /-- Start of the TDD frame in force, and after a step of calendar time the end of that frame at the old phase (R156, R157). -/
  frameStart : Nat
  frameEnd : Option Nat
  /-- Cycles of the join of the schedule, of the last entry to a target state, and of the last switch point taken (R156). -/
  joinedAt : Nat
  enteredAt : Nat
  lastPoint : Nat
  /-- The last transfer on the FE port. -/
  xfer : Option FeXfer
  faultKind : BitVec 3
  faultEntry : BitVec 12
  result : BitVec 4
  /-- FE events raised by EVENT entries and not yet recognised as triggers (R148, R178). -/
  raised : BitVec 4
  /-- The PA_EN output register, its rise and fall not yet recognised as triggers (bits 0 and 1), and the cycle of its last rise (R178, R195). -/
  paReg : Bool
  paEdges : BitVec 2
  paRoseAt : Nat
  /-- JRX lane lock, its sync header lock, and JTX lane state (chapter 02). -/
  jrxLock : Bool
  shLock : Bool
  jtxRunning : Bool
  /-- Last sample sent on JTX, 16-bit components. -/
  jtxOut : Cplx
  deriving DecidableEq, Repr

/-- A coexistence port: levels after deglitch and inversion, and its timers (R164 to R166). -/
structure CxPort where
  req : Bool
  gnt : Bool
  pri : Bool
  /-- REQ falls at this cycle (R165). -/
  relAt : Option Nat
  /-- REQ high and unanswered since (R165). -/
  reqFrom : Option Nat
  noted : Bool
  /-- The decision to yield has been made, and GNT rises at this cycle (R166). -/
  grantAt : Option Nat
  yielding : Bool
  deriving DecidableEq, Repr

/-- A held cause that is to be removed (R137, R165, R166): MUTE_N, or CX of a port; the cycle, and whether it is the replay's own (R404). -/
structure HeldOff where
  port : Option CxId
  at_ : Nat
  replay : Bool
  deriving DecidableEq, Repr

/-! ### Measurement and loops (chapter 07) -/

/-- Kinds of conversion; the codes of KIND follow the order. -/
inductive ConvKind where
  | scheduled | requested | urgent | restarted
  deriving DecidableEq, Repr

/-- A conversion in flight: kind, channel, cycle of its sample instant, LATE mark, high excitation current in pair mode. -/
structure Conv where
  kind : ConvKind
  mc : McId
  at_ : Nat
  late : Bool
  hiI : Bool
  /-- It stands, or restarts one that stood, in the scan list. -/
  sched : Bool
  timeHi : Word
  timeLo : Word
  deriving DecidableEq, Repr

/-- One converter (R171 to R180). -/
structure Adc where
  conv : Option Conv
  ordinary : List McId
  urgent : List McId
  aborted : Option (McId × Bool)
  late : List McId
  deriving DecidableEq, Repr

/-- One measurement channel: calibrated results since the filter restart (newest first, in 2^-37 of the span), outputs since the restart, the last values. -/
structure Mc where
  hist : List Int
  since : Nat
  outputs : Nat
  /-- Fine value in 2^-19 of the span, as FINE reads, and the exact one as numerator over denominator. -/
  fineNum : Int
  fineDen : Nat
  raw : BitVec 12
  restarted : Bool
  late : Bool
  settled : Bool
  seq : BitVec 24
  /-- A result has been taken. -/
  got : Bool
  /-- Next excitation in pair mode is the 160 µA one. -/
  nextHi : Bool
  /-- Consecutive fine values of the band-gap channel out of bounds (R197). -/
  badRef : Nat
  /-- Last results at each excitation, for the pair difference (R340). -/
  lastLo : BitVec 12
  lastHi : BitVec 12
  /-- OVR of the results in the filter's window, newest first, and of any result the fine value used (R342). -/
  ovrs : List Bool
  fineOvr : Bool
  deriving DecidableEq, Repr

/-- A system calibration in progress (R184): 1 CAL_ZERO or 2 CAL_FULL, channel, level, fine values taken and their sum (exact, over a common denominator). -/
structure CalOp where
  full : Bool
  mc : McId
  fsRef : BitVec 20
  outputs : Nat
  taken : Nat
  sumNum : Int
  /-- Requester code of the CAL_CMD write. -/
  who : Nat
  deriving DecidableEq, Repr

/-- A conversion trigger waiting for its delay: entry and cycle (R178). -/
structure TrigWait where
  entry : Nat
  due : Nat
  deriving DecidableEq, Repr

/-- One loop slot (R190 to R195): integrator, set point in force, last measurement and output, in 2^-32. -/
structure LoopSt where
  spEff : Int
  yPrev : Int
  i : Int
  u : Int
  ff : Int
  y : Int
  /-- The next sample presets the state (R193). -/
  preset : Bool
  /-- Cycle of a trim update through whose first later sample the loop holds (R187). -/
  trimHold : Option Nat
  idleHeld : Bool
  clamped : Bool
  late : Bool
  /-- The loop's scheduled conversion to use at the next write: sample instant and value in 2^-37. -/
  sampleAt : Option Nat
  sampleV : Int
  /-- SP at the sample instants of the last scheduled conversions started, newest first: at the shortest period the next one starts before the write of the last (R191). -/
  spIn : List (Nat × Int)
  /-- Code the loop drives its PA port with. -/
  code : BitVec 14
  seq : BitVec 24
  deriving DecidableEq, Repr

/-! ### Engines, lighters and protected memory (chapters 08 to 10) -/

/-- The state a task owns (R202). W0 and P0 are constants and have no storage; `p` keeps P1 to P7 at bits 1 to 7. -/
structure Task where
  /-- Index of the next instruction; 8192 after the last one, whose fetch is a fault (R238). -/
  pc : Nat
  /-- W1 to W31, by register number. -/
  w : Tbl Word
  /-- The real and imaginary halves of ACC0 to ACC3: key 2k the real half of ACCk, key 2k + 1 its imaginary half. -/
  acc : Tbl (BitVec 48)
  p : BitVec 8
  prog : BitVec 10
  sat : Bool
  accsat : Bool
  urgent : Bool
  suspended : Bool
  xbase : BitVec 24
  deriving DecidableEq, Repr

/-- Engine states; the codes of ENG_STAT.STATE follow the order. -/
inductive EngSt where
  | idle | running | haltedReq | haltedColl | haltedFault | gated
  deriving DecidableEq, Repr

/-- One valid entry of a translation buffer (R252): its slot, table page XBASE[23:10], virtual page, entry word. -/
structure TlbEntry where
  slot : Nat
  table : BitVec 14
  vpage : Nat
  entry : Word
  deriving DecidableEq, Repr

/-- A load whose data has not been written yet (R213, R237): task, register, PC of the load, the word read and its poison. -/
structure PendLoad where
  berth : BerthId
  reg : BitVec 5
  pc : Nat
  word : Word
  poison : Bool
  /-- Detail of the REG_IN entry the load is journalled under (R400), if it is. -/
  regIn : Option Nat
  deriving DecidableEq, Repr

/-- A translation-buffer miss waiting for its walk (R252). -/
structure WalkWait where
  vpage : Nat
  store : Bool
  block : Bool
  deriving DecidableEq, Repr

/-- A block instruction in flight (R240 to R243): opcode and fields. -/
structure BlockRun where
  op : BitVec 8
  fields : K5
  /-- The mask predicate as read at issue (R240). -/
  mask : Bool
  deriving DecidableEq, Repr

/-- An inbound mailbox word and, once it is visible to the engine, the mark (R222). -/
structure InWord where
  word : Word
  at_ : Nat
  visible : Bool
  deriving DecidableEq, Repr

/-- One engine. `live` is the task in the registers while `running` names its berth; the frames of the other berths are in data memory (R204). -/
structure Engine where
  st : EngSt
  live : Task
  running : Option BerthId
  lastBerth : BerthId
  /-- A fault of the running task waits for the next issue (R237): PC of the poisoned load. -/
  poisoned : Option Nat
  suspended : BitVec 16
  ready : BitVec 16
  /-- Cycle at which a berth last became ready (R270). -/
  readyAt : Tbl Nat
  lastFault : BitVec 8
  tlb : List TlbEntry
  fill : Nat
  loads : List PendLoad
  walk : Option WalkWait
  /-- Pages of the block instruction whose walk failed, with the fault each gives (R252). -/
  blkFailed : List (Nat × BitVec 8)
  block : Option BlockRun
  /-- Cycle at which the urgent run's budget ends. -/
  budgetEnd : Option Nat
  /-- Timed berths whose task has ended its run before its next start (R245). -/
  ended : BitVec 16
  /-- The SHED berths are shed in this round (R351). -/
  shed : Bool
  inbox : List InWord
  lastIn : Word
  outbox : List Word
  issuedBerth : BerthId
  issuedPc : Nat
  issuedProg : BitVec 10
  /-- Cycle of the last issue, and the cycle from which the running task issues (R227, R269). -/
  usedAt : Option Nat
  runFrom : Nat
  used : Nat
  lastUsed : Nat
  peakUsed : Nat
  /-- A RESTART waits for the next round start (R227). -/
  restart : Bool
  /-- Berth and cycle of the last task fault, whose save takes the 12 cycles after it (R269, R274). -/
  faultAt : Option (BerthId × Nat)
  deriving DecidableEq, Repr

/-- A berth becomes ready at a cycle, or stays ready (R270). -/
def Engine.wake (en : Engine) (b c : Nat) : Engine :=
  if en.ready.getLsbD b then en
  else { en with ready := en.ready ||| (1#16 <<< b), readyAt := Tbl.set (fun _ => 0) en.readyAt b c }

/-- A descriptor in a channel's queue (R259, R262): its four words, the queuing task's XBASE, engine and storage slot. -/
structure Desc where
  w0 : Word
  w1 : Word
  w2 : Word
  w3 : Word
  xbase : BitVec 24
  eng : EngId
  slot : BitVec 10
  poison : Bool
  deriving DecidableEq, Repr

/-- A descriptor slot on its way between a channel's queue and the free list of a store (R27, R262, R265, R267): in flight from `from_` until `until_`; one on the way back is still held before. -/
structure DescMove where
  store : Nat
  slot : Nat
  from_ : Nat
  until_ : Nat
  back : Bool
  deriving DecidableEq, Repr

/-- A whole group of a selected band path that waits for a descriptor of its DL channel: its hold address and its 19 words (R399). -/
structure CapGroup where
  bp : BpId
  addr : Nat
  words : List Word
  deriving DecidableEq, Repr

/-- Lighter channel states; the codes of LTR_STAT.STATE follow the order. -/
inductive LtrSt where
  | idle | running | waitTap | stopped | aborting
  deriving DecidableEq, Repr

/-- One lighter channel (R263 to R267). `srcPages` and `dstPages` are the pages walked for each endpoint of the descriptor in progress, with their entries; `buf` the words a DL channel has collected from one side. -/
structure Lighter where
  st : LtrSt
  queue : List Desc
  /-- Words of the front descriptor already committed. -/
  moved : Nat
  started : Bool
  srcPages : List (Nat × Word)
  dstPages : List (Nat × Word)
  buf : List Word
  fault : BitVec 4
  done : BitVec 8
  nextAddr : BitVec 24
  fside : Bool
  deriving DecidableEq, Repr

/-- A completed tap record (R261), word by word. -/
structure TapRec where
  words : List Word
  deriving DecidableEq, Repr

/-- The two taps of a band path: held records and the samples gathered for the record in progress. -/
structure Taps where
  adapt : List TapRec
  mask : List TapRec
  /-- First sequence, residuals, and output tags of the adaptation block in progress; the same of the mask block. -/
  aSeq : BitVec 24
  aRes : List Word
  aTags : List (Bool × Bool)
  mSeq : BitVec 24
  mOut : List Word
  mTags : List (Bool × Bool)
  /-- Whole records whose completion has not been taken, oldest first. -/
  aWhole : List TapRec
  mWhole : List TapRec
  deriving DecidableEq, Repr

/-- A corrected word on its way back through a scrub port (R255): memory, address, corrected word, and the read it repairs. -/
structure WriteBack where
  mem : Nat
  addr : Nat
  word : Word
  seq : Nat
  deriving DecidableEq, Repr

/-! ### Guvan ports (chapter 11) -/

/-- Link states (R296); the codes of LSTATE follow the order. -/
inductive LinkSt where
  | disabled | detect | hello | train | hunt | up
  deriving DecidableEq, Repr

/-- A sample in a Guvan stream: data word and its two tags (R58, R63), and whether the receiver put it in place of one that did not arrive (R97, R289). -/
structure GvSample where
  word : Word
  valid : Bool
  gated : Bool
  lost : Bool
  deriving DecidableEq, Repr

/-- The receive buffer of one inbound stream (R295): samples oldest first, whether release has started, and whether it waits for a refill after an underflow. -/
structure RxStream where
  buf : List GvSample
  released : Bool
  refill : Bool
  deriving DecidableEq, Repr

/-- A management message (R303) and the port it came by (none: the debug port or the device itself), with the receive blocks it holds. -/
structure Msg where
  bytes : List Byte
  port : Option PortId
  blocks : Nat
  deriving DecidableEq, Repr

/-- A message that waits for room in the queue of port `out` (R306): the message as it leaves, with the blocks it keeps where it arrived; of a broadcast's copies the last one to leave frees them. -/
structure WaitMsg where
  out : PortId
  msg : Msg
  copy : Bool
  deriving DecidableEq, Repr

/-- An alarm word heard or sent, and when (R310). -/
structure AlarmSeen where
  word : Word
  at_ : Nat
  deriving DecidableEq, Repr

/-- A broadcast already seen (R308). -/
structure SeenMsg where
  src : DevAddr
  seq : BitVec 16
  at_ : Nat
  deriving DecidableEq, Repr

/-- One Guvan port. -/
structure Port where
  st : LinkSt
  mode : BitVec 3
  /-- Fastest mode code offered in this attempt (R297), and whether the last attempt failed in TRAIN. -/
  fast : BitVec 3
  /-- Cycle at which the silence delay ends, cycle DETECT was left, cycle HUNT was entered, cycle the disjoint wait ends. -/
  silenceAt : Option Nat
  leftDetect : Nat
  huntFrom : Nat
  disjointAt : Option Nat
  wasUp : Bool
  leader : Bool
  heard : Option (BitVec 64)
  chosen : BitVec 3
  /-- A turn of the own side is due, the number of turns sent, and the word of the final block of the turn last sent. -/
  turnDue : Bool
  /-- Cycle at which the partner's last turn ended at the ball, 0 before one (R297). -/
  heardAt : Nat
  turns : Nat
  lastHello : BitVec 64
  lastTrain : BitVec 16
  trainSt : BitVec 3
  partnerSt : BitVec 3
  goSent : Bool
  /-- Cycle at which the own GO turn in progress ends (R296, R299). -/
  goEnds : Option Nat
  framesOn : Bool
  /-- Cycle at which the next frame's marker leaves (R285, R299), and the payload of the frame right before the one in progress, which the shaping filters still hold; empty after silence. -/
  nextFrame : Nat
  txPrev : List (BitVec 10)
  /-- The receiver's AGC is frozen (R298), and the gain the pilots have corrected since then, in 2^-24 dB (R299). -/
  agcFrozen : Bool
  rxGain : Int
  /-- Alignment candidates in HUNT, oldest first: arrival of the last match (2^-24 ns) and run of consecutive matches; consecutive misses in UP (R300). -/
  candidates : List (Int × Nat)
  misses : Nat
  /-- Frames that still carry RETRAIN (R296). -/
  retrainLeft : Nat
  retrainReq : Bool
  txSeq : BitVec 8
  /-- FRAME_SEQ and arrival (2^-24 ns) of the newest partner frame, if any. -/
  rxSeq : Option (BitVec 8 × Int)
  /-- Departure beacons of frames sent, by FRAME_SEQ (R311). -/
  departures : List (BitVec 8 × Int)
  credits : Nat
  inFlight : Nat
  owed : Nat
  occupied : Nat
  rxBlk : BitVec 16
  sentBlk : BitVec 16
  /-- The partner's RX_BLK as last received since UP. -/
  pRxBlk : Option (BitVec 16)
  /-- Bytes of the message being received, whether a byte of it was lost, whether one is open, credits it is taken to hold. -/
  rxBytes : List Byte
  rxOpen : Bool
  rxBad : Bool
  /-- Whole messages waiting for MSG_RECEIVE, oldest first. -/
  inbox : List Msg
  /-- Places with a poisoned word in the Guvan buffers (R313): samples as stream and position in its buffer, messages by position in `inbox`. -/
  badRx : List (Nat × Nat)
  badIn : List Nat
  /-- Outbound queue, and the rest of the message being sent. -/
  outQ : List Msg
  sending : List Byte
  sendStart : Bool
  sendMsg : Option Msg
  alarmQ : List Word
  heardAlarms : List AlarmSeen
  /-- Hop delays of the present uptime second, in 2^-24 ns: sum and count (R312). -/
  dSum : Int
  dN : Nat
  delay : Int
  /-- A whole uptime second has been published since UP. -/
  delayOk : Bool
  freq : Int
  noise : Int
  noises : List Int
  snr : Int
  /-- SNR of the 64 most recent frames, newest first (R301). -/
  snrs : List Int
  loss : Int
  launch : BitVec 4
  pHarbour : Bool
  pTimeLock : Bool
  pStratum : BitVec 6
  pAddrValid : Bool
  pAddr : DevAddr
  mismatch : Bool
  trainMs : BitVec 8
  trainTurns : BitVec 16
  /-- TURNS of the last completed training (R315). -/
  turnsDone : BitVec 16
  helloDelay : BitVec 16
  /-- Inbound streams by sending band path, outbound samples gathered by band path. -/
  rx : Tbl RxStream
  tx : Tbl (List GvSample)
  /-- Payload symbols of the frame last formed (R290). -/
  txFrame : List (BitVec 10)
  deriving DecidableEq, Repr

/-! ### Time base (chapter 12) -/

/-- Time states; the codes of TIME_STAT.STATE follow the order (R326). -/
inductive TimeSt where
  | free | acquire | locked | holdover
  deriving DecidableEq, Repr

/-- The newest lodestar notice (R329): address, seconds, uptime cycle of arrival. -/
structure Notice where
  src : DevAddr
  seconds : Nat
  at_ : Nat
  deriving DecidableEq, Repr

/-- The time base. Times are in 2^-24 ns; `now` is seconds × 10^9 × 2^24 and the fraction (R325). The servo's acc and corr are in 2^-56 ns. -/
structure TimeBase where
  now : Int
  /-- The counter at the CLK_T edge before. -/
  prev : Int
  st : TimeSt
  /-- Frequency term acc and the correction still to be removed, over how many ticks (R330, R325), and the remainder carried. -/
  acc : Int
  corr : Int
  corrTicks : Nat
  theta : Int
  /-- CLK_T ticks of the update period in use. -/
  tFrame : Nat
  /-- Consecutive updates with |θ| above 1 µs; every update of this uptime second below 50 ns so far, and their number. -/
  far : Nat
  secondOk : Bool
  secondUpdates : Nat
  upstream : Option PortId
  sentStratum : BitVec 6
  notice : Option Notice
  /-- Notice of another address within 3 s (R329). -/
  other : Option Notice
  withdrawnUntil : Option Nat
  /-- Cycle at which TIME_NO_LODESTAR is due next. -/
  noLodestarAt : Nat
  ppsGood : Bool
  todOk : Bool
  /-- A time-of-day command waiting for its edge: seconds, cycle of arrival (R328). -/
  tod : Option (Nat × Nat)
  badEdges : Nat
  lastEdge : Option Nat
  stampHi : Word
  stampLo : Word
  ppsOut : Bool
  /-- Eighth of its CLK_E cycle at which PPS_OUT last rose (R334). -/
  ppsEighth : BitVec 3
  ppsOutUntil : Nat
  lastPpsSecond : Nat
  /-- The value a step of the servo or of PPS_IN sets at the next CLK_T edge (R332), and one written to TIME_SET (R337). -/
  stepTo : Option Int
  setAt : Option Int
  deriving DecidableEq, Repr

/-! ### Temperature and current (chapter 13) -/

/-- Sensor slot states; the codes of TS_VAL.STATE follow the order. -/
inductive TsSt where
  | unused | valid | invalid | failed
  deriving DecidableEq, Repr

/-- One thermal sensor slot (R338 to R342): temperature in 2^-24 °C, remote-diode values with the OVR mark of their results (newest first), runs of invalid and valid evaluations, and a failed continuity check. -/
structure TSlot where
  st : TsSt
  temp : Int
  recent : List (Int × Bool)
  badRun : Nat
  goodRun : Nat
  contBad : Bool
  deriving DecidableEq, Repr

/-- Thermal state of a band path (R346 to R349): T_RED in 2^-24 dB, whether its sensor read T_TH + 21 °C or more at the last evaluation, the episode and the end of its grace. -/
structure BpTherm where
  tRed : Db
  /-- T_RED as it stood before a parity error set it to 10 dB, until the next evaluation (R358). -/
  kept : Option Db
  hot : Bool
  episode : Bool
  graceEnd : Option Nat
  /-- Grace that was left when the previous episode ended, and when it ended. -/
  leftGrace : Nat
  endedAt : Option Nat
  deriving DecidableEq, Repr

/-- Who a credit transfer is for: ledger index (R360). -/
structure GovXfer where
  grantee : BitVec 8
  amount : Nat
  release : Bool
  deriving DecidableEq, Repr

/-- The thermal and current block. -/
structure Thermal where
  tb : BitVec 3
  evaluated : Bool
  tjHot : Int
  tjMean : Int
  inUse : BitVec 3
  thermN : Bool
  shed : Bool
  trip : Bool
  slots : Tbl TSlot
  bps : Tbl BpTherm
  /-- Free credits, credits in flight, ledger of held credits by grantee, transfers waiting. -/
  free : Nat
  base : Nat
  xfer : Option GovXfer
  waiting : List GovXfer
  lastGrantee : BitVec 8
  lastDir : Bool
  /-- Transfers that have ended, wrapping (R360). -/
  count : BitVec 24
  ledger : Tbl Nat
  /-- JRX equaliser preset and JTX drive level in force, and the time of a whole scrub pass in s (R256, R344). -/
  jrxPreset : Nat
  jtxDrive : Nat
  scrubPass : Nat
  iCore : Int
  iPeak : Int
  overRun : Nat
  absRun : Nat
  booksBad : Bool
  dieNoted : Nat
  deriving DecidableEq, Repr

/-! ### Fault collection and the logbook (chapter 14) -/

/-- A fault message (R362). -/
structure FMsg where
  src : BitVec 14
  kind : BitVec 6
  hint : BitVec 3
  cls : BitVec 3
  inj : Bool
  promo : Bool
  esc : Bool
  ctx : Word
  cyc : Word
  timeHi : Word
  timeLo : Word
  deriving DecidableEq, Repr

/-- A bucket of the classification table: level and reference time (R366, R367). -/
structure BucketSt where
  level : Nat
  ref : Nat
  deriving DecidableEq, Repr

/-- An open-fault entry (R368): C2 grace end while it runs, OUT mark. -/
structure OpenEnt where
  src : BitVec 14
  kind : BitVec 6
  cls : BitVec 3
  out : Bool
  graceEnd : Option Nat
  deriving DecidableEq, Repr

/-- A logbook record and its key (R377). -/
structure LogRec where
  seq : BitVec 24
  rep : BitVec 16
  timeHi : Word
  timeLo : Word
  ctx : Word
  key : Word
  deriving DecidableEq, Repr

/-- One logbook slot: free, held or retired, and the soft errors in its words 0 to 3 and in its key, word 4 (R384); an empty list is five clean words. -/
structure LogSlot where
  held : Option LogRec
  retired : Bool
  flips : List (BitVec 64)
  deriving DecidableEq, Repr

/-- A reader's cursor and snapshot (R382). -/
structure LogCur where
  next : Bool
  seq : BitVec 24
  slot : BitVec 13
  snap : List Word
  deriving DecidableEq, Repr

/-- A message held at its block until the queue has room (R365). -/
structure HeldMsg where
  block : Nat
  msg : FMsg
  deriving DecidableEq, Repr

/-- The fault collector and the logbook. Histories are newest first; the intake and the queue oldest first. -/
structure Collector where
  queue : List FMsg
  heldBack : List HeldMsg
  peak : Nat
  buckets : Tbl BucketSt
  shadowBuckets : Tbl BucketSt
  open_ : Tbl (Option OpenEnt)
  shadowOpen : Tbl (Option OpenEnt)
  c3At : Option Nat
  c3Src : BitVec 14
  c3Kind : BitVec 6
  c4 : Bool
  /-- The newest C4 decision and its CLK_F cycle, for a second in the same cycle (R386). -/
  c4Last : Option (Nat × FMsg)
  testLatch : Bool
  /-- A parity error in collector state has been found (R387). -/
  parityBad : Bool
  snapFrozen : Bool
  rolling : List FMsg
  frozen : List FMsg
  /-- Snapshots of HIST_W0 to HIST_W4 and of EMR_W0 to EMR_W4, by requester code. -/
  histSnap : Tbl (List Word)
  emrSnap : Tbl (List Word)
  /-- Alarm words originated: class, group, kind and cycle (R373). -/
  alarmed : List AlarmSeen
  intake : List FMsg
  logReady : Bool
  slots : Tbl LogSlot
  /-- Slot of the newest record, and the cycle of its first event (R379). -/
  head : Option (BitVec 13)
  headSeq : BitVec 24
  headCyc : Nat
  cursors : Tbl LogCur
  emr : List LogRec
  flushed : Nat
  /-- The entries of the emergency register file that are damage records, oldest first (R385). -/
  damages : List Nat
  flushDone : Bool
  deriving DecidableEq, Repr

/-! ### Management, update and replay (chapter 15) -/

/-- An executed COMMAND kept for a repeat within 1 s (R391): its SEQ, the response payload, its cycle. -/
structure DoneCmd where
  seq : BitVec 16
  payload : List Byte
  at_ : Nat
  deriving DecidableEq, Repr

/-- A session (R391): originator, last activity, commands executed in the last second. -/
structure Session where
  src : DevAddr
  lastAt : Nat
  recent : List DoneCmd
  deriving DecidableEq, Repr

/-- CORE_STATE of the management core; the codes follow the order. -/
inductive CoreSt where
  | starting | running | restarting | halted
  deriving DecidableEq, Repr

/-- Image staging (R396): who holds it (none: the debug port), the target flash, length and hash named. The bytes accepted are those the target's image holds. -/
structure Staging where
  who : Option DevAddr
  flash : Bool
  len : Nat
  hash : List Byte
  deriving DecidableEq, Repr

/-- The newest slot record of a flash (R413): state code, TRIES, GEN; `readable` is false when the sectors hold data without a valid entry; `present` false when both are erased. -/
structure SlotRec where
  present : Bool
  readable : Bool
  st : BitVec 3
  tries : Nat
  gen : BitVec 16
  deriving DecidableEq, Repr

/-- One flash (R412, R413): the programmed bytes of its two slot sectors and the record read from them; the mirrored log, the barred list with the image hash of each, the emergency store, the C3 reserve pages; the image where its bytes were written through the device; and whether programming and erasing fail (R390). -/
structure Flash where
  sect0 : List Byte
  sect1 : List Byte
  slot : SlotRec
  log : List LogRec
  barred : List (BpId × List Byte)
  emrStore : List LogRec
  reserve : List FMsg
  reserveLog : List LogRec
  image : List Byte
  fails : Bool
  deriving DecidableEq, Repr

/-- The management core. -/
structure Mgmt where
  core : CoreSt
  restartDone : Option Nat
  sessions : Tbl (Option Session)
  /-- Commands of the debug port answered in the last second. -/
  debugRecent : List DoneCmd
  ring : List (Word × Word)
  store : List (Word × Word)
  mirrorSeq : BitVec 24
  staging : Option Staging
  returnPort : Option PortId
  /-- Messages delivered to the core and not yet executed, the frames it has sent on UART_TX, own SEQ. -/
  toCore : List Msg
  debugOut : List Msg
  seq : BitVec 16
  seen : List SeenMsg
  /-- Messages that wait for room in an outbound queue, oldest first. -/
  outWait : List WaitMsg
  /-- Cycle at which the ROM loader pulls RESET_N low (R426). -/
  resetAt : Option Nat
  deriving DecidableEq, Repr

/-- Recording and replay states; the codes of RPL_STAT.STATE follow the order. -/
inductive RplSt where
  | off | recording | frozen | replayMode | replaying | done
  deriving DecidableEq, Repr

/-- Recording and replay. -/
structure Replay where
  st : RplSt
  rplOk : Bool
  causeCmd : Bool
  fromSlot : Bool
  cpValid : BitVec 2
  /-- CYC_CP of each slot, the slot being copied and the words of it copied so far. -/
  cpCyc : List Nat
  copying : Option (Bool × Nat)
  freezeCyc : Word
  fromCyc : Word
  /-- Journal write index and entries held, newest last is in hold memory. -/
  jHead : Nat
  jCount : Nat
  groups : Tbl Nat
  firstSample : Tbl Nat
  /-- CYC of the first sample of the group in progress, and of each group held, newest first. -/
  groupAt : Tbl Nat
  groupCyc : Tbl (List Nat)
  rcyc : Nat
  jNext : Nat
  /-- Entries of the record from `jNext` to its newest one (R404). -/
  jLeft : Nat
  divWhere : Word
  divCyc : Word
  diverged : Bool
  /-- Group in progress of each selected band path: ingress tags, samples, output tags and words. -/
  inTags : Tbl (List Bool)
  inWords : Tbl (List Word)
  outTags : Tbl (List (Bool × Bool))
  outWords : Tbl (List Word)
  /-- Groups that wait for a descriptor, and the words at the CAPTURE tap of each selected band path (R260, R399). -/
  capWait : List CapGroup
  capTap : Tbl (List Word)
  /-- The words at the INJECT tap of each selected band path, the group its next descriptor moves, and the samples of its first group that precede the checkpoint (R260, R404). -/
  injTap : Tbl (List Word)
  injNext : Tbl Nat
  injSkip : Tbl Nat
  upH0 : Word
  upH8 : Word
  /-- Harbour mode as the replay set knows it: as at CYC_CP, and from its CROSS entry (R400, R404). -/
  harbour : Bool
  deriving DecidableEq, Repr

/-! ### Start-up, fuses and pins (chapters 16 to 18) -/

/-- Phases of a start (R408 to R423). -/
inductive BootSt where
  | inReset | pllLocking | clearing | reading | loading | romLoader | running
  deriving DecidableEq, Repr

/-- The fuses (R427): limits hash and region, key hash, factory lock; each group as burned, in force from the next start. -/
structure Fuses where
  limHash : List Byte
  limRegion : BitVec 16
  limFused : Bool
  keyHash : List Byte
  keyFused : Bool
  factoryLock : Bool
  deriving DecidableEq, Repr

/-- A burn in progress (R427): group 1 limits, 2 key, 3 factory lock; the cycle by which it ends. -/
structure Burn where
  group : BitVec 2
  due : Nat
  deriving DecidableEq, Repr

/-- JTAG instructions in force (R469, R470). -/
inductive JtagIr where
  | idcode | samplePreload | extest | clamp | highz | regAccess | emrRead | bypass | limBurn | keyBurn | lockBurn
  deriving DecidableEq, Repr

/-- Harbour mode causes; the codes of HARB_CAUSE follow the order after 0. -/
inductive HarbCause where
  | c3End | junction | noSensor | romLoader
  deriving DecidableEq, Repr

end Sys2Proof.Machine
end

