-- ==== Sys2Proof/Machine/Init.lean ====
section
/-! DEFINITION. What every record of the hidden state holds at a start, before anything has happened to it. -/

namespace Sys2Proof.Machine

/-- An event counter at a start (R443). -/
def Sat.zero : Sat := ⟨0, false⟩

/-- A protected word as the clearing of R411 leaves it. -/
def Cell.zero : Cell := ⟨0, 0, false⟩

/-- A meter without samples. -/
def Meter.init : Meter := ⟨[], dbFloor, 0, 0, dbFloor, false, []⟩

/-- Empty filters. -/
def BpDsp.init : BpDsp := ⟨[], [], [], [], [], 0, [], [], []⟩

/-- A stopped datapath. -/
def BpFlow.init : BpFlow where
  phase := 0
  rsmpPos := 0
  dc := Cplx.zero
  clearLeft := 0
  meterIn := Meter.init
  meterOut := Meter.init
  validOut := false
  gatedOut := false
  outWord := 0
  seq := 0
  ref := []
  dsp := BpDsp.init
  delayWords := 0
  tapUnits := 0
  inst := none
  fallback := false

/-- An evaluation interval without samples. -/
def Fast.init : Fast := ⟨0, 0, [], [], 0⟩

/-- A trip sub-window without samples. -/
def TripWin.init : TripWin := ⟨0, 0, 0, false, 0, 0⟩

/-- Breakwater state before the first entry to STARTING. -/
def BpBw.init : BpBw where
  ceiling := 0
  ceilFifths := 0
  isoP := 0
  isoSrc := 0
  pSrc := 0
  isoUnc := 0
  isoRes := 0
  isoFast := 0
  isoBw := 0
  margin := 0
  uncResolved := none
  fastQual := false
  resBound := false
  uncBound := false
  peakLag := 0
  spread := 0
  peakNext := none
  floorUse := 0
  holdOff := 0
  measSeq := 0
  backoffCnt := Sat.zero
  tripCnt := Sat.zero
  probeHi := 0
  probeLo := 0
  bankB := false
  armed := false
  scan := none
  swapResult := 0
  probe := none
  fast := Fast.init
  trip := TripWin.init
  tripN := 0
  tripDone := []
  tripHist := []
  coefBad := []

/-- AGC and gate state before the first entry to STARTING. -/
def BpGain.init : BpGain where
  g := 0
  step := 0
  lastStep := 0
  det := []
  frozen := false
  softStarted := false
  ramp := none
  rampAt := 0
  rampN := 0
  rampDone := false
  want := 0
  pFrz := 0
  nrRef := 0
  nrValid := false
  enablePwr := dbFloor
  gate := .closed
  openSrc := 0
  run := 0
  recent := []
  verifyN := 0
  capRun := 0
  rsLeft := 0
  rsSum := 0
  rsN := 0
  signs := []
  refOff := 0
  openCnt := Sat.zero
  falseCnt := Sat.zero
  capCnt := Sat.zero

/-- No floor block yet. -/
def BpFloor.init : BpFloor := ⟨[], [], none, 0, 0, true, 0, false, false⟩

/-- Mask monitor at a start. -/
def BpMask.init : BpMask where
  period := 0
  captured := 0
  block := 0
  done := false
  judged := false
  consec := 0
  passRun := 0
  backoff := 0
  periodStart := 0
  violCnt := Sat.zero
  maskSeq := 0
  staleCnt := Sat.zero

/-- No duty bucket sample yet. -/
def Bucket.zero : Bucket := ⟨0, 0⟩

/-- Protection state at a start: OFF. -/
def BpProt.init : BpProt where
  st := .off
  cause := 0
  held := ⟨false, false, false, false, false⟩
  retryExp := 0
  retryAt := none
  history := []
  offReason := 0
  tripIv := none
  left := .off
  mutedAt := 0
  tripped := false
  serviceFrom := none
  donorLost := false
  donorLow := none
  donorOk := none
  buckets := []
  bucket := Bucket.zero
  bucketFrom := 0
  bucketN := 0
  duty := 0
  nDonor := dbFloor
  muteCnt := Sat.zero
  holdCnt := Sat.zero
  lockCnt := Sat.zero
  lastMuteHi := 0
  lastMuteLo := 0

/-- A band path at a start. -/
def Bp.init : Bp := ⟨BpFlow.init, BpBw.init, BpGain.init, BpFloor.init, BpMask.init, BpProt.init⟩

/-- A chain at a start: POWERED_DOWN. -/
def Chain.init : Chain where
  st := .poweredDown
  target := .poweredDown
  held := none
  seq := none
  settleAt := none
  lockFrom := 0
  lockLeft := .poweredDown
  calFromLock := false
  calBusy := false
  calRun := 0
  pending := 0
  done := 0
  startup := 0
  failConsec := [0, 0, 0, 0, 0, 0, 0, 0]
  reqDue := []
  committedAt := []
  scratch := []
  joined := false
  frameStart := 0
  frameEnd := none
  joinedAt := 0
  enteredAt := 0
  lastPoint := 0
  xfer := none
  faultKind := 0
  faultEntry := 0
  result := 0
  raised := 0
  paReg := false
  paEdges := 0
  paRoseAt := 0
  jrxLock := false
  shLock := false
  jtxRunning := false
  jtxOut := Cplx.zero

/-- A coexistence port at a start. -/
def CxPort.init : CxPort := ⟨false, false, false, none, none, false, none, false⟩

/-- An idle converter. -/
def Adc.init : Adc := ⟨none, [], [], none, []⟩

/-- A measurement channel without results. -/
def Mc.init : Mc where
  hist := []
  since := 0
  outputs := 0
  fineNum := 0
  fineDen := 1
  raw := 0
  restarted := false
  late := false
  settled := false
  seq := 0
  got := false
  nextHi := false
  badRef := 0
  lastLo := 0
  lastHi := 0
  ovrs := []
  fineOvr := false

/-- A loop slot at a start. -/
def LoopSt.init : LoopSt where
  spEff := 0
  yPrev := 0
  i := 0
  u := 0
  ff := 0
  y := 0
  preset := false
  trimHold := none
  idleHeld := false
  clamped := false
  late := false
  sampleAt := none
  sampleV := 0
  spIn := []
  code := 0
  seq := 0

/-- A task at its entry point (R202, R227). -/
def Task.init (entry : Nat) (xbase : BitVec 24) : Task where
  pc := entry
  w := []
  acc := []
  p := 0
  prog := 0
  sat := false
  accsat := false
  urgent := false
  suspended := false
  xbase := xbase

/-- An engine without a clock grant. -/
def Engine.init : Engine where
  st := .gated
  live := Task.init 0 0
  running := none
  lastBerth := 0
  poisoned := none
  suspended := 0
  ready := 0
  readyAt := []
  lastFault := 0
  tlb := []
  fill := 0
  loads := []
  walk := none
  blkFailed := []
  block := none
  budgetEnd := none
  ended := 0
  shed := false
  inbox := []
  lastIn := 0
  outbox := []
  issuedBerth := 0
  issuedPc := 0
  issuedProg := 0
  usedAt := none
  runFrom := 0
  used := 0
  lastUsed := 0
  peakUsed := 0
  restart := false
  faultAt := none

/-- An idle lighter channel. -/
def Lighter.init : Lighter where
  st := .idle
  queue := []
  moved := 0
  started := false
  srcPages := []
  dstPages := []
  buf := []
  fault := 0
  done := 0
  nextAddr := 0
  fside := false

/-- Taps without records. -/
def Taps.init : Taps where
  adapt := []
  mask := []
  aSeq := 0
  aRes := []
  aTags := []
  mSeq := 0
  mOut := []
  mTags := []
  aWhole := []
  mWhole := []

/-- A Guvan port at a start: DISABLED. -/
def Port.init : Port where
  st := .disabled
  mode := 0
  fast := 0
  silenceAt := none
  leftDetect := 0
  huntFrom := 0
  disjointAt := none
  wasUp := false
  leader := false
  heard := none
  chosen := 0
  turnDue := false
  heardAt := 0
  turns := 0
  lastHello := 0
  lastTrain := 0
  trainSt := 0
  partnerSt := 0
  goSent := false
  goEnds := none
  framesOn := false
  nextFrame := 0
  txPrev := []
  agcFrozen := false
  rxGain := 0
  candidates := []
  misses := 0
  retrainLeft := 0
  retrainReq := false
  txSeq := 0
  rxSeq := none
  departures := []
  credits := 0
  inFlight := 0
  owed := 0
  occupied := 0
  rxBlk := 0
  sentBlk := 0
  pRxBlk := none
  rxBytes := []
  rxOpen := false
  rxBad := false
  inbox := []
  badRx := []
  badIn := []
  outQ := []
  sending := []
  sendStart := false
  sendMsg := none
  alarmQ := []
  heardAlarms := []
  dSum := 0
  dN := 0
  delay := 0
  delayOk := false
  freq := 0
  noise := 0
  noises := []
  snr := 0
  snrs := []
  loss := 0
  launch := 0
  pHarbour := false
  pTimeLock := false
  pStratum := 63
  pAddrValid := false
  pAddr := 0
  mismatch := false
  trainMs := 0
  trainTurns := 0
  turnsDone := 0
  helloDelay := 0
  rx := []
  tx := []
  txFrame := []

/-- The time base at the alignment edge (R325, R326). -/
def TimeBase.init : TimeBase where
  now := 0
  prev := 0
  st := .free
  acc := 0
  corr := 0
  corrTicks := 0
  theta := 0
  tFrame := 0
  far := 0
  secondOk := false
  secondUpdates := 0
  upstream := none
  sentStratum := 63
  notice := none
  other := none
  withdrawnUntil := none
  noLodestarAt := 9830400000
  ppsGood := false
  todOk := false
  tod := none
  badEdges := 0
  lastEdge := none
  stampHi := 0
  stampLo := 0
  ppsOut := false
  ppsEighth := 0
  ppsOutUntil := 0
  lastPpsSecond := 0
  stepTo := none
  setAt := none

/-- A sensor slot without a reading. -/
def TSlot.init : TSlot := ⟨.unused, 0, [], 0, 0, false⟩

/-- A band path outside any thermal episode. -/
def BpTherm.init : BpTherm := ⟨0, none, false, false, none, 0, none⟩

/-- The thermal and current block before an image is loaded. -/
def Thermal.init : Thermal where
  tb := 0
  evaluated := false
  tjHot := 0
  tjMean := 0
  inUse := 0
  thermN := false
  shed := false
  trip := false
  slots := []
  bps := []
  free := 0
  base := 0
  xfer := none
  waiting := []
  lastGrantee := 0
  lastDir := false
  count := 0
  ledger := []
  jrxPreset := 0
  jtxDrive := 0
  scrubPass := 8
  iCore := 0
  iPeak := 0
  overRun := 0
  absRun := 0
  booksBad := false
  dieNoted := 0

/-- A logbook slot that is free and sound. -/
def LogSlot.init : LogSlot := ⟨none, false, []⟩

/-- A reader's cursor at a start. -/
def LogCur.init : LogCur := ⟨false, 0, 0, []⟩

/-- The collector and logbook of a start that finds an empty emergency register file. -/
def Collector.init : Collector where
  queue := []
  heldBack := []
  peak := 0
  buckets := []
  shadowBuckets := []
  open_ := []
  shadowOpen := []
  c3At := none
  c3Src := 0
  c3Kind := 0
  c4 := false
  c4Last := none
  testLatch := false
  parityBad := false
  snapFrozen := false
  rolling := []
  frozen := []
  histSnap := []
  emrSnap := []
  alarmed := []
  intake := []
  logReady := false
  slots := []
  head := none
  headSeq := 0
  headCyc := 0
  cursors := []
  emr := []
  flushed := 0
  damages := []
  flushDone := false

/-- The management core before its firmware runs. -/
def Mgmt.init : Mgmt where
  core := .starting
  restartDone := none
  sessions := []
  debugRecent := []
  ring := []
  store := []
  mirrorSeq := 0
  staging := none
  returnPort := none
  toCore := []
  debugOut := []
  seq := 0
  seen := []
  outWait := []
  resetAt := none

/-- A receive buffer of a stream that holds nothing. -/
def RxStream.empty : RxStream := ⟨[], false, false⟩

/-- Recording before an image is loaded. -/
def Replay.init : Replay where
  st := .off
  rplOk := false
  causeCmd := false
  fromSlot := false
  cpValid := 0
  cpCyc := [0, 0]
  copying := none
  freezeCyc := 0
  fromCyc := 0
  jHead := 0
  jCount := 0
  groups := []
  firstSample := []
  groupAt := []
  groupCyc := []
  rcyc := 0
  jNext := 0
  jLeft := 0
  divWhere := 0
  divCyc := 0
  diverged := false
  inTags := []
  inWords := []
  outTags := []
  outWords := []
  capWait := []
  capTap := []
  injTap := []
  injNext := []
  injSkip := []
  upH0 := 0
  upH8 := 0
  harbour := false

/-- A flash with erased slot record sectors and an image region a programmer has not written. -/
def Flash.erased : Flash where
  sect0 := []
  sect1 := []
  slot := ⟨false, true, 0, 0, 0⟩
  log := []
  barred := []
  emrStore := []
  reserve := []
  reserveLog := []
  image := []
  fails := false

/-- Unburned fuses. -/
def Fuses.unburned : Fuses := ⟨[], 0, false, [], false, false⟩

end Sys2Proof.Machine
end

