-- ==== Sys2Proof/Machine/Regs.lean ====
section
/-! DEFINITION. The register fields of every block (R431): where each field stands, its access type and its reset value (chapter 17 and the register tables of every chapter). -/

namespace Sys2Proof.Machine

/-- A field of a register: the 24-bit register address and the bits it takes. -/
structure Fld where
  addr : Nat
  hi : Nat
  lo : Nat
  deriving DecidableEq, Repr

/-- Access types (R9, R435). No field of this device is of type RC. -/
inductive Acc where
  | ro | rw | rwl | live | w1c | sat
  deriving DecidableEq, Repr

/-- One row of a register table. `name` is false for the rows the tables mark reserved. -/
structure Row where
  hi : Nat
  lo : Nat
  acc : Acc
  reset : Nat
  name : Bool
  deriving DecidableEq, Repr

/-- Bits `hi` to `lo` of a word. -/
def bitsOf (w : Word) (hi lo : Nat) : Nat := (w.toNat / 2 ^ lo) % 2 ^ (hi - lo + 1)

/-- The mask of bits `hi` to `lo`. -/
def maskOf (hi lo : Nat) : Word := BitVec.ofNat 40 ((2 ^ (hi - lo + 1) - 1) * 2 ^ lo)

/-- The word with bits `hi` to `lo` replaced by `v`, taken modulo the field's width. -/
def putBits (w : Word) (hi lo v : Nat) : Word :=
  (w &&& ~~~ maskOf hi lo) ||| BitVec.ofNat 40 ((v % 2 ^ (hi - lo + 1)) * 2 ^ lo)

namespace F
/-- PART of IDREV, global block (R446). -/
def idrevPart : Fld := ⟨0, 39, 24⟩
/-- MAJOR of IDREV, global block (R446). -/
def idrevMajor : Fld := ⟨0, 23, 16⟩
/-- MINOR of IDREV, global block (R446). -/
def idrevMinor : Fld := ⟨0, 15, 8⟩
/-- VENDOR of IDREV, global block (R446). -/
def idrevVendor : Fld := ⟨0, 7, 0⟩
/-- VALID of DEV_ADDR, global block (R446). -/
def devAddrValid : Fld := ⟨1, 39, 39⟩
/-- FROM_IMAGE of DEV_ADDR, global block (R446). -/
def devAddrFromImage : Fld := ⟨1, 38, 38⟩
/-- ADDR of DEV_ADDR, global block (R446). -/
def devAddrAddr : Fld := ⟨1, 17, 0⟩
/-- CFG_LOCKED of GLB_STAT, global block (R446). -/
def glbStatCfgLocked : Fld := ⟨2, 39, 39⟩
/-- HARBOUR of GLB_STAT, global block (R446). -/
def glbStatHarbour : Fld := ⟨2, 38, 38⟩
/-- HARB_CAUSE of GLB_STAT, global block (R446). -/
def glbStatHarbCause : Fld := ⟨2, 37, 35⟩
/-- C4_LATCH of GLB_STAT, global block (R446). -/
def glbStatC4Latch : Fld := ⟨2, 34, 34⟩
/-- TEST_LATCH of GLB_STAT, global block (R446). -/
def glbStatTestLatch : Fld := ⟨2, 33, 33⟩
/-- REPLAY_MODE of GLB_STAT, global block (R446). -/
def glbStatReplayMode : Fld := ⟨2, 32, 32⟩
/-- ROM_LOADER of GLB_STAT, global block (R446). -/
def glbStatRomLoader : Fld := ⟨2, 31, 31⟩
/-- FACTORY_TEST of GLB_STAT, global block (R446). -/
def glbStatFactoryTest : Fld := ⟨2, 30, 30⟩
/-- TB of GLB_STAT, global block (R446). -/
def glbStatTb : Fld := ⟨2, 29, 27⟩
/-- PAR_OVF of REG_STAT, global block (R446). -/
def regStatParOvf : Fld := ⟨3, 39, 39⟩
/-- PAR_CNT of REG_STAT, global block (R446). -/
def regStatParCnt : Fld := ⟨3, 38, 24⟩
/-- PAR_ADDR of REG_STAT, global block (R446). -/
def regStatParAddr : Fld := ⟨3, 23, 0⟩
/-- FREE of BOOK_TAPS, global block (R446). -/
def bookTapsFree : Fld := ⟨4, 39, 20⟩
/-- IN_FLIGHT of BOOK_TAPS, global block (R446). -/
def bookTapsInFlight : Fld := ⟨4, 19, 0⟩
/-- FREE of BOOK_RSMP, global block (R446). -/
def bookRsmpFree : Fld := ⟨5, 39, 20⟩
/-- IN_FLIGHT of BOOK_RSMP, global block (R446). -/
def bookRsmpInFlight : Fld := ⟨5, 19, 0⟩
/-- FREE of BOOK_DELAY, global block (R446). -/
def bookDelayFree : Fld := ⟨6, 39, 20⟩
/-- IN_FLIGHT of BOOK_DELAY, global block (R446). -/
def bookDelayInFlight : Fld := ⟨6, 19, 0⟩
/-- FREE of BOOK_DESCD, global block (R446). -/
def bookDescdFree : Fld := ⟨7, 39, 20⟩
/-- IN_FLIGHT of BOOK_DESCD, global block (R446). -/
def bookDescdInFlight : Fld := ⟨7, 19, 0⟩
/-- CORR_OVF of HOLD_MEM, global block (R446). -/
def holdMemCorrOvf : Fld := ⟨8, 39, 39⟩
/-- CORR_CNT of HOLD_MEM, global block (R446). -/
def holdMemCorrCnt : Fld := ⟨8, 38, 20⟩
/-- UNC_OVF of HOLD_MEM, global block (R446). -/
def holdMemUncOvf : Fld := ⟨8, 19, 19⟩
/-- UNC_CNT of HOLD_MEM, global block (R446). -/
def holdMemUncCnt : Fld := ⟨8, 18, 0⟩
/-- PASS_SEQ of HOLD_SCRUB, global block (R446). -/
def holdScrubPassSeq : Fld := ⟨9, 39, 16⟩
/-- TB of HOLD_SCRUB, global block (R446). -/
def holdScrubTb : Fld := ⟨9, 15, 13⟩
/-- BP of PROT_LIM_SEL, global block (R446). -/
def protLimSelBp : Fld := ⟨10, 14, 8⟩
/-- ITEM of PROT_LIM_SEL, global block (R446). -/
def protLimSelItem : Fld := ⟨10, 2, 0⟩
/-- VALUE of PROT_LIM_DATA, global block (R446). -/
def protLimDataValue : Fld := ⟨11, 39, 0⟩
/-- MUTE_N_LOW of PROT_STAT, global block (R446). -/
def protStatMuteNLow : Fld := ⟨12, 39, 39⟩
/-- LIM_FUSED of PROT_STAT, global block (R446). -/
def protStatLimFused : Fld := ⟨12, 38, 38⟩
/-- REGION of PROT_STAT, global block (R446). -/
def protStatRegion : Fld := ⟨12, 37, 22⟩
/-- MN_OVF of PROT_STAT, global block (R446). -/
def protStatMnOvf : Fld := ⟨12, 13, 13⟩
/-- MN_CNT of PROT_STAT, global block (R446). -/
def protStatMnCnt : Fld := ⟨12, 12, 0⟩
/-- CORE_STATE of MGMT_STAT, global block (R446). -/
def mgmtStatCoreState : Fld := ⟨13, 39, 37⟩
/-- SESSIONS of MGMT_STAT, global block (R446). -/
def mgmtStatSessions : Fld := ⟨13, 36, 33⟩
/-- ROM_LOADER of MGMT_STAT, global block (R446). -/
def mgmtStatRomLoader : Fld := ⟨13, 32, 32⟩
/-- RS_OVF of MGMT_STAT, global block (R446). -/
def mgmtStatRsOvf : Fld := ⟨13, 31, 31⟩
/-- RESTART_CNT of MGMT_STAT, global block (R446). -/
def mgmtStatRestartCnt : Fld := ⟨13, 30, 20⟩
/-- ML_OVF of MGMT_STAT, global block (R446). -/
def mgmtStatMlOvf : Fld := ⟨13, 19, 19⟩
/-- MIRROR_LOST of MGMT_STAT, global block (R446). -/
def mgmtStatMirrorLost : Fld := ⟨13, 18, 0⟩
/-- OWN_STATE of IMG_STAT, global block (R446). -/
def imgStatOwnState : Fld := ⟨14, 39, 37⟩
/-- TARGET_STATE of IMG_STAT, global block (R446). -/
def imgStatTargetState : Fld := ⟨14, 36, 34⟩
/-- BOOT_FLASH of IMG_STAT, global block (R446). -/
def imgStatBootFlash : Fld := ⟨14, 33, 33⟩
/-- TRIES of IMG_STAT, global block (R446). -/
def imgStatTries : Fld := ⟨14, 32, 31⟩
/-- GEN of IMG_STAT, global block (R446). -/
def imgStatGen : Fld := ⟨14, 30, 15⟩
/-- OUTCOME of IMG_STAT, global block (R446). -/
def imgStatOutcome : Fld := ⟨14, 14, 12⟩
/-- FREEZE of RPL_CTRL, global block (R446). -/
def rplCtrlFreeze : Fld := ⟨15, 39, 39⟩
/-- THAW of RPL_CTRL, global block (R446). -/
def rplCtrlThaw : Fld := ⟨15, 38, 38⟩
/-- ENTER of RPL_CTRL, global block (R446). -/
def rplCtrlEnter : Fld := ⟨15, 37, 37⟩
/-- START of RPL_CTRL, global block (R446). -/
def rplCtrlStart : Fld := ⟨15, 36, 36⟩
/-- CP_M of RPL_CFG, global block (R446). -/
def rplCfgCpM : Fld := ⟨16, 39, 37⟩
/-- JNL_ADC of RPL_CFG, global block (R446). -/
def rplCfgJnlAdc : Fld := ⟨16, 36, 33⟩
/-- SET_N of RPL_CFG, global block (R446). -/
def rplCfgSetN : Fld := ⟨16, 32, 29⟩
/-- QUAY of RPL_CFG, global block (R446). -/
def rplCfgQuay : Fld := ⟨16, 28, 25⟩
/-- FROM_SLOT of RPL_CFG, global block (R446). -/
def rplCfgFromSlot : Fld := ⟨16, 24, 24⟩
/-- SLOT_A of RPL_SELk, global block (R446). -/
def rplSelSlotA (k : Nat) : Fld := ⟨17 + k, 39, 32⟩
/-- SLOT_B of RPL_SELk, global block (R446). -/
def rplSelSlotB (k : Nat) : Fld := ⟨17 + k, 31, 24⟩
/-- SLOT_C of RPL_SELk, global block (R446). -/
def rplSelSlotC (k : Nat) : Fld := ⟨17 + k, 23, 16⟩
/-- SLOT_D of RPL_SELk, global block (R446). -/
def rplSelSlotD (k : Nat) : Fld := ⟨17 + k, 15, 8⟩
/-- STATE of RPL_STAT, global block (R446). -/
def rplStatState : Fld := ⟨19, 39, 37⟩
/-- RPL_OK of RPL_STAT, global block (R446). -/
def rplStatRplOk : Fld := ⟨19, 36, 36⟩
/-- CAUSE of RPL_STAT, global block (R446). -/
def rplStatCause : Fld := ⟨19, 35, 35⟩
/-- CP_VALID of RPL_STAT, global block (R446). -/
def rplStatCpValid : Fld := ⟨19, 34, 33⟩
/-- FROM of RPL_STAT, global block (R446). -/
def rplStatFrom : Fld := ⟨19, 32, 32⟩
/-- DIV_OVF of RPL_STAT, global block (R446). -/
def rplStatDivOvf : Fld := ⟨19, 31, 31⟩
/-- DIV_CNT of RPL_STAT, global block (R446). -/
def rplStatDivCnt : Fld := ⟨19, 30, 0⟩
/-- CYC of RPL_FREEZE_CYC, global block (R446). -/
def rplFreezeCycCyc : Fld := ⟨20, 39, 0⟩
/-- CYC of RPL_FROM_CYC, global block (R446). -/
def rplFromCycCyc : Fld := ⟨21, 39, 0⟩
/-- DIV_KIND of DIV_WHERE, global block (R446). -/
def divWhereDivKind : Fld := ⟨22, 39, 37⟩
/-- DIV_UNIT of DIV_WHERE, global block (R446). -/
def divWhereDivUnit : Fld := ⟨22, 36, 29⟩
/-- DIV_POS of DIV_WHERE, global block (R446). -/
def divWhereDivPos : Fld := ⟨22, 23, 0⟩
/-- RCYC of DIV_CYC, global block (R446). -/
def divCycRcyc : Fld := ⟨23, 39, 0⟩
/-- ATTEMPTS of BOOT_STAT, boot and image block (R447). -/
def bootStatAttempts : Fld := ⟨64, 39, 38⟩
/-- BOOTED_FLASH of BOOT_STAT, boot and image block (R447). -/
def bootStatBootedFlash : Fld := ⟨64, 37, 37⟩
/-- ACCEPTED of BOOT_STAT, boot and image block (R447). -/
def bootStatAccepted : Fld := ⟨64, 36, 36⟩
/-- BOOT_SEL_LVL of BOOT_STAT, boot and image block (R447). -/
def bootStatBootSelLvl : Fld := ⟨64, 35, 35⟩
/-- TEST_EN_LVL of BOOT_STAT, boot and image block (R447). -/
def bootStatTestEnLvl : Fld := ⟨64, 34, 34⟩
/-- QSPI_MODE of BOOT_STAT, boot and image block (R447). -/
def bootStatQspiMode : Fld := ⟨64, 33, 32⟩
/-- TRIED of BOOT_REJk, boot and image block (R447). -/
def bootRejTried (k : Nat) : Fld := ⟨65 + k, 39, 39⟩
/-- REJECTED of BOOT_REJk, boot and image block (R447). -/
def bootRejRejected (k : Nat) : Fld := ⟨65 + k, 38, 38⟩
/-- CHECK of BOOT_REJk, boot and image block (R447). -/
def bootRejCheck (k : Nat) : Fld := ⟨65 + k, 37, 34⟩
/-- KIND of BOOT_REJk, boot and image block (R447). -/
def bootRejKind (k : Nat) : Fld := ⟨65 + k, 33, 28⟩
/-- SLOT_STATE of BOOT_REJk, boot and image block (R447). -/
def bootRejSlotState (k : Nat) : Fld := ⟨65 + k, 27, 25⟩
/-- GEN of BOOT_REJk, boot and image block (R447). -/
def bootRejGen (k : Nat) : Fld := ⟨65 + k, 24, 9⟩
/-- TRIES of BOOT_REJk, boot and image block (R447). -/
def bootRejTries (k : Nat) : Fld := ⟨65 + k, 8, 7⟩
/-- LIM_FUSED of FUSE_STAT, boot and image block (R447). -/
def fuseStatLimFused : Fld := ⟨67, 39, 39⟩
/-- KEY_FUSED of FUSE_STAT, boot and image block (R447). -/
def fuseStatKeyFused : Fld := ⟨67, 38, 38⟩
/-- FACTORY_LOCK of FUSE_STAT, boot and image block (R447). -/
def fuseStatFactoryLock : Fld := ⟨67, 37, 37⟩
/-- FUSED_REGION of FUSE_STAT, boot and image block (R447). -/
def fuseStatFusedRegion : Fld := ⟨67, 36, 21⟩
/-- BURN_GROUP of FUSE_STAT, boot and image block (R447). -/
def fuseStatBurnGroup : Fld := ⟨67, 20, 19⟩
/-- BURN_OK of FUSE_STAT, boot and image block (R447). -/
def fuseStatBurnOk : Fld := ⟨67, 18, 18⟩
/-- STAMP of BOOT_STAMPk, boot and image block (R447). -/
def bootStampStamp (k : Nat) : Fld := ⟨68 + k, 31, 0⟩
/-- LOCK_T of BOOT_TIMES, boot and image block (R447). -/
def bootTimesLockT : Fld := ⟨70, 39, 20⟩
/-- ACTIVE_T of BOOT_TIMES, boot and image block (R447). -/
def bootTimesActiveT : Fld := ⟨70, 19, 0⟩
/-- JESD of BOOT_STEPS, boot and image block (R447). -/
def bootStepsJesd : Fld := ⟨71, 39, 38⟩
/-- FE of BOOT_STEPS, boot and image block (R447). -/
def bootStepsFe : Fld := ⟨71, 37, 36⟩
/-- GUVAN of BOOT_STEPS, boot and image block (R447). -/
def bootStepsGuvan : Fld := ⟨71, 35, 34⟩
/-- SOFT of BOOT_STEPS, boot and image block (R447). -/
def bootStepsSoft : Fld := ⟨71, 33, 32⟩
/-- NOT_UP of BOOT_STEPS, boot and image block (R447). -/
def bootStepsNotUp : Fld := ⟨71, 31, 0⟩
/-- DIGEST of IMG_HASHk, boot and image block (R447). -/
def imgHashDigest (k : Nat) : Fld := ⟨72 + k, 31, 0⟩
/-- DIGEST of LIM_HASHk, boot and image block (R447). -/
def limHashDigest (k : Nat) : Fld := ⟨80 + k, 31, 0⟩
/-- DIGEST of LFUSE_HASHk, boot and image block (R447). -/
def lfuseHashDigest (k : Nat) : Fld := ⟨88 + k, 31, 0⟩
/-- DIGEST of KFUSE_HASHk, boot and image block (R447). -/
def kfuseHashDigest (k : Nat) : Fld := ⟨96 + k, 31, 0⟩
/-- PLL_LOCK of CLK_STAT, clocks and time (chapter 12). -/
def clkStatPllLock : Fld := ⟨128, 39, 39⟩
/-- REF_OK of CLK_STAT, clocks and time (chapter 12). -/
def clkStatRefOk : Fld := ⟨128, 38, 38⟩
/-- REF_LOSS of CLK_STAT, clocks and time (chapter 12). -/
def clkStatRefLoss : Fld := ⟨128, 37, 37⟩
/-- LOCK_US of CLK_STAT, clocks and time (chapter 12). -/
def clkStatLockUs : Fld := ⟨128, 15, 0⟩
/-- VALUE of CYC, clocks and time (chapter 12). -/
def cycValue : Fld := ⟨129, 39, 0⟩
/-- VALUE of UPTIME, clocks and time (chapter 12). -/
def uptimeValue : Fld := ⟨130, 39, 0⟩
/-- VALUE of TIME_OFFSET, clocks and time (chapter 12). -/
def timeOffsetValue : Fld := ⟨135, 39, 0⟩
/-- VALUE of TIME_FREQ, clocks and time (chapter 12). -/
def timeFreqValue : Fld := ⟨136, 39, 0⟩
/-- TIME of TIME_LO, clocks and time (chapter 12). -/
def timeLoTime : Fld := ⟨131, 39, 0⟩
/-- TIME of TIME_HI, clocks and time (chapter 12). -/
def timeHiTime : Fld := ⟨132, 39, 0⟩
/-- TIME of PPS_IN_LO, clocks and time (chapter 12). -/
def ppsInLoTime : Fld := ⟨138, 39, 0⟩
/-- TIME of PPS_IN_HI, clocks and time (chapter 12). -/
def ppsInHiTime : Fld := ⟨139, 39, 0⟩
/-- SET of TIME_SET_LO, clocks and time (chapter 12). -/
def timeSetLoSet : Fld := ⟨140, 39, 0⟩
/-- SET of TIME_SET_HI, clocks and time (chapter 12). -/
def timeSetHiSet : Fld := ⟨141, 39, 0⟩
/-- LODESTAR of TIME_CFG, clocks and time (chapter 12). -/
def timeCfgLodestar : Fld := ⟨133, 39, 39⟩
/-- BW of TIME_CFG, clocks and time (chapter 12). -/
def timeCfgBw : Fld := ⟨133, 38, 37⟩
/-- LS_BW of TIME_CFG, clocks and time (chapter 12). -/
def timeCfgLsBw : Fld := ⟨133, 36, 35⟩
/-- STATE of TIME_STAT, clocks and time (chapter 12). -/
def timeStatState : Fld := ⟨134, 39, 38⟩
/-- STRATUM of TIME_STAT, clocks and time (chapter 12). -/
def timeStatStratum : Fld := ⟨134, 37, 32⟩
/-- TIME_LOCK of TIME_STAT, clocks and time (chapter 12). -/
def timeStatTimeLock : Fld := ⟨134, 31, 31⟩
/-- UPSTREAM of TIME_STAT, clocks and time (chapter 12). -/
def timeStatUpstream : Fld := ⟨134, 30, 28⟩
/-- UP_VALID of TIME_STAT, clocks and time (chapter 12). -/
def timeStatUpValid : Fld := ⟨134, 27, 27⟩
/-- CONFLICT of TIME_STAT, clocks and time (chapter 12). -/
def timeStatConflict : Fld := ⟨134, 26, 26⟩
/-- WITHDRAWN of TIME_STAT, clocks and time (chapter 12). -/
def timeStatWithdrawn : Fld := ⟨134, 25, 25⟩
/-- PPS_OK of TIME_STAT, clocks and time (chapter 12). -/
def timeStatPpsOk : Fld := ⟨134, 24, 24⟩
/-- TOD_OK of TIME_STAT, clocks and time (chapter 12). -/
def timeStatTodOk : Fld := ⟨134, 23, 23⟩
/-- PPS_IN_COMP of PPS_CFG, clocks and time (chapter 12). -/
def ppsCfgPpsInComp : Fld := ⟨137, 39, 26⟩
/-- PPS_OUT_COMP of PPS_CFG, clocks and time (chapter 12). -/
def ppsCfgPpsOutComp : Fld := ⟨137, 25, 12⟩
/-- PPS_WIDTH of PPS_CFG, clocks and time (chapter 12). -/
def ppsCfgPpsWidth : Fld := ⟨137, 11, 3⟩
/-- PPS_OUT_GATE of PPS_CFG, clocks and time (chapter 12). -/
def ppsCfgPpsOutGate : Fld := ⟨137, 2, 2⟩
/-- PPS_OUT_EN of PPS_CFG, clocks and time (chapter 12). -/
def ppsCfgPpsOutEn : Fld := ⟨137, 1, 1⟩
/-- PPS_IN_EN of PPS_CFG, clocks and time (chapter 12). -/
def ppsCfgPpsInEn : Fld := ⟨137, 0, 0⟩
/-- ST_OVF of TIME_CNT, clocks and time (chapter 12). -/
def timeCntStOvf : Fld := ⟨142, 39, 39⟩
/-- STEP_CNT of TIME_CNT, clocks and time (chapter 12). -/
def timeCntStepCnt : Fld := ⟨142, 38, 28⟩
/-- HO_OVF of TIME_CNT, clocks and time (chapter 12). -/
def timeCntHoOvf : Fld := ⟨142, 27, 27⟩
/-- HOLD_CNT of TIME_CNT, clocks and time (chapter 12). -/
def timeCntHoldCnt : Fld := ⟨142, 26, 16⟩
/-- PB_OVF of TIME_CNT, clocks and time (chapter 12). -/
def timeCntPbOvf : Fld := ⟨142, 15, 15⟩
/-- PPS_BAD of TIME_CNT, clocks and time (chapter 12). -/
def timeCntPpsBad : Fld := ⟨142, 14, 0⟩
/-- TB of THERM_STAT, thermal and current (chapter 13). -/
def thermStatTb : Fld := ⟨192, 39, 37⟩
/-- THERM_N_LOW of THERM_STAT, thermal and current (chapter 13). -/
def thermStatThermNLow : Fld := ⟨192, 36, 36⟩
/-- SHED of THERM_STAT, thermal and current (chapter 13). -/
def thermStatShed : Fld := ⟨192, 35, 35⟩
/-- DIE_DEGRADED of THERM_STAT, thermal and current (chapter 13). -/
def thermStatDieDegraded : Fld := ⟨192, 34, 34⟩
/-- GRACE_N of THERM_STAT, thermal and current (chapter 13). -/
def thermStatGraceN : Fld := ⟨192, 33, 26⟩
/-- THROTTLED_N of THERM_STAT, thermal and current (chapter 13). -/
def thermStatThrottledN : Fld := ⟨192, 25, 18⟩
/-- THERM_MUTED_N of THERM_STAT, thermal and current (chapter 13). -/
def thermStatThermMutedN : Fld := ⟨192, 17, 10⟩
/-- GRACE of THERM_CFG, thermal and current (chapter 13). -/
def thermCfgGrace : Fld := ⟨193, 39, 31⟩
/-- TJ_HOT of TJ, thermal and current (chapter 13). -/
def tjTjHot : Fld := ⟨194, 39, 24⟩
/-- TJ_MEAN of TJ, thermal and current (chapter 13). -/
def tjTjMean : Fld := ⟨194, 23, 8⟩
/-- DIE_IN_USE of TJ, thermal and current (chapter 13). -/
def tjDieInUse : Fld := ⟨194, 7, 5⟩
/-- BUDGET of GOV_CFG, thermal and current (chapter 13). -/
def govCfgBudget : Fld := ⟨195, 39, 30⟩
/-- CUR_MC of GOV_CFG, thermal and current (chapter 13). -/
def govCfgCurMc : Fld := ⟨195, 29, 25⟩
/-- CUR_EN of GOV_CFG, thermal and current (chapter 13). -/
def govCfgCurEn : Fld := ⟨195, 24, 24⟩
/-- CUR_SCALE of GOV_CFG, thermal and current (chapter 13). -/
def govCfgCurScale : Fld := ⟨195, 23, 8⟩
/-- BASE_TB0 of GOV_BASE0, thermal and current (chapter 13). -/
def govBase0BaseTb0 : Fld := ⟨196, 39, 30⟩
/-- BASE_TB1 of GOV_BASE0, thermal and current (chapter 13). -/
def govBase0BaseTb1 : Fld := ⟨196, 29, 20⟩
/-- BASE_TB2 of GOV_BASE0, thermal and current (chapter 13). -/
def govBase0BaseTb2 : Fld := ⟨196, 19, 10⟩
/-- BASE_TB3 of GOV_BASE0, thermal and current (chapter 13). -/
def govBase0BaseTb3 : Fld := ⟨196, 9, 0⟩
/-- BASE_TB4 of GOV_BASE1, thermal and current (chapter 13). -/
def govBase1BaseTb4 : Fld := ⟨197, 39, 30⟩
/-- FREE of BOOK_CREDIT, thermal and current (chapter 13). -/
def bookCreditFree : Fld := ⟨198, 39, 20⟩
/-- IN_FLIGHT of BOOK_CREDIT, thermal and current (chapter 13). -/
def bookCreditInFlight : Fld := ⟨198, 19, 0⟩
/-- BASE of GOV_STAT, thermal and current (chapter 13). -/
def govStatBase : Fld := ⟨199, 39, 30⟩
/-- HEADROOM of GOV_STAT, thermal and current (chapter 13). -/
def govStatHeadroom : Fld := ⟨199, 29, 20⟩
/-- BUSY of GOV_STAT, thermal and current (chapter 13). -/
def govStatBusy : Fld := ⟨199, 19, 19⟩
/-- GRANTEE of GOV_STAT, thermal and current (chapter 13). -/
def govStatGrantee : Fld := ⟨199, 18, 11⟩
/-- DIR of GOV_STAT, thermal and current (chapter 13). -/
def govStatDir : Fld := ⟨199, 10, 10⟩
/-- I_CORE of GOV_CUR, thermal and current (chapter 13). -/
def govCurICore : Fld := ⟨200, 39, 24⟩
/-- I_PEAK of GOV_CUR, thermal and current (chapter 13). -/
def govCurIPeak : Fld := ⟨200, 23, 8⟩
/-- RF_OVF of GOV_CNT, thermal and current (chapter 13). -/
def govCntRfOvf : Fld := ⟨201, 39, 39⟩
/-- REFUSE_CNT of GOV_CNT, thermal and current (chapter 13). -/
def govCntRefuseCnt : Fld := ⟨201, 38, 20⟩
/-- OV_OVF of GOV_CNT, thermal and current (chapter 13). -/
def govCntOvOvf : Fld := ⟨201, 19, 19⟩
/-- OVER_CNT of GOV_CNT, thermal and current (chapter 13). -/
def govCntOverCnt : Fld := ⟨201, 18, 0⟩
/-- BC_OVF of THERM_CNT, thermal and current (chapter 13). -/
def thermCntBcOvf : Fld := ⟨202, 39, 39⟩
/-- BAND_CNT of THERM_CNT, thermal and current (chapter 13). -/
def thermCntBandCnt : Fld := ⟨202, 38, 20⟩
/-- SH_OVF of THERM_CNT, thermal and current (chapter 13). -/
def thermCntShOvf : Fld := ⟨202, 19, 19⟩
/-- SHED_CNT of THERM_CNT, thermal and current (chapter 13). -/
def thermCntShedCnt : Fld := ⟨202, 18, 0⟩
/-- TEMP of TS_VALk, thermal and current (chapter 13). -/
def tsValTemp (k : Nat) : Fld := ⟨208 + k, 39, 24⟩
/-- STATE of TS_VALk, thermal and current (chapter 13). -/
def tsValState (k : Nat) : Fld := ⟨208 + k, 23, 22⟩
/-- KIND of TS_CFGk, thermal and current (chapter 13). -/
def tsCfgKind (k : Nat) : Fld := ⟨224 + k, 39, 38⟩
/-- MC of TS_CFGk, thermal and current (chapter 13). -/
def tsCfgMc (k : Nat) : Fld := ⟨224 + k, 37, 33⟩
/-- PAIR of TS_CFGk, thermal and current (chapter 13). -/
def tsCfgPair (k : Nat) : Fld := ⟨224 + k, 32, 30⟩
/-- OFFSET of TS_CFGk, thermal and current (chapter 13). -/
def tsCfgOffset (k : Nat) : Fld := ⟨224 + k, 29, 14⟩
/-- GRACE_C2 of FC_CTRL, faults and logbook (chapter 14). -/
def fcCtrlGraceC2 : Fld := ⟨256, 39, 30⟩
/-- COALESCE of FC_CTRL, faults and logbook (chapter 14). -/
def fcCtrlCoalesce : Fld := ⟨256, 29, 14⟩
/-- C4_LATCH of FC_STAT, faults and logbook (chapter 14). -/
def fcStatC4Latch : Fld := ⟨257, 39, 39⟩
/-- HARBOUR of FC_STAT, faults and logbook (chapter 14). -/
def fcStatHarbour : Fld := ⟨257, 38, 38⟩
/-- FACTORY_TEST of FC_STAT, faults and logbook (chapter 14). -/
def fcStatFactoryTest : Fld := ⟨257, 37, 37⟩
/-- TEST_LATCH of FC_STAT, faults and logbook (chapter 14). -/
def fcStatTestLatch : Fld := ⟨257, 36, 36⟩
/-- ALARM_N_LOW of FC_STAT, faults and logbook (chapter 14). -/
def fcStatAlarmNLow : Fld := ⟨257, 35, 35⟩
/-- SNAP_FROZEN of FC_STAT, faults and logbook (chapter 14). -/
def fcStatSnapFrozen : Fld := ⟨257, 34, 34⟩
/-- OPEN_N of FC_STAT, faults and logbook (chapter 14). -/
def fcStatOpenN : Fld := ⟨257, 33, 28⟩
/-- HARB_SRC of FC_STAT, faults and logbook (chapter 14). -/
def fcStatHarbSrc : Fld := ⟨257, 27, 14⟩
/-- HARB_KIND of FC_STAT, faults and logbook (chapter 14). -/
def fcStatHarbKind : Fld := ⟨257, 13, 8⟩
/-- SOURCE of FC_ACK, faults and logbook (chapter 14). -/
def fcAckSource : Fld := ⟨258, 39, 26⟩
/-- CLASS of FC_ACK, faults and logbook (chapter 14). -/
def fcAckClass : Fld := ⟨258, 25, 23⟩
/-- INDEX of FC_ACK, faults and logbook (chapter 14). -/
def fcAckIndex : Fld := ⟨258, 22, 18⟩
/-- ACK of FC_ACK, faults and logbook (chapter 14). -/
def fcAckAck : Fld := ⟨258, 17, 16⟩
/-- RESULT of FC_ACK, faults and logbook (chapter 14). -/
def fcAckResult : Fld := ⟨258, 15, 14⟩
/-- DEPTH of FC_QUEUE, faults and logbook (chapter 14). -/
def fcQueueDepth : Fld := ⟨259, 39, 33⟩
/-- PEAK of FC_QUEUE, faults and logbook (chapter 14). -/
def fcQueuePeak : Fld := ⟨259, 32, 26⟩
/-- D0_OVF of FC_QUEUE, faults and logbook (chapter 14). -/
def fcQueueD0Ovf : Fld := ⟨259, 25, 25⟩
/-- DROP0 of FC_QUEUE, faults and logbook (chapter 14). -/
def fcQueueDrop0 : Fld := ⟨259, 24, 17⟩
/-- D1_OVF of FC_QUEUE, faults and logbook (chapter 14). -/
def fcQueueD1Ovf : Fld := ⟨259, 16, 16⟩
/-- DROP1 of FC_QUEUE, faults and logbook (chapter 14). -/
def fcQueueDrop1 : Fld := ⟨259, 15, 8⟩
/-- D2_OVF of FC_QUEUE, faults and logbook (chapter 14). -/
def fcQueueD2Ovf : Fld := ⟨259, 7, 7⟩
/-- DROP2 of FC_QUEUE, faults and logbook (chapter 14). -/
def fcQueueDrop2 : Fld := ⟨259, 6, 0⟩
/-- OVF_A of FC_CNT0, faults and logbook (chapter 14). -/
def fcCnt0OvfA : Fld := ⟨260, 39, 39⟩
/-- CNT_C0 of FC_CNT0, faults and logbook (chapter 14). -/
def fcCnt0CntC0 : Fld := ⟨260, 38, 20⟩
/-- OVF_B of FC_CNT0, faults and logbook (chapter 14). -/
def fcCnt0OvfB : Fld := ⟨260, 19, 19⟩
/-- CNT_C1 of FC_CNT0, faults and logbook (chapter 14). -/
def fcCnt0CntC1 : Fld := ⟨260, 18, 0⟩
/-- OVF_A of FC_CNT1, faults and logbook (chapter 14). -/
def fcCnt1OvfA : Fld := ⟨261, 39, 39⟩
/-- CNT_C2 of FC_CNT1, faults and logbook (chapter 14). -/
def fcCnt1CntC2 : Fld := ⟨261, 38, 20⟩
/-- OVF_B of FC_CNT1, faults and logbook (chapter 14). -/
def fcCnt1OvfB : Fld := ⟨261, 19, 19⟩
/-- CNT_C3 of FC_CNT1, faults and logbook (chapter 14). -/
def fcCnt1CntC3 : Fld := ⟨261, 18, 0⟩
/-- OVF_A of FC_CNT2, faults and logbook (chapter 14). -/
def fcCnt2OvfA : Fld := ⟨262, 39, 39⟩
/-- PROMO_CNT of FC_CNT2, faults and logbook (chapter 14). -/
def fcCnt2PromoCnt : Fld := ⟨262, 38, 20⟩
/-- OVF_B of FC_CNT2, faults and logbook (chapter 14). -/
def fcCnt2OvfB : Fld := ⟨262, 19, 19⟩
/-- ESC_CNT of FC_CNT2, faults and logbook (chapter 14). -/
def fcCnt2EscCnt : Fld := ⟨262, 18, 0⟩
/-- SHADOW of CLS_SEL, faults and logbook (chapter 14). -/
def clsSelShadow : Fld := ⟨263, 8, 8⟩
/-- ENTRY of CLS_SEL, faults and logbook (chapter 14). -/
def clsSelEntry : Fld := ⟨263, 7, 0⟩
/-- WORD of CLS_Wk, faults and logbook (chapter 14). -/
def clsWWord (k : Nat) : Fld := ⟨264 + k, 39, 0⟩
/-- LEVEL of CLS_STAT, faults and logbook (chapter 14). -/
def clsStatLevel : Fld := ⟨266, 39, 32⟩
/-- SHADOW of OPEN_SEL, faults and logbook (chapter 14). -/
def openSelShadow : Fld := ⟨267, 5, 5⟩
/-- INDEX of OPEN_SEL, faults and logbook (chapter 14). -/
def openSelIndex : Fld := ⟨267, 4, 0⟩
/-- VALID of OPEN_DATA, faults and logbook (chapter 14). -/
def openDataValid : Fld := ⟨268, 39, 39⟩
/-- SOURCE of OPEN_DATA, faults and logbook (chapter 14). -/
def openDataSource : Fld := ⟨268, 38, 25⟩
/-- KIND of OPEN_DATA, faults and logbook (chapter 14). -/
def openDataKind : Fld := ⟨268, 24, 19⟩
/-- CLASS of OPEN_DATA, faults and logbook (chapter 14). -/
def openDataClass : Fld := ⟨268, 18, 16⟩
/-- OUT of OPEN_DATA, faults and logbook (chapter 14). -/
def openDataOut : Fld := ⟨268, 15, 15⟩
/-- GRACE of OPEN_DATA, faults and logbook (chapter 14). -/
def openDataGrace : Fld := ⟨268, 14, 14⟩
/-- GRACE_LEFT of OPEN_DATA, faults and logbook (chapter 14). -/
def openDataGraceLeft : Fld := ⟨268, 13, 0⟩
/-- HIST_CLR of HIST_SEL, faults and logbook (chapter 14). -/
def histSelHistClr : Fld := ⟨269, 39, 39⟩
/-- FROZEN of HIST_SEL, faults and logbook (chapter 14). -/
def histSelFrozen : Fld := ⟨269, 4, 4⟩
/-- ENTRY of HIST_SEL, faults and logbook (chapter 14). -/
def histSelEntry : Fld := ⟨269, 3, 0⟩
/-- WORD of HIST_Wk, faults and logbook (chapter 14). -/
def histWWord (k : Nat) : Fld := ⟨270 + k, 39, 0⟩
/-- MODE of LOG_CURSOR, faults and logbook (chapter 14). -/
def logCursorMode : Fld := ⟨275, 39, 39⟩
/-- SEQ of LOG_CURSOR, faults and logbook (chapter 14). -/
def logCursorSeq : Fld := ⟨275, 37, 14⟩
/-- SLOT of LOG_CURSOR, faults and logbook (chapter 14). -/
def logCursorSlot : Fld := ⟨275, 12, 0⟩
/-- WORD of LOG_Wk, faults and logbook (chapter 14). -/
def logWWord (k : Nat) : Fld := ⟨276 + k, 39, 0⟩
/-- KEY of LOG_KEY, faults and logbook (chapter 14). -/
def logKeyKey : Fld := ⟨280, 39, 11⟩
/-- VALID of LOG_KEY, faults and logbook (chapter 14). -/
def logKeyValid : Fld := ⟨280, 10, 10⟩
/-- RETIRED of LOG_KEY, faults and logbook (chapter 14). -/
def logKeyRetired : Fld := ⟨280, 9, 9⟩
/-- DAMAGED of LOG_KEY, faults and logbook (chapter 14). -/
def logKeyDamaged : Fld := ⟨280, 8, 8⟩
/-- SEQ of LOG_HEAD, faults and logbook (chapter 14). -/
def logHeadSeq : Fld := ⟨281, 39, 16⟩
/-- EMPTY of LOG_HEAD, faults and logbook (chapter 14). -/
def logHeadEmpty : Fld := ⟨281, 15, 15⟩
/-- SLOT of LOG_HEAD, faults and logbook (chapter 14). -/
def logHeadSlot : Fld := ⟨281, 12, 0⟩
/-- FREE of BOOK_LOG, faults and logbook (chapter 14). -/
def bookLogFree : Fld := ⟨282, 39, 20⟩
/-- IN_FLIGHT of BOOK_LOG, faults and logbook (chapter 14). -/
def bookLogInFlight : Fld := ⟨282, 19, 0⟩
/-- TOTAL of LOG_CAP, faults and logbook (chapter 14). -/
def logCapTotal : Fld := ⟨283, 39, 26⟩
/-- RETIRED of LOG_CAP, faults and logbook (chapter 14). -/
def logCapRetired : Fld := ⟨283, 25, 12⟩
/-- IN_OVF of LOG_LOSTk, faults and logbook (chapter 14). -/
def logLostInOvf (k : Nat) : Fld := ⟨284 + k, 39, 39⟩
/-- INTAKE_LOST of LOG_LOSTk, faults and logbook (chapter 14). -/
def logLostIntakeLost (k : Nat) : Fld := ⟨284 + k, 38, 20⟩
/-- FL_OVF of LOG_LOSTk, faults and logbook (chapter 14). -/
def logLostFlOvf (k : Nat) : Fld := ⟨284 + k, 19, 19⟩
/-- FULL_LOST of LOG_LOSTk, faults and logbook (chapter 14). -/
def logLostFullLost (k : Nat) : Fld := ⟨284 + k, 18, 0⟩
/-- A of LOG_OCCk, faults and logbook (chapter 14). -/
def logOccA (k : Nat) : Fld := ⟨289 + k, 39, 26⟩
/-- B of LOG_OCCk, faults and logbook (chapter 14). -/
def logOccB (k : Nat) : Fld := ⟨289 + k, 25, 12⟩
/-- EMR_CLR of EMR_SEL, faults and logbook (chapter 14). -/
def emrSelEmrClr : Fld := ⟨291, 39, 39⟩
/-- ENTRY of EMR_SEL, faults and logbook (chapter 14). -/
def emrSelEntry : Fld := ⟨291, 3, 0⟩
/-- WORD of EMR_Wk, faults and logbook (chapter 14). -/
def emrWWord (k : Nat) : Fld := ⟨292 + k, 39, 0⟩
/-- FLUSHED of EMR_STAT, faults and logbook (chapter 14). -/
def emrStatFlushed : Fld := ⟨297, 39, 35⟩
/-- DAMAGE_N of EMR_STAT, faults and logbook (chapter 14). -/
def emrStatDamageN : Fld := ⟨297, 34, 32⟩
/-- FLUSH_DONE of EMR_STAT, faults and logbook (chapter 14). -/
def emrStatFlushDone : Fld := ⟨297, 31, 31⟩
/-- FI_GO of FI_CTRL, faults and logbook (chapter 14). -/
def fiCtrlFiGo : Fld := ⟨298, 39, 39⟩
/-- RESULT of FI_CTRL, faults and logbook (chapter 14). -/
def fiCtrlResult : Fld := ⟨298, 38, 37⟩
/-- MSG of FI_MSG0, faults and logbook (chapter 14). -/
def fiMsg0Msg : Fld := ⟨299, 39, 17⟩
/-- CONTEXT of FI_MSG1, faults and logbook (chapter 14). -/
def fiMsg1Context : Fld := ⟨300, 39, 0⟩
/-- PAIR_MODE of MEAS_CTRL, measurement (chapter 07). -/
def measCtrlPairMode : Fld := ⟨384, 15, 8⟩
/-- TRIM_RB_SEL of MEAS_CTRL, measurement (chapter 07). -/
def measCtrlTrimRbSel : Fld := ⟨384, 4, 0⟩
/-- URGENT of MEAS_REQ, measurement (chapter 07). -/
def measReqUrgent : Fld := ⟨385, 7, 7⟩
/-- GO of MEAS_REQ, measurement (chapter 07). -/
def measReqGo : Fld := ⟨385, 6, 6⟩
/-- MC of MEAS_REQ, measurement (chapter 07). -/
def measReqMc : Fld := ⟨385, 4, 0⟩
/-- BUSY of ADC_STATk, measurement (chapter 07). -/
def adcStatBusy (k : Nat) : Fld := ⟨386 + k, 39, 39⟩
/-- KIND of ADC_STATk, measurement (chapter 07). -/
def adcStatKind (k : Nat) : Fld := ⟨386 + k, 38, 37⟩
/-- MC of ADC_STATk, measurement (chapter 07). -/
def adcStatMc (k : Nat) : Fld := ⟨386 + k, 36, 32⟩
/-- QDEPTH of ADC_STATk, measurement (chapter 07). -/
def adcStatQdepth (k : Nat) : Fld := ⟨386 + k, 31, 28⟩
/-- URG_OVF of ADC_STATk, measurement (chapter 07). -/
def adcStatUrgOvf (k : Nat) : Fld := ⟨386 + k, 27, 27⟩
/-- URG_CNT of ADC_STATk, measurement (chapter 07). -/
def adcStatUrgCnt (k : Nat) : Fld := ⟨386 + k, 26, 14⟩
/-- DROP_OVF of ADC_STATk, measurement (chapter 07). -/
def adcStatDropOvf (k : Nat) : Fld := ⟨386 + k, 13, 13⟩
/-- DROP_CNT of ADC_STATk, measurement (chapter 07). -/
def adcStatDropCnt (k : Nat) : Fld := ⟨386 + k, 12, 0⟩
/-- FS_REF of CAL_CMD, measurement (chapter 07). -/
def calCmdFsRef : Fld := ⟨390, 39, 20⟩
/-- OP of CAL_CMD, measurement (chapter 07). -/
def calCmdOp : Fld := ⟨390, 7, 6⟩
/-- MC of CAL_CMD, measurement (chapter 07). -/
def calCmdMc : Fld := ⟨390, 4, 0⟩
/-- RESULT of CAL_STAT, measurement (chapter 07). -/
def calStatResult : Fld := ⟨391, 39, 37⟩
/-- MC of CAL_STAT, measurement (chapter 07). -/
def calStatMc : Fld := ⟨391, 36, 32⟩
/-- CAL_OVF of CAL_STAT, measurement (chapter 07). -/
def calStatCalOvf : Fld := ⟨391, 31, 31⟩
/-- CAL_CNT of CAL_STAT, measurement (chapter 07). -/
def calStatCalCnt : Fld := ⟨391, 30, 0⟩
/-- TIME of CAL_TIME_HI, measurement (chapter 07). -/
def calTimeHiTime : Fld := ⟨392, 39, 0⟩
/-- TIME of CAL_TIME_LO, measurement (chapter 07). -/
def calTimeLoTime : Fld := ⟨393, 39, 0⟩
/-- TIME of TRIM_TIME_HI, measurement (chapter 07). -/
def trimTimeHiTime : Fld := ⟨396, 39, 0⟩
/-- TIME of TRIM_TIME_LO, measurement (chapter 07). -/
def trimTimeLoTime : Fld := ⟨397, 39, 0⟩
/-- ALM_EN of TRIM_CTRL, measurement (chapter 07). -/
def trimCtrlAlmEn : Fld := ⟨394, 1, 1⟩
/-- PENDING of TRIM_CTRL, measurement (chapter 07). -/
def trimCtrlPending : Fld := ⟨394, 0, 0⟩
/-- TRIM_OVF of TRIM_STAT, measurement (chapter 07). -/
def trimStatTrimOvf : Fld := ⟨395, 39, 39⟩
/-- TRIM_CNT of TRIM_STAT, measurement (chapter 07). -/
def trimStatTrimCnt : Fld := ⟨395, 38, 16⟩
/-- TJ_ALM of TRIM_STAT, measurement (chapter 07). -/
def trimStatTjAlm : Fld := ⟨395, 15, 0⟩
/-- TRIM_A of TRIM_ACTk, measurement (chapter 07). -/
def trimActTrimA (k : Nat) : Fld := ⟨398 + k, 39, 30⟩
/-- TRIM_B of TRIM_ACTk, measurement (chapter 07). -/
def trimActTrimB (k : Nat) : Fld := ⟨398 + k, 29, 20⟩
/-- TRIM_C of TRIM_ACTk, measurement (chapter 07). -/
def trimActTrimC (k : Nat) : Fld := ⟨398 + k, 19, 10⟩
/-- TRIM_D of TRIM_ACTk, measurement (chapter 07). -/
def trimActTrimD (k : Nat) : Fld := ⟨398 + k, 9, 0⟩
/-- FINE of MC_VALk, measurement (chapter 07). -/
def mcValFine (k : Nat) : Fld := ⟨416 + k, 39, 20⟩
/-- FAST of MC_VALk, measurement (chapter 07). -/
def mcValFast (k : Nat) : Fld := ⟨416 + k, 19, 8⟩
/-- RESTARTED of MC_VALk, measurement (chapter 07). -/
def mcValRestarted (k : Nat) : Fld := ⟨416 + k, 7, 7⟩
/-- LATE of MC_VALk, measurement (chapter 07). -/
def mcValLate (k : Nat) : Fld := ⟨416 + k, 6, 6⟩
/-- SETTLED of MC_VALk, measurement (chapter 07). -/
def mcValSettled (k : Nat) : Fld := ⟨416 + k, 5, 5⟩
/-- OVR of MC_VALk, measurement (chapter 07). -/
def mcValOvr (k : Nat) : Fld := ⟨416 + k, 4, 4⟩
/-- OFFSET of MC_CALk, measurement (chapter 07). -/
def mcCalOffset (k : Nat) : Fld := ⟨448 + k, 39, 20⟩
/-- GAIN of MC_CALk, measurement (chapter 07). -/
def mcCalGain (k : Nat) : Fld := ⟨448 + k, 19, 0⟩
/-- GRANT_DELAY of CX_CTRLk, FE and PA block (chapters 06 and 07). -/
def cxCtrlGrantDelay (k : Nat) : Fld := ⟨512 + k, 25, 12⟩
/-- GPOL of CX_CTRLk, FE and PA block (chapters 06 and 07). -/
def cxCtrlGpol (k : Nat) : Fld := ⟨512 + k, 11, 10⟩
/-- ROLE of CX_CTRLk, FE and PA block (chapters 06 and 07). -/
def cxCtrlRole (k : Nat) : Fld := ⟨512 + k, 9, 8⟩
/-- REQ_INV of CX_CTRLk, FE and PA block (chapters 06 and 07). -/
def cxCtrlReqInv (k : Nat) : Fld := ⟨512 + k, 7, 7⟩
/-- GNT_INV of CX_CTRLk, FE and PA block (chapters 06 and 07). -/
def cxCtrlGntInv (k : Nat) : Fld := ⟨512 + k, 6, 6⟩
/-- PRI_INV of CX_CTRLk, FE and PA block (chapters 06 and 07). -/
def cxCtrlPriInv (k : Nat) : Fld := ⟨512 + k, 5, 5⟩
/-- PRI_FORCE of CX_CTRLk, FE and PA block (chapters 06 and 07). -/
def cxCtrlPriForce (k : Nat) : Fld := ⟨512 + k, 4, 4⟩
/-- REQ_LVL of CX_STATk, FE and PA block (chapters 06 and 07). -/
def cxStatReqLvl (k : Nat) : Fld := ⟨516 + k, 39, 39⟩
/-- GNT_LVL of CX_STATk, FE and PA block (chapters 06 and 07). -/
def cxStatGntLvl (k : Nat) : Fld := ⟨516 + k, 38, 38⟩
/-- PRI_LVL of CX_STATk, FE and PA block (chapters 06 and 07). -/
def cxStatPriLvl (k : Nat) : Fld := ⟨516 + k, 37, 37⟩
/-- WD_OVF of CX_STATk, FE and PA block (chapters 06 and 07). -/
def cxStatWdOvf (k : Nat) : Fld := ⟨516 + k, 33, 33⟩
/-- WD_CNT of CX_STATk, FE and PA block (chapters 06 and 07). -/
def cxStatWdCnt (k : Nat) : Fld := ⟨516 + k, 32, 20⟩
/-- GR_OVF of CX_STATk, FE and PA block (chapters 06 and 07). -/
def cxStatGrOvf (k : Nat) : Fld := ⟨516 + k, 19, 19⟩
/-- GRANT_CNT of CX_STATk, FE and PA block (chapters 06 and 07). -/
def cxStatGrantCnt (k : Nat) : Fld := ⟨516 + k, 18, 0⟩
/-- EN of PA_CTRLk, FE and PA block (chapters 06 and 07). -/
def paCtrlEn (k : Nat) : Fld := ⟨520 + k, 14, 14⟩
/-- MAN_CODE of PA_CTRLk, FE and PA block (chapters 06 and 07). -/
def paCtrlManCode (k : Nat) : Fld := ⟨520 + k, 13, 0⟩
/-- PA_EN_LVL of PA_STATk, FE and PA block (chapters 06 and 07). -/
def paStatPaEnLvl (k : Nat) : Fld := ⟨536 + k, 39, 39⟩
/-- LOOP_DRIVEN of PA_STATk, FE and PA block (chapters 06 and 07). -/
def paStatLoopDriven (k : Nat) : Fld := ⟨536 + k, 38, 38⟩
/-- LOOP of PA_STATk, FE and PA block (chapters 06 and 07). -/
def paStatLoop (k : Nat) : Fld := ⟨536 + k, 37, 33⟩
/-- DRV_CODE of PA_STATk, FE and PA block (chapters 06 and 07). -/
def paStatDrvCode (k : Nat) : Fld := ⟨536 + k, 13, 0⟩
/-- MODE of LOOP_CTRLk, FE and PA block (chapters 06 and 07). -/
def loopCtrlMode (k : Nat) : Fld := ⟨552 + 4 * k, 39, 38⟩
/-- HOLD of LOOP_CTRLk, FE and PA block (chapters 06 and 07). -/
def loopCtrlHold (k : Nat) : Fld := ⟨552 + 4 * k, 37, 37⟩
/-- RAMPING of LOOP_CTRLk, FE and PA block (chapters 06 and 07). -/
def loopCtrlRamping (k : Nat) : Fld := ⟨552 + 4 * k, 36, 36⟩
/-- CLAMPED of LOOP_CTRLk, FE and PA block (chapters 06 and 07). -/
def loopCtrlClamped (k : Nat) : Fld := ⟨552 + 4 * k, 35, 35⟩
/-- LATE of LOOP_CTRLk, FE and PA block (chapters 06 and 07). -/
def loopCtrlLate (k : Nat) : Fld := ⟨552 + 4 * k, 34, 34⟩
/-- PERIOD of LOOP_CTRLk, FE and PA block (chapters 06 and 07). -/
def loopCtrlPeriod (k : Nat) : Fld := ⟨552 + 4 * k, 19, 16⟩
/-- TKIND of LOOP_CTRLk, FE and PA block (chapters 06 and 07). -/
def loopCtrlTkind (k : Nat) : Fld := ⟨552 + 4 * k, 15, 14⟩
/-- TINDEX of LOOP_CTRLk, FE and PA block (chapters 06 and 07). -/
def loopCtrlTindex (k : Nat) : Fld := ⟨552 + 4 * k, 13, 8⟩
/-- MC of LOOP_CTRLk, FE and PA block (chapters 06 and 07). -/
def loopCtrlMc (k : Nat) : Fld := ⟨552 + 4 * k, 4, 0⟩
/-- SP of LOOP_SPk, FE and PA block (chapters 06 and 07). -/
def loopSpSp (k : Nat) : Fld := ⟨553 + 4 * k, 39, 0⟩
/-- MAN of LOOP_MANk, FE and PA block (chapters 06 and 07). -/
def loopManMan (k : Nat) : Fld := ⟨554 + 4 * k, 39, 0⟩
/-- OUT of LOOP_OUTk, FE and PA block (chapters 06 and 07). -/
def loopOutOut (k : Nat) : Fld := ⟨555 + 4 * k, 39, 0⟩
/-- RBD of CH_JRX_CFG, chain block (chapters 02 and 06). -/
def chJrxCfgRbd (n : Nat) : Fld := ⟨1024 + 32 * n, 9, 2⟩
/-- POL_INV of CH_JRX_CFG, chain block (chapters 02 and 06). -/
def chJrxCfgPolInv (n : Nat) : Fld := ⟨1024 + 32 * n, 1, 1⟩
/-- HALF_RATE of CH_JRX_CFG, chain block (chapters 02 and 06). -/
def chJrxCfgHalfRate (n : Nat) : Fld := ⟨1024 + 32 * n, 0, 0⟩
/-- LINK_UP of CH_JRX_STAT, chain block (chapters 02 and 06). -/
def chJrxStatLinkUp (n : Nat) : Fld := ⟨1025 + 32 * n, 4, 4⟩
/-- EMB_LOCK of CH_JRX_STAT, chain block (chapters 02 and 06). -/
def chJrxStatEmbLock (n : Nat) : Fld := ⟨1025 + 32 * n, 3, 3⟩
/-- SH_LOCK of CH_JRX_STAT, chain block (chapters 02 and 06). -/
def chJrxStatShLock (n : Nat) : Fld := ⟨1025 + 32 * n, 2, 2⟩
/-- LOST of CH_JRX_STAT, chain block (chapters 02 and 06). -/
def chJrxStatLost (n : Nat) : Fld := ⟨1025 + 32 * n, 1, 1⟩
/-- SYSREF_MISALIGN of CH_JRX_STAT, chain block (chapters 02 and 06). -/
def chJrxStatSysrefMisalign (n : Nat) : Fld := ⟨1025 + 32 * n, 0, 0⟩
/-- OVF of CH_JRX_CRCERR, chain block (chapters 02 and 06). -/
def chJrxCrcerrOvf (n : Nat) : Fld := ⟨1026 + 32 * n, 39, 39⟩
/-- COUNT of CH_JRX_CRCERR, chain block (chapters 02 and 06). -/
def chJrxCrcerrCount (n : Nat) : Fld := ⟨1026 + 32 * n, 38, 0⟩
/-- POL_INV of CH_JTX_CFG, chain block (chapters 02 and 06). -/
def chJtxCfgPolInv (n : Nat) : Fld := ⟨1027 + 32 * n, 1, 1⟩
/-- HALF_RATE of CH_JTX_CFG, chain block (chapters 02 and 06). -/
def chJtxCfgHalfRate (n : Nat) : Fld := ⟨1027 + 32 * n, 0, 0⟩
/-- SYSREF_MISALIGN of CH_JTX_STAT, chain block (chapters 02 and 06). -/
def chJtxStatSysrefMisalign (n : Nat) : Fld := ⟨1028 + 32 * n, 1, 1⟩
/-- RUNNING of CH_JTX_STAT, chain block (chapters 02 and 06). -/
def chJtxStatRunning (n : Nat) : Fld := ⟨1028 + 32 * n, 0, 0⟩
/-- OVF of CH_JTX_SATCNT, chain block (chapters 02 and 06). -/
def chJtxSatcntOvf (n : Nat) : Fld := ⟨1029 + 32 * n, 39, 39⟩
/-- COUNT of CH_JTX_SATCNT, chain block (chapters 02 and 06). -/
def chJtxSatcntCount (n : Nat) : Fld := ⟨1029 + 32 * n, 38, 0⟩
/-- LOCK_TIMEOUT of CH_FE_CFG, chain block (chapters 02 and 06). -/
def chFeCfgLockTimeout (n : Nat) : Fld := ⟨1030 + 32 * n, 27, 16⟩
/-- SYNTH_SETTLE of CH_FE_CFG, chain block (chapters 02 and 06). -/
def chFeCfgSynthSettle (n : Nat) : Fld := ⟨1030 + 32 * n, 15, 6⟩
/-- FE_AUTO of CH_FE_CFG, chain block (chapters 02 and 06). -/
def chFeCfgFeAuto (n : Nat) : Fld := ⟨1030 + 32 * n, 5, 5⟩
/-- CAL_MODE of CH_FE_CFG, chain block (chapters 02 and 06). -/
def chFeCfgCalMode (n : Nat) : Fld := ⟨1030 + 32 * n, 4, 4⟩
/-- CTRL of CH_FE_CFG, chain block (chapters 02 and 06). -/
def chFeCfgCtrl (n : Nat) : Fld := ⟨1030 + 32 * n, 3, 3⟩
/-- DUPLEX of CH_FE_CFG, chain block (chapters 02 and 06). -/
def chFeCfgDuplex (n : Nat) : Fld := ⟨1030 + 32 * n, 2, 2⟩
/-- RESULT of CH_FE_CMD, chain block (chapters 02 and 06). -/
def chFeCmdResult (n : Nat) : Fld := ⟨1031 + 32 * n, 15, 12⟩
/-- ARG of CH_FE_CMD, chain block (chapters 02 and 06). -/
def chFeCmdArg (n : Nat) : Fld := ⟨1031 + 32 * n, 7, 4⟩
/-- CMD of CH_FE_CMD, chain block (chapters 02 and 06). -/
def chFeCmdCmd (n : Nat) : Fld := ⟨1031 + 32 * n, 3, 0⟩
/-- STATE of CH_FE_STAT, chain block (chapters 02 and 06). -/
def chFeStatState (n : Nat) : Fld := ⟨1032 + 32 * n, 39, 36⟩
/-- TARGET of CH_FE_STAT, chain block (chapters 02 and 06). -/
def chFeStatTarget (n : Nat) : Fld := ⟨1032 + 32 * n, 35, 32⟩
/-- HELD_CMD of CH_FE_STAT, chain block (chapters 02 and 06). -/
def chFeStatHeldCmd (n : Nat) : Fld := ⟨1032 + 32 * n, 31, 28⟩
/-- HELD_ARG of CH_FE_STAT, chain block (chapters 02 and 06). -/
def chFeStatHeldArg (n : Nat) : Fld := ⟨1032 + 32 * n, 27, 24⟩
/-- CAL_BUSY of CH_FE_STAT, chain block (chapters 02 and 06). -/
def chFeStatCalBusy (n : Nat) : Fld := ⟨1032 + 32 * n, 23, 23⟩
/-- CAL_RUN of CH_FE_STAT, chain block (chapters 02 and 06). -/
def chFeStatCalRun (n : Nat) : Fld := ⟨1032 + 32 * n, 22, 20⟩
/-- PA_EN_OUT of CH_FE_STAT, chain block (chapters 02 and 06). -/
def chFeStatPaEnOut (n : Nat) : Fld := ⟨1032 + 32 * n, 19, 19⟩
/-- JTX_BLANK of CH_FE_STAT, chain block (chapters 02 and 06). -/
def chFeStatJtxBlank (n : Nat) : Fld := ⟨1032 + 32 * n, 18, 18⟩
/-- IN_SCHEDULE of CH_FE_STAT, chain block (chapters 02 and 06). -/
def chFeStatInSchedule (n : Nat) : Fld := ⟨1032 + 32 * n, 17, 17⟩
/-- FAULT_KIND of CH_FE_STAT, chain block (chapters 02 and 06). -/
def chFeStatFaultKind (n : Nat) : Fld := ⟨1032 + 32 * n, 16, 14⟩
/-- FAULT_ENTRY of CH_FE_STAT, chain block (chapters 02 and 06). -/
def chFeStatFaultEntry (n : Nat) : Fld := ⟨1032 + 32 * n, 11, 0⟩
/-- PENDING of CH_FE_CAL, chain block (chapters 02 and 06). -/
def chFeCalPending (n : Nat) : Fld := ⟨1033 + 32 * n, 39, 32⟩
/-- DONE of CH_FE_CAL, chain block (chapters 02 and 06). -/
def chFeCalDone (n : Nat) : Fld := ⟨1033 + 32 * n, 31, 24⟩
/-- FAIL_CONSEC of CH_FE_CAL, chain block (chapters 02 and 06). -/
def chFeCalFailConsec (n : Nat) : Fld := ⟨1033 + 32 * n, 23, 8⟩
/-- SW_OVF of CH_FE_CNT0, chain block (chapters 02 and 06). -/
def chFeCnt0SwOvf (n : Nat) : Fld := ⟨1034 + 32 * n, 39, 39⟩
/-- SWITCH_CNT of CH_FE_CNT0, chain block (chapters 02 and 06). -/
def chFeCnt0SwitchCnt (n : Nat) : Fld := ⟨1034 + 32 * n, 38, 20⟩
/-- SK_OVF of CH_FE_CNT0, chain block (chapters 02 and 06). -/
def chFeCnt0SkOvf (n : Nat) : Fld := ⟨1034 + 32 * n, 19, 19⟩
/-- SKIP_CNT of CH_FE_CNT0, chain block (chapters 02 and 06). -/
def chFeCnt0SkipCnt (n : Nat) : Fld := ⟨1034 + 32 * n, 18, 0⟩
/-- AB_OVF of CH_FE_CNT1, chain block (chapters 02 and 06). -/
def chFeCnt1AbOvf (n : Nat) : Fld := ⟨1035 + 32 * n, 39, 39⟩
/-- ABORT_CNT of CH_FE_CNT1, chain block (chapters 02 and 06). -/
def chFeCnt1AbortCnt (n : Nat) : Fld := ⟨1035 + 32 * n, 38, 26⟩
/-- RP_OVF of CH_FE_CNT1, chain block (chapters 02 and 06). -/
def chFeCnt1RpOvf (n : Nat) : Fld := ⟨1035 + 32 * n, 25, 25⟩
/-- REPLACE_CNT of CH_FE_CNT1, chain block (chapters 02 and 06). -/
def chFeCnt1ReplaceCnt (n : Nat) : Fld := ⟨1035 + 32 * n, 24, 13⟩
/-- LT_OVF of CH_FE_CNT1, chain block (chapters 02 and 06). -/
def chFeCnt1LtOvf (n : Nat) : Fld := ⟨1035 + 32 * n, 12, 12⟩
/-- SWITCH_LATE_CNT of CH_FE_CNT1, chain block (chapters 02 and 06). -/
def chFeCnt1SwitchLateCnt (n : Nat) : Fld := ⟨1035 + 32 * n, 11, 0⟩
/-- TIME of CH_FE_CAL_TIME_HI, chain block (chapters 02 and 06). -/
def chFeCalTimeHiTime (n : Nat) : Fld := ⟨1036 + 32 * n, 39, 0⟩
/-- TIME of CH_FE_CAL_TIME_LO, chain block (chapters 02 and 06). -/
def chFeCalTimeLoTime (n : Nat) : Fld := ⟨1037 + 32 * n, 39, 0⟩
/-- CAL of CH_FE_RESULTk, chain block (chapters 02 and 06). -/
def chFeResultCal (n k : Nat) : Fld := ⟨1038 + 32 * n + k, 34, 32⟩
/-- VALUE of CH_FE_RESULTk, chain block (chapters 02 and 06). -/
def chFeResultValue (n k : Nat) : Fld := ⟨1038 + 32 * n + k, 31, 0⟩
/-- MODE_FAST of GV_CFG, Guvan port block (chapter 11). -/
def gvCfgModeFast (n : Nat) : Fld := ⟨1536 + 64 * n, 39, 37⟩
/-- MODE_SLOW of GV_CFG, Guvan port block (chapter 11). -/
def gvCfgModeSlow (n : Nat) : Fld := ⟨1536 + 64 * n, 36, 34⟩
/-- AUTO_DOWN of GV_CFG, Guvan port block (chapter 11). -/
def gvCfgAutoDown (n : Nat) : Fld := ⟨1536 + 64 * n, 33, 33⟩
/-- ROLE of GV_CFG, Guvan port block (chapter 11). -/
def gvCfgRole (n : Nat) : Fld := ⟨1536 + 64 * n, 32, 31⟩
/-- LEAD of GV_CFG, Guvan port block (chapter 11). -/
def gvCfgLead (n : Nat) : Fld := ⟨1536 + 64 * n, 30, 30⟩
/-- TX_MASK of GV_CFG, Guvan port block (chapter 11). -/
def gvCfgTxMask (n : Nat) : Fld := ⟨1536 + 64 * n, 29, 28⟩
/-- RETRAIN of GV_CTRL, Guvan port block (chapter 11). -/
def gvCtrlRetrain (n : Nat) : Fld := ⟨1537 + 64 * n, 1, 1⟩
/-- ENABLE of GV_CTRL, Guvan port block (chapter 11). -/
def gvCtrlEnable (n : Nat) : Fld := ⟨1537 + 64 * n, 0, 0⟩
/-- LSTATE of GV_STAT, Guvan port block (chapter 11). -/
def gvStatLstate (n : Nat) : Fld := ⟨1538 + 64 * n, 39, 37⟩
/-- MODE of GV_STAT, Guvan port block (chapter 11). -/
def gvStatMode (n : Nat) : Fld := ⟨1538 + 64 * n, 36, 34⟩
/-- P_HARBOUR of GV_STAT, Guvan port block (chapter 11). -/
def gvStatPHarbour (n : Nat) : Fld := ⟨1538 + 64 * n, 33, 33⟩
/-- P_TIME_LOCK of GV_STAT, Guvan port block (chapter 11). -/
def gvStatPTimeLock (n : Nat) : Fld := ⟨1538 + 64 * n, 32, 32⟩
/-- P_STRATUM of GV_STAT, Guvan port block (chapter 11). -/
def gvStatPStratum (n : Nat) : Fld := ⟨1538 + 64 * n, 31, 26⟩
/-- P_ADDR_VALID of GV_STAT, Guvan port block (chapter 11). -/
def gvStatPAddrValid (n : Nat) : Fld := ⟨1538 + 64 * n, 25, 25⟩
/-- P_ADDR of GV_STAT, Guvan port block (chapter 11). -/
def gvStatPAddr (n : Nat) : Fld := ⟨1538 + 64 * n, 24, 7⟩
/-- MAP_MISMATCH of GV_STAT, Guvan port block (chapter 11). -/
def gvStatMapMismatch (n : Nat) : Fld := ⟨1538 + 64 * n, 6, 6⟩
/-- SNR of GV_PHY, Guvan port block (chapter 11). -/
def gvPhySnr (n : Nat) : Fld := ⟨1539 + 64 * n, 39, 24⟩
/-- LOSS_EST of GV_PHY, Guvan port block (chapter 11). -/
def gvPhyLossEst (n : Nat) : Fld := ⟨1539 + 64 * n, 23, 8⟩
/-- VALUE of GV_NOISE, Guvan port block (chapter 11). -/
def gvNoiseValue (n : Nat) : Fld := ⟨1540 + 64 * n, 39, 0⟩
/-- VALUE of GV_DELAY, Guvan port block (chapter 11). -/
def gvDelayValue (n : Nat) : Fld := ⟨1541 + 64 * n, 39, 0⟩
/-- VALUE of GV_FREQ, Guvan port block (chapter 11). -/
def gvFreqValue (n : Nat) : Fld := ⟨1542 + 64 * n, 39, 0⟩
/-- FREE of BOOK_GVCR, Guvan port block (chapter 11). -/
def bookGvcrFree (n : Nat) : Fld := ⟨1543 + 64 * n, 39, 20⟩
/-- IN_FLIGHT of BOOK_GVCR, Guvan port block (chapter 11). -/
def bookGvcrInFlight (n : Nat) : Fld := ⟨1543 + 64 * n, 19, 0⟩
/-- OCCUPIED of GV_RXBUF, Guvan port block (chapter 11). -/
def gvRxbufOccupied (n : Nat) : Fld := ⟨1544 + 64 * n, 39, 33⟩
/-- OWED of GV_RXBUF, Guvan port block (chapter 11). -/
def gvRxbufOwed (n : Nat) : Fld := ⟨1544 + 64 * n, 32, 26⟩
/-- RX_BLK of GV_RXBUF, Guvan port block (chapter 11). -/
def gvRxbufRxBlk (n : Nat) : Fld := ⟨1544 + 64 * n, 25, 10⟩
/-- CORR_OVF of GV_FEC, Guvan port block (chapter 11). -/
def gvFecCorrOvf (n : Nat) : Fld := ⟨1545 + 64 * n, 39, 39⟩
/-- CORR_CNT of GV_FEC, Guvan port block (chapter 11). -/
def gvFecCorrCnt (n : Nat) : Fld := ⟨1545 + 64 * n, 38, 20⟩
/-- UNC_OVF of GV_FEC, Guvan port block (chapter 11). -/
def gvFecUncOvf (n : Nat) : Fld := ⟨1545 + 64 * n, 19, 19⟩
/-- UNC_CNT of GV_FEC, Guvan port block (chapter 11). -/
def gvFecUncCnt (n : Nat) : Fld := ⟨1545 + 64 * n, 18, 0⟩
/-- AL_OVF of GV_LINKCNT, Guvan port block (chapter 11). -/
def gvLinkcntAlOvf (n : Nat) : Fld := ⟨1546 + 64 * n, 39, 39⟩
/-- ALIGN_LOSS of GV_LINKCNT, Guvan port block (chapter 11). -/
def gvLinkcntAlignLoss (n : Nat) : Fld := ⟨1546 + 64 * n, 38, 20⟩
/-- TF_OVF of GV_LINKCNT, Guvan port block (chapter 11). -/
def gvLinkcntTfOvf (n : Nat) : Fld := ⟨1546 + 64 * n, 19, 19⟩
/-- TRAIN_FAIL of GV_LINKCNT, Guvan port block (chapter 11). -/
def gvLinkcntTrainFail (n : Nat) : Fld := ⟨1546 + 64 * n, 18, 0⟩
/-- RX_OVF of GV_MSGCNT, Guvan port block (chapter 11). -/
def gvMsgcntRxOvf (n : Nat) : Fld := ⟨1547 + 64 * n, 39, 39⟩
/-- RX_MSG of GV_MSGCNT, Guvan port block (chapter 11). -/
def gvMsgcntRxMsg (n : Nat) : Fld := ⟨1547 + 64 * n, 38, 20⟩
/-- DR_OVF of GV_MSGCNT, Guvan port block (chapter 11). -/
def gvMsgcntDrOvf (n : Nat) : Fld := ⟨1547 + 64 * n, 19, 19⟩
/-- DROP_MSG of GV_MSGCNT, Guvan port block (chapter 11). -/
def gvMsgcntDropMsg (n : Nat) : Fld := ⟨1547 + 64 * n, 18, 0⟩
/-- SL_OVF of GV_SLIP, Guvan port block (chapter 11). -/
def gvSlipSlOvf (n : Nat) : Fld := ⟨1548 + 64 * n, 39, 39⟩
/-- SLIP_CNT of GV_SLIP, Guvan port block (chapter 11). -/
def gvSlipSlipCnt (n : Nat) : Fld := ⟨1548 + 64 * n, 38, 20⟩
/-- AD_OVF of GV_SLIP, Guvan port block (chapter 11). -/
def gvSlipAdOvf (n : Nat) : Fld := ⟨1548 + 64 * n, 19, 19⟩
/-- ALARM_DROP of GV_SLIP, Guvan port block (chapter 11). -/
def gvSlipAlarmDrop (n : Nat) : Fld := ⟨1548 + 64 * n, 18, 0⟩
/-- TRAIN_MS of GV_TRAIN, Guvan port block (chapter 11). -/
def gvTrainTrainMs (n : Nat) : Fld := ⟨1549 + 64 * n, 39, 32⟩
/-- TURNS of GV_TRAIN, Guvan port block (chapter 11). -/
def gvTrainTurns (n : Nat) : Fld := ⟨1549 + 64 * n, 31, 16⟩
/-- HELLO_DELAY of GV_TRAIN, Guvan port block (chapter 11). -/
def gvTrainHelloDelay (n : Nat) : Fld := ⟨1549 + 64 * n, 15, 0⟩
/-- TAP of GV_SHAPEk, Guvan port block (chapter 11). -/
def gvShapeTap (n k : Nat) : Fld := ⟨1552 + 64 * n + k, 9, 0⟩
/-- ACTIVE of GV_LAUNCH, Guvan port block (chapter 11). -/
def gvLaunchActive (n : Nat) : Fld := ⟨1568 + 64 * n, 23, 20⟩
/-- TB4 of GV_LAUNCH, Guvan port block (chapter 11). -/
def gvLaunchTb4 (n : Nat) : Fld := ⟨1568 + 64 * n, 19, 16⟩
/-- TB3 of GV_LAUNCH, Guvan port block (chapter 11). -/
def gvLaunchTb3 (n : Nat) : Fld := ⟨1568 + 64 * n, 15, 12⟩
/-- TB2 of GV_LAUNCH, Guvan port block (chapter 11). -/
def gvLaunchTb2 (n : Nat) : Fld := ⟨1568 + 64 * n, 11, 8⟩
/-- TB1 of GV_LAUNCH, Guvan port block (chapter 11). -/
def gvLaunchTb1 (n : Nat) : Fld := ⟨1568 + 64 * n, 7, 4⟩
/-- TB0 of GV_LAUNCH, Guvan port block (chapter 11). -/
def gvLaunchTb0 (n : Nat) : Fld := ⟨1568 + 64 * n, 3, 0⟩
/-- RSMP_RETRY of BP_CTRL, band path block (chapters 02 to 05). -/
def bpCtrlRsmpRetry (n : Nat) : Fld := ⟨4096 + 16 * n, 2, 2⟩
/-- METER_RESTART of BP_CTRL, band path block (chapters 02 to 05). -/
def bpCtrlMeterRestart (n : Nat) : Fld := ⟨4096 + 16 * n, 1, 1⟩
/-- DC_FREEZE of BP_CTRL, band path block (chapters 02 to 05). -/
def bpCtrlDcFreeze (n : Nat) : Fld := ⟨4096 + 16 * n, 0, 0⟩
/-- FREQ of BP_NCO, band path block (chapters 02 to 05). -/
def bpNcoFreq (n : Nat) : Fld := ⟨4097 + 16 * n, 31, 0⟩
/-- MODE of BP_PATH, band path block (chapters 02 to 05). -/
def bpPathMode (n : Nat) : Fld := ⟨4098 + 16 * n, 39, 38⟩
/-- PRESET of BP_PATH, band path block (chapters 02 to 05). -/
def bpPathPreset (n : Nat) : Fld := ⟨4098 + 16 * n, 37, 36⟩
/-- STAGES of BP_PATH, band path block (chapters 02 to 05). -/
def bpPathStages (n : Nat) : Fld := ⟨4098 + 16 * n, 35, 33⟩
/-- HB6 of BP_PATH, band path block (chapters 02 to 05). -/
def bpPathHb6 (n : Nat) : Fld := ⟨4098 + 16 * n, 32, 31⟩
/-- HB5 of BP_PATH, band path block (chapters 02 to 05). -/
def bpPathHb5 (n : Nat) : Fld := ⟨4098 + 16 * n, 30, 29⟩
/-- HB4 of BP_PATH, band path block (chapters 02 to 05). -/
def bpPathHb4 (n : Nat) : Fld := ⟨4098 + 16 * n, 28, 27⟩
/-- HB3 of BP_PATH, band path block (chapters 02 to 05). -/
def bpPathHb3 (n : Nat) : Fld := ⟨4098 + 16 * n, 26, 25⟩
/-- HB2 of BP_PATH, band path block (chapters 02 to 05). -/
def bpPathHb2 (n : Nat) : Fld := ⟨4098 + 16 * n, 24, 23⟩
/-- HB1 of BP_PATH, band path block (chapters 02 to 05). -/
def bpPathHb1 (n : Nat) : Fld := ⟨4098 + 16 * n, 22, 21⟩
/-- CF of BP_PATH, band path block (chapters 02 to 05). -/
def bpPathCf (n : Nat) : Fld := ⟨4098 + 16 * n, 20, 17⟩
/-- DC_K of BP_PATH, band path block (chapters 02 to 05). -/
def bpPathDcK (n : Nat) : Fld := ⟨4098 + 16 * n, 16, 12⟩
/-- RSMP_INST of BP_PATH, band path block (chapters 02 to 05). -/
def bpPathRsmpInst (n : Nat) : Fld := ⟨4098 + 16 * n, 11, 6⟩
/-- RSMP_HELD of BP_PATH, band path block (chapters 02 to 05). -/
def bpPathRsmpHeld (n : Nat) : Fld := ⟨4098 + 16 * n, 5, 5⟩
/-- STEP of BP_RSMP_STEP, band path block (chapters 02 to 05). -/
def bpRsmpStepStep (n : Nat) : Fld := ⟨4099 + 16 * n, 33, 0⟩
/-- DEST3 of BP_EGRESS, band path block (chapters 02 to 05). -/
def bpEgressDest3 (n : Nat) : Fld := ⟨4100 + 16 * n, 39, 30⟩
/-- DEST2 of BP_EGRESS, band path block (chapters 02 to 05). -/
def bpEgressDest2 (n : Nat) : Fld := ⟨4100 + 16 * n, 29, 20⟩
/-- DEST1 of BP_EGRESS, band path block (chapters 02 to 05). -/
def bpEgressDest1 (n : Nat) : Fld := ⟨4100 + 16 * n, 19, 10⟩
/-- DEST0 of BP_EGRESS, band path block (chapters 02 to 05). -/
def bpEgressDest0 (n : Nat) : Fld := ⟨4100 + 16 * n, 9, 0⟩
/-- LEVEL of BP_PWR_COARSE, band path block (chapters 02 to 05). -/
def bpPwrCoarseLevel (n : Nat) : Fld := ⟨4101 + 16 * n, 39, 0⟩
/-- LEVEL of BP_PWR_FINE, band path block (chapters 02 to 05). -/
def bpPwrFineLevel (n : Nat) : Fld := ⟨4102 + 16 * n, 39, 0⟩
/-- FINE_READY of BP_STAT, band path block (chapters 02 to 05). -/
def bpStatFineReady (n : Nat) : Fld := ⟨4103 + 16 * n, 39, 39⟩
/-- COARSE_N of BP_STAT, band path block (chapters 02 to 05). -/
def bpStatCoarseN (n : Nat) : Fld := ⟨4103 + 16 * n, 38, 32⟩
/-- VALID_OUT of BP_STAT, band path block (chapters 02 to 05). -/
def bpStatValidOut (n : Nat) : Fld := ⟨4103 + 16 * n, 31, 31⟩
/-- DC_FROZEN of BP_STAT, band path block (chapters 02 to 05). -/
def bpStatDcFrozen (n : Nat) : Fld := ⟨4103 + 16 * n, 30, 30⟩
/-- SAT_OVF of BP_STAT, band path block (chapters 02 to 05). -/
def bpStatSatOvf (n : Nat) : Fld := ⟨4103 + 16 * n, 23, 23⟩
/-- SAT_CNT of BP_STAT, band path block (chapters 02 to 05). -/
def bpStatSatCnt (n : Nat) : Fld := ⟨4103 + 16 * n, 22, 0⟩
/-- SWAP_ARM of BP_BW_CTRL, band path block (chapters 02 to 05). -/
def bpBwCtrlSwapArm (n : Nat) : Fld := ⟨4104 + 16 * n, 39, 39⟩
/-- ACTIVE_BANK of BP_BW_CTRL, band path block (chapters 02 to 05). -/
def bpBwCtrlActiveBank (n : Nat) : Fld := ⟨4104 + 16 * n, 38, 38⟩
/-- SWAP_RESULT of BP_BW_CTRL, band path block (chapters 02 to 05). -/
def bpBwCtrlSwapResult (n : Nat) : Fld := ⟨4104 + 16 * n, 37, 35⟩
/-- FLOOR of BP_BW_CTRL, band path block (chapters 02 to 05). -/
def bpBwCtrlFloor (n : Nat) : Fld := ⟨4104 + 16 * n, 34, 24⟩
/-- SWAP_SEQ of BP_BW_CTRL, band path block (chapters 02 to 05). -/
def bpBwCtrlSwapSeq (n : Nat) : Fld := ⟨4104 + 16 * n, 23, 0⟩
/-- MARGIN of BP_BW_STAT, band path block (chapters 02 to 05). -/
def bpBwStatMargin (n : Nat) : Fld := ⟨4105 + 16 * n, 39, 24⟩
/-- CEILING of BP_BW_STAT, band path block (chapters 02 to 05). -/
def bpBwStatCeiling (n : Nat) : Fld := ⟨4105 + 16 * n, 23, 8⟩
/-- OSC_TRIP of BP_BW_STAT, band path block (chapters 02 to 05). -/
def bpBwStatOscTrip (n : Nat) : Fld := ⟨4105 + 16 * n, 7, 7⟩
/-- MARGIN_MUTE of BP_BW_STAT, band path block (chapters 02 to 05). -/
def bpBwStatMarginMute (n : Nat) : Fld := ⟨4105 + 16 * n, 6, 6⟩
/-- BACKOFF of BP_BW_STAT, band path block (chapters 02 to 05). -/
def bpBwStatBackoff (n : Nat) : Fld := ⟨4105 + 16 * n, 5, 5⟩
/-- FAST_QUAL of BP_BW_STAT, band path block (chapters 02 to 05). -/
def bpBwStatFastQual (n : Nat) : Fld := ⟨4105 + 16 * n, 4, 4⟩
/-- RES_BOUND of BP_BW_STAT, band path block (chapters 02 to 05). -/
def bpBwStatResBound (n : Nat) : Fld := ⟨4105 + 16 * n, 3, 3⟩
/-- PROBE_ON of BP_BW_STAT, band path block (chapters 02 to 05). -/
def bpBwStatProbeOn (n : Nat) : Fld := ⟨4105 + 16 * n, 2, 2⟩
/-- ISO_SRC of BP_BW_STAT, band path block (chapters 02 to 05). -/
def bpBwStatIsoSrc (n : Nat) : Fld := ⟨4105 + 16 * n, 1, 0⟩
/-- GAIN_SET of BP_GAIN, band path block (chapters 02 to 05). -/
def bpGainGainSet (n : Nat) : Fld := ⟨4106 + 16 * n, 39, 24⟩
/-- GAIN_STEP of BP_GAIN, band path block (chapters 02 to 05). -/
def bpGainGainStep (n : Nat) : Fld := ⟨4106 + 16 * n, 23, 13⟩
/-- GATE_STATE of BP_GAIN, band path block (chapters 02 to 05). -/
def bpGainGateState (n : Nat) : Fld := ⟨4106 + 16 * n, 12, 10⟩
/-- AGC_FROZEN of BP_GAIN, band path block (chapters 02 to 05). -/
def bpGainAgcFrozen (n : Nat) : Fld := ⟨4106 + 16 * n, 9, 9⟩
/-- RAMP_DONE of BP_GAIN, band path block (chapters 02 to 05). -/
def bpGainRampDone (n : Nat) : Fld := ⟨4106 + 16 * n, 8, 8⟩
/-- AGC_HOLD of BP_GAIN, band path block (chapters 02 to 05). -/
def bpGainAgcHold (n : Nat) : Fld := ⟨4106 + 16 * n, 7, 7⟩
/-- NR_CAPTURE of BP_GAIN, band path block (chapters 02 to 05). -/
def bpGainNrCapture (n : Nat) : Fld := ⟨4106 + 16 * n, 6, 6⟩
/-- EG_METER_RESTART of BP_GAIN, band path block (chapters 02 to 05). -/
def bpGainEgMeterRestart (n : Nat) : Fld := ⟨4106 + 16 * n, 5, 5⟩
/-- MASK_VERDICT of BP_GAIN, band path block (chapters 02 to 05). -/
def bpGainMaskVerdict (n : Nat) : Fld := ⟨4106 + 16 * n, 4, 0⟩
/-- STATE of BP_PROT, band path block (chapters 02 to 05). -/
def bpProtState (n : Nat) : Fld := ⟨4107 + 16 * n, 39, 37⟩
/-- CAUSE of BP_PROT, band path block (chapters 02 to 05). -/
def bpProtCause (n : Nat) : Fld := ⟨4107 + 16 * n, 36, 33⟩
/-- HELD of BP_PROT, band path block (chapters 02 to 05). -/
def bpProtHeld (n : Nat) : Fld := ⟨4107 + 16 * n, 32, 28⟩
/-- RETRY_EXP of BP_PROT, band path block (chapters 02 to 05). -/
def bpProtRetryExp (n : Nat) : Fld := ⟨4107 + 16 * n, 27, 24⟩
/-- HOUR_CNT of BP_PROT, band path block (chapters 02 to 05). -/
def bpProtHourCnt (n : Nat) : Fld := ⟨4107 + 16 * n, 23, 20⟩
/-- RETRY_LEFT of BP_PROT, band path block (chapters 02 to 05). -/
def bpProtRetryLeft (n : Nat) : Fld := ⟨4107 + 16 * n, 19, 11⟩
/-- OFF_REASON of BP_PROT, band path block (chapters 02 to 05). -/
def bpProtOffReason (n : Nat) : Fld := ⟨4107 + 16 * n, 10, 8⟩
/-- LOCK_ACK of BP_PROT, band path block (chapters 02 to 05). -/
def bpProtLockAck (n : Nat) : Fld := ⟨4107 + 16 * n, 1, 1⟩
/-- ENABLE of BP_PROT, band path block (chapters 02 to 05). -/
def bpProtEnable (n : Nat) : Fld := ⟨4107 + 16 * n, 0, 0⟩
/-- RESTART of ENG_CTRL, engine block (chapter 08). -/
def engCtrlRestart (n : Nat) : Fld := ⟨8192 + 8 * n, 2, 2⟩
/-- RESUME of ENG_CTRL, engine block (chapter 08). -/
def engCtrlResume (n : Nat) : Fld := ⟨8192 + 8 * n, 1, 1⟩
/-- HALT of ENG_CTRL, engine block (chapter 08). -/
def engCtrlHalt (n : Nat) : Fld := ⟨8192 + 8 * n, 0, 0⟩
/-- STATE of ENG_STAT, engine block (chapter 08). -/
def engStatState (n : Nat) : Fld := ⟨8193 + 8 * n, 39, 37⟩
/-- BERTH of ENG_STAT, engine block (chapter 08). -/
def engStatBerth (n : Nat) : Fld := ⟨8193 + 8 * n, 36, 33⟩
/-- URGENT of ENG_STAT, engine block (chapter 08). -/
def engStatUrgent (n : Nat) : Fld := ⟨8193 + 8 * n, 32, 32⟩
/-- SUSPENDED of ENG_STAT, engine block (chapter 08). -/
def engStatSuspended (n : Nat) : Fld := ⟨8193 + 8 * n, 31, 16⟩
/-- LAST_FAULT of ENG_STAT, engine block (chapter 08). -/
def engStatLastFault (n : Nat) : Fld := ⟨8193 + 8 * n, 15, 8⟩
/-- ACCSAT_ANY of ENG_STAT, engine block (chapter 08). -/
def engStatAccsatAny (n : Nat) : Fld := ⟨8193 + 8 * n, 1, 1⟩
/-- SAT_ANY of ENG_STAT, engine block (chapter 08). -/
def engStatSatAny (n : Nat) : Fld := ⟨8193 + 8 * n, 0, 0⟩
/-- BERTH of ENG_PC, engine block (chapter 08). -/
def engPcBerth (n : Nat) : Fld := ⟨8194 + 8 * n, 39, 36⟩
/-- PC of ENG_PC, engine block (chapter 08). -/
def engPcPc (n : Nat) : Fld := ⟨8194 + 8 * n, 28, 16⟩
/-- PROG of ENG_PC, engine block (chapter 08). -/
def engPcProg (n : Nat) : Fld := ⟨8194 + 8 * n, 9, 0⟩
/-- WORD of ENG_MB_IN, engine block (chapter 08). -/
def engMbInWord (n : Nat) : Fld := ⟨8195 + 8 * n, 39, 0⟩
/-- LAST_USED of ENG_LOAD, engine block (chapter 08). -/
def engLoadLastUsed (n : Nat) : Fld := ⟨8196 + 8 * n, 39, 29⟩
/-- PEAK_USED of ENG_LOAD, engine block (chapter 08). -/
def engLoadPeakUsed (n : Nat) : Fld := ⟨8196 + 8 * n, 28, 18⟩
/-- IN_N of ENG_MB_STAT, engine block (chapter 08). -/
def engMbStatInN (n : Nat) : Fld := ⟨8197 + 8 * n, 39, 36⟩
/-- OUT_N of ENG_MB_STAT, engine block (chapter 08). -/
def engMbStatOutN (n : Nat) : Fld := ⟨8197 + 8 * n, 35, 32⟩
/-- IN_OVF of ENG_MB_STAT, engine block (chapter 08). -/
def engMbStatInOvf (n : Nat) : Fld := ⟨8197 + 8 * n, 31, 31⟩
/-- IN_DROP of ENG_MB_STAT, engine block (chapter 08). -/
def engMbStatInDrop (n : Nat) : Fld := ⟨8197 + 8 * n, 30, 21⟩
/-- FULL_OVF of ENG_MB_STAT, engine block (chapter 08). -/
def engMbStatFullOvf (n : Nat) : Fld := ⟨8197 + 8 * n, 20, 20⟩
/-- FULL_CNT of ENG_MB_STAT, engine block (chapter 08). -/
def engMbStatFullCnt (n : Nat) : Fld := ⟨8197 + 8 * n, 19, 10⟩
/-- RING_OVF of ENG_MB_STAT, engine block (chapter 08). -/
def engMbStatRingOvf (n : Nat) : Fld := ⟨8197 + 8 * n, 9, 9⟩
/-- RING_DROP of ENG_MB_STAT, engine block (chapter 08). -/
def engMbStatRingDrop (n : Nat) : Fld := ⟨8197 + 8 * n, 8, 0⟩
/-- CLK_EN of QUAY_CTRL, quay block (chapters 08 and 10). -/
def quayCtrlClkEn (n : Nat) : Fld := ⟨12288 + 128 * n, 0, 0⟩
/-- CLK_GRANTED of QUAY_STAT, quay block (chapters 08 and 10). -/
def quayStatClkGranted (n : Nat) : Fld := ⟨12289 + 128 * n, 39, 39⟩
/-- HALTED of QUAY_STAT, quay block (chapters 08 and 10). -/
def quayStatHalted (n : Nat) : Fld := ⟨12289 + 128 * n, 38, 23⟩
/-- RUNNING of QUAY_STAT, quay block (chapters 08 and 10). -/
def quayStatRunning (n : Nat) : Fld := ⟨12289 + 128 * n, 22, 7⟩
/-- FREE of BOOK_DESC, quay block (chapters 08 and 10). -/
def bookDescFree (n : Nat) : Fld := ⟨12290 + 128 * n, 39, 20⟩
/-- IN_FLIGHT of BOOK_DESC, quay block (chapters 08 and 10). -/
def bookDescInFlight (n : Nat) : Fld := ⟨12290 + 128 * n, 19, 0⟩
/-- CORR_OVF of QUAY_MEM, quay block (chapters 08 and 10). -/
def quayMemCorrOvf (n : Nat) : Fld := ⟨12291 + 128 * n, 39, 39⟩
/-- CORR_CNT of QUAY_MEM, quay block (chapters 08 and 10). -/
def quayMemCorrCnt (n : Nat) : Fld := ⟨12291 + 128 * n, 38, 20⟩
/-- UNC_OVF of QUAY_MEM, quay block (chapters 08 and 10). -/
def quayMemUncOvf (n : Nat) : Fld := ⟨12291 + 128 * n, 19, 19⟩
/-- UNC_CNT of QUAY_MEM, quay block (chapters 08 and 10). -/
def quayMemUncCnt (n : Nat) : Fld := ⟨12291 + 128 * n, 18, 0⟩
/-- PASS_SEQ of QUAY_SCRUB, quay block (chapters 08 and 10). -/
def quayScrubPassSeq (n : Nat) : Fld := ⟨12292 + 128 * n, 39, 16⟩
/-- TB of QUAY_SCRUB, quay block (chapters 08 and 10). -/
def quayScrubTb (n : Nat) : Fld := ⟨12292 + 128 * n, 15, 13⟩
/-- OVR_OVF of QUAY_SCHED, quay block (chapters 08 and 10). -/
def quaySchedOvrOvf (n : Nat) : Fld := ⟨12293 + 128 * n, 39, 39⟩
/-- OVERRUN_CNT of QUAY_SCHED, quay block (chapters 08 and 10). -/
def quaySchedOverrunCnt (n : Nat) : Fld := ⟨12293 + 128 * n, 38, 20⟩
/-- PRE_OVF of QUAY_SCHED, quay block (chapters 08 and 10). -/
def quaySchedPreOvf (n : Nat) : Fld := ⟨12293 + 128 * n, 19, 19⟩
/-- PREEMPT_CNT of QUAY_SCHED, quay block (chapters 08 and 10). -/
def quaySchedPreemptCnt (n : Nat) : Fld := ⟨12293 + 128 * n, 18, 0⟩
/-- STATE of DL_STAT, quay block (chapters 08 and 10). -/
def dlStatState (n : Nat) : Fld := ⟨12294 + 128 * n, 39, 37⟩
/-- QUEUED of DL_STAT, quay block (chapters 08 and 10). -/
def dlStatQueued (n : Nat) : Fld := ⟨12294 + 128 * n, 36, 32⟩
/-- FAULT of DL_STAT, quay block (chapters 08 and 10). -/
def dlStatFault (n : Nat) : Fld := ⟨12294 + 128 * n, 31, 28⟩
/-- DONE of DL_STAT, quay block (chapters 08 and 10). -/
def dlStatDone (n : Nat) : Fld := ⟨12294 + 128 * n, 27, 20⟩
/-- REMAINING of DL_STAT, quay block (chapters 08 and 10). -/
def dlStatRemaining (n : Nat) : Fld := ⟨12294 + 128 * n, 19, 0⟩
/-- NEXT_ADDR of DL_POS, quay block (chapters 08 and 10). -/
def dlPosNextAddr (n : Nat) : Fld := ⟨12295 + 128 * n, 39, 16⟩
/-- FSIDE of DL_POS, quay block (chapters 08 and 10). -/
def dlPosFside (n : Nat) : Fld := ⟨12295 + 128 * n, 15, 15⟩
/-- ABORT of DL_POS, quay block (chapters 08 and 10). -/
def dlPosAbort (n : Nat) : Fld := ⟨12295 + 128 * n, 14, 14⟩
/-- RESUME of DL_POS, quay block (chapters 08 and 10). -/
def dlPosResume (n : Nat) : Fld := ⟨12295 + 128 * n, 13, 13⟩
/-- SLOT of DL_POS, quay block (chapters 08 and 10). -/
def dlPosSlot (n : Nat) : Fld := ⟨12295 + 128 * n, 9, 0⟩
/-- STATE of LTR_STATk, quay block (chapters 08 and 10). -/
def ltrStatState (n k : Nat) : Fld := ⟨12320 + 128 * n + k, 39, 37⟩
/-- QUEUED of LTR_STATk, quay block (chapters 08 and 10). -/
def ltrStatQueued (n k : Nat) : Fld := ⟨12320 + 128 * n + k, 36, 32⟩
/-- FAULT of LTR_STATk, quay block (chapters 08 and 10). -/
def ltrStatFault (n k : Nat) : Fld := ⟨12320 + 128 * n + k, 31, 28⟩
/-- DONE of LTR_STATk, quay block (chapters 08 and 10). -/
def ltrStatDone (n k : Nat) : Fld := ⟨12320 + 128 * n + k, 27, 20⟩
/-- REMAINING of LTR_STATk, quay block (chapters 08 and 10). -/
def ltrStatRemaining (n k : Nat) : Fld := ⟨12320 + 128 * n + k, 19, 0⟩
/-- NEXT_ADDR of LTR_POSk, quay block (chapters 08 and 10). -/
def ltrPosNextAddr (n k : Nat) : Fld := ⟨12352 + 128 * n + k, 39, 16⟩
/-- FSIDE of LTR_POSk, quay block (chapters 08 and 10). -/
def ltrPosFside (n k : Nat) : Fld := ⟨12352 + 128 * n + k, 15, 15⟩
/-- ABORT of LTR_POSk, quay block (chapters 08 and 10). -/
def ltrPosAbort (n k : Nat) : Fld := ⟨12352 + 128 * n + k, 14, 14⟩
/-- RESUME of LTR_POSk, quay block (chapters 08 and 10). -/
def ltrPosResume (n k : Nat) : Fld := ⟨12352 + 128 * n + k, 13, 13⟩
/-- SLOT of LTR_POSk, quay block (chapters 08 and 10). -/
def ltrPosSlot (n k : Nat) : Fld := ⟨12352 + 128 * n + k, 9, 0⟩
end F

/-! ### Row lists of the register tables -/

/-- Rows of IDREV. -/
def rowsIdrev : List Row :=
  [⟨39, 24, .ro, 22080, true⟩,
   ⟨23, 16, .ro, 2, true⟩,
   ⟨15, 8, .ro, 0, true⟩,
   ⟨7, 0, .ro, 79, true⟩]
/-- Rows of DEV_ADDR. -/
def rowsDevAddr : List Row :=
  [⟨39, 39, .ro, 0, true⟩,
   ⟨38, 38, .ro, 0, true⟩,
   ⟨37, 18, .ro, 0, false⟩,
   ⟨17, 0, .ro, 0, true⟩]
/-- Rows of GLB_STAT. -/
def rowsGlbStat : List Row :=
  [⟨39, 39, .ro, 0, true⟩,
   ⟨38, 38, .ro, 0, true⟩,
   ⟨37, 35, .ro, 0, true⟩,
   ⟨34, 34, .ro, 0, true⟩,
   ⟨33, 33, .ro, 0, true⟩,
   ⟨32, 32, .ro, 0, true⟩,
   ⟨31, 31, .ro, 0, true⟩,
   ⟨30, 30, .ro, 0, true⟩,
   ⟨29, 27, .ro, 0, true⟩,
   ⟨26, 0, .ro, 0, false⟩]
/-- Rows of REG_STAT. -/
def rowsRegStat : List Row :=
  [⟨39, 39, .w1c, 0, true⟩,
   ⟨38, 24, .sat, 0, true⟩,
   ⟨23, 0, .ro, 0, true⟩]
/-- Rows of BOOK_TAPS. -/
def rowsBookTaps : List Row :=
  [⟨39, 20, .ro, 16384, true⟩,
   ⟨19, 0, .ro, 0, true⟩]
/-- Rows of BOOK_RSMP. -/
def rowsBookRsmp : List Row :=
  [⟨39, 20, .ro, 64, true⟩,
   ⟨19, 0, .ro, 0, true⟩]
/-- Rows of BOOK_DELAY. -/
def rowsBookDelay : List Row :=
  [⟨39, 20, .ro, 262144, true⟩,
   ⟨19, 0, .ro, 0, true⟩]
/-- Rows of BOOK_DESCD. -/
def rowsBookDescd : List Row :=
  [⟨39, 20, .ro, 512, true⟩,
   ⟨19, 0, .ro, 0, true⟩]
/-- Rows of HOLD_MEM. -/
def rowsHoldMem : List Row :=
  [⟨39, 39, .w1c, 0, true⟩,
   ⟨38, 20, .sat, 0, true⟩,
   ⟨19, 19, .w1c, 0, true⟩,
   ⟨18, 0, .sat, 0, true⟩]
/-- Rows of HOLD_SCRUB. -/
def rowsHoldScrub : List Row :=
  [⟨39, 16, .ro, 0, true⟩,
   ⟨15, 13, .ro, 0, true⟩,
   ⟨12, 0, .ro, 0, false⟩]
/-- Rows of PROT_LIM_SEL. -/
def rowsProtLimSel : List Row :=
  [⟨39, 15, .ro, 0, false⟩,
   ⟨14, 8, .rw, 0, true⟩,
   ⟨7, 3, .ro, 0, false⟩,
   ⟨2, 0, .rw, 0, true⟩]
/-- Rows of PROT_LIM_DATA. -/
def rowsProtLimData : List Row :=
  [⟨39, 0, .live, 0, true⟩]
/-- Rows of PROT_STAT. -/
def rowsProtStat : List Row :=
  [⟨39, 39, .ro, 0, true⟩,
   ⟨38, 38, .ro, 0, true⟩,
   ⟨37, 22, .ro, 0, true⟩,
   ⟨21, 14, .ro, 0, false⟩,
   ⟨13, 13, .w1c, 0, true⟩,
   ⟨12, 0, .sat, 0, true⟩]
/-- Rows of MGMT_STAT. -/
def rowsMgmtStat : List Row :=
  [⟨39, 37, .ro, 0, true⟩,
   ⟨36, 33, .ro, 0, true⟩,
   ⟨32, 32, .ro, 0, true⟩,
   ⟨31, 31, .w1c, 0, true⟩,
   ⟨30, 20, .sat, 0, true⟩,
   ⟨19, 19, .w1c, 0, true⟩,
   ⟨18, 0, .sat, 0, true⟩]
/-- Rows of IMG_STAT. -/
def rowsImgStat : List Row :=
  [⟨39, 37, .ro, 0, true⟩,
   ⟨36, 34, .ro, 0, true⟩,
   ⟨33, 33, .ro, 0, true⟩,
   ⟨32, 31, .ro, 0, true⟩,
   ⟨30, 15, .ro, 0, true⟩,
   ⟨14, 12, .ro, 0, true⟩,
   ⟨11, 0, .ro, 0, false⟩]
/-- Rows of RPL_CTRL. -/
def rowsRplCtrl : List Row :=
  [⟨39, 39, .live, 0, true⟩,
   ⟨38, 38, .live, 0, true⟩,
   ⟨37, 37, .live, 0, true⟩,
   ⟨36, 36, .live, 0, true⟩,
   ⟨35, 0, .ro, 0, false⟩]
/-- Rows of RPL_CFG. -/
def rowsRplCfg : List Row :=
  [⟨39, 37, .rwl, 0, true⟩,
   ⟨36, 33, .rwl, 0, true⟩,
   ⟨32, 29, .rwl, 0, true⟩,
   ⟨28, 25, .rwl, 0, true⟩,
   ⟨24, 24, .rw, 0, true⟩,
   ⟨23, 0, .ro, 0, false⟩]
/-- Rows of RPL_SEL. -/
def rowsRplSel : List Row :=
  [⟨39, 32, .rwl, 0, true⟩,
   ⟨31, 24, .rwl, 0, true⟩,
   ⟨23, 16, .rwl, 0, true⟩,
   ⟨15, 8, .rwl, 0, true⟩,
   ⟨7, 0, .ro, 0, false⟩]
/-- Rows of RPL_STAT. -/
def rowsRplStat : List Row :=
  [⟨39, 37, .ro, 0, true⟩,
   ⟨36, 36, .ro, 0, true⟩,
   ⟨35, 35, .ro, 0, true⟩,
   ⟨34, 33, .ro, 0, true⟩,
   ⟨32, 32, .ro, 0, true⟩,
   ⟨31, 31, .w1c, 0, true⟩,
   ⟨30, 0, .sat, 0, true⟩]
/-- Rows of RPL_FREEZE_CYC. -/
def rowsRplFreezeCyc : List Row :=
  [⟨39, 0, .ro, 0, true⟩]
/-- Rows of RPL_FROM_CYC. -/
def rowsRplFromCyc : List Row :=
  [⟨39, 0, .ro, 0, true⟩]
/-- Rows of DIV_WHERE. -/
def rowsDivWhere : List Row :=
  [⟨39, 37, .ro, 0, true⟩,
   ⟨36, 29, .ro, 0, true⟩,
   ⟨28, 24, .ro, 0, false⟩,
   ⟨23, 0, .ro, 0, true⟩]
/-- Rows of DIV_CYC. -/
def rowsDivCyc : List Row :=
  [⟨39, 0, .ro, 0, true⟩]
/-- Rows of BOOT_STAT. -/
def rowsBootStat : List Row :=
  [⟨39, 38, .ro, 0, true⟩,
   ⟨37, 37, .ro, 0, true⟩,
   ⟨36, 36, .ro, 0, true⟩,
   ⟨35, 35, .ro, 0, true⟩,
   ⟨34, 34, .ro, 0, true⟩,
   ⟨33, 32, .ro, 0, true⟩,
   ⟨31, 0, .ro, 0, false⟩]
/-- Rows of BOOT_REJ. -/
def rowsBootRej : List Row :=
  [⟨39, 39, .ro, 0, true⟩,
   ⟨38, 38, .ro, 0, true⟩,
   ⟨37, 34, .ro, 0, true⟩,
   ⟨33, 28, .ro, 0, true⟩,
   ⟨27, 25, .ro, 0, true⟩,
   ⟨24, 9, .ro, 0, true⟩,
   ⟨8, 7, .ro, 0, true⟩,
   ⟨6, 0, .ro, 0, false⟩]
/-- Rows of FUSE_STAT. -/
def rowsFuseStat : List Row :=
  [⟨39, 39, .ro, 0, true⟩,
   ⟨38, 38, .ro, 0, true⟩,
   ⟨37, 37, .ro, 0, true⟩,
   ⟨36, 21, .ro, 0, true⟩,
   ⟨20, 19, .ro, 0, true⟩,
   ⟨18, 18, .ro, 0, true⟩,
   ⟨17, 0, .ro, 0, false⟩]
/-- Rows of BOOT_STAMP. -/
def rowsBootStamp : List Row :=
  [⟨39, 32, .ro, 0, false⟩,
   ⟨31, 0, .ro, 0, true⟩]
/-- Rows of BOOT_TIMES. -/
def rowsBootTimes : List Row :=
  [⟨39, 20, .ro, 0, true⟩,
   ⟨19, 0, .ro, 0, true⟩]
/-- Rows of BOOT_STEPS. -/
def rowsBootSteps : List Row :=
  [⟨39, 38, .ro, 0, true⟩,
   ⟨37, 36, .ro, 0, true⟩,
   ⟨35, 34, .ro, 0, true⟩,
   ⟨33, 32, .ro, 0, true⟩,
   ⟨31, 0, .ro, 0, true⟩]
/-- Rows of IMG_HASH. -/
def rowsImgHash : List Row :=
  [⟨39, 32, .ro, 0, false⟩,
   ⟨31, 0, .ro, 0, true⟩]
/-- Rows of LIM_HASH. -/
def rowsLimHash : List Row :=
  [⟨39, 32, .ro, 0, false⟩,
   ⟨31, 0, .ro, 0, true⟩]
/-- Rows of LFUSE_HASH. -/
def rowsLfuseHash : List Row :=
  [⟨39, 32, .ro, 0, false⟩,
   ⟨31, 0, .ro, 0, true⟩]
/-- Rows of KFUSE_HASH. -/
def rowsKfuseHash : List Row :=
  [⟨39, 32, .ro, 0, false⟩,
   ⟨31, 0, .ro, 0, true⟩]
/-- Rows of CLK_STAT. -/
def rowsClkStat : List Row :=
  [⟨39, 39, .ro, 0, true⟩,
   ⟨38, 38, .ro, 0, true⟩,
   ⟨37, 37, .w1c, 0, true⟩,
   ⟨36, 16, .ro, 0, false⟩,
   ⟨15, 0, .ro, 0, true⟩]
/-- Rows of CYC. -/
def rowsCyc : List Row :=
  [⟨39, 0, .ro, 0, true⟩]
/-- Rows of UPTIME. -/
def rowsUptime : List Row :=
  [⟨39, 0, .ro, 0, true⟩]
/-- Rows of TIME_OFFSET. -/
def rowsTimeOffset : List Row :=
  [⟨39, 0, .ro, 0, true⟩]
/-- Rows of TIME_FREQ. -/
def rowsTimeFreq : List Row :=
  [⟨39, 0, .ro, 0, true⟩]
/-- Rows of TIME_LO. -/
def rowsTimeLo : List Row :=
  [⟨39, 0, .ro, 0, true⟩]
/-- Rows of TIME_HI. -/
def rowsTimeHi : List Row :=
  [⟨39, 0, .ro, 0, true⟩]
/-- Rows of PPS_IN_LO. -/
def rowsPpsInLo : List Row :=
  [⟨39, 0, .ro, 0, true⟩]
/-- Rows of PPS_IN_HI. -/
def rowsPpsInHi : List Row :=
  [⟨39, 0, .ro, 0, true⟩]
/-- Rows of TIME_SET_LO. -/
def rowsTimeSetLo : List Row :=
  [⟨39, 0, .live, 0, true⟩]
/-- Rows of TIME_SET_HI. -/
def rowsTimeSetHi : List Row :=
  [⟨39, 0, .live, 0, true⟩]
/-- Rows of TIME_CFG. -/
def rowsTimeCfg : List Row :=
  [⟨39, 39, .rwl, 0, true⟩,
   ⟨38, 37, .rwl, 0, true⟩,
   ⟨36, 35, .rwl, 0, true⟩,
   ⟨34, 0, .ro, 0, false⟩]
/-- Rows of TIME_STAT. -/
def rowsTimeStat : List Row :=
  [⟨39, 38, .ro, 0, true⟩,
   ⟨37, 32, .ro, 63, true⟩,
   ⟨31, 31, .ro, 0, true⟩,
   ⟨30, 28, .ro, 0, true⟩,
   ⟨27, 27, .ro, 0, true⟩,
   ⟨26, 26, .w1c, 0, true⟩,
   ⟨25, 25, .ro, 0, true⟩,
   ⟨24, 24, .ro, 0, true⟩,
   ⟨23, 23, .ro, 0, true⟩,
   ⟨22, 0, .ro, 0, false⟩]
/-- Rows of PPS_CFG. -/
def rowsPpsCfg : List Row :=
  [⟨39, 26, .rwl, 0, true⟩,
   ⟨25, 12, .rwl, 0, true⟩,
   ⟨11, 3, .rwl, 0, true⟩,
   ⟨2, 2, .rwl, 0, true⟩,
   ⟨1, 1, .rwl, 0, true⟩,
   ⟨0, 0, .rwl, 0, true⟩]
/-- Rows of TIME_CNT. -/
def rowsTimeCnt : List Row :=
  [⟨39, 39, .w1c, 0, true⟩,
   ⟨38, 28, .sat, 0, true⟩,
   ⟨27, 27, .w1c, 0, true⟩,
   ⟨26, 16, .sat, 0, true⟩,
   ⟨15, 15, .w1c, 0, true⟩,
   ⟨14, 0, .sat, 0, true⟩]
/-- Rows of THERM_STAT. -/
def rowsThermStat : List Row :=
  [⟨39, 37, .ro, 0, true⟩,
   ⟨36, 36, .ro, 0, true⟩,
   ⟨35, 35, .ro, 0, true⟩,
   ⟨34, 34, .ro, 0, true⟩,
   ⟨33, 26, .ro, 0, true⟩,
   ⟨25, 18, .ro, 0, true⟩,
   ⟨17, 10, .ro, 0, true⟩,
   ⟨9, 0, .ro, 0, false⟩]
/-- Rows of THERM_CFG. -/
def rowsThermCfg : List Row :=
  [⟨39, 31, .rwl, 0, true⟩,
   ⟨30, 0, .ro, 0, false⟩]
/-- Rows of TJ. -/
def rowsTj : List Row :=
  [⟨39, 24, .ro, 0, true⟩,
   ⟨23, 8, .ro, 0, true⟩,
   ⟨7, 5, .ro, 0, true⟩,
   ⟨4, 0, .ro, 0, false⟩]
/-- Rows of GOV_CFG. -/
def rowsGovCfg : List Row :=
  [⟨39, 30, .rwl, 0, true⟩,
   ⟨29, 25, .rwl, 0, true⟩,
   ⟨24, 24, .rwl, 0, true⟩,
   ⟨23, 8, .rwl, 0, true⟩,
   ⟨7, 0, .ro, 0, false⟩]
/-- Rows of GOV_BASE0. -/
def rowsGovBase0 : List Row :=
  [⟨39, 30, .rwl, 0, true⟩,
   ⟨29, 20, .rwl, 0, true⟩,
   ⟨19, 10, .rwl, 0, true⟩,
   ⟨9, 0, .rwl, 0, true⟩]
/-- Rows of GOV_BASE1. -/
def rowsGovBase1 : List Row :=
  [⟨39, 30, .rwl, 0, true⟩,
   ⟨29, 0, .ro, 0, false⟩]
/-- Rows of BOOK_CREDIT. -/
def rowsBookCredit : List Row :=
  [⟨39, 20, .ro, 0, true⟩,
   ⟨19, 0, .ro, 0, true⟩]
/-- Rows of GOV_STAT. -/
def rowsGovStat : List Row :=
  [⟨39, 30, .ro, 0, true⟩,
   ⟨29, 20, .ro, 0, true⟩,
   ⟨19, 19, .ro, 0, true⟩,
   ⟨18, 11, .ro, 0, true⟩,
   ⟨10, 10, .ro, 0, true⟩,
   ⟨9, 0, .ro, 0, false⟩]
/-- Rows of GOV_CUR. -/
def rowsGovCur : List Row :=
  [⟨39, 24, .ro, 0, true⟩,
   ⟨23, 8, .ro, 0, true⟩,
   ⟨7, 0, .ro, 0, false⟩]
/-- Rows of GOV_CNT. -/
def rowsGovCnt : List Row :=
  [⟨39, 39, .w1c, 0, true⟩,
   ⟨38, 20, .sat, 0, true⟩,
   ⟨19, 19, .w1c, 0, true⟩,
   ⟨18, 0, .sat, 0, true⟩]
/-- Rows of THERM_CNT. -/
def rowsThermCnt : List Row :=
  [⟨39, 39, .w1c, 0, true⟩,
   ⟨38, 20, .sat, 0, true⟩,
   ⟨19, 19, .w1c, 0, true⟩,
   ⟨18, 0, .sat, 0, true⟩]
/-- Rows of TS_VAL. -/
def rowsTsVal : List Row :=
  [⟨39, 24, .ro, 0, true⟩,
   ⟨23, 22, .ro, 0, true⟩,
   ⟨21, 0, .ro, 0, false⟩]
/-- Rows of TS_CFG. -/
def rowsTsCfg : List Row :=
  [⟨39, 38, .rwl, 0, true⟩,
   ⟨37, 33, .rwl, 0, true⟩,
   ⟨32, 30, .rwl, 0, true⟩,
   ⟨29, 14, .rwl, 0, true⟩,
   ⟨13, 0, .ro, 0, false⟩]
/-- Rows of FC_CTRL. -/
def rowsFcCtrl : List Row :=
  [⟨39, 30, .rwl, 0, true⟩,
   ⟨29, 14, .rwl, 0, true⟩,
   ⟨13, 0, .ro, 0, false⟩]
/-- Rows of FC_STAT. -/
def rowsFcStat : List Row :=
  [⟨39, 39, .ro, 0, true⟩,
   ⟨38, 38, .ro, 0, true⟩,
   ⟨37, 37, .ro, 0, true⟩,
   ⟨36, 36, .ro, 0, true⟩,
   ⟨35, 35, .ro, 0, true⟩,
   ⟨34, 34, .ro, 0, true⟩,
   ⟨33, 28, .ro, 0, true⟩,
   ⟨27, 14, .ro, 0, true⟩,
   ⟨13, 8, .ro, 0, true⟩,
   ⟨7, 0, .ro, 0, false⟩]
/-- Rows of FC_ACK. -/
def rowsFcAck : List Row :=
  [⟨39, 26, .live, 0, true⟩,
   ⟨25, 23, .live, 0, true⟩,
   ⟨22, 18, .live, 0, true⟩,
   ⟨17, 16, .live, 0, true⟩,
   ⟨15, 14, .ro, 0, true⟩,
   ⟨13, 0, .ro, 0, false⟩]
/-- Rows of FC_QUEUE. -/
def rowsFcQueue : List Row :=
  [⟨39, 33, .ro, 0, true⟩,
   ⟨32, 26, .ro, 0, true⟩,
   ⟨25, 25, .w1c, 0, true⟩,
   ⟨24, 17, .sat, 0, true⟩,
   ⟨16, 16, .w1c, 0, true⟩,
   ⟨15, 8, .sat, 0, true⟩,
   ⟨7, 7, .w1c, 0, true⟩,
   ⟨6, 0, .sat, 0, true⟩]
/-- Rows of FC_CNT0. -/
def rowsFcCnt0 : List Row :=
  [⟨39, 39, .w1c, 0, true⟩,
   ⟨38, 20, .sat, 0, true⟩,
   ⟨19, 19, .w1c, 0, true⟩,
   ⟨18, 0, .sat, 0, true⟩]
/-- Rows of FC_CNT1. -/
def rowsFcCnt1 : List Row :=
  [⟨39, 39, .w1c, 0, true⟩,
   ⟨38, 20, .sat, 0, true⟩,
   ⟨19, 19, .w1c, 0, true⟩,
   ⟨18, 0, .sat, 0, true⟩]
/-- Rows of FC_CNT2. -/
def rowsFcCnt2 : List Row :=
  [⟨39, 39, .w1c, 0, true⟩,
   ⟨38, 20, .sat, 0, true⟩,
   ⟨19, 19, .w1c, 0, true⟩,
   ⟨18, 0, .sat, 0, true⟩]
/-- Rows of CLS_SEL. -/
def rowsClsSel : List Row :=
  [⟨39, 9, .ro, 0, false⟩,
   ⟨8, 8, .rw, 0, true⟩,
   ⟨7, 0, .rw, 0, true⟩]
/-- Rows of CLS_W0 and CLS_W1 of the real table, with the layout of R366 (R388). -/
def rowsClsW (k : Nat) : List Row :=
  if k = 0 then
    [⟨39, 1, .rwl, 0, true⟩,
     ⟨0, 0, .ro, 0, false⟩]
  else
    [⟨39, 16, .rwl, 0, true⟩,
     ⟨15, 0, .ro, 0, false⟩]
/-- Rows of CLS_STAT. -/
def rowsClsStat : List Row :=
  [⟨39, 32, .ro, 0, true⟩,
   ⟨31, 0, .ro, 0, false⟩]
/-- Rows of OPEN_SEL. -/
def rowsOpenSel : List Row :=
  [⟨39, 6, .ro, 0, false⟩,
   ⟨5, 5, .rw, 0, true⟩,
   ⟨4, 0, .rw, 0, true⟩]
/-- Rows of OPEN_DATA. -/
def rowsOpenData : List Row :=
  [⟨39, 39, .ro, 0, true⟩,
   ⟨38, 25, .ro, 0, true⟩,
   ⟨24, 19, .ro, 0, true⟩,
   ⟨18, 16, .ro, 0, true⟩,
   ⟨15, 15, .ro, 0, true⟩,
   ⟨14, 14, .ro, 0, true⟩,
   ⟨13, 0, .ro, 0, true⟩]
/-- Rows of HIST_SEL. -/
def rowsHistSel : List Row :=
  [⟨39, 39, .live, 0, true⟩,
   ⟨38, 5, .ro, 0, false⟩,
   ⟨4, 4, .rw, 0, true⟩,
   ⟨3, 0, .rw, 0, true⟩]
/-- Rows of HIST_W. -/
def rowsHistW : List Row :=
  [⟨39, 0, .ro, 0, true⟩]
/-- Rows of LOG_CURSOR. -/
def rowsLogCursor : List Row :=
  [⟨39, 39, .rw, 0, true⟩,
   ⟨38, 38, .ro, 0, false⟩,
   ⟨37, 14, .rw, 0, true⟩,
   ⟨13, 13, .ro, 0, false⟩,
   ⟨12, 0, .rw, 0, true⟩]
/-- Rows of LOG_W. -/
def rowsLogW : List Row :=
  [⟨39, 0, .ro, 0, true⟩]
/-- Rows of LOG_KEY. -/
def rowsLogKey : List Row :=
  [⟨39, 11, .ro, 0, true⟩,
   ⟨10, 10, .ro, 0, true⟩,
   ⟨9, 9, .ro, 0, true⟩,
   ⟨8, 8, .ro, 0, true⟩,
   ⟨7, 0, .ro, 0, false⟩]
/-- Rows of LOG_HEAD. -/
def rowsLogHead : List Row :=
  [⟨39, 16, .ro, 0, true⟩,
   ⟨15, 15, .ro, 1, true⟩,
   ⟨14, 13, .ro, 0, false⟩,
   ⟨12, 0, .ro, 0, true⟩]
/-- Rows of BOOK_LOG. -/
def rowsBookLog : List Row :=
  [⟨39, 20, .ro, 8192, true⟩,
   ⟨19, 0, .ro, 0, true⟩]
/-- Rows of LOG_CAP. -/
def rowsLogCap : List Row :=
  [⟨39, 26, .ro, 8192, true⟩,
   ⟨25, 12, .ro, 0, true⟩,
   ⟨11, 0, .ro, 0, false⟩]
/-- Rows of LOG_LOST. -/
def rowsLogLost : List Row :=
  [⟨39, 39, .w1c, 0, true⟩,
   ⟨38, 20, .sat, 0, true⟩,
   ⟨19, 19, .w1c, 0, true⟩,
   ⟨18, 0, .sat, 0, true⟩]
/-- Rows of LOG_OCC. -/
def rowsLogOcc : List Row :=
  [⟨39, 26, .ro, 0, true⟩,
   ⟨25, 12, .ro, 0, true⟩,
   ⟨11, 0, .ro, 0, false⟩]
/-- Rows of EMR_SEL. -/
def rowsEmrSel : List Row :=
  [⟨39, 39, .live, 0, true⟩,
   ⟨38, 4, .ro, 0, false⟩,
   ⟨3, 0, .rw, 0, true⟩]
/-- Rows of EMR_W. -/
def rowsEmrW : List Row :=
  [⟨39, 0, .ro, 0, true⟩]
/-- Rows of EMR_STAT. -/
def rowsEmrStat : List Row :=
  [⟨39, 35, .ro, 0, true⟩,
   ⟨34, 32, .ro, 0, true⟩,
   ⟨31, 31, .ro, 0, true⟩,
   ⟨30, 0, .ro, 0, false⟩]
/-- Rows of FI_CTRL. -/
def rowsFiCtrl : List Row :=
  [⟨39, 39, .live, 0, true⟩,
   ⟨38, 37, .ro, 0, true⟩,
   ⟨36, 0, .ro, 0, false⟩]
/-- Rows of FI_MSG0. -/
def rowsFiMsg0 : List Row :=
  [⟨39, 17, .rw, 0, true⟩,
   ⟨16, 0, .ro, 0, false⟩]
/-- Rows of FI_MSG1. -/
def rowsFiMsg1 : List Row :=
  [⟨39, 0, .rw, 0, true⟩]
/-- Rows of MEAS_CTRL. -/
def rowsMeasCtrl : List Row :=
  [⟨39, 16, .ro, 0, false⟩,
   ⟨15, 8, .rwl, 0, true⟩,
   ⟨7, 5, .ro, 0, false⟩,
   ⟨4, 0, .rw, 0, true⟩]
/-- Rows of MEAS_REQ. -/
def rowsMeasReq : List Row :=
  [⟨39, 8, .ro, 0, false⟩,
   ⟨7, 7, .live, 0, true⟩,
   ⟨6, 6, .live, 0, true⟩,
   ⟨5, 5, .ro, 0, false⟩,
   ⟨4, 0, .live, 0, true⟩]
/-- Rows of ADC_STAT. -/
def rowsAdcStat : List Row :=
  [⟨39, 39, .ro, 0, true⟩,
   ⟨38, 37, .ro, 0, true⟩,
   ⟨36, 32, .ro, 0, true⟩,
   ⟨31, 28, .ro, 0, true⟩,
   ⟨27, 27, .w1c, 0, true⟩,
   ⟨26, 14, .sat, 0, true⟩,
   ⟨13, 13, .w1c, 0, true⟩,
   ⟨12, 0, .sat, 0, true⟩]
/-- Rows of CAL_CMD. -/
def rowsCalCmd : List Row :=
  [⟨39, 20, .live, 0, true⟩,
   ⟨19, 8, .ro, 0, false⟩,
   ⟨7, 6, .live, 0, true⟩,
   ⟨5, 5, .ro, 0, false⟩,
   ⟨4, 0, .live, 0, true⟩]
/-- Rows of CAL_STAT. -/
def rowsCalStat : List Row :=
  [⟨39, 37, .ro, 0, true⟩,
   ⟨36, 32, .ro, 0, true⟩,
   ⟨31, 31, .w1c, 0, true⟩,
   ⟨30, 0, .sat, 0, true⟩]
/-- Rows of CAL_TIME_HI. -/
def rowsCalTimeHi : List Row :=
  [⟨39, 0, .ro, 0, true⟩]
/-- Rows of CAL_TIME_LO. -/
def rowsCalTimeLo : List Row :=
  [⟨39, 0, .ro, 0, true⟩]
/-- Rows of TRIM_TIME_HI. -/
def rowsTrimTimeHi : List Row :=
  [⟨39, 0, .ro, 0, true⟩]
/-- Rows of TRIM_TIME_LO. -/
def rowsTrimTimeLo : List Row :=
  [⟨39, 0, .ro, 0, true⟩]
/-- Rows of TRIM_CTRL. -/
def rowsTrimCtrl : List Row :=
  [⟨39, 2, .ro, 0, false⟩,
   ⟨1, 1, .rw, 1, true⟩,
   ⟨0, 0, .ro, 0, true⟩]
/-- Rows of TRIM_STAT. -/
def rowsTrimStat : List Row :=
  [⟨39, 39, .w1c, 0, true⟩,
   ⟨38, 16, .sat, 0, true⟩,
   ⟨15, 0, .ro, 0, true⟩]
/-- Rows of TRIM_ACT. -/
def rowsTrimAct : List Row :=
  [⟨39, 30, .live, 0, true⟩,
   ⟨29, 20, .live, 0, true⟩,
   ⟨19, 10, .live, 0, true⟩,
   ⟨9, 0, .live, 0, true⟩]
/-- Rows of TRIM_ACT6, whose last two codes are reserved. -/
def rowsTrimAct6 : List Row :=
  [⟨39, 30, .live, 0, true⟩,
   ⟨29, 20, .live, 0, true⟩,
   ⟨19, 0, .ro, 0, false⟩]
/-- Rows of MC_VAL. -/
def rowsMcVal : List Row :=
  [⟨39, 20, .ro, 0, true⟩,
   ⟨19, 8, .ro, 0, true⟩,
   ⟨7, 7, .ro, 0, true⟩,
   ⟨6, 6, .ro, 0, true⟩,
   ⟨5, 5, .ro, 0, true⟩,
   ⟨4, 4, .ro, 0, true⟩,
   ⟨3, 0, .ro, 0, false⟩]
/-- Rows of MC_CAL. -/
def rowsMcCal : List Row :=
  [⟨39, 20, .live, 0, true⟩,
   ⟨19, 0, .live, 0, true⟩]
/-- Rows of CX_CTRL. -/
def rowsCxCtrl : List Row :=
  [⟨39, 26, .ro, 0, false⟩,
   ⟨25, 12, .rwl, 0, true⟩,
   ⟨11, 10, .rwl, 0, true⟩,
   ⟨9, 8, .rwl, 0, true⟩,
   ⟨7, 7, .rwl, 0, true⟩,
   ⟨6, 6, .rwl, 0, true⟩,
   ⟨5, 5, .rwl, 0, true⟩,
   ⟨4, 4, .live, 0, true⟩,
   ⟨3, 0, .ro, 0, false⟩]
/-- Rows of CX_STAT. -/
def rowsCxStat : List Row :=
  [⟨39, 39, .ro, 0, true⟩,
   ⟨38, 38, .ro, 0, true⟩,
   ⟨37, 37, .ro, 0, true⟩,
   ⟨36, 34, .ro, 0, false⟩,
   ⟨33, 33, .w1c, 0, true⟩,
   ⟨32, 20, .sat, 0, true⟩,
   ⟨19, 19, .w1c, 0, true⟩,
   ⟨18, 0, .sat, 0, true⟩]
/-- Rows of PA_CTRL. -/
def rowsPaCtrl : List Row :=
  [⟨39, 15, .ro, 0, false⟩,
   ⟨14, 14, .live, 0, true⟩,
   ⟨13, 0, .live, 0, true⟩]
/-- Rows of PA_STAT. -/
def rowsPaStat : List Row :=
  [⟨39, 39, .ro, 0, true⟩,
   ⟨38, 38, .ro, 0, true⟩,
   ⟨37, 33, .ro, 0, true⟩,
   ⟨32, 14, .ro, 0, false⟩,
   ⟨13, 0, .ro, 0, true⟩]
/-- Rows of LOOP_CTRL. -/
def rowsLoopCtrl : List Row :=
  [⟨39, 38, .live, 0, true⟩,
   ⟨37, 37, .ro, 0, true⟩,
   ⟨36, 36, .ro, 0, true⟩,
   ⟨35, 35, .ro, 0, true⟩,
   ⟨34, 34, .ro, 0, true⟩,
   ⟨33, 20, .ro, 0, false⟩,
   ⟨19, 16, .rwl, 0, true⟩,
   ⟨15, 14, .rwl, 0, true⟩,
   ⟨13, 8, .rwl, 0, true⟩,
   ⟨7, 5, .ro, 0, false⟩,
   ⟨4, 0, .rwl, 0, true⟩]
/-- Rows of LOOP_SP. -/
def rowsLoopSp : List Row :=
  [⟨39, 0, .live, 0, true⟩]
/-- Rows of LOOP_MAN. -/
def rowsLoopMan : List Row :=
  [⟨39, 0, .live, 0, true⟩]
/-- Rows of LOOP_OUT. -/
def rowsLoopOut : List Row :=
  [⟨39, 0, .ro, 0, true⟩]
/-- Rows of CH_JRX_CFG. -/
def rowsChJrxCfg : List Row :=
  [⟨39, 10, .ro, 0, false⟩,
   ⟨9, 2, .rwl, 0, true⟩,
   ⟨1, 1, .rwl, 0, true⟩,
   ⟨0, 0, .rwl, 0, true⟩]
/-- Rows of CH_JRX_STAT. -/
def rowsChJrxStat : List Row :=
  [⟨39, 5, .ro, 0, false⟩,
   ⟨4, 4, .ro, 0, true⟩,
   ⟨3, 3, .ro, 0, true⟩,
   ⟨2, 2, .ro, 0, true⟩,
   ⟨1, 1, .w1c, 0, true⟩,
   ⟨0, 0, .w1c, 0, true⟩]
/-- Rows of CH_JRX_CRCERR. -/
def rowsChJrxCrcerr : List Row :=
  [⟨39, 39, .w1c, 0, true⟩,
   ⟨38, 0, .sat, 0, true⟩]
/-- Rows of CH_JTX_CFG. -/
def rowsChJtxCfg : List Row :=
  [⟨39, 2, .ro, 0, false⟩,
   ⟨1, 1, .rwl, 0, true⟩,
   ⟨0, 0, .rwl, 0, true⟩]
/-- Rows of CH_JTX_STAT. -/
def rowsChJtxStat : List Row :=
  [⟨39, 2, .ro, 0, false⟩,
   ⟨1, 1, .w1c, 0, true⟩,
   ⟨0, 0, .ro, 0, true⟩]
/-- Rows of CH_JTX_SATCNT. -/
def rowsChJtxSatcnt : List Row :=
  [⟨39, 39, .w1c, 0, true⟩,
   ⟨38, 0, .sat, 0, true⟩]
/-- Rows of CH_FE_CFG. -/
def rowsChFeCfg : List Row :=
  [⟨39, 28, .ro, 0, false⟩,
   ⟨27, 16, .rwl, 0, true⟩,
   ⟨15, 6, .rwl, 0, true⟩,
   ⟨5, 5, .rwl, 0, true⟩,
   ⟨4, 4, .rwl, 0, true⟩,
   ⟨3, 3, .rwl, 0, true⟩,
   ⟨2, 2, .rwl, 0, true⟩,
   ⟨1, 0, .ro, 0, false⟩]
/-- Rows of CH_FE_CMD. -/
def rowsChFeCmd : List Row :=
  [⟨39, 16, .ro, 0, false⟩,
   ⟨15, 12, .ro, 0, true⟩,
   ⟨11, 8, .ro, 0, false⟩,
   ⟨7, 4, .live, 0, true⟩,
   ⟨3, 0, .live, 0, true⟩]
/-- Rows of CH_FE_STAT. -/
def rowsChFeStat : List Row :=
  [⟨39, 36, .ro, 0, true⟩,
   ⟨35, 32, .ro, 0, true⟩,
   ⟨31, 28, .ro, 0, true⟩,
   ⟨27, 24, .ro, 0, true⟩,
   ⟨23, 23, .ro, 0, true⟩,
   ⟨22, 20, .ro, 0, true⟩,
   ⟨19, 19, .ro, 0, true⟩,
   ⟨18, 18, .ro, 1, true⟩,
   ⟨17, 17, .ro, 0, true⟩,
   ⟨16, 14, .ro, 0, true⟩,
   ⟨13, 12, .ro, 0, false⟩,
   ⟨11, 0, .ro, 0, true⟩]
/-- Rows of CH_FE_CAL. -/
def rowsChFeCal : List Row :=
  [⟨39, 32, .ro, 0, true⟩,
   ⟨31, 24, .ro, 0, true⟩,
   ⟨23, 8, .ro, 0, true⟩,
   ⟨7, 0, .ro, 0, false⟩]
/-- Rows of CH_FE_CNT0. -/
def rowsChFeCnt0 : List Row :=
  [⟨39, 39, .w1c, 0, true⟩,
   ⟨38, 20, .sat, 0, true⟩,
   ⟨19, 19, .w1c, 0, true⟩,
   ⟨18, 0, .sat, 0, true⟩]
/-- Rows of CH_FE_CNT1. -/
def rowsChFeCnt1 : List Row :=
  [⟨39, 39, .w1c, 0, true⟩,
   ⟨38, 26, .sat, 0, true⟩,
   ⟨25, 25, .w1c, 0, true⟩,
   ⟨24, 13, .sat, 0, true⟩,
   ⟨12, 12, .w1c, 0, true⟩,
   ⟨11, 0, .sat, 0, true⟩]
/-- Rows of CH_FE_CAL_TIME_HI. -/
def rowsChFeCalTimeHi : List Row :=
  [⟨39, 0, .ro, 0, true⟩]
/-- Rows of CH_FE_CAL_TIME_LO. -/
def rowsChFeCalTimeLo : List Row :=
  [⟨39, 0, .ro, 0, true⟩]
/-- Rows of CH_FE_RESULT. -/
def rowsChFeResult : List Row :=
  [⟨39, 35, .ro, 0, false⟩,
   ⟨34, 32, .ro, 0, true⟩,
   ⟨31, 0, .ro, 0, true⟩]
/-- Rows of GV_CFG. -/
def rowsGvCfg : List Row :=
  [⟨39, 37, .rwl, 0, true⟩,
   ⟨36, 34, .rwl, 0, true⟩,
   ⟨33, 33, .rwl, 0, true⟩,
   ⟨32, 31, .rwl, 0, true⟩,
   ⟨30, 30, .rwl, 0, true⟩,
   ⟨29, 28, .rwl, 0, true⟩,
   ⟨27, 0, .ro, 0, false⟩]
/-- Rows of GV_CTRL. -/
def rowsGvCtrl : List Row :=
  [⟨39, 2, .ro, 0, false⟩,
   ⟨1, 1, .live, 0, true⟩,
   ⟨0, 0, .live, 0, true⟩]
/-- Rows of GV_STAT. -/
def rowsGvStat : List Row :=
  [⟨39, 37, .ro, 0, true⟩,
   ⟨36, 34, .ro, 0, true⟩,
   ⟨33, 33, .ro, 0, true⟩,
   ⟨32, 32, .ro, 0, true⟩,
   ⟨31, 26, .ro, 63, true⟩,
   ⟨25, 25, .ro, 0, true⟩,
   ⟨24, 7, .ro, 0, true⟩,
   ⟨6, 6, .w1c, 0, true⟩,
   ⟨5, 0, .ro, 0, false⟩]
/-- Rows of GV_PHY. -/
def rowsGvPhy : List Row :=
  [⟨39, 24, .ro, 0, true⟩,
   ⟨23, 8, .ro, 0, true⟩,
   ⟨7, 0, .ro, 0, false⟩]
/-- Rows of GV_NOISE. -/
def rowsGvNoise : List Row :=
  [⟨39, 0, .ro, 0, true⟩]
/-- Rows of GV_DELAY. -/
def rowsGvDelay : List Row :=
  [⟨39, 0, .ro, 0, true⟩]
/-- Rows of GV_FREQ. -/
def rowsGvFreq : List Row :=
  [⟨39, 0, .ro, 0, true⟩]
/-- Rows of BOOK_GVCR. -/
def rowsBookGvcr : List Row :=
  [⟨39, 20, .ro, 0, true⟩,
   ⟨19, 0, .ro, 0, true⟩]
/-- Rows of GV_RXBUF. -/
def rowsGvRxbuf : List Row :=
  [⟨39, 33, .ro, 0, true⟩,
   ⟨32, 26, .ro, 0, true⟩,
   ⟨25, 10, .ro, 0, true⟩,
   ⟨9, 0, .ro, 0, false⟩]
/-- Rows of GV_FEC. -/
def rowsGvFec : List Row :=
  [⟨39, 39, .w1c, 0, true⟩,
   ⟨38, 20, .sat, 0, true⟩,
   ⟨19, 19, .w1c, 0, true⟩,
   ⟨18, 0, .sat, 0, true⟩]
/-- Rows of GV_LINKCNT. -/
def rowsGvLinkcnt : List Row :=
  [⟨39, 39, .w1c, 0, true⟩,
   ⟨38, 20, .sat, 0, true⟩,
   ⟨19, 19, .w1c, 0, true⟩,
   ⟨18, 0, .sat, 0, true⟩]
/-- Rows of GV_MSGCNT. -/
def rowsGvMsgcnt : List Row :=
  [⟨39, 39, .w1c, 0, true⟩,
   ⟨38, 20, .sat, 0, true⟩,
   ⟨19, 19, .w1c, 0, true⟩,
   ⟨18, 0, .sat, 0, true⟩]
/-- Rows of GV_SLIP. -/
def rowsGvSlip : List Row :=
  [⟨39, 39, .w1c, 0, true⟩,
   ⟨38, 20, .sat, 0, true⟩,
   ⟨19, 19, .w1c, 0, true⟩,
   ⟨18, 0, .sat, 0, true⟩]
/-- Rows of GV_TRAIN. -/
def rowsGvTrain : List Row :=
  [⟨39, 32, .ro, 0, true⟩,
   ⟨31, 16, .ro, 0, true⟩,
   ⟨15, 0, .ro, 0, true⟩]
/-- Rows of GV_SHAPE. -/
def rowsGvShape : List Row :=
  [⟨39, 10, .ro, 0, false⟩,
   ⟨9, 0, .rwl, 0, true⟩]
/-- Rows of GV_LAUNCH. -/
def rowsGvLaunch : List Row :=
  [⟨39, 24, .ro, 0, false⟩,
   ⟨23, 20, .ro, 0, true⟩,
   ⟨19, 16, .rwl, 0, true⟩,
   ⟨15, 12, .rwl, 0, true⟩,
   ⟨11, 8, .rwl, 0, true⟩,
   ⟨7, 4, .rwl, 0, true⟩,
   ⟨3, 0, .rwl, 0, true⟩]
/-- Rows of BP_CTRL. -/
def rowsBpCtrl : List Row :=
  [⟨39, 3, .ro, 0, false⟩,
   ⟨2, 2, .live, 0, true⟩,
   ⟨1, 1, .live, 0, true⟩,
   ⟨0, 0, .live, 0, true⟩]
/-- Rows of BP_NCO. -/
def rowsBpNco : List Row :=
  [⟨39, 32, .ro, 0, false⟩,
   ⟨31, 0, .live, 0, true⟩]
/-- Rows of BP_PATH. -/
def rowsBpPath : List Row :=
  [⟨39, 38, .ro, 0, true⟩,
   ⟨37, 36, .ro, 0, true⟩,
   ⟨35, 33, .ro, 0, true⟩,
   ⟨32, 31, .live, 0, true⟩,
   ⟨30, 29, .live, 0, true⟩,
   ⟨28, 27, .live, 0, true⟩,
   ⟨26, 25, .live, 0, true⟩,
   ⟨24, 23, .live, 0, true⟩,
   ⟨22, 21, .live, 0, true⟩,
   ⟨20, 17, .live, 0, true⟩,
   ⟨16, 12, .ro, 0, true⟩,
   ⟨11, 6, .ro, 0, true⟩,
   ⟨5, 5, .ro, 0, true⟩,
   ⟨4, 0, .ro, 0, false⟩]
/-- Rows of BP_RSMP_STEP. -/
def rowsBpRsmpStep : List Row :=
  [⟨39, 34, .ro, 0, false⟩,
   ⟨33, 0, .live, 0, true⟩]
/-- Rows of BP_EGRESS. -/
def rowsBpEgress : List Row :=
  [⟨39, 30, .ro, 0, true⟩,
   ⟨29, 20, .ro, 0, true⟩,
   ⟨19, 10, .ro, 0, true⟩,
   ⟨9, 0, .ro, 0, true⟩]
/-- Rows of BP_PWR_COARSE. -/
def rowsBpPwrCoarse : List Row :=
  [⟨39, 0, .ro, 1096156184576, true⟩]
/-- Rows of BP_PWR_FINE. -/
def rowsBpPwrFine : List Row :=
  [⟨39, 0, .ro, 1096156184576, true⟩]
/-- Rows of BP_STAT. -/
def rowsBpStat : List Row :=
  [⟨39, 39, .ro, 0, true⟩,
   ⟨38, 32, .ro, 0, true⟩,
   ⟨31, 31, .ro, 0, true⟩,
   ⟨30, 30, .ro, 0, true⟩,
   ⟨29, 24, .ro, 0, false⟩,
   ⟨23, 23, .w1c, 0, true⟩,
   ⟨22, 0, .sat, 0, true⟩]
/-- Rows of BP_BW_CTRL. -/
def rowsBpBwCtrl : List Row :=
  [⟨39, 39, .rw, 0, true⟩,
   ⟨38, 38, .ro, 0, true⟩,
   ⟨37, 35, .ro, 0, true⟩,
   ⟨34, 24, .live, 0, true⟩,
   ⟨23, 0, .rw, 0, true⟩]
/-- Rows of BP_BW_STAT. -/
def rowsBpBwStat : List Row :=
  [⟨39, 24, .ro, 0, true⟩,
   ⟨23, 8, .ro, 0, true⟩,
   ⟨7, 7, .w1c, 0, true⟩,
   ⟨6, 6, .w1c, 0, true⟩,
   ⟨5, 5, .ro, 0, true⟩,
   ⟨4, 4, .ro, 0, true⟩,
   ⟨3, 3, .ro, 0, true⟩,
   ⟨2, 2, .ro, 0, true⟩,
   ⟨1, 0, .ro, 0, true⟩]
/-- Rows of BP_GAIN. -/
def rowsBpGain : List Row :=
  [⟨39, 24, .live, 0, true⟩,
   ⟨23, 13, .ro, 0, true⟩,
   ⟨12, 10, .ro, 0, true⟩,
   ⟨9, 9, .ro, 0, true⟩,
   ⟨8, 8, .ro, 0, true⟩,
   ⟨7, 7, .live, 0, true⟩,
   ⟨6, 6, .live, 0, true⟩,
   ⟨5, 5, .live, 0, true⟩,
   ⟨4, 0, .rw, 0, true⟩]
/-- Rows of BP_PROT. -/
def rowsBpProt : List Row :=
  [⟨39, 37, .ro, 0, true⟩,
   ⟨36, 33, .ro, 0, true⟩,
   ⟨32, 28, .ro, 0, true⟩,
   ⟨27, 24, .ro, 0, true⟩,
   ⟨23, 20, .ro, 0, true⟩,
   ⟨19, 11, .ro, 0, true⟩,
   ⟨10, 8, .ro, 0, true⟩,
   ⟨7, 2, .ro, 0, false⟩,
   ⟨1, 1, .live, 0, true⟩,
   ⟨0, 0, .live, 0, true⟩]
/-- Rows of ENG_CTRL. -/
def rowsEngCtrl : List Row :=
  [⟨39, 3, .ro, 0, false⟩,
   ⟨2, 2, .live, 0, true⟩,
   ⟨1, 1, .live, 0, true⟩,
   ⟨0, 0, .live, 0, true⟩]
/-- Rows of ENG_STAT. -/
def rowsEngStat : List Row :=
  [⟨39, 37, .ro, 0, true⟩,
   ⟨36, 33, .ro, 0, true⟩,
   ⟨32, 32, .ro, 0, true⟩,
   ⟨31, 16, .ro, 0, true⟩,
   ⟨15, 8, .ro, 0, true⟩,
   ⟨7, 2, .ro, 0, false⟩,
   ⟨1, 1, .w1c, 0, true⟩,
   ⟨0, 0, .w1c, 0, true⟩]
/-- Rows of ENG_PC. -/
def rowsEngPc : List Row :=
  [⟨39, 36, .ro, 0, true⟩,
   ⟨35, 29, .ro, 0, false⟩,
   ⟨28, 16, .ro, 0, true⟩,
   ⟨15, 10, .ro, 0, false⟩,
   ⟨9, 0, .ro, 0, true⟩]
/-- Rows of ENG_MB_IN. -/
def rowsEngMbIn : List Row :=
  [⟨39, 0, .live, 0, true⟩]
/-- Rows of ENG_LOAD. -/
def rowsEngLoad : List Row :=
  [⟨39, 29, .ro, 0, true⟩,
   ⟨28, 18, .ro, 0, true⟩,
   ⟨17, 0, .ro, 0, false⟩]
/-- Rows of ENG_MB_STAT. -/
def rowsEngMbStat : List Row :=
  [⟨39, 36, .ro, 0, true⟩,
   ⟨35, 32, .ro, 0, true⟩,
   ⟨31, 31, .w1c, 0, true⟩,
   ⟨30, 21, .sat, 0, true⟩,
   ⟨20, 20, .w1c, 0, true⟩,
   ⟨19, 10, .sat, 0, true⟩,
   ⟨9, 9, .w1c, 0, true⟩,
   ⟨8, 0, .sat, 0, true⟩]
/-- Rows of QUAY_CTRL. -/
def rowsQuayCtrl : List Row :=
  [⟨39, 1, .ro, 0, false⟩,
   ⟨0, 0, .rwl, 0, true⟩]
/-- Rows of QUAY_STAT. -/
def rowsQuayStat : List Row :=
  [⟨39, 39, .ro, 0, true⟩,
   ⟨38, 23, .ro, 0, true⟩,
   ⟨22, 7, .ro, 0, true⟩,
   ⟨6, 0, .ro, 0, false⟩]
/-- Rows of BOOK_DESC. -/
def rowsBookDesc : List Row :=
  [⟨39, 20, .ro, 1024, true⟩,
   ⟨19, 0, .ro, 0, true⟩]
/-- Rows of QUAY_MEM. -/
def rowsQuayMem : List Row :=
  [⟨39, 39, .w1c, 0, true⟩,
   ⟨38, 20, .sat, 0, true⟩,
   ⟨19, 19, .w1c, 0, true⟩,
   ⟨18, 0, .sat, 0, true⟩]
/-- Rows of QUAY_SCRUB. -/
def rowsQuayScrub : List Row :=
  [⟨39, 16, .ro, 0, true⟩,
   ⟨15, 13, .ro, 0, true⟩,
   ⟨12, 0, .ro, 0, false⟩]
/-- Rows of QUAY_SCHED. -/
def rowsQuaySched : List Row :=
  [⟨39, 39, .w1c, 0, true⟩,
   ⟨38, 20, .sat, 0, true⟩,
   ⟨19, 19, .w1c, 0, true⟩,
   ⟨18, 0, .sat, 0, true⟩]
/-- Rows of DL_STAT. -/
def rowsDlStat : List Row :=
  [⟨39, 37, .ro, 0, true⟩,
   ⟨36, 32, .ro, 0, true⟩,
   ⟨31, 28, .ro, 0, true⟩,
   ⟨27, 20, .ro, 0, true⟩,
   ⟨19, 0, .ro, 0, true⟩]
/-- Rows of DL_POS. -/
def rowsDlPos : List Row :=
  [⟨39, 16, .ro, 0, true⟩,
   ⟨15, 15, .ro, 0, true⟩,
   ⟨14, 14, .live, 0, true⟩,
   ⟨13, 13, .live, 0, true⟩,
   ⟨12, 10, .ro, 0, false⟩,
   ⟨9, 0, .ro, 0, true⟩]
/-- Rows of LTR_STAT. -/
def rowsLtrStat : List Row :=
  [⟨39, 37, .ro, 0, true⟩,
   ⟨36, 32, .ro, 0, true⟩,
   ⟨31, 28, .ro, 0, true⟩,
   ⟨27, 20, .ro, 0, true⟩,
   ⟨19, 0, .ro, 0, true⟩]
/-- Rows of LTR_POS. -/
def rowsLtrPos : List Row :=
  [⟨39, 16, .ro, 0, true⟩,
   ⟨15, 15, .ro, 0, true⟩,
   ⟨14, 14, .live, 0, true⟩,
   ⟨13, 13, .live, 0, true⟩,
   ⟨12, 10, .ro, 0, false⟩,
   ⟨9, 0, .ro, 0, true⟩]

/-- The rows of offset `j` of a block: global block (R446). An offset no chapter names is a reserved register (R432). -/
def rowsOfGlb (j : Nat) : List Row :=
  if j = 0 then rowsIdrev else
  if j = 1 then rowsDevAddr else
  if j = 2 then rowsGlbStat else
  if j = 3 then rowsRegStat else
  if j = 4 then rowsBookTaps else
  if j = 5 then rowsBookRsmp else
  if j = 6 then rowsBookDelay else
  if j = 7 then rowsBookDescd else
  if j = 8 then rowsHoldMem else
  if j = 9 then rowsHoldScrub else
  if j = 10 then rowsProtLimSel else
  if j = 11 then rowsProtLimData else
  if j = 12 then rowsProtStat else
  if j = 13 then rowsMgmtStat else
  if j = 14 then rowsImgStat else
  if j = 15 then rowsRplCtrl else
  if j = 16 then rowsRplCfg else
  if 17 ≤ j ∧ j < 19 then rowsRplSel else
  if j = 19 then rowsRplStat else
  if j = 20 then rowsRplFreezeCyc else
  if j = 21 then rowsRplFromCyc else
  if j = 22 then rowsDivWhere else
  if j = 23 then rowsDivCyc else
  []

/-- The rows of offset `j` of a block: boot and image block (R447). An offset no chapter names is a reserved register (R432). -/
def rowsOfBoot (j : Nat) : List Row :=
  if j = 0 then rowsBootStat else
  if 1 ≤ j ∧ j < 3 then rowsBootRej else
  if j = 3 then rowsFuseStat else
  if 4 ≤ j ∧ j < 6 then rowsBootStamp else
  if j = 6 then rowsBootTimes else
  if j = 7 then rowsBootSteps else
  if 8 ≤ j ∧ j < 16 then rowsImgHash else
  if 16 ≤ j ∧ j < 24 then rowsLimHash else
  if 24 ≤ j ∧ j < 32 then rowsLfuseHash else
  if 32 ≤ j ∧ j < 40 then rowsKfuseHash else
  []

/-- The rows of offset `j` of a block: clocks and time (chapter 12). An offset no chapter names is a reserved register (R432). -/
def rowsOfClk (j : Nat) : List Row :=
  if j = 0 then rowsClkStat else
  if j = 1 then rowsCyc else
  if j = 2 then rowsUptime else
  if j = 7 then rowsTimeOffset else
  if j = 8 then rowsTimeFreq else
  if j = 3 then rowsTimeLo else
  if j = 4 then rowsTimeHi else
  if j = 10 then rowsPpsInLo else
  if j = 11 then rowsPpsInHi else
  if j = 12 then rowsTimeSetLo else
  if j = 13 then rowsTimeSetHi else
  if j = 5 then rowsTimeCfg else
  if j = 6 then rowsTimeStat else
  if j = 9 then rowsPpsCfg else
  if j = 14 then rowsTimeCnt else
  []

/-- The rows of offset `j` of a block: thermal and current (chapter 13). An offset no chapter names is a reserved register (R432). -/
def rowsOfThm (j : Nat) : List Row :=
  if j = 0 then rowsThermStat else
  if j = 1 then rowsThermCfg else
  if j = 2 then rowsTj else
  if j = 3 then rowsGovCfg else
  if j = 4 then rowsGovBase0 else
  if j = 5 then rowsGovBase1 else
  if j = 6 then rowsBookCredit else
  if j = 7 then rowsGovStat else
  if j = 8 then rowsGovCur else
  if j = 9 then rowsGovCnt else
  if j = 10 then rowsThermCnt else
  if 16 ≤ j ∧ j < 32 then rowsTsVal else
  if 32 ≤ j ∧ j < 48 then rowsTsCfg else
  []

/-- The rows of offset `j` of a block: faults and logbook (chapter 14). An offset no chapter names is a reserved register (R432). -/
def rowsOfFc (j : Nat) : List Row :=
  if j = 0 then rowsFcCtrl else
  if j = 1 then rowsFcStat else
  if j = 2 then rowsFcAck else
  if j = 3 then rowsFcQueue else
  if j = 4 then rowsFcCnt0 else
  if j = 5 then rowsFcCnt1 else
  if j = 6 then rowsFcCnt2 else
  if j = 7 then rowsClsSel else
  if 8 ≤ j ∧ j < 10 then rowsClsW (j - 8) else
  if j = 10 then rowsClsStat else
  if j = 11 then rowsOpenSel else
  if j = 12 then rowsOpenData else
  if j = 13 then rowsHistSel else
  if 14 ≤ j ∧ j < 19 then rowsHistW else
  if j = 19 then rowsLogCursor else
  if 20 ≤ j ∧ j < 24 then rowsLogW else
  if j = 24 then rowsLogKey else
  if j = 25 then rowsLogHead else
  if j = 26 then rowsBookLog else
  if j = 27 then rowsLogCap else
  if 28 ≤ j ∧ j < 33 then rowsLogLost else
  if 33 ≤ j ∧ j < 35 then rowsLogOcc else
  if j = 35 then rowsEmrSel else
  if 36 ≤ j ∧ j < 41 then rowsEmrW else
  if j = 41 then rowsEmrStat else
  if j = 42 then rowsFiCtrl else
  if j = 43 then rowsFiMsg0 else
  if j = 44 then rowsFiMsg1 else
  []

/-- The rows of offset `j` of a block: measurement (chapter 07). An offset no chapter names is a reserved register (R432). -/
def rowsOfMeas (j : Nat) : List Row :=
  if j = 0 then rowsMeasCtrl else
  if j = 1 then rowsMeasReq else
  if 2 ≤ j ∧ j < 6 then rowsAdcStat else
  if j = 6 then rowsCalCmd else
  if j = 7 then rowsCalStat else
  if j = 8 then rowsCalTimeHi else
  if j = 9 then rowsCalTimeLo else
  if j = 12 then rowsTrimTimeHi else
  if j = 13 then rowsTrimTimeLo else
  if j = 10 then rowsTrimCtrl else
  if j = 11 then rowsTrimStat else
  if j = 20 then rowsTrimAct6 else
  if 14 ≤ j ∧ j < 20 then rowsTrimAct else
  if 32 ≤ j ∧ j < 64 then rowsMcVal else
  if 64 ≤ j ∧ j < 96 then rowsMcCal else
  []

/-- The rows of offset `j` of a block: FE and PA block (chapters 06 and 07). An offset no chapter names is a reserved register (R432). -/
def rowsOfFe (j : Nat) : List Row :=
  if 0 ≤ j ∧ j < 4 then rowsCxCtrl else
  if 4 ≤ j ∧ j < 8 then rowsCxStat else
  if 8 ≤ j ∧ j < 24 then rowsPaCtrl else
  if 24 ≤ j ∧ j < 40 then rowsPaStat else
  if 40 ≤ j ∧ j < 168 ∧ (j - 40) % 4 = 0 then rowsLoopCtrl else
  if 41 ≤ j ∧ j < 169 ∧ (j - 40) % 4 = 1 then rowsLoopSp else
  if 42 ≤ j ∧ j < 170 ∧ (j - 40) % 4 = 2 then rowsLoopMan else
  if 43 ≤ j ∧ j < 171 ∧ (j - 40) % 4 = 3 then rowsLoopOut else
  []

/-- The rows of offset `j` of a block: chain block (chapters 02 and 06). An offset no chapter names is a reserved register (R432). -/
def rowsOfCh (j : Nat) : List Row :=
  if j = 0 then rowsChJrxCfg else
  if j = 1 then rowsChJrxStat else
  if j = 2 then rowsChJrxCrcerr else
  if j = 3 then rowsChJtxCfg else
  if j = 4 then rowsChJtxStat else
  if j = 5 then rowsChJtxSatcnt else
  if j = 6 then rowsChFeCfg else
  if j = 7 then rowsChFeCmd else
  if j = 8 then rowsChFeStat else
  if j = 9 then rowsChFeCal else
  if j = 10 then rowsChFeCnt0 else
  if j = 11 then rowsChFeCnt1 else
  if j = 12 then rowsChFeCalTimeHi else
  if j = 13 then rowsChFeCalTimeLo else
  if 14 ≤ j ∧ j < 22 then rowsChFeResult else
  []

/-- The rows of offset `j` of a block: Guvan port block (chapter 11). An offset no chapter names is a reserved register (R432). -/
def rowsOfGv (j : Nat) : List Row :=
  if j = 0 then rowsGvCfg else
  if j = 1 then rowsGvCtrl else
  if j = 2 then rowsGvStat else
  if j = 3 then rowsGvPhy else
  if j = 4 then rowsGvNoise else
  if j = 5 then rowsGvDelay else
  if j = 6 then rowsGvFreq else
  if j = 7 then rowsBookGvcr else
  if j = 8 then rowsGvRxbuf else
  if j = 9 then rowsGvFec else
  if j = 10 then rowsGvLinkcnt else
  if j = 11 then rowsGvMsgcnt else
  if j = 12 then rowsGvSlip else
  if j = 13 then rowsGvTrain else
  if 16 ≤ j ∧ j < 32 then rowsGvShape else
  if j = 32 then rowsGvLaunch else
  []

/-- The rows of offset `j` of a block: band path block (chapters 02 to 05). An offset no chapter names is a reserved register (R432). -/
def rowsOfBp (j : Nat) : List Row :=
  if j = 0 then rowsBpCtrl else
  if j = 1 then rowsBpNco else
  if j = 2 then rowsBpPath else
  if j = 3 then rowsBpRsmpStep else
  if j = 4 then rowsBpEgress else
  if j = 5 then rowsBpPwrCoarse else
  if j = 6 then rowsBpPwrFine else
  if j = 7 then rowsBpStat else
  if j = 8 then rowsBpBwCtrl else
  if j = 9 then rowsBpBwStat else
  if j = 10 then rowsBpGain else
  if j = 11 then rowsBpProt else
  []

/-- The rows of offset `j` of a block: engine block (chapter 08). An offset no chapter names is a reserved register (R432). -/
def rowsOfEng (j : Nat) : List Row :=
  if j = 0 then rowsEngCtrl else
  if j = 1 then rowsEngStat else
  if j = 2 then rowsEngPc else
  if j = 3 then rowsEngMbIn else
  if j = 4 then rowsEngLoad else
  if j = 5 then rowsEngMbStat else
  []

/-- The rows of offset `j` of a block: quay block (chapters 08 and 10). An offset no chapter names is a reserved register (R432). -/
def rowsOfQuay (j : Nat) : List Row :=
  if j = 0 then rowsQuayCtrl else
  if j = 1 then rowsQuayStat else
  if j = 2 then rowsBookDesc else
  if j = 3 then rowsQuayMem else
  if j = 4 then rowsQuayScrub else
  if j = 5 then rowsQuaySched else
  if j = 6 then rowsDlStat else
  if j = 7 then rowsDlPos else
  if 32 ≤ j ∧ j < 64 then rowsLtrStat else
  if 64 ≤ j ∧ j < 96 then rowsLtrPos else
  []

/-- The rows of the register at an address, or `none` where the address maps no register (R431, R432). -/
def layout (a : Nat) : Option (List Row) :=
  if a < 48 then (if 0 ≤ a then some (rowsOfGlb (a - 0)) else none) else
  if a < 112 then (if 64 ≤ a then some (rowsOfBoot (a - 64)) else none) else
  if a < 176 then (if 128 ≤ a then some (rowsOfClk (a - 128)) else none) else
  if a < 256 then (if 192 ≤ a then some (rowsOfThm (a - 192)) else none) else
  if a < 384 then (if 256 ≤ a then some (rowsOfFc (a - 256)) else none) else
  if a < 480 then (if 384 ≤ a then some (rowsOfMeas (a - 384)) else none) else
  if a < 704 then (if 512 ≤ a then some (rowsOfFe (a - 512)) else none) else
  if a < 1536 then (if 1024 ≤ a ∧ (a - 1024) % 32 < 24 then some (rowsOfCh ((a - 1024) % 32)) else none) else
  if a < 2048 then (if 1536 ≤ a ∧ (a - 1536) % 64 < 48 then some (rowsOfGv ((a - 1536) % 64)) else none) else
  if a < 6144 then (if 4096 ≤ a ∧ (a - 4096) % 16 < 12 then some (rowsOfBp ((a - 4096) % 16)) else none) else
  if a < 10240 then (if 8192 ≤ a ∧ (a - 8192) % 8 < 6 then some (rowsOfEng ((a - 8192) % 8)) else none) else
  if a < 14336 then (if 12288 ≤ a ∧ (a - 12288) % 128 < 96 then some (rowsOfQuay ((a - 12288) % 128)) else none) else
  none

/-- The word a list of rows reads at reset. -/
def resetWord : List Row → Word
  | [] => 0
  | r :: t => putBits (resetWord t) r.hi r.lo r.reset

/-- What a register reads before anything has written it: the reset values of its fields, zero in reserved bits and where the tables print no value (R10, R439). -/
def regReset (a : Nat) : Word :=
  match layout a with
  | some rows => resetWord rows
  | none => 0

end Sys2Proof.Machine
end

