-- ==== Sys2Proof/Machine/State.lean ====
section
/-! DEFINITION. The state of the block: every register, memory, buffer, counter and mode the manual gives it, and the queue of waiting commands. -/

namespace Sys2Proof.Machine

/-- The protected memories (R254). Keys: engine memories 16 384 e + address (data) and 8 192 e + address (instructions), quay memories 262 144 q + address, banks 16 384 n + index, descriptor storage 4 096 q + 4 slot + word with the device store at q = 16, mask data 8 192 n + word (segments from 0, SHAPE_RESP from 4 096), route entries as R308 numbers the tables (span from 0, node from 256, device from 320), and the word address in the others. -/
structure Mem where
  imem : Tbl Cell
  dmem : Tbl Cell
  quay : Tbl Cell
  hold : Tbl Cell
  bankA : Tbl Cell
  bankB : Tbl Cell
  desc : Tbl Cell
  seq : Tbl Cell
  scan : Tbl Cell
  cls : Tbl Cell
  almanac : Tbl Cell
  refs : Tbl Cell
  mgmt : Tbl Cell
  mask : Tbl Cell
  routes : Tbl Cell
  deriving DecidableEq, Repr

/-- Every protected memory cleared (R411). -/
def Mem.cleared : Mem := ⟨[], [], [], [], [], [], [], [], [], [], [], [], [], [], []⟩

/-- Measurement state outside channels, converters and loops (chapter 07). -/
structure Meas where
  calOp : Option CalOp
  /-- Trim set in force, set pending for the quiet slot, whether the almanac gave the pending one, and sets of the other source it has superseded (R196). -/
  trims : List Nat
  trimNext : Option (List Nat)
  trimAlm : Bool
  trimExtra : Nat
  trigs : List TrigWait
  deriving DecidableEq, Repr

/-- A checkpoint (R401): the replay set at CYC_CP, and for each selected band path the ring group and sample index of its first sample, with the output of the group in progress up to there. The manual lays out no word of the header, the engine state and the band path state beyond what they hold, so the state behind those words is kept beside them. -/
structure Snap where
  harbour : Bool
  cyc : Nat
  stamp : BitVec 64
  digest : List Byte
  from_ : Tbl (Nat × Nat)
  bps : Tbl Bp
  engines : Tbl Engine
  lighters : Tbl Lighter
  taps : Tbl Taps
  time : TimeBase
  mcs : Tbl Mc
  adcs : Tbl Adc
  meas : Meas
  loops : Tbl LoopSt
  thermal : Thermal
  regs : Tbl Word
  evalSeq : BitVec 24
  outTags : Tbl (List (Bool × Bool))
  outWords : Tbl (List Word)
  mem : Mem
  deriving DecidableEq, Repr

/-- Start-up state (chapter 16) and the device-wide modes of GLB_STAT. -/
structure Boot where
  st : BootSt
  bootSel : Bool
  testEn : Bool
  /-- Flash being read (false primary), flashes tried, whether the flash chosen was in TRIAL, and whether an exhausted trial was rolled back (R398). -/
  flash : Bool
  tried : List Bool
  trial : Bool
  rolledBack : Bool
  image : Bool
  locked : Bool
  harbour : Bool
  cause : Option HarbCause
  romLoader : Bool
  /-- Bring-up step in progress (0 JESD, 1 FE, 2 Guvan, 3 soft start), if any. -/
  step : Option (BitVec 2)
  /-- Cycle at which the soft-start step ended (R398). -/
  softEnd : Option Nat
  /-- Cycle at which that step started, and the FE_AUTO chains still owed a RECEIVE on reaching READY (R423). -/
  stepAt : Nat
  feAwait : List Nat
  /-- No flash may be booted: the ROM loader follows the clearing (R420). -/
  noSource : Bool
  /-- Time the PLL took to lock, in µs (R411). -/
  lockUs : Nat
  /-- The header read and accepted, whose stream is being loaded (R421), and the QSPI sampling delay found (R467). -/
  header : List Byte
  sampling : Option Nat
  deriving DecidableEq, Repr

/-- Balls and the debug port (chapter 18). -/
structure Pins where
  muteN : Bool
  jtag : JtagIr
  /-- EXTEST, CLAMP or HIGHZ has taken effect since the restart (R470). -/
  boundary : Bool
  /-- Instruction register capture, data register capture of REG_ACCESS and of EMR_READ, and the burn data register bit. -/
  irCapture : BitVec 8
  regDr : BitVec 66
  emrDr : BitVec 204
  burnDr : Bool
  /-- The boundary register as captured, and its update latches, two bits to a ball (R470). -/
  bndDr : List Bool
  bndOut : List Word
  /-- Fault output latched by the board's alarm line: R411's failed lock. -/
  noLock : Bool
  deriving DecidableEq, Repr

/-- The state of the device. -/
structure State where
  /-- Commands that wait, oldest first. -/
  pending : List Instr
  /-- CLK_E cycles since PLL lock, unwrapped (R322), and UPTIME. -/
  cyc : Nat
  uptime : Nat
  /-- Every stored register field, by register address (R431). -/
  regs : Tbl Word
  /-- Shadows of R440: requester code × 2^24 + address of the _HI register. -/
  shadows : Tbl (Option Word)
  /-- The words the last read of each requester returned. -/
  reads : Tbl (List Word)
  mem : Mem
  /-- Registers whose parity has been found bad and that have not been rewritten (R438). -/
  parBad : List Nat
  img : Image
  /-- Limits items in force that are stricter than the image's, keyed 8 × entry + item, and those accepted and waiting (R136). -/
  limits : Tbl (Option Db)
  limPend : List LimPend
  /-- Evaluation intervals ended (R94), and the transfers of tap-units that have not ended (R26, R70). -/
  evalSeq : BitVec 24
  tapFlight : List TapMove
  bps : Tbl Bp
  rsmp : Tbl RsmpSt
  chains : Tbl Chain
  cx : Tbl CxPort
  /-- Held causes that are removed 2 CLK_S cycles after their input let go (R137, R165, R166). -/
  heldOff : List HeldOff
  adcs : Tbl Adc
  mcs : Tbl Mc
  meas : Meas
  loops : Tbl LoopSt
  engines : Tbl Engine
  lighters : Tbl Lighter
  /-- Descriptor slots on their way (R27), and the band path whose delay-pool words DL5 clears (R27, R258). -/
  descMoves : List DescMove
  delayFlight : Option BpId
  taps : Tbl Taps
  writeBacks : List WriteBack
  ports : Tbl Port
  time : TimeBase
  thermal : Thermal
  fc : Collector
  mgmt : Mgmt
  flash0 : Flash
  flash1 : Flash
  rpl : Replay
  /-- The two checkpoint slots (R401). -/
  cp0 : Option Snap
  cp1 : Option Snap
  boot : Boot
  fuses : Fuses
  burned : Fuses
  /-- Fuse burns under way or waiting, each burned in turn (R427, R430). -/
  burn : List Burn
  pins : Pins
  /-- The model's own counter: how many values left open by the manual have been drawn. -/
  freeCtr : Nat
  deriving DecidableEq, Repr

/-- Start-up state while the device is held in reset. -/
def Boot.init : Boot where
  st := .inReset
  bootSel := false
  testEn := false
  flash := false
  tried := []
  trial := false
  rolledBack := false
  image := false
  locked := false
  harbour := false
  cause := none
  romLoader := false
  step := none
  softEnd := none
  stepAt := 0
  feAwait := []
  noSource := false
  lockUs := 0
  header := []
  sampling := none

/-- Balls and the debug port after test-logic-reset, with MUTE_N unconnected reading low (R459, R469). -/
def Pins.init : Pins where
  muteN := false
  jtag := .idcode
  boundary := false
  irCapture := 1
  regDr := 0
  emrDr := 0
  burnDr := false
  bndDr := []
  bndOut := []
  noLock := false

/-- The machine in reset: power is up, nothing has run, both flashes are erased and every fuse group is unburned. Register fields read as their tables print, memories hold nothing (R411), and every piece of state without a stated value is the one assumption 1 names. -/
def State.reset : State where
  pending := []
  cyc := 0
  uptime := 0
  regs := []
  shadows := []
  reads := []
  mem := Mem.cleared
  parBad := []
  img := Image.none
  limits := []
  limPend := []
  evalSeq := 0
  tapFlight := []
  bps := []
  rsmp := []
  chains := []
  cx := []
  heldOff := []
  adcs := []
  mcs := []
  meas := ⟨none, [], none, false, 0, []⟩
  loops := []
  engines := []
  lighters := []
  descMoves := []
  delayFlight := .none
  taps := []
  writeBacks := []
  ports := []
  time := TimeBase.init
  thermal := Thermal.init
  fc := Collector.init
  mgmt := Mgmt.init
  flash0 := Flash.erased
  flash1 := Flash.erased
  rpl := Replay.init
  cp0 := .none
  cp1 := .none
  boot := Boot.init
  fuses := Fuses.unburned
  burned := Fuses.unburned
  burn := []
  pins := Pins.init
  freeCtr := 0

/-- Why a step stops. -/
inductive Fault where
  /-- Not raised: every effect the manual describes as a fault is a message to the fault collector and part of the next state. Safe. -/
  | none
  deriving DecidableEq, Repr

/-- Why a command has no meaning in the model. -/
inductive Refusal where
  /-- Raised by `exec` for a row whose meaning has not been written. Safe: nothing is claimed of it. -/
  | notModelled (mnemonic : String)
  deriving DecidableEq, Repr

end Sys2Proof.Machine
end

