-- ==== Sys2Proof/Machine/Ops.lean ====
section
/-! DEFINITION. The named operations every command uses: the instances of each block, register fields and counters, time stamps, requesters, the journal, and the device-wide conditions. -/

namespace Sys2Proof.Machine

/-! ### Instances -/

namespace State

/-- Band path `n`. -/
def bp (s : State) (n : Nat) : Bp := Tbl.get (fun _ => Bp.init) s.bps n
/-- Replace band path `n`. -/
def setBp (s : State) (n : Nat) (b : Bp) : State := { s with bps := Tbl.set (fun _ => Bp.init) s.bps n b }
/-- Chain `n`. -/
def chain (s : State) (n : Nat) : Chain := Tbl.get (fun _ => Chain.init) s.chains n
/-- Replace chain `n`. -/
def setChain (s : State) (n : Nat) (c : Chain) : State := { s with chains := Tbl.set (fun _ => Chain.init) s.chains n c }
/-- Coexistence port `n`. -/
def cxPort (s : State) (n : Nat) : CxPort := Tbl.get (fun _ => CxPort.init) s.cx n
/-- Replace coexistence port `n`. -/
def setCx (s : State) (n : Nat) (c : CxPort) : State := { s with cx := Tbl.set (fun _ => CxPort.init) s.cx n c }
/-- A held cause is due to be removed 2 CLK_S cycles from now (R137, R165, R166). -/
def offSoon (s : State) (port : Option CxId) (replay : Bool) : State :=
  { s with heldOff := s.heldOff.filter (fun o => !(o.port == port && o.replay == replay)) ++ [⟨port, s.cyc + 16, replay⟩] }
/-- A held cause is wanted again before its removal. -/
def offNever (s : State) (port : Option CxId) (replay : Bool) : State :=
  { s with heldOff := s.heldOff.filter (fun o => !(o.port == port && o.replay == replay)) }
/-- Converter `n`. -/
def adc (s : State) (n : Nat) : Adc := Tbl.get (fun _ => Adc.init) s.adcs n
/-- Replace converter `n`. -/
def setAdc (s : State) (n : Nat) (a : Adc) : State := { s with adcs := Tbl.set (fun _ => Adc.init) s.adcs n a }
/-- Measurement channel `n`. -/
def mc (s : State) (n : Nat) : Mc := Tbl.get (fun _ => Mc.init) s.mcs n
/-- Replace measurement channel `n`. -/
def setMc (s : State) (n : Nat) (m : Mc) : State := { s with mcs := Tbl.set (fun _ => Mc.init) s.mcs n m }
/-- Loop slot `n`. -/
def loop (s : State) (n : Nat) : LoopSt := Tbl.get (fun _ => LoopSt.init) s.loops n
/-- Replace loop slot `n`. -/
def setLoop (s : State) (n : Nat) (l : LoopSt) : State := { s with loops := Tbl.set (fun _ => LoopSt.init) s.loops n l }
/-- Engine `n`. -/
def engine (s : State) (n : Nat) : Engine := Tbl.get (fun _ => Engine.init) s.engines n
/-- Replace engine `n`. -/
def setEngine (s : State) (n : Nat) (e : Engine) : State := { s with engines := Tbl.set (fun _ => Engine.init) s.engines n e }
/-- Lighter channel `n`: 32 q + c for Lc of quay q, 512 + k for DLk. -/
def lighter (s : State) (n : Nat) : Lighter := Tbl.get (fun _ => Lighter.init) s.lighters n
/-- Replace lighter channel `n`. -/
def setLighter (s : State) (n : Nat) (l : Lighter) : State := { s with lighters := Tbl.set (fun _ => Lighter.init) s.lighters n l }
/-- The taps of band path `n`. -/
def tap (s : State) (n : Nat) : Taps := Tbl.get (fun _ => Taps.init) s.taps n
/-- Replace the taps of band path `n`. -/
def setTap (s : State) (n : Nat) (t : Taps) : State := { s with taps := Tbl.set (fun _ => Taps.init) s.taps n t }
/-- Guvan port `n`. -/
def port (s : State) (n : Nat) : Port := Tbl.get (fun _ => Port.init) s.ports n
/-- Replace Guvan port `n`. -/
def setPort (s : State) (n : Nat) (p : Port) : State := { s with ports := Tbl.set (fun _ => Port.init) s.ports n p }
/-- Resampler instance `n` of the pool of 64. -/
def resampler (s : State) (n : Nat) : RsmpSt := Tbl.get (fun _ => RsmpSt.free) s.rsmp n
/-- Replace resampler instance `n`. -/
def setResampler (s : State) (n : Nat) (r : RsmpSt) : State := { s with rsmp := Tbl.set (fun _ => RsmpSt.free) s.rsmp n r }
/-- Sensor slot `n`. -/
def tslot (s : State) (n : Nat) : TSlot := Tbl.get (fun _ => TSlot.init) s.thermal.slots n
/-- Replace sensor slot `n`. -/
def setTslot (s : State) (n : Nat) (t : TSlot) : State :=
  { s with thermal := { s.thermal with slots := Tbl.set (fun _ => TSlot.init) s.thermal.slots n t } }
/-- Thermal state of band path `n`. -/
def bpTherm (s : State) (n : Nat) : BpTherm := Tbl.get (fun _ => BpTherm.init) s.thermal.bps n
/-- Replace the thermal state of band path `n`. -/
def setBpTherm (s : State) (n : Nat) (t : BpTherm) : State :=
  { s with thermal := { s.thermal with bps := Tbl.set (fun _ => BpTherm.init) s.thermal.bps n t } }

/-! ### Register fields -/

/-- The stored word of a register. -/
def reg (s : State) (a : Nat) : Word := Tbl.get regReset s.regs a
/-- Store a register word. -/
def setReg (s : State) (a : Nat) (w : Word) : State := { s with regs := Tbl.set regReset s.regs a w }
/-- The stored value of a field. -/
def rd (s : State) (f : Fld) : Nat := bitsOf (s.reg f.addr) f.hi f.lo
/-- A one-bit field as a truth value. -/
def rdB (s : State) (f : Fld) : Bool := s.rd f != 0
/-- A signed field. -/
def rdS (s : State) (f : Fld) : Int := sx (f.hi - f.lo + 1) (s.rd f)
/-- Store a field. -/
def wr (s : State) (f : Fld) (v : Nat) : State := s.setReg f.addr (putBits (s.reg f.addr) f.hi f.lo v)
/-- Store a one-bit field. -/
def wrB (s : State) (f : Fld) (b : Bool) : State := s.wr f (if b then 1 else 0)
/-- Count an event in a SAT field: it stops at all ones and sets its sticky overflow (R435, R443). -/
def inc (s : State) (cnt ovf : Fld) : State :=
  let top := 2 ^ (cnt.hi - cnt.lo + 1) - 1
  let n := Nat.min (s.rd cnt + 1) top
  let s := s.wr cnt n
  if n = top then s.wr ovf 1 else s
/-- Count `k` events in a SAT field. -/
def incBy (s : State) (cnt ovf : Fld) : Nat → State
  | 0 => s
  | k + 1 => (s.inc cnt ovf).incBy cnt ovf k

end State

/-- Count an event in a SAT count of `w` bits that a device record holds. -/
def Sat.inc (w : Nat) (c : Sat) : Sat :=
  let n := Nat.min (c.n + 1) (2 ^ w - 1)
  ⟨n, c.ovf || n == 2 ^ w - 1⟩

/-- A SAT count and its overflow bit above it, as one field of w + 1 bits. -/
def Sat.field (w : Nat) (c : Sat) : Nat := (if c.ovf then 2 ^ w else 0) + c.n

/-- A truth value as a bit. -/
def bit (b : Bool) : Nat := if b then 1 else 0

/-! ### Time (R322, R324) -/

/-- CLK_E cycles in a millisecond. -/
def msCyc : Nat := 983040
/-- CLK_E cycles in a second. -/
def secCyc : Nat := 983040000
/-- CLK_E cycles, rounded up, of a time in ns. -/
def nsCyc (ns : Nat) : Nat := (ns * 98304 + 99999) / 100000
/-- CLK_E cycles, rounded up, of a time in µs. -/
def usCyc (us : Nat) : Nat := nsCyc (us * 1000)
/-- One nanosecond of calendar time, in its units of 2^-24 ns. -/
def ns1 : Int := 16777216
/-- One second of calendar time. -/
def sec1 : Int := 1000000000 * ns1

/-- One °C of a temperature, in its units of 2^-24 °C. -/
def degC : Int := 16777216

/-- TIME_HI of a calendar time. -/
def timeHi (t : Int) : Word := BitVec.ofInt 40 ((t / sec1) % 2 ^ 32 * 256)
/-- TIME_LO of a calendar time, truncated to 2^-8 ns. -/
def timeLo (t : Int) : Word := BitVec.ofInt 40 ((t % sec1) / 65536)
/-- The calendar time of a packed pair. -/
def timeOf (hi lo : Word) : Int := (hi.toNat / 256 : Nat) * sec1 + (lo.toNat * 65536 : Nat)

namespace State

/-- CYC (R322). -/
def cycW (s : State) : Word := BitVec.ofNat 40 s.cyc
/-- TIME_HI now. -/
def nowHi (s : State) : Word := timeHi s.time.now
/-- TIME_LO now. -/
def nowLo (s : State) : Word := timeLo s.time.now

/-! ### Device-wide conditions -/

/-- The C4 latch or the test latch holds: every action of R372 stands (R376). -/
def latched (s : State) : Bool := s.fc.c4 || s.fc.testLatch
/-- Replay mode (R404). -/
def replayMode (s : State) : Bool :=
  match s.rpl.st with
  | .replayMode | .replaying | .done => true
  | _ => false
/-- The cycle count the replay set reads: RCYC while a replay runs, CYC otherwise (R404). -/
def setCyc (s : State) : Nat := match s.rpl.st with | .replaying => s.rpl.rcyc | _ => s.cyc
/-- Harbour mode as a band path knows it: a selected one runs by the recorded mode while a replay runs (R400, R404). -/
def harbourOf (s : State) : Bool := match s.rpl.st with | .replaying => s.rpl.harbour | _ => s.boot.harbour
/-- RF egress is off on every chain: JTX idle and PA_EN low (R19, R372, R404, R470). -/
def rfOff (s : State) : Bool := s.latched || s.boot.harbour || s.replayMode || s.pins.boundary
/-- Factory test mode (R375). -/
def factoryTest (s : State) : Bool := s.boot.testEn && !s.fuses.factoryLock
/-- The device runs: clocks are out of reset. -/
def alive (s : State) : Bool :=
  match s.boot.st with
  | .inReset | .pllLocking => false
  | _ => true

/-! ### Selected band paths of the replay plan (R399) -/

/-- The band path of selection slot `k`, if it is valid. -/
def selSlot (s : State) (k : Nat) : Option Nat :=
  let w := bitsOf (s.reg (F.rplSelSlotA (k / 4)).addr) (39 - 8 * (k % 4)) (32 - 8 * (k % 4))
  if 128 ≤ w then some (w % 128) else none
/-- The selected band paths in slot order. -/
def selected (s : State) : List Nat :=
  if s.rd F.rplCfgSetN = 0 then [] else (List.range 8).filterMap (selSlot s)
/-- Recording of the replay set is running. -/
def recording (s : State) : Bool := s.rpl.st == .recording

end State

/-! ### Requesters (R433) -/

/-- The number of a requester: 0 the core, 1 to 8 the sessions, 9 the debug port, 10 + e engine e. -/
def reqCode : Requester → Nat
  | .mgmt => 0
  | .session i => 1 + i.toNat
  | .debug => 9
  | .engine e => 10 + e.toNat

/-- The code a requester carries in a LIVE_WRITE entry; engines share 0x0A. -/
def reqJournal : Requester → Nat
  | .mgmt => 0
  | .session i => 1 + i.toNat
  | .debug => 9
  | .engine _ => 10

/-- Engines and all others are answered differently (R436). -/
def reqIsEngine : Requester → Bool
  | .engine _ => true
  | _ => false

/-! ### The protected store (R254, R255) -/

/-- The protected memories a consumer reads, with their keys in `Mem`. -/
inductive MemSel where
  | imem | dmem | quay | hold | bankA | bankB | desc | seq | scan | cls | almanac | refs | mgmt | mask | routes
  deriving DecidableEq, Repr

/-- The table of a memory. -/
def Mem.tbl (m : Mem) : MemSel → Tbl Cell
  | .imem => m.imem
  | .dmem => m.dmem
  | .quay => m.quay
  | .hold => m.hold
  | .bankA => m.bankA
  | .bankB => m.bankB
  | .desc => m.desc
  | .seq => m.seq
  | .scan => m.scan
  | .cls => m.cls
  | .almanac => m.almanac
  | .refs => m.refs
  | .mgmt => m.mgmt
  | .mask => m.mask
  | .routes => m.routes

/-- Replace the table of a memory. -/
def Mem.setTbl (m : Mem) (k : MemSel) (t : Tbl Cell) : Mem :=
  match k with
  | .imem => { m with imem := t }
  | .dmem => { m with dmem := t }
  | .quay => { m with quay := t }
  | .hold => { m with hold := t }
  | .bankA => { m with bankA := t }
  | .bankB => { m with bankB := t }
  | .desc => { m with desc := t }
  | .seq => { m with seq := t }
  | .scan => { m with scan := t }
  | .cls => { m with cls := t }
  | .almanac => { m with almanac := t }
  | .refs => { m with refs := t }
  | .mgmt => { m with mgmt := t }
  | .mask => { m with mask := t }
  | .routes => { m with routes := t }

/-- A memory as a number, for the write-back queue. -/
def MemSel.num : MemSel → Nat
  | .imem => 0 | .dmem => 1 | .quay => 2 | .hold => 3 | .bankA => 4 | .bankB => 5 | .desc => 6 | .seq => 7
  | .scan => 8 | .cls => 9 | .almanac => 10 | .refs => 11 | .mgmt => 12 | .mask => 13 | .routes => 14

namespace State

/-- A cell of a protected memory. -/
def cell (s : State) (k : MemSel) (a : Nat) : Cell := Tbl.get (fun _ => Cell.zero) (s.mem.tbl k) a
/-- Replace a cell. -/
def setCell (s : State) (k : MemSel) (a : Nat) (c : Cell) : State :=
  { s with mem := s.mem.setTbl k (Tbl.set (fun _ => Cell.zero) (s.mem.tbl k) a c) }
/-- An engine, lighter or device write: the word with valid check symbols and poison clear; a write-back of an older read is dropped (R255). -/
def memWrite (s : State) (k : MemSel) (a : Nat) (w : Word) : State :=
  let s := s.setCell k a ⟨w, 0, false⟩
  if s.writeBacks.any (fun x => x.mem == k.num && x.addr == a) then
    { s with writeBacks := s.writeBacks.filter (fun x => !(x.mem == k.num && x.addr == a)) }
  else s

/-- Store consecutive words. -/
def memWrites (s : State) (k : MemSel) (a : Nat) : List Word → State
  | [] => s
  | w :: t => (s.memWrite k a w).memWrites k (a + 1) t
/-- The word a cell stores, without the effects of a read. -/
def memPeek (s : State) (k : MemSel) (a : Nat) : Word := (s.cell k a).word
/-- Store consecutive words of hold memory. -/
def holdPuts (s : State) (a : Nat) (l : List Word) : State := s.memWrites .hold a l
/-- Store consecutive words of an engine's data memory. -/
def dmemPuts (s : State) (e a : Nat) (l : List Word) : State := s.memWrites .dmem (16384 * e + a) l

/-! ### The journal (R400) -/

/-- The value `a` is not earlier than `b`, as CYC values (R322, R402). -/
def notEarlier (a b : Word) : Bool := (a - b).toNat < 2 ^ 39

/-- Hold address of entry `i` of the journal ring. -/
def jAddr (i : Nat) : Nat := 524288 + 4 * (i % 49152)

/-- A channel of the device itself has moved words that no descriptor of a queue names (R258): DONE counts the move, and the next address is past it (DESIGN CHOICE, assumption 74). -/
def devServe (s : State) (n a count : Nat) : State :=
  let l := s.lighter n
  s.setLighter n { l with done := l.done + 1, nextAddr := BitVec.ofNat 24 (a + count), fside := false }

/-- A channel stands in STATE 3. -/
def ltrStopped (s : State) (n : Nat) : Bool := (s.lighter n).st == .stopped

/-- The channel that carries the journal now: the lowest of DL0 to DL3 that is not stopped, if there is one (R258; DESIGN CHOICE, assumption 74). -/
def jChannel (s : State) : Option Nat := [512, 513, 514, 515].find? (fun n => !s.ltrStopped n)

/-- Make room for an entry by its place in CYC order, and in TYPE order at an equal CYC: the later ones among the last `k` entries before place `i` move up by one (R400). No word is read for it: the cells move as they are stored. -/
def jPlace (s : State) (ty : Nat) (cyc : Word) : Nat → Nat → State × Nat
  | 0, i => (s, i)
  | k + 1, i =>
    let p := (i + 49151) % 49152
    let c := s.memPeek .hold (jAddr p + 1)
    if if c = cyc then ty < bitsOf (s.memPeek .hold (jAddr p)) 39 34 else notEarlier c cyc then
      ((List.range 4).foldl (fun t j => t.setCell .hold (jAddr i + j) (s.cell .hold (jAddr p + j))) s).jPlace ty cyc k p
    else (s, i)

/-- The journal takes an entry of this CYC: while recording runs, and after a freeze one from at or before the freeze CYC (R402). -/
def journals (s : State) (cyc : Word) : Bool :=
  s.recording || (s.rpl.st == .frozen && notEarlier s.rpl.freezeCyc cyc)

/-- Write one entry of the journal ring at hold words 0x08_0000 to 0x0A_FFFF, in its place (R400), by the channel that carries the journal. -/
def journal (s : State) (ty detail : Nat) (cyc w2 w3 : Word) : State :=
  match s.journals cyc, s.jChannel with
  | true, some n =>
    let i := s.rpl.jHead % 49152
    let r := s.jPlace ty cyc (Nat.min s.rpl.jCount 49151) i
    let s := r.1.holdPuts (jAddr r.2) [BitVec.ofNat 40 (ty * 2 ^ 34 + detail % 2 ^ 34), cyc, w2, w3]
    let s := { s with rpl := { s.rpl with jHead := (i + 1) % 49152, jCount := Nat.min (s.rpl.jCount + 1) 49152 } }
    s.devServe n (jAddr r.2) 4
  | _, _ => s

/-- A CROSS entry for a selected band path: 1 donor lost, 2 donor restored, 3 out of service, 4 acknowledge, 5 harbour mode. The manual lays out no context word for it. -/
def crossEntry (s : State) (n event : Nat) : State :=
  if s.selected.contains n then s.journal 8 (n * 128 + event) s.cycW (Config.msgContext n 0 event) 0 else s

/-- Draw a free value: an uninterpreted word, one for each draw. -/
def free (s : State) : Word × State := (Config.freeValue s.freeCtr, { s with freeCtr := s.freeCtr + 1 })

end State

/-! ### Folding over instances -/

/-- Run a change for each number of a list, in order. -/
def forEach (f : State → Nat → State) (l : List Nat) (s : State) : State := l.foldl f s

/-- The keys a sparse table lists. -/
def tblKeys {α : Type} (t : Tbl α) : List Nat := t.map (·.1)

end Sys2Proof.Machine
end

