-- ==== Sys2Proof/Machine/Report.lean ====
section
/-! DEFINITION. Fault messages and the collector's intake queue (R362 to R365), the source numbers and kind codes the blocks send, and reads of the protected store (R255). -/

namespace Sys2Proof.Machine

/-! ### Source numbers (R363) -/

/-- Source of a band path. -/
def srcBp (n : Nat) : Nat := n
/-- Context word of COEF_POISON and REF_POISON (R92, R123): the band path in [39:32] and the tap index or sequence number in [31:0]; the places are the model's (DESIGN CHOICE, assumption 64). -/
def bpCtx (n i : Nat) : Word := BitVec.ofNat 40 (n * 2 ^ 32 + i)
/-- Source of an engine. -/
def srcEng (n : Nat) : Nat := 256 + n
/-- Source of a lighter channel: 0x0200 + 32q + c, or 0x0400 + k for DLk. -/
def srcLtr (n : Nat) : Nat := 512 + n
/-- Source of a chain. -/
def srcCh (n : Nat) : Nat := 1280 + n
/-- Source of a Guvan port. -/
def srcGv (n : Nat) : Nat := 1536 + n
/-- Source of a loop slot. -/
def srcLp (n : Nat) : Nat := 1792 + n
/-- Source of a quay. -/
def srcQuay (n : Nat) : Nat := 2048 + n
/-- Measurement block. -/
def srcMeas : Nat := 0x900
/-- Thermal and current block. -/
def srcTherm : Nat := 0x901
/-- Time base. -/
def srcTime : Nat := 0x902
/-- Fault collector and logbook. -/
def srcFc : Nat := 0x903
/-- Management core. -/
def srcMgmt : Nat := 0x904
/-- Boot and image. -/
def srcBoot : Nat := 0x905
/-- Hold memory and device records. -/
def srcHold : Nat := 0x906
/-- Protection and limits, and the coexistence ports. -/
def srcProt : Nat := 0x907

/-- The group of a source number, as alarm words carry it (R310). -/
def groupOf (src : Nat) : Nat :=
  if src < 0x80 then 0 else if src < 0x200 then 1 else if src < 0x400 then 2 else if src < 0x500 then 3
  else if src < 0x600 then 4 else if src < 0x700 then 5 else if src < 0x800 then 6 else if src < 0x900 then 7
  else 8 + (src - 0x900)

/-- Kind codes shared by every group (R364). -/
def kNote : Nat := 56
/-- A corrected read. -/
def kMemCorr : Nat := 57
/-- A scrub finding. -/
def kMemUncorr : Nat := 58

/-- Word 0 of a message, or the key of its record (R362, R377). -/
def FMsg.word0 (m : FMsg) : Word :=
  BitVec.ofNat 40 (m.src.toNat * 2 ^ 26 + m.kind.toNat * 2 ^ 20 + m.hint.toNat * 2 ^ 17 + m.cls.toNat * 2 ^ 14
    + bit m.inj * 2 ^ 13 + bit m.promo * 2 ^ 12 + bit m.esc * 2 ^ 11)

/-- The five words of a message (R362). -/
def FMsg.words (m : FMsg) : List Word := [m.word0, m.ctx, m.cyc, m.timeHi, m.timeLo]

namespace State

/-- A message as its block stamps it (R362). -/
def mkMsg (s : State) (src kind hint : Nat) (ctx : Word) (inj : Bool) : FMsg where
  src := BitVec.ofNat 14 src
  kind := BitVec.ofNat 6 kind
  hint := BitVec.ofNat 3 hint
  cls := 0
  inj := inj
  promo := false
  esc := false
  ctx := ctx
  cyc := s.cycW
  timeHi := s.nowHi
  timeLo := s.nowLo

/-- Count a message dropped at the intake queue under its hint (R365). -/
def dropped (s : State) (hint : Nat) : State :=
  if hint = 0 then s.inc F.fcQueueDrop0 F.fcQueueD0Ovf
  else if hint = 1 then s.inc F.fcQueueDrop1 F.fcQueueD1Ovf
  else s.inc F.fcQueueDrop2 F.fcQueueD2Ovf

end State

/-- Remove the last message of the queue that has hint C0 or C1, and say which hint it had (R365). -/
def dropNewestLow : List FMsg → Option (List FMsg × Nat)
  | [] => none
  | m :: t =>
    match dropNewestLow t with
    | some (t', h) => some (m :: t', h)
    | none => if m.hint.toNat ≤ 1 then some (t, m.hint.toNat) else none

/-- Of two messages that reach the queue in one CLK_F cycle the first comes first: a real one before an injected one, then by SOURCE, then by KIND (R365). -/
def FMsg.before (x y : FMsg) : Bool :=
  if x.inj == y.inj then decide (x.src.toNat * 64 + x.kind.toNat < y.src.toNat * 64 + y.kind.toNat) else y.inj

/-- The queue with a message in its place: before the first entry of its own CLK_F cycle that comes after it, else at the end. A message that its block has held keeps the stamp of its sending, and enters at the end (R365). -/
def queued (m : FMsg) : List FMsg → List FMsg
  | [] => [m]
  | x :: t => if x.cyc >>> 1 == m.cyc >>> 1 && m.before x then m :: x :: t else x :: queued m t

namespace State

/-- A message enters the queue behind those of earlier cycles, in the order of its own, and PEAK is kept. -/
def pushQueue (s : State) (m : FMsg) : State :=
  let q := queued m s.fc.queue
  { s with fc := { s.fc with queue := q, peak := Nat.max s.fc.peak q.length } }

/-- A message reaches the 64-entry intake queue (R365): it enters; or finds the queue full and is dropped, displaces a lower one, or is held by its block. -/
def offer (s : State) (m : FMsg) : State :=
  let h := m.hint.toNat
  let holds := s.fc.heldBack.any (fun x => x.block == m.src.toNat)
  if holds then s.dropped h
  else if s.fc.queue.length < 64 then s.pushQueue m
  else if h ≤ 1 then s.dropped h
  else match dropNewestLow s.fc.queue with
    | some (q, dh) => ({ s with fc := { s.fc with queue := queued m q } } : State).dropped dh
    | none => { s with fc := { s.fc with heldBack := s.fc.heldBack ++ [⟨m.src.toNat, m⟩] } }

/-- A block sends a real message with a hint from C0 to C3. -/
def report (s : State) (src kind hint : Nat) (ctx : Word) : State := s.offer (s.mkMsg src kind hint ctx false)

/-- A C0 note (kind 56). -/
def note (s : State) (src : Nat) (ctx : Word) : State := s.report src kNote 0 ctx

/-- Offer again what blocks hold, oldest first, while the queue has room. -/
def offerHeld (s : State) : State :=
  match s.fc.heldBack with
  | [] => s
  | x :: t => if s.fc.queue.length < 64 then ({ s with fc := { s.fc with heldBack := t } } : State).pushQueue x.msg else s

end State

/-! ### Reads of the protected store (R255) -/

/-- What a read of a protected word delivers: the word and whether it carries the poison tag. -/
structure ReadWord where
  word : Word
  poison : Bool
  deriving DecidableEq, Repr

namespace State

/-- The quay whose QUAY_MEM counts a memory's corrected and uncorrectable reads, hold memory counting in HOLD_MEM; the other memories have no counts. -/
def memCounts (k : MemSel) (a : Nat) : Option (Option Nat) :=
  match k with
  | .imem => some (some (a / 8192 / 16))
  | .dmem => some (some (a / 16384 / 16))
  | .quay => some (some (a / 262144))
  | .hold => some none
  | _ => none

/-- Count a corrected read. -/
def countCorr (s : State) (k : MemSel) (a : Nat) : State :=
  match memCounts k a with
  | some (some q) => s.inc (F.quayMemCorrCnt q) (F.quayMemCorrOvf q)
  | some none => s.inc F.holdMemCorrCnt F.holdMemCorrOvf
  | none => s

/-- Count an uncorrectable read or scrub finding. -/
def countUnc (s : State) (k : MemSel) (a : Nat) : State :=
  match memCounts k a with
  | some (some q) => s.inc (F.quayMemUncCnt q) (F.quayMemUncOvf q)
  | some none => s.inc F.holdMemUncCnt F.holdMemUncOvf
  | none => s

/-- The word address a memory message carries (R255): within the one engine or quay memory, as the key elsewhere. -/
def wordAddr (k : MemSel) (a : Nat) : Nat :=
  match k with
  | .imem => a % 8192
  | .dmem => a % 16384
  | .quay => a % 262144
  | _ => a

/-- A consumer reads a protected word (R255): clean, corrected (with a C1 message from `src` and a write-back), or uncorrectable, when the poison bit is set. -/
def memRead (s : State) (k : MemSel) (a src : Nat) : ReadWord × State :=
  let c := s.cell k a
  if c.poison then (⟨c.word, true⟩, s.countUnc k a)
  else match rsDecode c.flips with
    | .clean => (⟨c.word ^^^ (c.flips >>> 24).setWidth 40, false⟩, s)
    | .corrected fix =>
      let w := c.word ^^^ ((c.flips ^^^ fix) >>> 24).setWidth 40
      let s := s.countCorr k a
      let s := s.report src kMemCorr 1 (BitVec.ofNat 40 (wordAddr k a))
      (⟨w, false⟩, { s with writeBacks := s.writeBacks ++ [⟨k.num, a, w, s.cyc⟩] })
    | .bad => (⟨c.word ^^^ (c.flips >>> 24).setWidth 40, true⟩, (s.setCell k a { c with poison := true }).countUnc k a)

/-- The damaged words of a range of a memory, in address order. -/
def damagedIn (s : State) (k : MemSel) (lo hi : Nat) : List Nat :=
  ((s.mem.tbl k).filter (fun p => decide (lo ≤ p.1) && decide (p.1 < hi) && (p.2.poison || p.2.flips != 0))).map (·.1)

/-- A run of words is read in address order, up to the first poisoned one, which the answer names (R255). Clean words leave no trace, so only the damaged ones are visited. -/
def readRun (s : State) (k : MemSel) (lo hi src : Nat) : Option Nat × State :=
  (s.damagedIn k lo hi).foldl (fun (acc : Option Nat × State) a =>
    match acc.1 with
    | some _ => acc
    | none => let r := acc.2.memRead k a src; (if r.1.poison then some a else none, r.2)) (none, s)

end State

/-! ### Lighter channels and their messages (R266) -/

/-- The channel is one of DL0 to DL15. -/
def isDl (n : Nat) : Bool := 512 ≤ n

/-- Context word of a lighter message. -/
def ltrCtx (n : Nat) (fside : Bool) (addr : BitVec 24) : Word :=
  let ch := if isDl n then n - 512 else n % 32
  let q := if isDl n then 0 else n / 32
  BitVec.ofNat 40 (bit (isDl n) * 2 ^ 39 + ch * 2 ^ 34 + q * 2 ^ 30 + bit fside * 2 ^ 29 + addr.toNat)

/-- Stop a channel on a fault (R266): the side, the address of the word, the code, and one message. -/
def State.ltrStop (s : State) (n code : Nat) (fside : Bool) (a : Int) : State :=
  let l := s.lighter n
  let addr := BitVec.ofInt 24 a
  let s := s.setLighter n { l with st := .stopped, fault := BitVec.ofNat 4 code, fside := fside, nextAddr := addr }
  s.report (srcLtr n) code (if code = 3 ∨ code = 6 then 2 else 1) (ltrCtx n fside addr)

end Sys2Proof.Machine
end

