-- ==== Sys2Proof/Machine/Links.lean ====
section
/-! DEFINITION. Management messages and their routing (R303 to R309), notices (R395) and alarm words (R310). -/

namespace Sys2Proof.Machine

/-! ### The message format (R303) -/

/-- Bytes `i` to `i + k - 1` of a message as a number. -/
def msgNat (b : List Byte) (i k : Nat) : Nat := beNat ((b.drop i).take k)
/-- CLASS of a message. -/
def msgClass (b : List Byte) : Nat := msgNat b 0 1 % 16
/-- HOPS. -/
def msgHops (b : List Byte) : Nat := msgNat b 1 1
/-- DST. -/
def msgDst (b : List Byte) : Nat := msgNat b 2 3
/-- SRC. -/
def msgSrc (b : List Byte) : Nat := msgNat b 5 3
/-- SEQ. -/
def msgSeq (b : List Byte) : Nat := msgNat b 8 2
/-- LEN. -/
def msgLen (b : List Byte) : Nat := msgNat b 10 2
/-- PRIO. -/
def msgPrio (b : List Byte) : Bool := 128 ≤ msgNat b 12 1
/-- The payload. -/
def msgPayload (b : List Byte) : List Byte := (b.drop 16).take (msgLen b)

/-- Header, payload and CRC are those of a message: version, class, lengths, zero fields and CRC (R303). -/
def msgOk (b : List Byte) : Bool :=
  msgNat b 0 1 / 16 == 1 && msgClass b ≤ 3 && b.length == 20 + msgLen b && msgLen b ≤ 1004 &&
  msgDst b < 2 ^ 18 && msgSrc b < 2 ^ 18 && msgNat b 12 1 % 128 == 0 && msgNat b 13 3 == 0 &&
  msgNat b (16 + msgLen b) 4 == (crc32 (b.take (16 + msgLen b))).toNat

/-- The message holds all the bytes its LEN claims, and its CRC is good (R303). -/
def msgCrcOk (b : List Byte) : Bool :=
  20 + msgLen b ≤ b.length && msgNat b (16 + msgLen b) 4 == (crc32 (b.take (16 + msgLen b))).toNat

/-- A message from its fields. -/
def mkMsgBytes (cls hops dst src seq flags : Nat) (payload : List Byte) : List Byte :=
  let h := beBytes 1 (16 + cls) ++ beBytes 1 hops ++ beBytes 3 dst ++ beBytes 3 src ++ beBytes 2 seq ++
    beBytes 2 payload.length ++ beBytes 1 flags ++ [0, 0, 0] ++ payload
  h ++ beBytes 4 (crc32 h).toNat

/-- The message with another hop count. -/
def withHops (b : List Byte) (hops : Nat) : List Byte :=
  let h := b.take 1 ++ beBytes 1 hops ++ (b.drop 2).take (14 + msgLen b)
  h ++ beBytes 4 (crc32 h).toNat

/-- The broadcast address 255.63.15 (R13). -/
def allAddr : Nat := 2 ^ 18 - 1

/-- Receive blocks a message of L bytes takes (R304). -/
def blocksOf (b : List Byte) : Nat := (b.length + 63) / 64

namespace State

/-- The device holds an address. -/
def addressed (s : State) : Bool := s.rdB F.devAddrValid
/-- DEV_ADDR, zero without an address. -/
def ownAddr (s : State) : Nat := if s.addressed then s.rd F.devAddrAddr else 0
/-- The role of a port: 0 unused, 1 NODE, 2 SPAN, 3 HEAD (R307). -/
def portRole (s : State) (p : Nat) : Nat := s.rd (F.gvCfgRole p)
/-- A port is UP. -/
def portUp (s : State) (p : Nat) : Bool := (s.port p).st == .up

/-- Context word of a Guvan fault (R313). -/
def gvCtx (s : State) (p src : Nat) : Word :=
  let st := match (s.port p).st with
    | .disabled => 0 | .detect => 1 | .hello => 2 | .train => 3 | .hunt => 4 | .up => 5
  BitVec.ofNat 40 (p * 2 ^ 37 + st * 2 ^ 34 + src % 2 ^ 18)

/-- The oldest sample has left a stream's receive buffer: the places marked in it move up by one. -/
def rxShift (s : State) (p src : Nat) : State :=
  let q := s.port p
  if q.badRx = [] then s
  else s.setPort p { q with badRx := (q.badRx.filter (fun x => x != (src, 0))).map (fun x => if x.1 = src then (x.1, x.2 - 1) else x) }

/-- A GV_ROUTE note of a port about a message. -/
def routeNote (s : State) (p : Nat) (b : List Byte) : State := s.report (srcGv p) 10 0 (s.gvCtx p (msgSrc b))

/-- Queue a message on a port; false when its 16 places are taken (R306). -/
def tryQueue (s : State) (p : Nat) (m : Msg) : Option State :=
  let q := s.port p
  if q.outQ.length < 16 then some (s.setPort p { q with outQ := q.outQ ++ [m] }) else none

/-- Blocks of a port's receive buffer are freed: their credits are owed to the partner (R304). -/
def freeBlocks (s : State) (p k : Nat) : State :=
  let q := s.port p
  s.setPort p { q with occupied := q.occupied - k, owed := if q.st = .up then q.owed + Nat.min k q.occupied else q.owed }

/-- Free what a message holds where it arrived. -/
def freeMsg (s : State) (m : Msg) : State :=
  match m.port with
  | some a => if m.blocks = 0 then s else s.freeBlocks a.toNat m.blocks
  | none => s

/-- A message waits for room in the queue of a port, with the blocks it keeps (R306). -/
def waitOut (s : State) (w : WaitMsg) : State := { s with mgmt := { s.mgmt with outWait := s.mgmt.outWait ++ [w] } }
/-- Queue a message on a port: it waits while the queue is full or an earlier one waits for it, so that messages keep their order (R306). -/
def queueOwn (s : State) (p : Nat) (m : Msg) : State :=
  if s.mgmt.outWait.any (fun w => w.out == BitVec.ofNat 3 p) then s.waitOut ⟨BitVec.ofNat 3 p, m, false⟩
  else match s.tryQueue p m with
    | some s' => s'
    | none => s.waitOut ⟨BitVec.ofNat 3 p, m, false⟩
/-- Queue a copy of a broadcast on a port, or let it wait as `queueOwn` does. -/
def queueCopy (s : State) (p : Nat) (m : Msg) : State :=
  if s.mgmt.outWait.any (fun w => w.out == BitVec.ofNat 3 p) then s.waitOut ⟨BitVec.ofNat 3 p, m, true⟩
  else match s.tryQueue p ⟨m.bytes, none, 0⟩ with
    | some s' => s'
    | none => s.waitOut ⟨BitVec.ofNat 3 p, m, true⟩
/-- The blocks of a broadcast are freed when none of its copies waits. -/
def freeCopies (s : State) (m : Msg) : State := if s.mgmt.outWait.any (fun w => w.copy && w.msg == m) then s else s.freeMsg m

/-- The place of a destination's route entry (R308): span table at 0, node table at 256, device table at 320. -/
def routeKey (s : State) (dst : Nat) : Nat :=
  let own := s.ownAddr
  if dst / 1024 ≠ own / 1024 then dst / 1024
    else if dst / 16 % 64 ≠ own / 16 % 64 then 256 + dst / 16 % 64
    else 320 + dst % 16
/-- What a route lookup does to the routing memory, a protected store (R255, R307): a corrected entry is reported and written back, an uncorrectable one poisoned. -/
def routeRead (s : State) (dst : Nat) : State := (s.memRead .routes (s.routeKey dst) srcMgmt).2
/-- The route entry of a destination; a poisoned or uncorrectable one names no port. -/
def routeEntry (s : State) (dst : Nat) : Byte :=
  let r := (s.memRead .routes (s.routeKey dst) srcMgmt).1
  if r.poison then 0x88 else r.word.truncate 8

/-- The port a destination is routed to: the primary if it is UP, else the alternate if it is UP (R308). -/
def routePort (s : State) (dst : Nat) : Option Nat :=
  let e := (s.routeEntry dst).toNat
  if e / 16 < 8 ∧ s.portUp (e / 16) then some (e / 16)
  else if e % 16 < 8 ∧ s.portUp (e % 16) then some (e % 16)
  else none

/-- Copies of a broadcast on every NODE and SPAN port that is UP, but the arrival port (R308); a received one keeps its blocks while a copy waits (R306). -/
def flood (s : State) (m : Msg) (arrival : Option Nat) : State :=
  ((List.range 8).foldl (fun s p =>
    if s.portUp p && (s.portRole p == 1 || s.portRole p == 2) && (arrival != some p) then s.queueCopy p m else s) s).freeCopies m

/-- A broadcast of the device's own is held as seen (R308). -/
def seeOwn (s : State) (b : List Byte) : State :=
  { s with mgmt := { s.mgmt with
      seen := (s.mgmt.seen ++ [(⟨BitVec.ofNat 18 (msgSrc b), BitVec.ofNat 16 (msgSeq b), s.cyc⟩ : SeenMsg)]).drop
        (s.mgmt.seen.length + 1 - 32) } }

/-- Send a message the device itself originates on its way: by its route, a broadcast on every NODE and SPAN port, and from a device without an address, whatever its destination, on the return port (R308, R309, R395). -/
def sendOwn (s : State) (b : List Byte) : State :=
  let dst := msgDst b
  if s.addressed then
    if dst = allAddr then (s.seeOwn b).flood ⟨b, none, 0⟩ none
    else
      let p := s.routePort dst
      let e := s.routeEntry dst
      let s := s.routeRead dst
      match p with
      | some p => s.queueOwn p ⟨withHops b (msgHops b - 1), none, 0⟩
      | none => s.routeNote (e.toNat / 16 % 8) b
  else
    let s := if dst = allAddr then s.seeOwn b else s
    match s.mgmt.returnPort with
    | some p => s.queueOwn p.toNat ⟨b, none, 0⟩
    | none => s

/-- Offer again the oldest message that waits for room on a port. -/
def drainWait (s : State) (p : Nat) : State :=
  match s.mgmt.outWait.find? (fun w => w.out == BitVec.ofNat 3 p) with
  | none => s
  | some w =>
    match s.tryQueue p (if w.copy then ⟨w.msg.bytes, none, 0⟩ else w.msg) with
    | some s' =>
      let t : State := { s' with mgmt := { s'.mgmt with outWait := s'.mgmt.outWait.erase w } }
      if w.copy then t.freeCopies w.msg else t
    | none => s

/-- The device's next SEQ. -/
def nextSeq (s : State) : Nat × State :=
  (s.mgmt.seq.toNat, { s with mgmt := { s.mgmt with seq := s.mgmt.seq + 1 } })

/-- Send a NOTICE (R395): type 1 to every device of the span, the others to the head end, PRIO for types 2 and 3. Nothing is sent before the firmware runs, while the core restarts or is halted, or under the ROM loader. -/
def notice (s : State) (ty : Nat) (data : List Byte) : State :=
  if s.mgmt.core == .running && !s.boot.romLoader then
    let (seq, s) := s.nextSeq
    let dst := if ty = 1 then allAddr else s.img.headEnd.toNat
    let flags := if ty = 2 ∨ ty = 3 then 128 else 0
    s.sendOwn (mkMsgBytes 2 Config.hopLimit.toNat dst s.ownAddr seq flags (beBytes 1 ty ++ data))
  else s

/-! ### Alarm words (R310, R373) -/

/-- An alarm word of class 4. -/
def classFour (w : Word) : Bool := bitsOf w 21 19 == 4
/-- A word enters a queue of alarm words, which leave in order: an own one of class 4 is sent in the next frame, ahead of all others (R310, R372). -/
def alarmIn (own : Nat) (q : List Word) (w : Word) : List Word := if classFour w && bitsOf w 39 22 == own then w :: q else q ++ [w]
/-- Queue an alarm word on a port: 16 places, a full queue discards the oldest and counts it. -/
def queueAlarm (s : State) (p : Nat) (w : Word) : State :=
  let q := s.port p
  if q.alarmQ.length < 16 then s.setPort p { q with alarmQ := alarmIn s.ownAddr q.alarmQ w }
  else (s.setPort p { q with alarmQ := alarmIn s.ownAddr (q.alarmQ.drop 1) w }).inc (F.gvSlipAlarmDrop p) (F.gvSlipAdOvf p)

/-- Queue an alarm word on every UP port but one. -/
def spreadAlarm (s : State) (w : Word) (but : Option Nat) : State :=
  (List.range 8).foldl (fun s p => if s.portUp p && (but != some p) then s.queueAlarm p w else s) s

/-- Originate the alarm word of a real classification of C2 or higher: at most one for each class, group and kind in any 1 ms, none without an address (R310, R373). -/
def originateAlarm (s : State) (cls src kind : Nat) : State :=
  if s.addressed then
    let w := BitVec.ofNat 40 (s.ownAddr * 2 ^ 22 + cls * 2 ^ 19 + 127 * 2 ^ 12 + kind * 2 ^ 6 + groupOf src * 4)
    if s.fc.alarmed.any (fun a => a.word == w && s.cyc < a.at_ + msCyc) then s
    else
      let keep := s.fc.alarmed.filter (fun a => s.cyc < a.at_ + msCyc && a.word != w)
      ({ s with fc := { s.fc with alarmed := ⟨w, s.cyc⟩ :: keep } } : State).spreadAlarm w none
  else s

end State

end Sys2Proof.Machine
end

