-- ==== Sys2Proof/Machine/Flags.lean ====
section
/-! DEFINITION. The flags: STATUS of a task with its sticky SAT and ACCSAT (R202, R206, R207), and what narrowing and saturation do to them. -/

namespace Sys2Proof.Machine

/-- STATUS in its four bits: SAT, ACCSAT, URGENT, SUSPENDED (R202, R204). -/
def Task.status (t : Task) : Nat := bit t.sat * 8 + bit t.accsat * 4 + bit t.urgent * 2 + bit t.suspended

/-- An integer narrowed to `w` bits: wrapped, or saturated with S; the flag says that saturation changed it (R206). -/
def narrowInt (w : Nat) (sat : Bool) (x : Int) : Nat × Bool :=
  if sat then (ux w (satS w x), satS w x != x) else (ux w x, false)

/-- Set SAT of the running task when a saturation changed a result, and SAT_ANY with it. -/
def Engine.markSat (e : Engine) (b : Bool) : Engine := if b then { e with live := { e.live with sat := true } } else e
/-- Set ACCSAT of the running task. -/
def Engine.markAccsat (e : Engine) (b : Bool) : Engine := if b then { e with live := { e.live with accsat := true } } else e

/-- Keep ENG_STAT.SAT_ANY and ACCSAT_ANY with the flags a task sets. -/
def State.stickSat (s : State) (e : Nat) (sat acc : Bool) : State :=
  let s := if sat then s.wr (F.engStatSatAny e) 1 else s
  if acc then s.wr (F.engStatAccsatAny e) 1 else s

end Sys2Proof.Machine
end

