-- ==== Sys2Proof/Machine/Operands.lean ====
section
/-! DEFINITION. Every operand form of an engine instruction: registers, predicates, accumulators, complex components, immediates, memory addresses and block streams; and the context frame of a task (R202, R204, R210 to R212, R239). -/

namespace Sys2Proof.Machine

/-! ### Registers, predicates and accumulators of a task -/

/-- W0 to W31: W0 reads 0 (R202). -/
def Task.getW (t : Task) (r : Nat) : Word := if r = 0 then 0 else Tbl.get (fun _ => 0) t.w r
/-- A write of a general register; a write to W0 is discarded (R202). -/
def Task.setW (t : Task) (r : Nat) (v : Word) : Task :=
  if r = 0 then t else { t with w := Tbl.set (fun _ => 0) t.w r v }
/-- P0 to P7: P0 reads true. -/
def Task.getP (t : Task) (n : Nat) : Bool := n == 0 || t.p.getLsbD n
/-- A write of a predicate; a write to P0 is discarded. -/
def Task.setP (t : Task) (n : Nat) (b : Bool) : Task :=
  if n = 0 then t
  else { t with p := if b then t.p ||| (1#8 <<< n) else t.p &&& ~~~ (1#8 <<< n) }
/-- Half `h` (0 real, 1 imaginary) of accumulator `k`. -/
def Task.getAcc (t : Task) (k h : Nat) : BitVec 48 := Tbl.get (fun _ => 0) t.acc (2 * k + h)
/-- Replace a half of an accumulator. -/
def Task.setAcc (t : Task) (k h : Nat) (v : BitVec 48) : Task :=
  { t with acc := Tbl.set (fun _ => 0) t.acc (2 * k + h) v }

/-! ### Complex words (R7, R228) -/

/-- The components of a complex s1.19 word, as integers of 2^-19. -/
def cOf (w : Word) : Cplx := ⟨(w.extractLsb' 20 20).toInt, (w.extractLsb' 0 20).toInt⟩
/-- The word of two components taken modulo 2^20. -/
def wOfC (c : Cplx) : Word := BitVec.ofInt 20 c.re ++ BitVec.ofInt 20 c.im
/-- Both components saturated to s1.19. -/
def satC (c : Cplx) : Cplx := ⟨satS 20 c.re, satS 20 c.im⟩
/-- A complex value in 2^-38 narrowed to s1.19 by convergent rounding and saturation; the flag says that a component saturated. -/
def narrowC (c : Cplx) (k : Nat) : Word × Bool :=
  let r : Cplx := ⟨roundBits c.re k, roundBits c.im k⟩
  (wOfC (satC r), satC r != r)
/-- The exact product of two complex words, the second conjugated on request (R234). -/
def productC (x y : Word) (cj : Bool) : Cplx :=
  let b := if cj then (cOf y).conj else cOf y
  (cOf x).mul b

/-- Add to both halves of an accumulator, each saturated at the bounds of s10.38 (R207); the flag says that one saturated. -/
def Task.accumulate (t : Task) (k : Nat) (c : Cplx) : Task × Bool :=
  let re := (t.getAcc k 0).toInt + c.re
  let im := (t.getAcc k 1).toInt + c.im
  ((t.setAcc k 0 (BitVec.ofInt 48 (satS 48 re))).setAcc k 1 (BitVec.ofInt 48 (satS 48 im)),
    satS 48 re != re || satS 48 im != im)

/-- Word `j` of accumulator `k` as the context frame holds it (R204, R234). -/
def Task.accWord (t : Task) (k j : Nat) : Word :=
  let h := t.getAcc k (j / 2)
  if j % 2 = 0 then h.extractLsb' 8 40 else (h.extractLsb' 0 8) ++ (0#32)
/-- Write word `j` of accumulator `k` in that layout; its zero bits are ignored. -/
def Task.setAccWord (t : Task) (k j : Nat) (w : Word) : Task :=
  let h := t.getAcc k (j / 2)
  t.setAcc k (j / 2) (if j % 2 = 0 then w ++ (h.extractLsb' 0 8) else (h.extractLsb' 8 40) ++ (w.extractLsb' 32 8))

/-! ### Immediates, conditions and addresses -/

/-- A sign-extended immediate (R208). -/
def immS (i : BitVec 22) : Word := i.signExtend 40
/-- A zero-extended immediate. -/
def immZ (i : BitVec 22) : Word := i.setWidth 40

/-- The condition of a branch (R210); codes 22 to 31 are illegal and answer false. -/
def Task.cond (t : Task) (c : Nat) (r : Nat) : Bool :=
  let v := (t.getW r).toInt
  if c < 8 then t.getP c
  else if c < 16 then !(t.getP (c - 8))
  else if c = 16 then v == 0
  else if c = 17 then v != 0
  else if c = 18 then decide (v < 0)
  else if c = 19 then decide (0 ≤ v)
  else if c = 20 then decide (0 < v)
  else if c = 21 then decide (v ≤ 0)
  else false

/-- W[base] + offset formed in 40 bits (R211). -/
def Task.addr (t : Task) (base : Nat) (off : BitVec 22) : Nat := (t.getW base + immS off).toNat

/-- The stride a code of the mode field names (R212). -/
def strideOf (c : Nat) : Int :=
  if c = 0 then 1 else if c = 1 then 2 else if c = 2 then 4 else if c = 3 then 8 else if c = 4 then 16
  else if c = 5 then -1 else 0

/-- Element `i` of a stream, formed in 40 bits (R239). -/
def streamAt (base : Word) (stride : Int) (i : Nat) : Nat := (base + BitVec.ofInt 40 (stride * i)).toNat

/-- The number of elements of a block instruction: 0 means 1 024 (R212). -/
def K5.elements (f : K5) : Nat := if f.count = 0 then 1024 else f.count.toNat
/-- VARIANT of the mode field. -/
def K5.variant (f : K5) : Nat := f.mode.toNat / 128
/-- STRIDE_A. -/
def K5.strideA (f : K5) : Int := strideOf (f.mode.toNat / 16 % 8)
/-- STRIDE_B. -/
def K5.strideB (f : K5) : Int := strideOf (f.mode.toNat / 2 % 8)
/-- CONJ_B. -/
def K5.conjB (f : K5) : Bool := f.mode.toNat % 2 == 1

/-! ### The context frame (R204) -/

/-- First word of the frame of berth `b`. -/
def frameBase (b : Nat) : Nat := 15360 + 64 * b

/-- The 64 words of a frame. -/
def Task.frame (t : Task) (b : Nat) : List Word :=
  [BitVec.ofNat 40 (b * 2 ^ 36 + t.pc % 8192)] ++
  (List.range 31).map (fun i => t.getW (i + 1)) ++
  (List.range 16).map (fun i => t.accWord (i / 4) (i % 4)) ++
  [BitVec.ofNat 40 ((t.p.toNat / 2) * 2 + 1), t.prog.setWidth 40, BitVec.ofNat 40 t.status, t.xbase.setWidth 40] ++
  List.replicate 12 0

/-- The task a frame of words holds. -/
def Task.ofFrame (ws : List Word) : Task :=
  let at' := fun i => atD ws i 0
  let t : Task := { Task.init ((at' 0).toNat % 8192) ((at' 51).setWidth 24) with
    p := ((at' 48).setWidth 8) &&& 0xFE
    prog := (at' 49).setWidth 10
    sat := (at' 50).getLsbD 3
    accsat := (at' 50).getLsbD 2
    urgent := (at' 50).getLsbD 1
    suspended := (at' 50).getLsbD 0 }
  let t := (List.range 31).foldl (fun t i => t.setW (i + 1) (at' (i + 1))) t
  (List.range 16).foldl (fun t i => t.setAccWord (i / 4) (i % 4) (at' (32 + i))) t

namespace State

/-- Save a task's frame. The PC word holds 13 bits. -/
def saveFrame (s : State) (e b : Nat) (t : Task) : State := s.dmemPuts e (frameBase b) (t.frame b)

/-- Restore a frame: its words, and whether one of them is poisoned (R275). -/
def loadFrame (s : State) (e b : Nat) : (Task × Bool) × State :=
  let r := (List.range 64).foldl (fun (acc : (List Word × Bool) × State) i =>
      let rr := acc.2.memRead .dmem (16384 * e + frameBase b + i) (srcEng e)
      ((acc.1.1 ++ [rr.1.word], acc.1.2 || rr.1.poison), rr.2)) (([], false), s)
  ((Task.ofFrame r.1.1, r.1.2), r.2)

/-! ### Berths of an engine (R268) -/

/-- The image's section for an engine. -/
def engImage (s : State) (e : Nat) : Option EngImage := s.img.engines.find? (fun x => x.eng.toNat == e)
/-- The berths an engine has. -/
def berths (s : State) (e : Nat) : List BerthCfg := match s.engImage e with | some x => x.berths | none => []
/-- The configuration of one berth, if it has one. -/
def berthCfg (s : State) (e b : Nat) : Option BerthCfg := (s.berths e).find? (fun x => x.berth.toNat == b)
/-- The kind of a berth. -/
def berthKind (s : State) (e b : Nat) : BerthKind := match s.berthCfg e b with | some c => c.kind | none => .unused
/-- The berth holds an urgent or handler task. -/
def urgentBerth (s : State) (e b : Nat) : Bool :=
  match s.berthKind e b with | .urgent | .handler => true | _ => false
/-- The handler's berth of an engine. -/
def handlerOf (s : State) (e : Nat) : Option Nat :=
  ((s.berths e).find? (fun x => x.kind == .handler)).map (fun x => x.berth.toNat)
/-- The berth is shed (R351): it carries the SHED mark and berths are shed in this round. -/
def shedBerth (s : State) (e b : Nat) : Bool :=
  (s.engine e).shed && (match s.berthCfg e b with | some c => c.shed | none => false)
/-- A quay holds its clock grant (R201): the ledger holds its credits. -/
def quayClock (s : State) (q : Nat) : Bool := s.rdB (F.quayStatClkGranted q)

/-- The engine belongs to the replay quay of an enabled plan. -/
def inReplayQuay (s : State) (e : Nat) : Bool := s.rd F.rplCfgSetN != 0 && e / 16 == s.rd F.rplCfgQuay

/-- The cycle count engine `e` lives by: RCYC in the replay quay while a replay runs (R404). -/
def engCyc (s : State) (e : Nat) : Nat := if s.inReplayQuay e then s.setCyc else s.cyc

/-- Change the live task of an engine. -/
def modTask (s : State) (e : Nat) (g : Task → Task) : State :=
  let en := s.engine e
  s.setEngine e { en with live := g en.live }

/-! ### Faults of a task (R225, R273, R276) -/

/-- Severity hint of an engine fault: C3 for a double fault, C2 otherwise, one class higher from the handler (R225, R276). -/
def engHint (code : Nat) (handler : Bool) : Nat := (if code = 8 then 3 else 2) + bit handler

/-- Context word of an engine fault (R225). -/
def engCtx (e b pc prog : Nat) : Word := BitVec.ofNat 40 (e * 2 ^ 32 + b * 2 ^ 28 + pc % 8192 * 2 ^ 15 + prog % 1024)

/-- The fault of a task, running or not (R273): the message, SUSPENDED, LAST_FAULT, and the handler made ready unless the fault is its own. A double fault is the business of `doubleFault`; every other hint is at most C3. -/
def markFault (s : State) (e b code pc prog : Nat) : State :=
  let handler := s.handlerOf e == some b
  let s := s.report (srcEng e) code (engHint code handler) (engCtx e b pc prog)
  let en := s.engine e
  let en := match s.handlerOf e with
    | some h => if handler then en else en.wake h (s.engCyc e)
    | none => en
  s.setEngine e { en with
    suspended := en.suspended ||| (1#16 <<< b), lastFault := BitVec.ofNat 8 code, ready := en.ready &&& ~~~ (1#16 <<< b) }

/-- The fault of the running task of berth `b`: it is suspended, and the save that the fault causes begins now (R273, R274). -/
def runFault (s : State) (e b code pc : Nat) : State :=
  let en := s.engine e
  let s := s.setEngine e { en with live := { en.live with suspended := true }, poisoned := none }
  let s := s.markFault e b code pc en.live.prog.toNat
  s.setEngine e { s.engine e with faultAt := some (BitVec.ofNat 4 b, s.engCyc e) }

/-- Set SUSPENDED in the frame of a task that is not running (R273, R275): bit 0 of its STATUS word. -/
def suspendFrame (s : State) (e b : Nat) : State :=
  let a := 16384 * e + frameBase b + 50
  s.memWrite .dmem a (s.memPeek .dmem a ||| 1)

/-- Save the running task of an engine, leaving the engine without one. A fault that poisoned load data left pending is taken first, so that the context saved is the suspended one (R237, R247). -/
def saveRunning (s : State) (e : Nat) : State :=
  let en := s.engine e
  match en.running with
  | none => s
  | some b =>
    let s := match en.poisoned with
      | some pc => s.runFault e b.toNat 5 pc
      | none => s
    let s := s.saveFrame e b.toNat (s.engine e).live
    s.setEngine e { s.engine e with running := none, lastBerth := b, block := none, budgetEnd := none, walk := none, blkFailed := [] }

/-- Halt an engine in a state of ENG_STAT, its running task saved as for a HALT (R227, R273). An urgent run that a halt cuts short stays ready. -/
def haltEngine (s : State) (e : Nat) (st : EngSt) : State :=
  let was := (s.engine e).running
  let s := s.saveRunning e
  let en := s.engine e
  let rdy := match was with
    | some b => if s.urgentBerth e b.toNat && !en.suspended.getLsbD b.toNat then en.ready ||| (1#16 <<< b.toNat) else en.ready
    | none => en.ready
  s.setEngine e { en with st := st, ready := rdy }

end State

end Sys2Proof.Machine
end

