-- ==== Sys2Proof/Machine/Collector.lean ====
section
/-! DEFINITION. The fault collector and the logbook: records, coalescing, overwriting, damage, the emergency register file, histories, the freeze of recording and the C4 latch (R366 to R387, R402). -/

namespace Sys2Proof.Machine

/-! ### Sequence order (R444) -/

/-- For a wrapping count of `w` bits, `a` follows `b`. -/
def follows (w a b : Nat) : Bool :=
  let d := (a + 2 ^ w - b % 2 ^ w) % 2 ^ w
  1 ≤ d && d < 2 ^ (w - 1)

/-! ### Records (R377) -/

/-- CLASS of a record, from its key. -/
def LogRec.cls (r : LogRec) : Nat := bitsOf r.key 16 14
/-- INJ of a record. -/
def LogRec.inj (r : LogRec) : Bool := bitsOf r.key 13 13 != 0
/-- Word 0 of a record. -/
def LogRec.word0 (r : LogRec) : Word := BitVec.ofNat 40 (r.seq.toNat * 65536 + r.rep.toNat)
/-- The four record words and the key. -/
def LogRec.words (r : LogRec) : List Word := [r.word0, r.timeHi, r.timeLo, r.ctx, r.key]

/-- The lowest-numbered slot at or above `k` that holds nothing and is not retired (R378). -/
def lowFree : Tbl LogSlot → Nat → Option Nat
  | [], k => if k < 8192 then some k else none
  | (j, v) :: t, k =>
    if k < j then (if k < 8192 then some k else none)
    else if v.held.isNone && !v.retired then some j
    else lowFree t (j + 1)

/-- The slots that hold a record, with it. -/
def heldSlots (t : Tbl LogSlot) : List (Nat × LogRec) :=
  t.filterMap (fun p => match p.2.held with | some r => if p.2.retired then none else some (p.1, r) | none => none)

/-- The oldest of a list of records: the one the others follow modulo 2^24 (R380). -/
def oldestOf : List (Nat × LogRec) → Option (Nat × LogRec)
  | [] => none
  | x :: t =>
    match oldestOf t with
    | none => some x
    | some y => if follows 24 x.2.seq.toNat y.2.seq.toNat then some y else some x

/-- The slot a new record overwrites when none is free (R380). -/
def overwriteSlot (t : Tbl LogSlot) (cls : Nat) (inj : Bool) : Option Nat :=
  let hs := heldSlots t
  if inj then (oldestOf (hs.filter (fun p => p.2.inj && p.2.cls ≤ cls))).map (·.1)
  else match oldestOf (hs.filter (fun p => p.2.inj)) with
    | some p => some p.1
    | none =>
      let low := hs.foldl (fun m p => Nat.min m p.2.cls) 7
      if low ≤ cls then (oldestOf (hs.filter (fun p => p.2.cls == low))).map (·.1) else none

namespace State

/-- Slot `k` of the logbook. -/
def logSlot (s : State) (k : Nat) : LogSlot := Tbl.get (fun _ => LogSlot.init) s.fc.slots k
/-- Replace a slot. -/
def setLogSlot (s : State) (k : Nat) (v : LogSlot) : State :=
  { s with fc := { s.fc with slots := Tbl.set (fun _ => LogSlot.init) s.fc.slots k v } }

/-! ### Damage and the emergency register file (R384, R385) -/

/-- A log-damage record enters the file (R385): at most four of them, a fifth replaces the oldest, and a full file gives up its oldest flushed record. -/
def emrDamage (s : State) (r : LogRec) : State :=
  let fc := s.fc
  if fc.damages.length < 4 then
    if fc.emr.length < 16 then
      { s with fc := { fc with emr := fc.emr ++ [r], damages := fc.damages ++ [fc.emr.length] } }
    else match ((List.range fc.emr.length).filter (fun i => !fc.damages.contains i)).getLast? with
      | some i => { s with fc := { fc with emr := fc.emr.set i r, damages := fc.damages ++ [i], flushed := fc.flushed - 1 } }
      | none => s
  else match fc.damages with
    | [] => s
    | i :: t => { s with fc := { fc with emr := fc.emr.set i r, damages := t ++ [i] } }

/-- An uncorrectable word in a slot (R384): word `w` 0 to 3 of the record, or 4 of the key. The slot is retired, a damage record enters the emergency register file and LOG_DAMAGE is sent. -/
def retireSlot (s : State) (k w : Nat) : State :=
  let sl := s.logSlot k
  let seq := if w = 0 then 0#24 else match sl.held with | some r => r.seq | none => 0#24
  let ctx := BitVec.ofNat 40 (w * 8192 + k)
  let key := BitVec.ofNat 40 (srcFc * 2 ^ 26 + 1 * 2 ^ 20 + 2 * 2 ^ 17 + 2 * 2 ^ 14)
  let s := s.setLogSlot k ⟨none, true, []⟩
  let s := s.emrDamage ⟨seq, 0, s.nowHi, s.nowLo, ctx, key⟩
  s.report srcFc 1 2 ctx

/-- The place of a slot's word in the record memory, or of its key in the key memory: the memory's number in the write-back queue, and its address. -/
def logPlace (k w : Nat) : Nat × Nat := if w = 4 then (16, k) else (15, 4 * k + w)

/-- A word of a slot is read: the answer says that it is uncorrectable. A corrected one is reported and waits for its write-back (R255, R384). -/
def readLogWord (s : State) (k w : Nat) : Bool × State :=
  match rsDecode (atD (s.logSlot k).flips w 0) with
  | .clean => (false, s)
  | .corrected _ =>
    let p := logPlace k w
    let s := s.report srcFc kMemCorr 1 (BitVec.ofNat 40 p.2)
    (false, { s with writeBacks := s.writeBacks ++ [⟨p.1, p.2, 0, s.cyc⟩] })
  | .bad => (true, s)

/-- The words of a slot are read in order, up to the first that is uncorrectable: the slot is then retired, and the answer says so (R384). -/
def readSlot (s : State) (k : Nat) : Bool × State :=
  if (s.logSlot k).flips = [] then (false, s)
  else
    let r := (List.range 5).foldl (fun (r : Option Nat × State) w =>
      match r.1 with
      | some _ => r
      | none => let x := r.2.readLogWord k w; (if x.1 then some w else none, x.2)) (none, s)
    match r.1 with
    | some w => (true, r.2.retireSlot k w)
    | none => (false, r.2)

/-! ### Writing (R378 to R380) -/

/-- The coalesce window in CLK_E cycles. -/
def coalesceCyc (s : State) : Nat := usCyc (if s.boot.image then s.rd F.fcCtrlCoalesce else 1000)

/-- A taken entry merges with the head record (R379). -/
def coalesces (s : State) (m : FMsg) : Bool :=
  match s.fc.head with
  | none => false
  | some k =>
    match (s.logSlot k.toNat).held with
    | none => false
    | some r =>
      bitsOf r.key 39 20 == m.src.toNat * 64 + m.kind.toNat && r.cls == m.cls.toNat && r.inj == m.inj &&
      r.ctx == m.ctx && r.rep.toNat < 65535 && decide ((m.cyc - BitVec.ofNat 40 s.fc.headCyc).toNat < s.coalesceCyc)

/-- A write of words of a slot drops the write-backs of their older reads (R255). -/
def logWritten (s : State) (k : Nat) (ws : List Nat) : State :=
  let mine := fun (x : WriteBack) => ws.any (fun w => logPlace k w == (x.mem, x.addr))
  if s.writeBacks.any mine then { s with writeBacks := s.writeBacks.filter (fun x => !mine x) } else s

/-- Write a new record into a slot: it takes the next sequence number and becomes the head (R378). -/
def writeSlot (s : State) (k : Nat) (m : FMsg) : State :=
  let seq := s.fc.headSeq + 1
  let r : LogRec := ⟨seq, 0, m.timeHi, m.timeLo, m.ctx, m.word0⟩
  let s := (s.setLogSlot k ⟨some r, false, []⟩).logWritten k [0, 1, 2, 3, 4]
  { s with fc := { s.fc with head := some (BitVec.ofNat 13 k), headSeq := seq, headCyc := m.cyc.toNat } }

/-- One write cycle for a message: coalesced, written, dropped and counted, or left for the next write cycle when the head it would join, or the slot chosen, is found damaged (the flag is then false). -/
def logWrite (s : State) (m : FMsg) : Bool × State :=
  if s.coalesces m then
    match s.fc.head with
    | none => (true, s)
    | some k =>
      let (bad, s) := s.readSlot k.toNat
      if bad then (false, s)
      else
        let sl := s.logSlot k.toNat
        match sl.held with
        | none => (true, s)
        | some r => (true, s.setLogSlot k.toNat ⟨some { r with rep := r.rep + 1 }, sl.retired, sl.flips.set 0 0⟩ |>.logWritten k.toNat [0])
  else match lowFree s.fc.slots 0 with
    | some k => (true, s.writeSlot k m)
    | none =>
      match overwriteSlot s.fc.slots m.cls.toNat m.inj with
      | none => (true, s.inc (F.logLostFullLost m.cls.toNat) (F.logLostFlOvf m.cls.toNat))
      | some k =>
        let (bad, s) := s.readSlot k
        if bad then (false, s) else (true, s.writeSlot k m)

/-- Write cycle after write cycle until a message is dealt with; each cycle that finds damage retires a slot. -/
def logForce (s : State) (m : FMsg) : Nat → State
  | 0 => s
  | k + 1 =>
    let r := s.logWrite m
    if r.1 then r.2 else r.2.logForce m k

/-- Remove the newest intake entry that meets a condition, and say which class it had. -/
def dropNewest (p : FMsg → Bool) : List FMsg → Option (List FMsg × Nat)
  | [] => none
  | m :: t =>
    match dropNewest p t with
    | some (t', c) => some (m :: t', c)
    | none => if p m then some (t, m.cls.toNat) else none

/-- A classified message passes into the logbook intake of 32 entries; a full intake is handled by R381. -/
def logIntake (s : State) (m : FMsg) : State :=
  let q := s.fc.intake
  let lost := fun (s : State) (c : Nat) => s.inc (F.logLostIntakeLost c) (F.logLostInOvf c)
  if q.length < 32 then { s with fc := { s.fc with intake := q ++ [m] } }
  else
    let c := m.cls.toNat
    let low := q.foldl (fun k x => if x.inj == m.inj && x.cls.toNat < c then Nat.min k x.cls.toNat else k) 7
    let r := if !m.inj && q.any (·.inj) then dropNewest (fun x => x.inj) q
      else if 2 ≤ c && low < 7 then dropNewest (fun x => x.inj == m.inj && x.cls.toNat == low) q
      else none
    match r with
    | some (q', dc) => lost { s with fc := { s.fc with intake := q' ++ [m] } } dc
    | none => lost s c

/-! ### Histories (R374) -/

/-- A classified message enters the rolling history; the first real C3 or C4 since the snapshot was cleared freezes it. -/
def history (s : State) (m : FMsg) : State :=
  let roll := (m :: s.fc.rolling).take 16
  if !m.inj && 3 ≤ m.cls.toNat && !s.fc.snapFrozen then
    { s with fc := { s.fc with rolling := roll, frozen := roll, snapFrozen := true } }
  else { s with fc := { s.fc with rolling := roll } }

/-! ### Freezing the recording (R402) -/

/-- Freeze recording: each region stops at the end of the group in progress, the journal stops, a copy in progress is abandoned, RPL_OK is judged and a FROZEN notice is sent. -/
def freezeRecording (s : State) (command : Bool) : State :=
  if s.rpl.st = .recording then
    let r := s.rpl
    let cpv := match r.copying with
      | some (slot, _) => if slot then r.cpValid &&& 1 else r.cpValid &&& 2
      | none => r.cpValid
    let cp0 := BitVec.ofNat 40 (atD r.cpCyc 0 0)
    let cp1 := BitVec.ofNat 40 (atD r.cpCyc 1 0)
    let newest : Option (Bool × Word) :=
      if cpv.getLsbD 0 && cpv.getLsbD 1 then (if notEarlier cp1 cp0 then some (true, cp1) else some (false, cp0))
      else if cpv.getLsbD 1 then some (true, cp1)
      else if cpv.getLsbD 0 then some (false, cp0)
      else none
    let oldestJ := if r.jCount = 0 then s.cycW
      else s.memPeek .hold (524288 + 4 * ((r.jHead + 49152 - r.jCount) % 49152) + 1)
    -- a region that holds no group has no oldest sample
    let samplesOk := fun (c : Word) => (s.selected.filter (fun b => Tbl.get (fun _ => []) r.groupCyc b != [])).all (fun b =>
      notEarlier c (BitVec.ofNat 40 (Tbl.get (fun _ => 0) r.firstSample b)))
    let ok := match newest with
      | some (_, c) => notEarlier c oldestJ && samplesOk c
      | none => false
    let frm := match newest with | some (b, _) => b | none => false
    let frmC := match newest with | some (_, c) => c | none => 0
    let r := { r with st := .frozen, causeCmd := command, cpValid := cpv, copying := none }
    let r := { r with freezeCyc := s.cycW, rplOk := ok, fromSlot := frm, fromCyc := frmC }
    let s := { s with rpl := r }
    s.notice 5 (beBytes 1 (bit command) ++ wordBytes s.cycW ++ beBytes 1 (bit ok))
  else s

/-! ### Harbour mode (R19, R371) -/

/-- Enter harbour mode on an event: JTX idle, containers VALID clear, PA_EN low and PA_DRV at 0 V follow from the mode; grants are kept. A CROSS entry is journalled for each selected band path. -/
def enterHarbour (s : State) (cause : HarbCause) : State :=
  if s.boot.harbour then s
  else
    let s := s.selected.foldl (fun s b => s.crossEntry b 5) s
    { s with boot := { s.boot with harbour := true, cause := some cause, softEnd := none } }

/-! ### The C4 latch (R372) -/

/-- The records held, newest first, with their slots: by their distance behind the head. -/
def newestRecs (s : State) : List (Nat × LogRec) :=
  let key := fun (p : Nat × LogRec) => (s.fc.headSeq - p.2.seq).toNat
  (heldSlots s.fc.slots).foldl (fun l p => (l.takeWhile (fun y => key y < key p)) ++ [p] ++ l.dropWhile (fun y => key y < key p)) []

/-- The flush of the emergency register file: the 16 − D newest records, newest first (R385). -/
def emrFlush (s : State) : State :=
  let dam := s.fc.damages.map (fun i => s.fc.emr[i]?.getD ⟨0, 0, 0, 0, 0, 0⟩)
  let newest := (s.newestRecs.take (16 - dam.length)).map (·.2)
  { s with fc := { s.fc with emr := dam ++ newest, flushed := newest.length, damages := List.range dam.length, flushDone := true } }

/-- The actions of R372 on the blocks: lighters stopped, engines halted, a running FE transfer ended, ports down once their alarm word has left, the core halted after the ports. -/
def c4Actions (s : State) : State :=
  let s := s.emrFlush
  let s := (tblKeys s.lighters).foldl (fun s n =>
    let l := s.lighter n
    if l.st = .idle then s else s.setLighter n { l with st := .stopped }) s
  let s := (tblKeys s.engines).foldl (fun s n =>
    match (s.engine n).st with
    | .idle | .running => s.haltEngine n .haltedColl
    | _ => s) s
  let s := (tblKeys s.chains).foldl (fun s n =>
    let c := s.chain n
    match c.seq with
    | some r => s.setChain n { c with seq := some { r with abort := some .c4 } }
    | none => s) s
  if (List.range 8).any (fun p => s.portUp p) then s
  else { s with mgmt := { s.mgmt with core := .halted } }

/-- The record of the newest C4 decision stands at the head, unrepeated. -/
def c4AtHead (s : State) (x : FMsg) : Option (Nat × LogRec) :=
  match s.fc.head with
  | some k =>
    match (s.logSlot k.toNat).held with
    | some r => if r.seq == s.fc.headSeq && r.rep == 0 && r.key == x.word0 && r.ctx == x.ctx then some (k.toNat, r) else none
    | none => none
  | none => none

/-- The class 4 record of a decision (R372): the next the logbook writes. Of two decisions in one CLK_F cycle both are recorded, in the order of R365 (R386): the one that comes first takes the sequence number of the other, which is written after it, and the file that was being flushed holds both. Before the logbook has been cleared the record waits at the head of the intake. -/
def c4Record (s : State) (m : FMsg) : State :=
  let prior := match s.fc.c4Last with | some (c, x) => if c = s.cyc / 2 then some x else none | none => none
  let s : State := { s with fc := { s.fc with c4Last := some (s.cyc / 2, m) } }
  if s.fc.logReady then
    match prior with
    | none => s.logForce m 8193
    | some x =>
      let s := match s.c4AtHead x with
        | some (k, r) => if m.before x then (s.setLogSlot k ⟨some ⟨r.seq, 0, m.timeHi, m.timeLo, m.ctx, m.word0⟩, false, []⟩).logForce x 8193 else s.logForce m 8193
        | none => s.logForce m 8193
      s.emrFlush
  else
    let s := match s.fc.intake[31]? with
      | some x => s.inc (F.logLostIntakeLost x.cls.toNat) (F.logLostInOvf x.cls.toNat)
      | none => s
    let q := s.fc.intake
    let q' := match prior with
      | some x => if q.head? = some x && !m.before x then x :: m :: q.drop 1 else m :: q
      | none => m :: q
    { s with fc := { s.fc with intake := q'.take 32 } }

/-- A C4 decision on a message whose class is set (R372, R376): it is recorded ahead of the intake, enters the histories, and latches unless a latch of its kind holds already. -/
def c4Decide (s : State) (m : FMsg) : State :=
  let m := { m with cls := 4 }
  let s := (s.history m).c4Record m
  if m.inj then
    if s.fc.testLatch || s.fc.c4 then s
    else ({ s with fc := { s.fc with testLatch := true } } : State).c4Actions
  else if s.fc.c4 then s
  else
    let s := s.originateAlarm 4 m.src.toNat m.kind.toNat
    let s := s.notice 3 (m.words.flatMap wordBytes)
    let s := s.freezeRecording false
    let s := { s with fc := { s.fc with c4 := true, c3At := none } }
    s.c4Actions

/-- A block sends a message with any hint; a real message with hint C4 bypasses the queue (R365, R372). -/
def send (s : State) (src kind hint : Nat) (ctx : Word) : State :=
  if 4 ≤ hint then s.c4Decide (s.mkMsg src kind 4 ctx false) else s.report src kind hint ctx

/-! ### Reading the logbook (R382) -/

/-- The least held record that follows a sequence number within 2^23. -/
def nextRec (s : State) (seq : Nat) : Option (Nat × LogRec) :=
  (heldSlots s.fc.slots).foldl (fun best p =>
    if follows 24 p.2.seq.toNat seq then
      match best with
      | none => some p
      | some b => if follows 24 b.2.seq.toNat p.2.seq.toNat then some p else best
    else best) none

/-- The words a read of slot `k` returns: the record and its key with VALID, or zeros with the slot's state (R382, LOG_KEY). -/
def slotWords (s : State) (k : Nat) : List Word :=
  let sl := s.logSlot k
  let flags := fun (v r d : Bool) => BitVec.ofNat 40 (bit v * 1024 + bit r * 512 + bit d * 256)
  match sl.held with
  | some r => [r.word0, r.timeHi, r.timeLo, r.ctx, (r.key &&& maskOf 39 11) ||| flags true false false]
  | none => [0, 0, 0, 0, flags false sl.retired false]

/-- Number of records held in a class. -/
def logOcc (s : State) (c : Nat) : Nat := ((heldSlots s.fc.slots).filter (fun p => p.2.cls == c)).length
/-- Slots retired. -/
def logRetired (s : State) : Nat := (s.fc.slots.filter (fun p => p.2.retired)).length
/-- Slots that hold a record. -/
def logHeld (s : State) : Nat := (heldSlots s.fc.slots).length

end State

end Sys2Proof.Machine
end

