-- ==== Sys2Proof/Machine/Issue.lean ====
section
/-! DEFINITION. The issue of an engine instruction: fetch, legality, waits, faults and the switches between tasks (R210, R213, R225, R230, R237, R269 to R276). -/

namespace Sys2Proof.Machine

/-- What a command answers. -/
abbrev Out := Host.Outcome State Fault Refusal

namespace State

/-! ### Faults (R225, R273, R274) -/

/-- A double fault (R274): ENG_DOUBLE, and the engine halts. -/
def doubleFault (s : State) (e b pc prog : Nat) : State :=
  let s := s.send (srcEng e) 8 (engHint 8 (s.handlerOf e == some b)) (engCtx e b pc prog)
  let s := s.setEngine e { s.engine e with lastFault := 8 }
  s.haltEngine e .haltedFault

/-- A fault of the same task falls into the save its first fault caused. -/
def inFaultSave (s : State) (e b : Nat) : Bool :=
  match (s.engine e).faultAt with
  | some (x, c) => x.toNat == b && (s.engine e).suspended.getLsbD b && s.engCyc e ≤ c + 12
  | none => false

/-- The next urgent task for a switch at cycle `c`: the handler first, then ascending berth number (R271), of those ready at least one cycle before it (R270). -/
def nextUrgent (s : State) (e c : Nat) : Option Nat :=
  let en := s.engine e
  let can := fun b => en.ready.getLsbD b && (decide (c = 0) || decide (Tbl.get (fun _ => 0) en.readyAt b < c)) && !en.suspended.getLsbD b && s.urgentBerth e b && !s.shedBerth e b
  match s.handlerOf e with
  | some h => if can h then some h else (List.range 16).find? can
  | none => (List.range 16).find? can

/-- The timed berth that holds round cycle `c`, unless its task is suspended, shed or has ended (R269, R271). -/
def timedAt (s : State) (e c : Nat) : Option Nat :=
  let en := s.engine e
  ((s.berths e).find? (fun x => x.kind == .timed && x.start ≤ c && c < x.start + x.len &&
    !en.suspended.getLsbD x.berth.toNat && !s.shedBerth e x.berth.toNat && !en.ended.getLsbD x.berth.toNat)).map
    (fun x => x.berth.toNat)

/-- Restore a berth's task at a switch at cycle `c` and run it (R269): an urgent run has its budget of quanta, counted from its first instruction at c + 12 (R271). A poisoned frame suspends it without a run (R275), which the flag tells. -/
def restore (s : State) (e b c : Nat) : Bool × State :=
  let r := s.loadFrame e b
  let s := r.2
  let en := s.engine e
  if r.1.2 then
    (false, (s.suspendFrame e b).markFault e b 5 r.1.1.pc r.1.1.prog.toNat)
  else
    let urgent := s.urgentBerth e b
    let budget := match s.berthCfg e b with
      | some k => if urgent then some ((c + 12) / 64 * 64 + 64 * k.budget) else none
      | none => none
    (true, s.setEngine e { en with
      live := { r.1.1 with urgent := urgent }, runFrom := c + 12, running := some (BitVec.ofNat 4 b), st := .running,
      ready := en.ready &&& ~~~ (1#16 <<< b), budgetEnd := budget, poisoned := none, block := none, walk := none,
      blkFailed := [] })

/-- The incoming task of a switch at cycle `c`: the next ready urgent task, else the timed task whose berth holds cycle c + 12, else none (R271). A task whose frame is poisoned is passed over (R275). -/
def switchIn (s : State) (e c : Nat) : Nat → State
  | 0 => s
  | k + 1 =>
    match s.nextUrgent e c with
    | some b =>
      let r := s.restore e b c
      if r.1 then r.2 else r.2.switchIn e c k
    | none =>
      match s.timedAt e ((c + 12) % 1024) with
      | some b =>
        let r := s.restore e b c
        if r.1 then r.2 else r.2.switchIn e c k
      | none => s.setEngine e { s.engine e with running := none, st := .idle }

/-- End the run of the running task with its frame saved; the switch acts at the cycle after (R269): an urgent run hands over by R271, a timed task leaves its engine idle until the next switch. -/
def endRun (s : State) (e : Nat) : State :=
  let en := s.engine e
  match en.running with
  | none => s
  | some b =>
    let urgent := s.urgentBerth e b.toNat
    let s := s.saveRunning e
    let en := s.engine e
    let s := s.setEngine e { en with st := .idle, ended := if urgent then en.ended else en.ended ||| (1#16 <<< b.toNat) }
    if urgent then s.switchIn e (s.engCyc e + 1) 17 else s

/-- A fault of the running task: message, suspension, its context saved (R273). -/
def taskFault (s : State) (e code pc : Nat) : State :=
  let en := s.engine e
  match en.running with
  | none => s
  | some b =>
    let s := s.runFault e b.toNat code pc
    if (s.engine e).st = .running then s.endRun e else s.saveRunning e

/-! ### Issue -/

/-- Run an action at the issue of the word `w` (R213, R230). Nothing happens where the engine does not stand at that word: no running task, a block or a walk in progress, a load the word waits for, or another legal word at PC. An instruction that turns out to need a walk has not issued yet. -/
def issue (s : State) (e : Nat) (w : Word) (act : State → State) : State :=
  let en := s.engine e
  match en.running with
  | none => s
  | some b =>
    if en.st ≠ .running ∨ en.block.isSome ∨ en.walk.isSome then s
    else match en.poisoned with
    | some pc => s.taskFault e 5 pc
    | none =>
      if 8192 ≤ en.live.pc then s.taskFault e 2 en.live.pc
      else
        let r := s.memRead .imem (8192 * e + en.live.pc) (srcEng e)
        if r.1.poison then r.2.taskFault e 5 en.live.pc
        else if !legalWord r.1.word then r.2.taskFault e 1 en.live.pc
        else if r.1.word ≠ w then s
        else if en.loads.any (fun l => l.berth == b && (regsNamed w).any (fun x => x == l.reg)) then s
        else
          let now := s.engCyc e
          let s := r.2
          let en := s.engine e
          let s' := act (s.setEngine e { en with issuedBerth := b, issuedPc := en.live.pc, issuedProg := en.live.prog, usedAt := some now })
          let en' := s'.engine e
          if en'.walk.isSome then
            s'.setEngine e { en' with issuedBerth := en.issuedBerth, issuedPc := en.issuedPc, issuedProg := en.issuedProg, usedAt := en.usedAt }
          else s'

/-- An instruction that only changes its task: it is issued, its flags stick, and PC advances. The effect answers the task, SAT and ACCSAT. -/
def runTask (s : State) (e : Nat) (w : Word) (g : State → Task → Task × Bool × Bool) : State :=
  s.issue e w (fun s =>
    let en := s.engine e
    let r := g s en.live
    let t := { r.1 with pc := en.live.pc + 1, sat := r.1.sat || r.2.1, accsat := r.1.accsat || r.2.2 }
    (s.setEngine e { en with live := t }).stickSat e r.2.1 r.2.2)

end State

/-- A task effect without flags. -/
def noFlags (g : Task → Task) : State → Task → Task × Bool × Bool := fun _ t => (g t, false, false)

end Sys2Proof.Machine
end

