-- ==== Sys2Proof/Machine/EngMem.lean ====
section
/-! DEFINITION. Loads and stores of an engine, translation and its buffer, branches and jumps (R210, R211, R235 to R238, R248 to R253). -/

namespace Sys2Proof.Machine

/-! ### Translation (R248 to R252) -/

/-- Where an engine address leads. -/
inductive Target where
  | data (a : Nat)
  | quay (a : Nat)
  | hold (a : Nat)
  | fault (code : Nat)
  | miss (vpage : Nat)
  deriving DecidableEq, Repr

/-- What kind of access is translated. -/
structure Access where
  store : Bool
  block : Bool
  deriving DecidableEq, Repr

/-- The region rule of R249 for engine accesses: hold words that may be read, and that may be written. -/
def holdRegionOk (a : Nat) (store : Bool) : Bool :=
  if a < 0x380000 then false else if a < 0x3FE000 then true else !store

/-- Apply a table entry to word `off` of its page, in the order of R251. -/
def applyEntry (w : Word) (off : Nat) (acc : Access) : Target :=
  let ppn := bitsOf w 11 0
  let hold := w.getLsbD 38
  if !w.getLsbD 39 || bitsOf w 35 12 != 0 || (!hold && 255 < ppn) then .fault 3
  else if (acc.store && !w.getLsbD 36) || (!acc.store && !w.getLsbD 37) then .fault 4
  else if hold && !holdRegionOk (ppn * 1024 + off) acc.store then .fault 4
  else if hold && acc.block then .fault 4
  else if hold then .hold (ppn * 1024 + off) else .quay (ppn * 1024 + off)

/-- The translation buffer's entry for a table page and a virtual page. -/
def Engine.tlbFind (en : Engine) (table : BitVec 14) (v : Nat) : Option TlbEntry :=
  en.tlb.find? (fun x => x.table == table && x.vpage == v)

/-- The table page of the running task, XBASE[23:10]. -/
def Task.table (t : Task) : BitVec 14 := t.xbase.extractLsb' 10 14

/-- Decide an engine address (R211, R248, R251). -/
def Engine.target (en : Engine) (a : Nat) (acc : Access) : Target :=
  if a < 0x4000 then .data a
  else if 0x100000 ≤ a then .fault 3
  else match en.tlbFind en.live.table (a / 1024) with
    | some x => applyEntry x.entry (a % 1024) acc
    | none => .miss (a / 1024)

/-- Fill the translation buffer at its fill pointer (R252). -/
def Engine.fillTlb (en : Engine) (v : Nat) (w : Word) : Engine :=
  { en with
    tlb := en.tlb.filter (fun x => x.slot != en.fill) ++ [⟨en.fill, en.live.table, v, w⟩]
    fill := (en.fill + 1) % 32 }

namespace State

/-- A write into quay memory, from an engine or a lighter: the word, and every translation-buffer entry of the quay read from it invalidated (R253). -/
def quayWrite (s : State) (q a : Nat) (w : Word) : State :=
  let s := s.memWrite .quay (262144 * q + a) w
  (tblKeys s.engines).foldl (fun s e =>
    if e / 16 = q then
      let en := s.engine e
      if en.tlb.any (fun x => x.table.toNat * 1024 + x.vpage == a) then
        s.setEngine e { en with tlb := en.tlb.filter (fun x => x.table.toNat * 1024 + x.vpage != a) }
      else s
    else s) s

/-- Read the table word of a virtual page (R250): the address XBASE + v in the quay's memory. -/
def readTable (s : State) (e v : Nat) : ReadWord × State :=
  let a := (s.engine e).live.table.toNat * 1024 + v
  if a < 262144 then s.memRead .quay (262144 * (e / 16) + a) (srcQuay (e / 16)) else (⟨0, false⟩, s)

/-- Advance PC past a completed instruction. -/
def stepPc (s : State) (e : Nat) : State := s.modTask e (fun t => { t with pc := t.pc + 1 })

/-- Start the wait for a walk: the instruction has not issued and is issued again after it. -/
def startWalk (s : State) (e v : Nat) (store block : Bool) : State :=
  s.setEngine e { s.engine e with walk := some ⟨v, store, block⟩ }

/-- Record a load whose data arrives later, and advance PC. -/
def pushLoad (s : State) (e reg : Nat) (r : ReadWord) (regIn : Option Nat) : State :=
  let en := s.engine e
  match en.running with
  | none => s
  | some b =>
    (s.setEngine e { en with
      loads := en.loads ++ [⟨b, BitVec.ofNat 5 reg, en.live.pc, r.word, r.poison, regIn⟩] }).stepPc e

/-- A device-records word (R249) that belongs to a selected band path, whose loads are not journalled (R400). -/
def selectedRecord (s : State) (a : Nat) : Bool :=
  s.selected.any (fun b =>
    (0x3FF800 + 16 * b ≤ a && a < 0x3FF810 + 16 * b) || (0x3FF000 + 16 * b ≤ a && a < 0x3FF010 + 16 * b) ||
    (0x3FE800 + 16 * b ≤ a && a < 0x3FE810 + 16 * b) || a == 0x3FE100 + b)

/-- The REG_IN detail of a hold load of the replay quay, if R400 journals it. -/
def holdRegIn (s : State) (e a : Nat) : Option Nat :=
  if s.inReplayQuay e && 0x3FE000 ≤ a && !s.selectedRecord a then some (2 ^ 33 + e * 2 ^ 24 + a) else none

/-- The effect of LD at its issue. -/
def loadFx (s : State) (e : Nat) (f : I2) : State :=
  let en := s.engine e
  let src := srcEng e
  match en.target (en.live.addr f.a.toNat f.imm) ⟨false, false⟩ with
  | .data a => let r := s.memRead .dmem (16384 * e + a) src; r.2.pushLoad e f.d.toNat r.1 none
  | .quay a =>
    let r := s.memRead .quay (262144 * (e / 16) + a) (srcQuay (e / 16))
    r.2.pushLoad e f.d.toNat r.1 none
  | .hold a => let r := s.memRead .hold a srcHold; r.2.pushLoad e f.d.toNat r.1 (s.holdRegIn e a)
  | .fault c => s.taskFault e c en.live.pc
  | .miss v => s.startWalk e v false false

/-- The effect of ST at its issue. -/
def storeFx (s : State) (e : Nat) (f : I2) : State :=
  let en := s.engine e
  let w := en.live.getW f.d.toNat
  match en.target (en.live.addr f.a.toNat f.imm) ⟨true, false⟩ with
  | .data a => if 0x3C00 ≤ a then s.taskFault e 4 en.live.pc else (s.memWrite .dmem (16384 * e + a) w).stepPc e
  | .quay a => (s.quayWrite (e / 16) a w).stepPc e
  | .hold a => (s.memWrite .hold a w).stepPc e
  | .fault c => s.taskFault e c en.live.pc
  | .miss v => s.startWalk e v true false

/-! ### Divergence during a replay (R405) -/

/-- A mismatch of the replay: the first sets DIV_WHERE and DIV_CYC, every one is counted. -/
def diverge (s : State) (kind unit pos : Nat) : State :=
  let s := s.inc F.rplStatDivCnt F.rplStatDivOvf
  if s.rpl.diverged then s
  else { s with rpl := { s.rpl with diverged := true, divWhere := BitVec.ofNat 40 (kind * 2 ^ 37 + unit * 2 ^ 29 + pos),
                                    divCyc := BitVec.ofNat 40 s.rpl.rcyc } }

/-- The four words of journal entry `i`. -/
def jWords (s : State) (i : Nat) : Word × Word × Word × Word :=
  let a := 524288 + 4 * (i % 49152)
  (s.memPeek .hold a, s.memPeek .hold (a + 1), s.memPeek .hold (a + 2), s.memPeek .hold (a + 3))

/-- The next journal entry is read by the channel that carries the journal, and passed (R255, R258, R404). A poisoned one is lost, and stops that channel with LTR_POISON (R257, R266); with all four stopped none is read. The flag tells that it was read. -/
def jTake (s : State) : Bool × State :=
  let a := jAddr s.rpl.jNext
  let s := { s with rpl := { s.rpl with jNext := s.rpl.jNext + 1, jLeft := s.rpl.jLeft - 1 } }
  match s.jChannel with
  | none => (false, s)
  | some n =>
    match s.readRun .hold a (a + 4) srcHold with
    | (none, s) => (true, s.devServe n a 4)
    | (some x, s) => (false, s.ltrStop n 3 false x)

/-- The journal entry a replay has come to; one of TYPE 0 behind the newest entry of the record (R404). -/
def jNow (s : State) : Word × Word × Word × Word := if s.rpl.jLeft = 0 then (0, 0, 0, 0) else s.jWords s.rpl.jNext

/-- During a replay, the value the journal supplies for a load R400 journals: the next entry, when it is its REG_IN at this cycle; otherwise zero, and a divergence (R404). -/
def replayRegIn (s : State) (e detail : Nat) : Word × State :=
  let (w0, w1, w2, _) := s.jNow
  if w0 == BitVec.ofNat 40 (11 * 2 ^ 34 + detail) && w1 == BitVec.ofNat 40 s.rpl.rcyc then
    let r := s.jTake
    if r.1 then (w2, r.2) else (0, r.2.diverge 6 e (detail % 2 ^ 24))
  else (0, s.diverge 6 e (detail % 2 ^ 24))

/-- The data of a load returns (R213, R237): into its register, into the frame of an interrupted task, or as a fault. -/
def loadReturn (s : State) (e : Nat) (berth : BerthId) (reg : BitVec 5) : State :=
  let en := s.engine e
  match en.loads.find? (fun l => l.berth == berth && l.reg == reg) with
  | none => s
  | some l =>
    let s := s.setEngine e { en with loads := en.loads.erase l }
    let (w, s) := match l.regIn with
      | some d =>
        if s.rpl.st = RplSt.replaying then s.replayRegIn e d
        else (l.word, s.journal 11 d s.cycW l.word 0)
      | none => (l.word, s)
    let live := (s.engine e).running == some berth
    if l.poison then
      if live then
        let en := s.engine e
        s.setEngine e { en with poisoned := match en.poisoned with | some pc => some pc | none => some l.pc }
      else if s.inFaultSave e berth.toNat then s.doubleFault e berth.toNat l.pc 0
      else
        let prog := s.memPeek .dmem (16384 * e + frameBase berth.toNat + 49)
        (s.suspendFrame e berth.toNat).markFault e berth.toNat 5 l.pc prog.toNat
    else if live then s.modTask e (fun t => t.setW reg.toNat w)
    else if reg = 0 then s
    else s.memWrite .dmem (16384 * e + frameBase berth.toNat + reg.toNat) w

/-- The walk a translation-buffer miss waits for (R252). -/
def walkFx (s : State) (e : Nat) : State :=
  let en := s.engine e
  match en.walk, en.running with
  | some k, some _ =>
    let r := s.readTable e k.vpage
    let s := r.2.setEngine e { r.2.engine e with walk := none }
    let en := s.engine e
    let bad := fun (s : State) (c : Nat) =>
      if k.block then s.setEngine e { s.engine e with blkFailed := (s.engine e).blkFailed ++ [(k.vpage, BitVec.ofNat 8 c)] }
      else s.taskFault e c en.live.pc
    if r.1.poison then bad s 5
    else match applyEntry r.1.word 0 ⟨k.store, k.block⟩ with
      | .fault c => bad s c
      | _ => s.setEngine e (en.fillTlb k.vpage r.1.word)
  | _, _ => s

/-! ### Branches (R210, R238) -/

/-- A branch or jump: the condition in the dst field, the target when it is taken, and whether a link is written. -/
def branchFx (s : State) (e : Nat) (f : I2) (target : Task → Int) (link : Bool) : State :=
  let t := (s.engine e).live
  if t.cond f.d.toNat f.a.toNat then
    let tg := target t
    if tg < 0 ∨ 8191 < tg then s.taskFault e 2 t.pc
    else s.modTask e (fun t => { (if link then t.setW 31 (BitVec.ofNat 40 (t.pc + 1)) else t) with pc := tg.toNat })
  else s.stepPc e

end State

/-- LD (R235): the word is read at issue and written by LOAD_DATA_RETURN. -/
def execLd (e : EngId) (f : I2) (s : State) : Out :=
  .next (s.issue e.toNat (encI 0x50 f) (fun s => s.loadFx e.toNat f))

/-- ST (R235). -/
def execSt (e : EngId) (f : I2) (s : State) : Out :=
  .next (s.issue e.toNat (encI 0x51 f) (fun s => s.storeFx e.toNat f))

/-- LOAD_DATA_RETURN (R237). -/
def execLoadDataReturn (e : EngId) (berth : BerthId) (reg : BitVec 5) (s : State) : Out :=
  .next (s.loadReturn e.toNat berth reg)

/-- TLB_WALK (R252). -/
def execTlbWalk (e : EngId) (s : State) : Out := .next (s.walkFx e.toNat)

/-- BR (R238): to PC + displacement. -/
def execBr (e : EngId) (f : I2) (s : State) : Out :=
  .next (s.issue e.toNat (encI 0x60 f) (fun s => s.branchFx e.toNat f (fun t => t.pc + f.imm.toInt) false))

/-- CALL (R238): with PC + 1 in W31. -/
def execCall (e : EngId) (f : I2) (s : State) : Out :=
  .next (s.issue e.toNat (encI 0x61 f) (fun s => s.branchFx e.toNat f (fun t => t.pc + f.imm.toInt) true))

/-- JR (R238): to w[register] + displacement, formed in 40 bits. -/
def execJr (e : EngId) (f : I2) (s : State) : Out :=
  .next (s.issue e.toNat (encI 0x62 f) (fun s => s.branchFx e.toNat f (fun t => t.addr f.a.toNat f.imm) false))

/-- JRL (R238): with PC + 1 in W31, the register read at issue. -/
def execJrl (e : EngId) (f : I2) (s : State) : Out :=
  .next (s.issue e.toNat (encI 0x63 f) (fun s => s.branchFx e.toNat f (fun t => t.addr f.a.toNat f.imm) true))

end Sys2Proof.Machine
end

