-- ==== Sys2Proof/Machine/EngBlock.lean ====
section
/-! DEFINITION. Block instructions: streams, the checks at issue, the walks before it and the effect of each element (R212, R239 to R243). -/

namespace Sys2Proof.Machine

/-- One operand stream of a block instruction: base, stride, elements, whether elements are written, whether it may lie in quay memory. -/
structure Strm where
  base : Word
  stride : Int
  n : Nat
  write : Bool
  quayOk : Bool
  deriving DecidableEq, Repr

/-- Address of element `i`. -/
def Strm.at' (m : Strm) (i : Nat) : Nat := streamAt m.base m.stride i
/-- An element of the stream lies in data memory. -/
def Strm.inside (m : Strm) : Bool := (List.range m.n).any (fun i => m.at' i < 0x4000)
/-- An element of the stream lies outside data memory. -/
def Strm.outside (m : Strm) : Bool := (List.range m.n).any (fun i => 0x4000 ≤ m.at' i)

/-- Number of elements, and for CORR the lags less one (R240). -/
def blockStreams (op : BitVec 8) (f : K5) (t : Task) : List Strm :=
  let n := K5.elements f
  let a := t.getW f.a.toNat
  let b := t.getW f.b.toNat
  let sa := K5.strideA f
  let sb := K5.strideB f
  if op = 0x68 then [⟨a, sa, n, false, true⟩, ⟨b, sb, n, false, true⟩]
  else if op = 0x69 then [⟨a, sa, n, false, true⟩, ⟨b, -sb, n, false, false⟩]
  else if op = 0x6A then [⟨a, sa, n, false, true⟩, ⟨b, sb, n + f.acc.toNat, false, false⟩]
  else if op = 0x6B then
    [⟨a, sa, n, true, false⟩, ⟨b, sb, n, true, false⟩,
     ⟨t.getW ((f.a.toNat + 1) % 32), 2 ^ K5.variant f, n, false, false⟩]
  else if op = 0x6C then [⟨a, sa, n, true, false⟩, ⟨b, sb, n, false, true⟩]
  else [⟨a, sa, n, true, true⟩]

/-- The two streams share an address. -/
def Strm.shares (x y : Strm) : Bool :=
  (List.range x.n).any (fun i => (List.range y.n).any (fun j => x.at' i == y.at' j))

/-- The alignment rule of R239 and R240 is broken. -/
def blockMisaligned (op : BitVec 8) (ms : List Strm) : Bool :=
  ms.any (fun m => m.inside && m.outside) || 1 < (ms.filter Strm.outside).length ||
  ms.any (fun m => m.outside && !m.quayOk) ||
  (op == 0x6B && (match ms with | a :: b :: _ => a.shares b | _ => false))

/-- The first page of a quay stream, from element `k`, that misses and has not failed its walk (R252). -/
def Engine.blockMiss (en : Engine) (ms : List Strm) (k : Nat) : Option (Nat × Bool) :=
  match ms.find? Strm.outside with
  | none => none
  | some m =>
    ((List.range m.n).find? (fun i =>
      let a := m.at' i
      k ≤ i && 0x4000 ≤ a && a < 0x100000 && (en.tlbFind en.live.table (a / 1024)).isNone &&
      !en.blkFailed.any (fun p => p.1 == a / 1024))).map (fun i => (m.at' i / 1024, m.write))

/-- Decide the address of a stream element. -/
def Engine.elemTarget (en : Engine) (a : Nat) (write : Bool) : Target :=
  if a < 0x4000 then (if write && 0x3C00 ≤ a then .fault 4 else .data a)
  else if 0x100000 ≤ a then .fault 3
  else match en.blkFailed.find? (fun p => p.1 == a / 1024) with
    | some p => .fault p.2.toNat
    | none => en.target a ⟨write, true⟩

/-- What the reads of one element answer. -/
inductive ElemOut where
  | ok (ws : List Word)
  | fault (code : Nat)
  | miss (vpage : Nat) (write : Bool)
  deriving DecidableEq, Repr

namespace State

/-- Read the operands of one element in their order: address, permission, then poison of each (R230). -/
def elemReads (s : State) (e : Nat) : List (Strm × Nat) → List Word → ElemOut × State
  | [], acc => (.ok acc, s)
  | (m, i) :: t, acc =>
    match (s.engine e).elemTarget (m.at' i) m.write with
    | .data a =>
      let r := s.memRead .dmem (16384 * e + a) (srcEng e)
      if r.1.poison then (.fault 5, r.2) else r.2.elemReads e t (acc ++ [r.1.word])
    | .quay a =>
      let r := s.memRead .quay (262144 * (e / 16) + a) (srcQuay (e / 16))
      if r.1.poison then (.fault 5, r.2) else r.2.elemReads e t (acc ++ [r.1.word])
    | .hold _ => (.fault 4, s)
    | .fault c => (.fault c, s)
    | .miss v => (.miss v m.write, s)

/-- Write one element. -/
def elemWrite (s : State) (e : Nat) (m : Strm) (i : Nat) (w : Word) : State :=
  match (s.engine e).elemTarget (m.at' i) true with
  | .data a => s.memWrite .dmem (16384 * e + a) w
  | .quay a => s.quayWrite (e / 16) a w
  | _ => s

/-- The element written without being read: only its address is decided (VFILL). -/
def elemCheck (s : State) (e : Nat) (m : Strm) (i : Nat) : ElemOut :=
  match (s.engine e).elemTarget (m.at' i) true with
  | .data _ | .quay _ => .ok []
  | .hold _ => .fault 4
  | .fault c => .fault c
  | .miss v => .miss v true

/-- Accumulate into an accumulator of the running task, with its sticky flag. -/
def accFx (s : State) (e k : Nat) (c : Cplx) : State :=
  let en := s.engine e
  let r := en.live.accumulate k c
  (s.setEngine e { en with live := { r.1 with accsat := r.1.accsat || r.2 } }).stickSat e false r.2

/-- The operands an element reads, by opcode. -/
def elemOperands (op : BitVec 8) (f : K5) (ms : List Strm) (i : Nat) : List (Strm × Nat) :=
  match ms with
  | [a, b] => if op = 0x6A then (a, i) :: (List.range (f.acc.toNat + 1)).map (fun j => (b, i + j)) else [(a, i), (b, i)]
  | [a, b, t] => [(a, i), (b, i), (t, i)]
  | _ => []

/-- Set SAT of the running task. -/
def satFx (s : State) (e : Nat) (b : Bool) : State := (s.setEngine e ((s.engine e).markSat b)).stickSat e b false

/-- The operation of an element on its operand words (R240). -/
def elemApply (s : State) (e : Nat) (op : BitVec 8) (f : K5) (ms : List Strm) (i : Nat) (ws : List Word) : State :=
  match ms, ws with
  | [_, _], [x, y] =>
    if op = 0x6C then
      let r := narrowC (productC x y (K5.conjB f)) 19
      match ms with
      | m :: _ => (s.elemWrite e m i r.1).satFx e r.2
      | [] => s
    else s.accFx e (if op = 0x6A then 0 else f.acc.toNat) (productC x y (K5.conjB f))
  | [_, _], x :: ys =>
    (List.range ys.length).foldl (fun s j => s.accFx e j (productC x (atD ys j 0) (K5.conjB f))) s
  | [ma, mb, _], [x, y, w] =>
    let t := productC y w false
    let x' : Cplx := ⟨(cOf x).re * 524288, (cOf x).im * 524288⟩
    let ra := narrowC (x'.add t) 20
    let rb := narrowC (x'.sub t) 20
    ((s.elemWrite e ma i ra.1).elemWrite e mb i rb.1).satFx e (ra.2 || rb.2)
  | [ma], _ => s.elemWrite e ma i ((s.engine e).live.getW f.b.toNat)
  | _, _ => s

/-- A block instruction has done its last element (R212, R240). -/
def blockDone (s : State) (e : Nat) (k : BlockRun) : State :=
  let en := s.engine e
  let t := en.live
  let t := if k.op = 0x69 then t.setW k.fields.b.toNat (t.getW k.fields.b.toNat + 1) else t
  s.setEngine e { en with live := { t with prog := 0, pc := t.pc + 1 }, block := none, blkFailed := [], issuedProg := 0 }

/-- The block instruction goes on to its next element: PROG of the task, which ENG_PC shows (R212, R227). -/
def nextElement (s : State) (e i : Nat) : State :=
  let en := s.engine e
  let p := BitVec.ofNat 10 i
  s.setEngine e { en with live := { en.live with prog := p }, issuedProg := p }

/-- The effect of the next element of a block instruction (R241, R243). A fault that poisoned load data left pending is taken at the element boundary (R237). -/
def elementFx (s : State) (e : Nat) : State :=
  let en := s.engine e
  match en.block, en.running with
  | some k, some _ =>
    if en.walk.isSome then s
    else if let some pc := en.poisoned then s.taskFault e 5 pc
    else
      let i := en.live.prog.toNat
      let ms := blockStreams k.op k.fields en.live
      let n := K5.elements k.fields
      if n ≤ i then s.blockDone e k
      else
        let r := match ms with
          | [m] => (s.elemCheck e m i, s)
          | _ => s.elemReads e (elemOperands k.op k.fields ms i) []
        match r.1 with
        | .fault c => r.2.taskFault e c en.live.pc
        | .miss v w => r.2.startWalk e v w true
        | .ok ws =>
          let s := if k.mask then r.2.elemApply e k.op k.fields ms i ws else r.2
          if i + 1 = n then s.blockDone e k
          else s.nextElement e (i + 1)
  | _, _ => s

/-- The issue of a block instruction (R239, R252): its stream checks, then one walk for each page of its quay stream that misses, then its start. -/
def blockIssue (s : State) (e : Nat) (op : BitVec 8) (f : K5) : State :=
  let en := s.engine e
  let ms := blockStreams op f en.live
  if blockMisaligned op ms then s.taskFault e 6 en.live.pc
  else match en.blockMiss ms en.live.prog.toNat with
    | some p => s.startWalk e p.1 p.2 true
    | none =>
      let mask := op == 0x6B || en.live.getP (K5.variant f)
      s.setEngine e { en with block := some ⟨op, f, mask⟩ }

end State

/-- VMAC (R240). -/
def execVmac (e : EngId) (f : K5) (s : State) : Out :=
  .next (s.issue e.toNat (encK 0x68 f) (fun s => s.blockIssue e.toNat 0x68 f))

/-- FIRS (R240). -/
def execFirs (e : EngId) (f : K5) (s : State) : Out :=
  .next (s.issue e.toNat (encK 0x69 f) (fun s => s.blockIssue e.toNat 0x69 f))

/-- CORR (R240). -/
def execCorr (e : EngId) (f : K5) (s : State) : Out :=
  .next (s.issue e.toNat (encK 0x6A f) (fun s => s.blockIssue e.toNat 0x6A f))

/-- BFLY (R240). -/
def execBfly (e : EngId) (f : K5) (s : State) : Out :=
  .next (s.issue e.toNat (encK 0x6B f) (fun s => s.blockIssue e.toNat 0x6B f))

/-- VMUL (R240). -/
def execVmul (e : EngId) (f : K5) (s : State) : Out :=
  .next (s.issue e.toNat (encK 0x6C f) (fun s => s.blockIssue e.toNat 0x6C f))

/-- VFILL (R240). -/
def execVfill (e : EngId) (f : K5) (s : State) : Out :=
  .next (s.issue e.toNat (encK 0x6D f) (fun s => s.blockIssue e.toNat 0x6D f))

/-- BLOCK_ELEMENT_EFFECT (R241). -/
def execBlockElementEffect (e : EngId) (s : State) : Out := .next (s.elementFx e.toNat)

end Sys2Proof.Machine
end

