-- ==== Sys2Proof/Machine/Plan.lean ====
section
/-! DEFINITION. The band plan and the limits section of the image, read by the words R417 and R418 give their fields. -/

namespace Sys2Proof.Machine

/-- Word of PRESENT (R417). -/
def plPresent : Nat := 0
/-- Word of SOURCE (R417). -/
def plSource : Nat := 1
/-- Word of DIRECTION (R417). -/
def plDirection : Nat := 2
/-- Word of HOME_QUAY (R417). -/
def plHomeQuay : Nat := 3
/-- Word of FREQ (R417). -/
def plFreq : Nat := 4
/-- Word of STAGES (R417). -/
def plStages : Nat := 5
/-- Word of HB1, the first of 6 (R417). -/
def plHb : Nat := 6
/-- Word of CF (R417). -/
def plCf : Nat := 12
/-- Word of MODE (R417). -/
def plMode : Nat := 13
/-- Word of STEP (R417). -/
def plStep : Nat := 14
/-- Word of PRESET (R417). -/
def plPreset : Nat := 15
/-- Word of PRESET_RATE (R417). -/
def plPresetRate : Nat := 16
/-- Word of DC_K (R417). -/
def plDcK : Nat := 17
/-- Word of DEST0, the first of 4 (R417). -/
def plDest : Nat := 18
/-- Word of EFREQ0, the first of 4 (R417). -/
def plEfreq : Nat := 22
/-- Word of EHB1, the first of 6 (R417). -/
def plEhb : Nat := 26
/-- Word of SHAPE (R417). -/
def plShape : Nat := 32
/-- Word of TAPS (R417). -/
def plTaps : Nat := 33
/-- Word of DELAY (R417). -/
def plDelay : Nat := 34
/-- Word of SEED (R417). -/
def plSeed : Nat := 35
/-- Word of MU (R417). -/
def plMu : Nat := 36
/-- Word of LEAK (R417). -/
def plLeak : Nat := 37
/-- Word of GRAD_N (R417). -/
def plGradN : Nat := 38
/-- Word of UPDATE_EVERY (R417). -/
def plUpdateEvery : Nat := 39
/-- Word of ENERGY_MAX (R417). -/
def plEnergyMax : Nat := 40
/-- Word of FLOOR (R417). -/
def plFloor : Nat := 41
/-- Word of ISO_INIT (R417). -/
def plIsoInit : Nat := 42
/-- Word of LAG_INIT (R417). -/
def plLagInit : Nat := 43
/-- Word of SPREAD_INIT (R417). -/
def plSpreadInit : Nat := 44
/-- Word of FIG_IN (R417). -/
def plFigIn : Nat := 45
/-- Word of FIG_OUT (R417). -/
def plFigOut : Nat := 46
/-- Word of FB_DEST (R417). -/
def plFbDest : Nat := 47
/-- Word of GAIN_MAX (R417). -/
def plGainMax : Nat := 48
/-- Word of GAIN_SET (R417). -/
def plGainSet : Nat := 49
/-- Word of AGC_TARGET (R417). -/
def plAgcTarget : Nat := 50
/-- Word of START_LEVEL (R417). -/
def plStartLevel : Nat := 51
/-- Word of RAMP_RATE (R417). -/
def plRampRate : Nat := 52
/-- Word of OPEN_TH (R417). -/
def plOpenTh : Nat := 53
/-- Word of DETECT_N (R417). -/
def plDetectN : Nat := 54
/-- Word of REF0, the first of 4 (R417). -/
def plRef : Nat := 55
/-- Word of REF_TH (R417). -/
def plRefTh : Nat := 59
/-- Word of REF_CONF_TH (R417). -/
def plRefConfTh : Nat := 60
/-- Word of CONFIRM (R417). -/
def plConfirm : Nat := 61
/-- Word of VERIFY (R417). -/
def plVerify : Nat := 62
/-- Word of CLOSE_TH (R417). -/
def plCloseTh : Nat := 63
/-- Word of HANG (R417). -/
def plHang : Nat := 64
/-- Word of NBW (R417). -/
def plNbw : Nat := 65
/-- Word of NR_REF (R417). -/
def plNrRef : Nat := 66
/-- Word of FLOOR_AGE_MAX (R417). -/
def plFloorAgeMax : Nat := 67
/-- Word of MASK_REF (R417). -/
def plMaskRef : Nat := 68
/-- Word of MASK_SEG (R417). -/
def plMaskSeg : Nat := 69
/-- Word of MASK_AVG (R417). -/
def plMaskAvg : Nat := 70
/-- Word of MASK_TOL (R417). -/
def plMaskTol : Nat := 71
/-- Word of VIOL_BINS (R417). -/
def plViolBins : Nat := 72
/-- Word of RELEASE_N (R417). -/
def plReleaseN : Nat := 73
/-- Word of LIM_ID (R417). -/
def plLimId : Nat := 74
/-- Word of OBW (R417). -/
def plObw : Nat := 75
/-- Word of NOISE_MAX (R417). -/
def plNoiseMax : Nat := 76
/-- Word of DONOR_BP (R417). -/
def plDonorBp : Nat := 77
/-- Word of DONOR_MIN (R417). -/
def plDonorMin : Nat := 78
/-- Word of LOSS_T (R417). -/
def plLossT : Nat := 79
/-- Word of CX_BIND (R417). -/
def plCxBind : Nat := 80
/-- Word of MUTE_N_BIND (R417). -/
def plMuteNBind : Nat := 81
/-- Word of AUTOSTART (R417). -/
def plAutostart : Nat := 82
/-- Word of T_SENSOR (R417). -/
def plTSensor : Nat := 83
/-- Word of T_TH (R417). -/
def plTTh : Nat := 84
/-- Word of SHAPE_RESP (R417). -/
def plShapeResp : Nat := 85
/-- Word of SWAP_LEAD (R417). -/
def plSwapLead : Nat := 86

namespace State

/-- Word `i` of the band plan entry of band path `n`. -/
def plan (s : State) (n i : Nat) : Word := atD s.img.plan (128 * n + i) 0
/-- A plan field as an unsigned number. -/
def planN (s : State) (n i : Nat) : Nat := (s.plan n i).toNat
/-- A plan field as a level in s16.24. -/
def planDb (s : State) (n i : Nat) : Db := (s.plan n i).toInt
/-- An optional field is present: it is not all ones (R417). -/
def planHas (s : State) (n i : Nat) : Bool := s.plan n i != BitVec.allOnes 40
/-- The band path is in the plan. -/
def present (s : State) (n : Nat) : Bool := (s.plan n plPresent).getLsbD 0
/-- The words a pointer names: pool offset in [39:20], length in [19:0], the pool after the 128 entries. -/
def planPool (s : State) (n i : Nat) : List Word :=
  let p := s.plan n i
  ((s.img.plan.drop (16384 + bitsOf p 39 20)).take (bitsOf p 19 0))
/-- The band path is fed by a Guvan stream: port and sending band path (R417). -/
def gvSource (s : State) (n : Nat) : Option (Nat × Nat) :=
  let w := s.plan n plSource
  if w.getLsbD 10 then some (bitsOf w 9 7, bitsOf w 6 0) else none
/-- The chain that feeds a band path, if one does. -/
def chSource (s : State) (n : Nat) : Option Nat :=
  let w := s.plan n plSource
  if w.getLsbD 10 then none else some (bitsOf w 3 0)
/-- Uplink band paths have DIRECTION 1: the values in the order of chapter 02, downlink then uplink. -/
def uplink (s : State) (n : Nat) : Bool := s.planN n plDirection == 1
/-- Home quay (R258). -/
def homeQuay (s : State) (n : Nat) : Nat := s.planN n plHomeQuay
/-- The band paths of the plan, in order. -/
def planned (s : State) : List Nat := (List.range 128).filter s.present

/-- Word `i` of the limits section. -/
def limWord (s : State) (i : Nat) : Word := atD s.img.limits i 0
/-- Word `i` of limits entry `e` (R418). -/
def limEntry (s : State) (e i : Nat) : Word := s.limWord (17 + 16 * e + i)
/-- Centre frequency of a chain's RF band in kHz, from CH_RF_CENTRE. -/
def rfCentre (s : State) (c : Nat) : Nat := bitsOf (s.limWord (1 + c)) 31 0

end State

end Sys2Proof.Machine
end

