-- ==== Sys2Proof/Machine/Lighter.lean ====
section
/-! DEFINITION. Lighters: descriptors and their queues, bursts, walks, faults, abort and resume, and the taps they read (R244, R258 to R267, R279). A channel is numbered 32 q + c for Lc of quay q and 512 + k for DLk. -/

namespace Sys2Proof.Machine

/-! ### Descriptors (R259, R260) -/

/-- SRC_SPACE. -/
def Desc.srcSpace (d : Desc) : Nat := bitsOf d.w0 39 36
/-- SRC_UNIT. -/
def Desc.srcUnit (d : Desc) : Nat := bitsOf d.w0 35 29
/-- SRC_ADDR. -/
def Desc.srcAddr (d : Desc) : Nat := bitsOf d.w0 23 0
/-- DST_SPACE. -/
def Desc.dstSpace (d : Desc) : Nat := bitsOf d.w1 39 36
/-- DST_UNIT. -/
def Desc.dstUnit (d : Desc) : Nat := bitsOf d.w1 35 29
/-- DST_ADDR. -/
def Desc.dstAddr (d : Desc) : Nat := bitsOf d.w1 23 0
/-- COUNT. -/
def Desc.count (d : Desc) : Nat := bitsOf d.w2 39 20
/-- RELEASE. -/
def Desc.release (d : Desc) : Bool := d.w2.getLsbD 19
/-- NOTIFY. -/
def Desc.notify (d : Desc) : Bool := d.w2.getLsbD 18
/-- NOTIFY_BERTH. -/
def Desc.notifyBerth (d : Desc) : Nat := bitsOf d.w2 17 14
/-- Source address of word `i`. -/
def Desc.src (d : Desc) (i : Nat) : Int := d.srcAddr + i * sx 20 (bitsOf d.w3 39 20)
/-- Destination address of word `i`. -/
def Desc.dst (d : Desc) (i : Nat) : Int := d.dstAddr + i * sx 20 (bitsOf d.w3 19 0)

namespace State

/-- Spaces 1 to 3: the channel is queued by an engine of the band path's home quay (R258, R260). -/
def homeOk (s : State) (e : EngId) (bp : Nat) : Bool := s.homeQuay bp == e.toNat / 16

/-- A source space a channel may name (R260). -/
def srcOk (s : State) (n : Nat) (d : Desc) : Bool :=
  match d.srcSpace with
  | 0 | 5 => true
  | 1 | 2 | 3 => s.homeOk d.eng d.srcUnit
  | 4 => isDl n && n < 520
  | 6 => isDl n && n < 516
  | _ => false

/-- A destination space a channel may name (R260). -/
def dstOk (s : State) (n : Nat) (d : Desc) : Bool :=
  match d.dstSpace with
  | 0 => true
  | 1 => s.homeOk d.eng d.dstUnit
  | 4 => isDl n && n < 520
  | 7 => isDl n && n < 516
  | _ => false

/-- The fields R259 wants zero are zero, and COUNT is not. -/
def descFields (d : Desc) : Bool :=
  let unitOk := fun (sp u : Nat) => (1 ≤ sp && sp ≤ 3) || sp == 6 || sp == 7 || u == 0
  bitsOf d.w0 28 24 == 0 && bitsOf d.w1 28 24 == 0 && bitsOf d.w2 13 0 == 0 && d.count != 0 &&
  unitOk d.srcSpace d.srcUnit && unitOk d.dstSpace d.dstUnit

/-- A descriptor is well formed for its channel (R262). -/
def descOk (s : State) (n : Nat) (d : Desc) : Bool :=
  descFields d && s.srcOk n d && s.dstOk n d && (!d.notify || s.urgentBerth d.eng.toNat d.notifyBerth)

/-! ### Messages and status (R244, R266, R279) -/

/-- Words left in the descriptor in progress, or of the checkpoint DL4 copies. -/
def ltrRemaining (s : State) (n : Nat) : Nat :=
  let l := s.lighter n
  match l.queue, s.rpl.copying with
  | d :: _, _ => d.count - l.moved
  | [], some (_, k) => if n = 516 then 786432 - k else 0
  | [], none => 0

/-- The status word of a channel, as LSTAT, LTR_STAT and DL_STAT read it. DL4 runs while a checkpoint is copied through its own port (R401). -/
def ltrStat (s : State) (n : Nat) : Word :=
  let l := s.lighter n
  let st := match l.st with | .idle => (if n = 516 ∧ s.rpl.copying.isSome then 1 else 0) | .running => 1 | .waitTap => 2 | .stopped => 3 | .aborting => 4
  BitVec.ofNat 40 (st * 2 ^ 37 + (l.queue.length - 1) * 2 ^ 32 + l.fault.toNat * 2 ^ 28 + l.done.toNat * 2 ^ 20 +
    s.ltrRemaining n)

/-- LTR_POS and DL_POS. -/
def ltrPos (s : State) (n : Nat) : Word :=
  let l := s.lighter n
  let slot := match l.queue with | d :: _ => d.slot.toNat | [] => 0
  BitVec.ofNat 40 (l.nextAddr.toNat * 2 ^ 16 + bit l.fside * 2 ^ 15 + slot)

/-! ### Storage (R262) -/

/-- The descriptor store of a channel: the quay's, or the device's (16). -/
def descStore (n : Nat) : Nat := if isDl n then 16 else n / 32
/-- Slots of a store. -/
def descSlots (st : Nat) : Nat := if st = 16 then 512 else 1024

/-- The slots of a store that are not on its free list: those of queued descriptors, and those on their way back. -/
def usedSlots (s : State) (st : Nat) : List Nat :=
  (tblKeys s.lighters).flatMap (fun n => if descStore n = st then (s.lighter n).queue.map (fun d => d.slot.toNat) else []) ++
    (s.descMoves.filter (fun m => m.back && m.store == st && decide (s.cyc < m.until_))).map (fun m => m.slot)
/-- Slots of a store in flight now (R27). -/
def slotsInFlight (s : State) (st : Nat) : Nat :=
  (s.descMoves.filter (fun m => m.store == st && decide (m.from_ ≤ s.cyc) && decide (s.cyc < m.until_))).length

/-- A slot of a store moves between a queue and the free list: one CLK_F cycle, after the moves of that store still to end (R26, R27, R262, R267). -/
def moveDesc (s : State) (st slot : Nat) (back : Bool) : State :=
  let l := s.descMoves.filter (fun m => decide (s.cyc < m.until_))
  let from' := l.foldl (fun t m => if m.store = st then Nat.max t m.until_ else t) s.cyc
  { s with descMoves := l ++ [⟨st, slot, from', from' + 2, back⟩] }

/-- Take a slot from the free list of a store. The manual names no order of that list: which free slot is taken is a free value. -/
def takeSlot (s : State) (st : Nat) : Nat × State :=
  let used := s.usedSlots st
  let freeL := (List.range (descSlots st)).filter (fun k => !used.contains k)
  let r := s.free
  (atD freeL (r.1.toNat % Nat.max freeL.length 1) 0, r.2)

/-- A descriptor enters a channel's queue: a slot of its store is taken and holds its words (R262). -/
def enqueue (s : State) (n : Nat) (d : Desc) : State :=
  let st := descStore n
  let t := s.takeSlot st
  let d := { d with slot := BitVec.ofNat 10 t.1 }
  let s := t.2.memWrites .desc (4096 * st + 4 * t.1) [d.w0, d.w1, d.w2, d.w3]
  let l := s.lighter n
  (s.setLighter n { l with queue := l.queue ++ [d], st := if l.st = .idle then .running else l.st }).moveDesc st t.1 false

/-! ### The device's own descriptors (R258, R399, R404) -/

/-- A descriptor the device queues itself. No engine queues it: its XBASE and engine are zero and nothing reads them. -/
def devDesc (src unitS addrS dst unitD addrD count stepS stepD : Nat) : Desc where
  w0 := BitVec.ofNat 40 (src * 2 ^ 36 + unitS * 2 ^ 29 + addrS)
  w1 := BitVec.ofNat 40 (dst * 2 ^ 36 + unitD * 2 ^ 29 + addrD)
  w2 := BitVec.ofNat 40 (count * 2 ^ 20)
  w3 := BitVec.ofNat 40 (stepS * 2 ^ 20 + stepD)
  xbase := 0
  eng := 0
  slot := 0
  poison := false

/-- The place of a band path among the selected ones. -/
def selIndex (s : State) (n : Nat) : Nat := s.selected.findIdx (fun b => b == n)
/-- The channel that carries a selected band path: DL(i div 2) of its place i (R399). -/
def capChannel (s : State) (n : Nat) : Nat := 512 + s.selIndex n / 2
/-- The words at the CAPTURE tap of a band path. -/
def capWords (s : State) (n : Nat) : List Word := Tbl.get (fun _ => []) s.rpl.capTap n
/-- The words at the INJECT tap of a band path. -/
def injWords (s : State) (n : Nat) : List Word := Tbl.get (fun _ => []) s.rpl.injTap n
/-- Replace the words at the CAPTURE tap. -/
def setCapWords (s : State) (n : Nat) (l : List Word) : State :=
  { s with rpl := { s.rpl with capTap := Tbl.set (fun _ => []) s.rpl.capTap n l } }
/-- Replace the words at the INJECT tap. -/
def setInjWords (s : State) (n : Nat) (l : List Word) : State :=
  { s with rpl := { s.rpl with injTap := Tbl.set (fun _ => []) s.rpl.injTap n l } }

/-- The oldest whole group that waits for channel `n` comes to the CAPTURE tap with a descriptor of its own, while the channel's queue has room (R399). -/
def capFeed (s : State) (n : Nat) : State :=
  if 32 ≤ (s.lighter n).queue.length then s
  else match s.rpl.capWait.find? (fun g => s.capChannel g.bp.toNat == n) with
    | none => s
    | some g =>
      let b := g.bp.toNat
      let s := { s with rpl := { s.rpl with capWait := s.rpl.capWait.erase g } }
      (s.setCapWords b (s.capWords b ++ g.words)).enqueue n (devDesc 6 b 0 4 0 g.addr 19 0 1)

/-- Words of a descriptor that has left the CAPTURE tap, moved or discarded. -/
def capLeave (s : State) (d : Desc) : State :=
  if d.srcSpace = 6 then s.setCapWords d.srcUnit ((s.capWords d.srcUnit).drop d.count) else s

/-! ### Queuing, abort, resume (R262, R267) -/

/-- The channel a number names for an engine that owns it (R244). -/
def ltrOf (s : State) (e : Nat) (w : Word) : Option Nat :=
  let v := w.toNat
  let n := if v < 32 then some (32 * (e / 16) + v) else if 32 ≤ v ∧ v < 48 then some (512 + v - 32) else none
  match n with
  | some n => if s.img.ltrOwner.any (fun p => p.1 == n && p.2.toNat == e) then some n else none
  | none => none

/-- LQUE: read the four words of descriptor index `x`, and queue them or refuse (R262). -/
def queueDesc (s : State) (e n : Nat) (x : Nat) : Bool × State :=
  if 3840 ≤ x then (false, s)
  else
    let rd := fun (i : Nat) (s : State) => s.memRead .dmem (16384 * e + 4 * x + i) (srcEng e)
    let r0 := rd 0 s
    let r1 := rd 1 r0.2
    let r2 := rd 2 r1.2
    let r3 := rd 3 r2.2
    let s := r3.2
    let l := s.lighter n
    if r0.1.poison || r1.1.poison || r2.1.poison || r3.1.poison then
      (false, s.report (srcLtr n) 5 1 (ltrCtx n l.fside l.nextAddr))
    else
      let d : Desc := ⟨r0.1.word, r1.1.word, r2.1.word, r3.1.word, (s.engine e).live.xbase, BitVec.ofNat 8 e, 0, false⟩
      if 32 ≤ l.queue.length || !s.descOk n d then (false, s)
      else
        (true, s.enqueue n d)

/-- LABORT: discard every descriptor, its slot returned, and leave the channel idle; the answer says it held any. A checkpoint copy of DL4 is abandoned, its slot invalid; groups that wait for DL0 to DL3 come forward. -/
def ltrAbort (s : State) (n : Nat) : Bool × State :=
  let l := s.lighter n
  let s := s.setLighter n { l with
    st := .idle, queue := [], moved := 0, started := false, srcPages := [], dstPages := [], buf := [], fault := 0 }
  let s := l.queue.foldl (fun s d => (s.moveDesc (descStore n) d.slot.toNat true).capLeave d) s
  let copying := n == 516 && s.rpl.copying.isSome
  let s := if copying then { s with rpl := { s.rpl with copying := none } } else s
  (copying || !l.queue.isEmpty, if l.queue.isEmpty then s else s.capFeed n)

/-- LRES: clear the fault of a stopped channel; the answer says it was stopped. -/
def ltrResume (s : State) (n : Nat) : Bool × State :=
  let l := s.lighter n
  if l.st = .stopped then (true, s.setLighter n { l with st := if l.queue.isEmpty then .idle else .running, fault := 0 })
  else (false, s)

/-! ### Words (R260, R264, R266) -/

/-- What an endpoint answers for one word. -/
inductive LtrRes where
  | ok (w : Word)
  | fault (code : Nat)
  | walk (vpage : Nat)
  deriving DecidableEq, Repr

/-- Where an ENGINE endpoint leads: LTR_XLATE 1, LTR_PERM 2. Hold targets are for DL channels. -/
def ltrTarget (n : Nat) (pages : List (Nat × Word)) (a : Int) (store : Bool) : Target :=
  if a < 0 ∨ 0x100000 ≤ a then .fault 1
  else
    let a := a.toNat
    if a < 0x4000 then (if store && 0x3C00 ≤ a then .fault 2 else .data a)
    else match assoc pages (a / 1024) with
      | none => .miss (a / 1024)
      | some w =>
        match applyEntry w (a % 1024) ⟨store, false⟩ with
        | .fault 3 => .fault 1
        | .fault _ => .fault 2
        | .hold x => if isDl n then .hold x else .fault 2
        | t => t

/-- The two sides of lighter time (R263), and an endpoint that needs neither. -/
inductive LtrSide where
  | quay | hold | either
  deriving DecidableEq, Repr

/-- The side an endpoint's word lies on (R263): quay memory, data memories and the taps and banks of band paths, or hold memory. CAPTURE and INJECT are served in the hold window with the memory they run to (DESIGN CHOICE, assumption 67). -/
def ltrSide (n space : Nat) (pages : List (Nat × Word)) (a : Int) (store : Bool) : LtrSide :=
  match space with
  | 0 => match ltrTarget n pages a store with | .hold _ => .hold | .fault _ => .either | _ => .quay
  | 1 | 2 | 3 => .quay
  | 4 | 6 | 7 => .hold
  | _ => .either

/-- What is open to a channel in a cycle: a slot of a quay's lighter round, its hold window. -/
structure Open where
  slot : Bool
  window : Bool

/-- A side is open. -/
def Open.has (o : Open) : LtrSide → Bool
  | .quay => o.slot
  | .hold => o.window
  | .either => true

/-- The code of a channel in a quay's slot map. -/
def slotCode (n : Nat) : Nat := if isDl n then n - 480 else n % 32
/-- The quay in whose round a channel works a descriptor: its own, or that of the queuing engine. -/
def ltrQuay (n : Nat) (d : Desc) : Nat := if isDl n then d.eng.toNat / 16 else n / 32

/-- The burst slot that begins now in a quay's round belongs to the channel (R263). -/
def ownsSlot (s : State) (n q : Nat) : Bool :=
  let c := s.engCyc (16 * q)
  c % 32 == 0 && (match s.img.quays.find? (fun x => x.quay.toNat == q) with
    | some x => assoc x.slots (c % 1024 / 32) == some (slotCode n)
    | none => false)

/-- The hold window of DLk begins now: the CLK_F cycle whose count is k modulo 16 (R263). DL0 to DL3 live by the cycle count of the replay set, and a channel of an engine by the engine's (R404). -/
def ownsWindow (s : State) (n : Nat) (d : Desc) : Bool :=
  let c := if n < 516 then s.setCyc else if n < 520 then s.cyc else s.engCyc d.eng.toNat
  isDl n && c % 32 == 2 * (n - 512)

/-- What is open to a channel for its front descriptor now. -/
def opens (s : State) (n : Nat) (d : Desc) : Open := ⟨s.ownsSlot n (ltrQuay n d), s.ownsWindow n d⟩

/-- The bank memory of an address in space BANK, as its table. -/
def bankSel (b : Bool) : MemSel := if b then .bankB else .bankA

/-- Read source word `i` of a descriptor. -/
def ltrRead (s : State) (n : Nat) (d : Desc) (i : Nat) : LtrRes × State :=
  let a := d.src i
  let e := d.eng.toNat
  let got := fun (r : ReadWord × State) =>
    if r.1.poison then ((LtrRes.fault 3, r.2) : LtrRes × State) else (LtrRes.ok r.1.word, r.2)
  match d.srcSpace with
  | 0 =>
    match ltrTarget n (s.lighter n).srcPages a false with
    | .data x => got (s.memRead .dmem (16384 * e + x) (srcEng e))
    | .quay x => got (s.memRead .quay (262144 * (e / 16) + x) (srcQuay (e / 16)))
    | .hold x => got (s.memRead .hold x srcHold)
    | .fault c => (.fault c, s)
    | .miss v => (.walk v, s)
  | 1 =>
    if a < 0 then (.fault 1, s)
    else
      let x := a.toNat
      let k := x % 8388608
      if 16777216 ≤ x ∨ s.planN d.srcUnit plTaps ≤ k then (.fault 1, s)
      else got (s.memRead (bankSel (8388608 ≤ x)) (16384 * d.srcUnit + k) (srcBp d.srcUnit))
  | 2 =>
    match (s.tap d.srcUnit).adapt with
    | r :: _ => if a < 0 ∨ r.words.length ≤ a.toNat then (.fault 1, s) else (.ok (atD r.words a.toNat 0), s)
    | [] => (.fault 1, s)
  | 3 =>
    match (s.tap d.srcUnit).mask with
    | r :: _ => if a < 0 ∨ r.words.length ≤ a.toNat then (.fault 1, s) else (.ok (atD r.words a.toNat 0), s)
    | [] => (.fault 1, s)
  | 4 => if a < 0 ∨ 0x400000 ≤ a then (.fault 1, s) else got (s.memRead .hold a.toNat srcHold)
  | 5 => (.ok 0, s)
  | 6 => (match (s.capWords d.srcUnit)[i]? with | some w => .ok w | none => .fault 1, s)
  | _ => (.fault 5, s)

/-- Write destination word `i`; the answer's word is not used. -/
def ltrWrite (s : State) (n : Nat) (d : Desc) (i : Nat) (w : Word) : LtrRes × State :=
  let a := d.dst i
  let e := d.eng.toNat
  match d.dstSpace with
  | 0 =>
    match ltrTarget n (s.lighter n).dstPages a true with
    | .data x => (.ok w, s.memWrite .dmem (16384 * e + x) w)
    | .quay x => (.ok w, s.quayWrite (e / 16) x w)
    | .hold x => (.ok w, s.memWrite .hold x w)
    | .fault c => (.fault c, s)
    | .miss v => (.walk v, s)
  | 1 =>
    let b := (s.bp d.dstUnit).bw
    if a < 0 ∨ (s.planN d.dstUnit plTaps : Int) ≤ a then (.fault 1, s)
    else if b.armed then (.fault 4, s)
    else (.ok w, s.memWrite (bankSel (!b.bankB)) (16384 * d.dstUnit + a.toNat) w)
  | 4 => if a < 0 ∨ 0x400000 ≤ a then (.fault 1, s) else (.ok w, s.memWrite .hold a.toNat w)
  | 7 => (.ok w, s.setInjWords d.dstUnit (s.injWords d.dstUnit ++ [w]))
  | _ => (.fault 5, s)

/-- Walk a page for an endpoint (R264): the table word of the queuing task, applied by R251. -/
def ltrWalk (s : State) (n : Nat) (d : Desc) (v : Nat) (dst : Bool) : State :=
  let a := d.xbase.toNat / 1024 * 1024 + v
  let q := d.eng.toNat / 16
  let r := if a < 262144 then s.memRead .quay (262144 * q + a) (srcQuay q) else (⟨0, false⟩, s)
  let s := r.2
  let l := s.lighter n
  let addr := if dst then d.dst l.moved else d.src l.moved
  if r.1.poison then s.ltrStop n 3 dst addr
  else match applyEntry r.1.word 0 ⟨dst, false⟩ with
    | .fault c => s.ltrStop n (if c = 3 then 1 else 2) dst addr
    | .hold _ =>
      if isDl n then
        (if dst then s.setLighter n { l with dstPages := assocSet l.dstPages v r.1.word }
         else s.setLighter n { l with srcPages := assocSet l.srcPages v r.1.word })
      else s.ltrStop n 2 dst addr
    | _ =>
      if dst then s.setLighter n { l with dstPages := assocSet l.dstPages v r.1.word }
      else s.setLighter n { l with srcPages := assocSet l.srcPages v r.1.word }

/-- A page the next word needs and that has not been walked: the source's first. -/
def ltrNeeds (s : State) (n : Nat) (d : Desc) (i : Nat) (src dst : Bool) : Option (Nat × Bool) :=
  let l := s.lighter n
  let need := fun (sp : Nat) (pages : List (Nat × Word)) (a : Int) (st : Bool) =>
    if sp = 0 then (match ltrTarget n pages a st with | .miss v => some v | _ => none) else none
  match (if src then need d.srcSpace l.srcPages (d.src i) false else none) with
  | some v => some (v, false)
  | none =>
    match (if dst then need d.dstSpace l.dstPages (d.dst i) true else none) with
    | some v => some (v, true)
    | none => none

/-- A lighter completion makes an urgent or handler berth ready (R265, R270, R278), also one whose task runs and has a run to come. -/
def notifyBerth (s : State) (e b : Nat) : State :=
  let en := s.engine e
  if !s.urgentBerth e b then s else s.setEngine e (en.wake b (s.engCyc e))

/-- BWAKE of an urgent or handler berth (R245, R247, R270): without effect on one that is ready or running; the answer says that it became ready now. -/
def wakeBerth (s : State) (e b : Nat) : Bool × State :=
  if !s.urgentBerth e b || (s.engine e).ready.getLsbD b || (s.engine e).running == some (BitVec.ofNat 4 b) then (false, s)
  else (true, s.notifyBerth e b)

/-- A descriptor completes (R265): its slot goes back, DONE counts it, the tap record is released and the berth woken. -/
def ltrComplete (s : State) (n : Nat) (d : Desc) : State :=
  let l := s.lighter n
  let rest := l.queue.drop 1
  let s := s.setLighter n { l with
    queue := rest, done := l.done + 1, moved := 0, started := false, srcPages := [], dstPages := [], buf := []
    st := if rest.isEmpty then .idle else .running }
  let s := ((s.moveDesc (descStore n) d.slot.toNat true).capLeave d).capFeed n
  let s :=
    if d.release && d.srcSpace == 2 then
      let t := s.tap d.srcUnit
      s.setTap d.srcUnit { t with adapt := t.adapt.drop 1 }
    else if d.release && d.srcSpace == 3 then
      let t := s.tap d.srcUnit
      s.setTap d.srcUnit { t with mask := t.mask.drop 1 }
    else s
  if d.notify then s.notifyBerth d.eng.toNat d.notifyBerth else s

/-- Move up to `k` words of the front descriptor on the quay side (R264), ending at a word that needs a walk, at a fault, or at the end. -/
def ltrMove (s : State) (n : Nat) (d : Desc) : Nat → State
  | 0 => s
  | k + 1 =>
    let i := (s.lighter n).moved
    if d.count ≤ i then s
    else if (s.ltrNeeds n d i true true).isSome then s
    else
      let r := s.ltrRead n d i
      match r.1 with
      | .fault c => r.2.ltrStop n c false (d.src i)
      | .walk _ => r.2
      | .ok w =>
        let q := r.2.ltrWrite n d i w
        match q.1 with
        | .fault c => q.2.ltrStop n c true (d.dst i)
        | .walk _ => q.2
        | .ok _ =>
          let l := q.2.lighter n
          (q.2.setLighter n { l with moved := i + 1, nextAddr := BitVec.ofInt 24 (d.src (i + 1)), fside := false }).ltrMove n d k

/-- Collect up to `k` words of the front descriptor into the buffer of a DL channel, from the side that is open to it now. A fault behind collected words waits until those are committed. -/
def dlCollect (s : State) (n : Nat) (d : Desc) (here : Open) : Nat → State
  | 0 => s
  | k + 1 =>
    let l := s.lighter n
    let i := l.moved + l.buf.length
    if d.count ≤ i ∨ !here.has (ltrSide n d.srcSpace l.srcPages (d.src i) false) then s
    else if (s.ltrNeeds n d i true false).isSome then s
    else
      let r := s.ltrRead n d i
      match r.1 with
      | .ok w =>
        let l := r.2.lighter n
        (r.2.setLighter n { l with buf := l.buf ++ [w] }).dlCollect n d here k
      | .fault c => if l.buf.isEmpty then r.2.ltrStop n c false (d.src i) else s
      | .walk _ => s

/-- Commit the words of the buffer to the side that is open to the channel now. -/
def dlCommit (s : State) (n : Nat) (d : Desc) (here : Open) : Nat → State
  | 0 => s
  | k + 1 =>
    let l := s.lighter n
    match l.buf with
    | [] => s
    | w :: t =>
      let i := l.moved
      if (s.ltrNeeds n d i false true).isSome ∨ !here.has (ltrSide n d.dstSpace l.dstPages (d.dst i) true) then s
      else
        let q := s.ltrWrite n d i w
        match q.1 with
        | .ok _ =>
          let l := q.2.lighter n
          (q.2.setLighter n { l with moved := i + 1, buf := t, nextAddr := BitVec.ofInt 24 (d.src (i + 1)), fside := false }).dlCommit n d here k
        | .fault c => (q.2.setLighter n { q.2.lighter n with buf := [] }).ltrStop n c true (d.dst i)
        | .walk _ => q.2

/-- Read a descriptor back from its storage slot at its start (R263, R266); the quay, or for DL channels hold memory, owns the store and reports its corrected reads (R255). -/
def ltrStart (s : State) (n : Nat) (d : Desc) : State :=
  let base := 4096 * descStore n + 4 * d.slot.toNat
  let rd := fun (i : Nat) (s : State) => s.memRead .desc (base + i) (if isDl n then srcHold else srcQuay (n / 32))
  let r0 := rd 0 s
  let r1 := rd 1 r0.2
  let r2 := rd 2 r1.2
  let r3 := rd 3 r2.2
  let s := r3.2
  let d : Desc := { d with w0 := r0.1.word, w1 := r1.1.word, w2 := r2.1.word, w3 := r3.1.word }
  let l := s.lighter n
  let s := s.setLighter n { l with queue := d :: l.queue.drop 1 }
  if r0.1.poison || r1.1.poison || r2.1.poison || r3.1.poison then s.ltrStop n 3 false (d.src 0)
  else if !s.descOk n d then s.ltrStop n 5 false (d.src 0)
  else
    let l := s.lighter n
    let held := if d.srcSpace = 2 then !(s.tap d.srcUnit).adapt.isEmpty
      else if d.srcSpace = 3 then !(s.tap d.srcUnit).mask.isEmpty else true
    s.setLighter n { l with
      started := held, st := if held then .running else .waitTap, moved := 0, buf := []
      nextAddr := BitVec.ofInt 24 (d.src 0), fside := false }

/-- Completion, when every word of the front descriptor is committed. -/
def ltrFinish (s : State) (n : Nat) (d : Desc) : State :=
  let l := s.lighter n
  if l.st = .running && d.count ≤ l.moved then s.ltrComplete n d else s

/-- One slot or window of a DL channel: the walks of both endpoints at the descriptor's start and of each page met later, then words collected from one side, then those committed to the other (R264). A walk takes a quay slot. -/
def dlStep (s : State) (n : Nat) (d : Desc) (here : Open) : State :=
  let l := s.lighter n
  let empty := l.buf.isEmpty
  let want := if empty then s.ltrNeeds n d l.moved true (l.moved == 0) else s.ltrNeeds n d l.moved false true
  match want with
  | some p => if here.slot then s.ltrWalk n d p.1 p.2 else s
  | none => if empty then s.dlCollect n d here 16 else (s.dlCommit n d here 16).ltrFinish n d

/-- One slot or window that a channel owns (R263, R264); nothing moves in one it does not own. -/
def ltrBurst (s : State) (n : Nat) : State :=
  let l := s.lighter n
  if s.latched then s
  else match l.st, l.queue with
    | .running, d :: _ | .waitTap, d :: _ =>
      let here := s.opens n d
      if !here.slot && !here.window then s
      else
        let s := if l.started then s else s.ltrStart n d
        let l := s.lighter n
        match l.started, l.st, l.queue with
        | true, .running, d :: _ =>
          if isDl n then s.dlStep n d here
          else match s.ltrNeeds n d l.moved true true with
            | some p => s.ltrWalk n d p.1 p.2
            | none => (s.ltrMove n d 16).ltrFinish n d
        | _, _, _ => s
    | _, _ => s

/-! ### Taps (R261) -/

/-- A tap record completes, or is discarded when two are held. -/
def tapComplete (s : State) (n : Nat) (mask : Bool) : State :=
  let t := s.tap n
  if mask then
    match t.mWhole with
    | [] => s
    | r :: w => s.setTap n { t with mWhole := w, mask := if t.mask.length < 2 then t.mask ++ [r] else t.mask }
  else
    match t.aWhole with
    | [] => s
    | r :: w => s.setTap n { t with aWhole := w, adapt := if t.adapt.length < 2 then t.adapt ++ [r] else t.adapt }

/-! ### The instructions -/

/-- The channel a lighter instruction names, or ENG_PERM (R244). -/
def ltrInstr (s : State) (e : Nat) (ch : BitVec 5) (act : State → Nat → State) : State :=
  let t := (s.engine e).live
  match s.ltrOf e (t.getW ch.toNat) with
  | some n => (act s n).stepPc e
  | none => s.taskFault e 4 t.pc

/-- Write a predicate named in fn[2:0]. -/
def setPred (s : State) (e : Nat) (f : T3) (b : Bool) : State := s.modTask e (fun t => t.setP (f.fn.toNat % 8) b)

end State

/-- LQUE (R262). -/
def execLque (e : EngId) (f : T3) (s : State) : Out :=
  .next (s.issue e.toNat (encT 0x80 f) (fun s => s.ltrInstr e.toNat f.b (fun s n =>
    let r := s.queueDesc e.toNat n ((s.engine e.toNat).live.getW f.a.toNat).toNat
    r.2.setPred e.toNat f r.1)))

/-- LSTAT (R244). -/
def execLstat (e : EngId) (f : T3) (s : State) : Out :=
  .next (s.issue e.toNat (encT 0x81 f) (fun s => s.ltrInstr e.toNat f.a (fun s n =>
    s.modTask e.toNat (fun t => t.setW f.d.toNat (s.ltrStat n)))))

/-- LABORT (R267). -/
def execLabort (e : EngId) (f : T3) (s : State) : Out :=
  .next (s.issue e.toNat (encT 0x82 f) (fun s => s.ltrInstr e.toNat f.a (fun s n =>
    let r := s.ltrAbort n
    r.2.setPred e.toNat f r.1)))

/-- LRES (R267). -/
def execLres (e : EngId) (f : T3) (s : State) : Out :=
  .next (s.issue e.toNat (encT 0x83 f) (fun s => s.ltrInstr e.toNat f.a (fun s n =>
    let r := s.ltrResume n
    r.2.setPred e.toNat f r.1)))

/-- TAP_RECORD_COMPLETE (R261). -/
def execTapRecordComplete (bp : BpId) (mask : Bool) (s : State) : Out := .next (s.tapComplete bp.toNat mask)

end Sys2Proof.Machine
end

