-- ==== Sys2Proof/Machine/Berth.lean ====
section
/-! DEFINITION. Berths, rounds and urgent tasks, halting and restarting an engine, and the mailboxes (R222, R223, R227, R245, R246, R268 to R278). -/

namespace Sys2Proof.Machine

namespace State

/-- Count a timed berth interrupted at its end, or an urgent budget exhausted. -/
def countOverrun (s : State) (e : Nat) : State := s.inc (F.quaySchedOverrunCnt (e / 16)) (F.quaySchedOvrOvf (e / 16))

/-- The engine can run tasks: it is idle or running. -/
def engLive (s : State) (e : Nat) : Bool :=
  match (s.engine e).st with | .idle | .running => true | _ => false

/-- End a task's run by its own instruction: PC + 1, saved, with the switch R269 and R271 give. -/
def leaveFx (s : State) (e : Nat) : State := (s.stepPc e).endRun e

/-- A mailbox receive (R222, R246). -/
def mrecvFx (s : State) (e : Nat) (f : T3) : State :=
  let en := s.engine e
  match en.inbox.find? (fun w => w.visible) with
  | some w =>
    (s.setEngine e { en with
      inbox := en.inbox.erase w
      live := (en.live.setW f.d.toNat w.word).setP (f.fn.toNat % 8) true }).stepPc e
  | none => (s.modTask e (fun t => (t.setW f.d.toNat 0).setP (f.fn.toNat % 8) false)).stepPc e

/-- A mailbox send (R223, R246). -/
def msendFx (s : State) (e : Nat) (f : T3) : State :=
  let en := s.engine e
  if en.outbox.length < 8 then
    (s.setEngine e { en with
      outbox := en.outbox ++ [en.live.getW f.a.toNat]
      live := en.live.setP (f.fn.toNat % 8) true }).stepPc e
  else ((s.inc (F.engMbStatFullCnt e) (F.engMbStatFullOvf e)).modTask e (fun t => t.setP (f.fn.toNat % 8) false)).stepPc e

/-- Context word an engine's notes carry: berth, PC and PROG as R225 lays them out. -/
def engNoteCtx (s : State) (e : Nat) : Word :=
  let en := s.engine e
  let b := match en.running with | some b => b.toNat | none => en.lastBerth.toNat
  engCtx e b en.live.pc en.live.prog.toNat

/-- A word written to ENG_MB_IN (R222). -/
def mbIn (s : State) (e : Nat) (w : Word) : State :=
  let en := s.engine e
  if en.inbox.length < 8 then s.setEngine e { en with inbox := en.inbox ++ [⟨w, s.engCyc e, false⟩], lastIn := w }
  else (s.inc (F.engMbStatInDrop e) (F.engMbStatInOvf e)).note (srcEng e) (s.engNoteCtx e)

/-- The cycle at which a word accepted at `c` becomes visible: the first multiple of 64 at least 64 later. -/
def visibleAt (c : Nat) : Nat := (c + 64 + 63) / 64 * 64

/-- The oldest accepted inbound word that is due becomes visible, and the journal records it (R222). -/
def mbVisible (s : State) (e : Nat) : State :=
  let en := s.engine e
  match en.inbox.find? (fun w => !w.visible) with
  | some w =>
    if visibleAt w.at_ ≤ s.engCyc e then
      let show' := fun (l : List InWord) =>
        (l.takeWhile (fun x => x.visible)) ++
          (match l.dropWhile (fun x => x.visible) with | x :: t => { x with visible := true } :: t | [] => [])
      (s.setEngine e { en with inbox := show' en.inbox }).journal 7 e s.cycW w.word 0
    else s
  | none => s

/-- Compare a decision of a replay-quay engine with the next journal entry (R404, R405): an entry of its engine and cycle that differs, or none, is a divergence. Outside a replay the decision is journalled (R400). -/
def decision (s : State) (e : Nat) (mailbox : Bool) (w2 w3 : Word) : State :=
  if !s.inReplayQuay e then s
  else
    let detail := e * 2 ^ 24 + bit mailbox
    match s.rpl.st with
    | .replaying =>
      let (w0, w1, x2, x3) := s.jNow
      let pos := if mailbox then 0 else w2.toNat
      if w0 == BitVec.ofNat 40 (9 * 2 ^ 34 + detail) && w1 == BitVec.ofNat 40 s.rpl.rcyc then
        let r := s.jTake
        if r.1 && x2 == w2 && x3 == w3 then r.2 else r.2.diverge 3 e pos
      else s.diverge 5 e pos
    | _ => s.journal 9 detail s.cycW w2 w3

/-- The device moves the oldest outbound word of an engine into the management ring (R223), in the one cycle of every 256 at which it does. -/
def outMove (s : State) (e : Nat) : State :=
  let en := s.engine e
  if s.engCyc e % 256 ≠ (e + 128) % 256 then s
  else match en.outbox with
  | [] => s
  | w :: t =>
    let s := s.setEngine e { en with outbox := t }
    let s := s.decision e true w 0
    if s.mgmt.ring.length < 4096 then
      { s with mgmt := { s.mgmt with ring := s.mgmt.ring ++ [(w, BitVec.ofNat 40 (e * 2 ^ 32 + s.engCyc e % 2 ^ 32))] } }
    else s.inc (F.engMbStatRingDrop e) (F.engMbStatRingOvf e)

/-! ### HALT, RESUME, RESTART (R227) -/

/-- HALT: an idle or running engine halts on request. -/
def haltReq (s : State) (e : Nat) : State := if s.engLive e then s.haltEngine e .haltedReq else s

/-- RESUME: refused after a double fault or parity halt, with a note; a latch of C4 keeps what it stopped. -/
def resumeReq (s : State) (e : Nat) : State :=
  match (s.engine e).st with
  | .haltedFault => s.note (srcEng e) (s.engNoteCtx e)
  | .haltedReq | .haltedColl =>
    if s.latched then s else (s.setEngine e { s.engine e with st := .idle }).switchIn e (s.engCyc e) 17
  | _ => s

/-- RESTART: taken at the next round start. -/
def restartReq (s : State) (e : Nat) : State := s.setEngine e { s.engine e with restart := true }

/-- Every berth of an engine at its entry point: frames set, no task running, waiting or suspended, the buffer empty. -/
def freshTasks (s : State) (e : Nat) : State :=
  let s := (s.berths e).foldl (fun s c => s.saveFrame e c.berth.toNat (Task.init c.entry c.xbase)) s
  let en := s.engine e
  s.setEngine e { en with
    live := Task.init 0 0, running := none, poisoned := none, suspended := 0, ready := 0, tlb := [], fill := 0, loads := []
    walk := none, blkFailed := [], block := none, budgetEnd := none, ended := 0, restart := false }

/-- A task of a SHED berth that runs as its berth comes to be shed is interrupted at the round start (R351): a timed berth stays idle, an urgent task stays ready and makes room for what waits behind it. -/
def shedRunning (s : State) (e : Nat) : State :=
  match (s.engine e).running with
  | none => s
  | some b =>
    if !s.shedBerth e b.toNat then s
    else
      let s := s.saveRunning e
      let en := s.engine e
      if s.urgentBerth e b.toNat then
        let rdy := if en.suspended.getLsbD b.toNat then en.ready else en.ready ||| (1#16 <<< b.toNat)
        (s.setEngine e { en with st := .idle, ready := rdy }).switchIn e (s.engCyc e) 17
      else s.setEngine e { en with st := .idle }

/-- A berth round begins (R220), at a multiple of 1 024: the use of the last round is kept, berths are shed or back, and a RESTART takes effect. -/
def roundStart (s : State) (e : Nat) : State :=
  let en := s.engine e
  let u := Nat.min en.used 1024
  if s.engCyc e % 1024 ≠ 0 then s else
  let s := s.setEngine e { en with lastUsed := u, peakUsed := Nat.max en.peakUsed u, used := 0, shed := s.thermal.shed }
  if en.restart then
    let s := s.freshTasks e
    match en.st with
    | .gated => s
    | .haltedColl => if s.latched then s else s.setEngine e { s.engine e with st := .idle }
    | _ => s.setEngine e { s.engine e with st := .idle }
  else if s.engLive e then s.shedRunning e else s

/-! ### Switches (R269 to R271) -/

/-- The berth carries the SHED mark and is shed in the round in which it starts: one that starts in the first 12 cycles of a round is switched in before it, by the shedding of the round to come (R351). -/
def shedAtStart (s : State) (e : Nat) (k : BerthCfg) : Bool := k.shed && (if k.start < 12 then s.thermal.shed else (s.engine e).shed)

/-- A switch at the start of a timed berth, 12 cycles before its offset S (R220, R269). While an urgent task runs the berth waits for its end. -/
def timedStart (s : State) (e b : Nat) : State :=
  let en := s.engine e
  match s.berthCfg e b with
  | none => s
  | some k =>
  if !s.engLive e || k.kind != .timed || (s.engCyc e + 12) % 1024 != k.start then s
  else
    let s := s.setEngine e { en with ended := en.ended &&& ~~~ (1#16 <<< b) }
    let urgentRuns := match en.running with | some r => s.urgentBerth e r.toNat | none => false
    if urgentRuns || en.suspended.getLsbD b || s.shedAtStart e k then s
    else
      let s := s.saveRunning e
      let s := s.setEngine e { s.engine e with st := .idle }
      (s.restore e b (s.engCyc e)).2

/-- A timed task still running at the end of its berth, at S plus the length, is interrupted and counted. -/
def timedEnd (s : State) (e : Nat) : State :=
  let en := s.engine e
  match en.running with
  | some b =>
    let ends := match s.berthCfg e b.toNat with
      | some k => k.kind == .timed && s.engCyc e % 1024 == (k.start + k.len) % 1024
      | none => false
    if s.engLive e && ends then
      let s := (s.countOverrun e).saveRunning e
      s.setEngine e { s.engine e with st := .idle }
    else s
  | none => s

/-- At a quantum boundary, a multiple of 64 (R270), a ready urgent task takes the engine, unless an urgent task runs. -/
def preempt (s : State) (e : Nat) : State :=
  let en := s.engine e
  if !s.engLive e || s.engCyc e % 64 != 0 then s
  else match s.nextUrgent e (s.engCyc e) with
    | none => s
    | some _ =>
      match en.running with
      | none => s.switchIn e (s.engCyc e) 17
      | some b =>
        if s.urgentBerth e b.toNat then s
        else
          let s := s.inc (F.quaySchedPreemptCnt (e / 16)) (F.quaySchedPreOvf (e / 16))
          let s := s.saveRunning e
          (s.setEngine e { s.engine e with st := .idle }).switchIn e (s.engCyc e) 17

/-- An urgent run ends its budget. -/
def budgetOut (s : State) (e : Nat) : State :=
  let en := s.engine e
  match en.running, en.budgetEnd with
  | some _, some q =>
    if s.engLive e && q ≤ s.engCyc e then
      let s := (s.countOverrun e).saveRunning e
      (s.setEngine e { s.engine e with st := .idle }).switchIn e (s.engCyc e) 17
    else s
  | _, _ => s

end State

/-- BEND (R245). -/
def execBend (e : EngId) (f : T3) (s : State) : Out :=
  .next (s.issue e.toNat (encT 0x88 f) (fun s => s.leaveFx e.toNat))

/-- BSLEEP (R245). -/
def execBsleep (e : EngId) (f : T3) (s : State) : Out :=
  .next (s.issue e.toNat (encT 0x8A f) (fun s => s.leaveFx e.toNat))

/-- BWAKE (R245). -/
def execBwake (e : EngId) (f : T3) (s : State) : Out :=
  .next (s.issue e.toNat (encT 0x89 f) (fun s =>
    let r := s.wakeBerth e.toNat (((s.engine e.toNat).live.getW f.a.toNat).toNat % 16)
    (r.2.setPred e.toNat f r.1).stepPc e.toNat))

/-- BSTAT (R245). -/
def execBstat (e : EngId) (f : T3) (s : State) : Out :=
  .next (s.issue e.toNat (encT 0x8C f) (fun s =>
    let en := s.engine e.toNat
    let own := match en.running with | some b => b.toNat | none => 0
    (s.modTask e.toNat (fun t => t.setW f.d.toNat
      (BitVec.ofNat 40 (own * 2 ^ 32 + en.suspended.toNat * 65536 + en.ready.toNat)))).stepPc e.toNat))

/-- MRECV (R246). -/
def execMrecv (e : EngId) (f : T3) (s : State) : Out :=
  .next (s.issue e.toNat (encT 0x90 f) (fun s => s.mrecvFx e.toNat f))

/-- MSEND (R246). -/
def execMsend (e : EngId) (f : T3) (s : State) : Out :=
  .next (s.issue e.toNat (encT 0x91 f) (fun s => s.msendFx e.toNat f))

/-- MSTAT (R246). -/
def execMstat (e : EngId) (f : T3) (s : State) : Out :=
  .next (s.issue e.toNat (encT 0x92 f) (fun s =>
    let en := s.engine e.toNat
    (s.modTask e.toNat (fun t => t.setW f.d.toNat
      (BitVec.ofNat 40 (en.outbox.length * 16 + (en.inbox.filter (fun w => w.visible)).length)))).stepPc e.toNat))

/-- MAILBOX_WORD_VISIBLE (R222). -/
def execMailboxWordVisible (e : EngId) (s : State) : Out :=
  .next (if s.rpl.st = .replaying ∧ s.inReplayQuay e.toNat then s else s.mbVisible e.toNat)

/-- OUTBOUND_WORD_MOVE (R223). -/
def execOutboundWordMove (e : EngId) (s : State) : Out := .next (s.outMove e.toNat)

/-- BERTH_ROUND_START (R220). -/
def execBerthRoundStart (e : EngId) (s : State) : Out := .next (s.roundStart e.toNat)

/-- TIMED_BERTH_START (R269). -/
def execTimedBerthStart (e : EngId) (berth : BerthId) (s : State) : Out := .next (s.timedStart e.toNat berth.toNat)

/-- TIMED_BERTH_END (R269). -/
def execTimedBerthEnd (e : EngId) (s : State) : Out := .next (s.timedEnd e.toNat)

/-- URGENT_PREEMPT (R270). -/
def execUrgentPreempt (e : EngId) (s : State) : Out := .next (s.preempt e.toNat)

/-- URGENT_BUDGET_END (R271). -/
def execUrgentBudgetEnd (e : EngId) (s : State) : Out := .next (s.budgetOut e.toNat)

end Sys2Proof.Machine
end

