-- ==== Sys2Proof/Machine/Roms.lean ====
section
/-! DEFINITION. The fixed filter responses: what the tables of R40, R42 and R284 ask of them, and for each a response that meets it, which stands in where an open ROM value of `Config` would not (assumption 20). -/

namespace Sys2Proof.Machine

/-! ### Cosines -/

/-- One of the trigonometric series in 2^-60, nested over its divisors, for the square `t2` of an angle in 2^-60. -/
def trigSeries (t2 : Int) (ds : List Int) : Int := ds.foldr (fun d a => 2 ^ 60 - t2 * a / 2 ^ 60 / d) (2 ^ 60)
/-- Cosine and sine in 2^-60 of `r` / 2^30 of a right angle, 0 ≤ r < 2^30. -/
def quarterTrig (r : Nat) : Int × Int :=
  let t : Int := (r : Int) * 1811004864519280711 / 2 ^ 30
  let t2 := t * t / 2 ^ 60
  (trigSeries t2 [2, 12, 30, 56, 90, 132, 182, 240, 306, 380, 462, 552],
   t * trigSeries t2 [6, 20, 42, 72, 110, 156, 210, 272, 342, 420, 506, 600] / 2 ^ 60)
/-- cos(2π·i/1024) in 2^-60, for i from 0 to 512. -/
def cosGrid (i : Nat) : Int := if i ≤ 256 then (quarterTrig (i * 2 ^ 22)).1 else -(quarterTrig ((512 - i) * 2 ^ 22)).1

/-! ### What a response must do -/

/-- The sum of coefficients times cos(k·θ), from k on: `q` is cos(k·θ), `p` the cosine before it, `c` is cos θ. -/
def cosSum (c : Int) : List Int → Int → Int → Int
  | [], _, _ => 0
  | a :: t, p, q => a * q + cosSum c t q (2 * c * q / 2 ^ 60 - p)
/-- Amplitude in 2^-100, at i/1024 of the sample rate, of a linear-phase response given by its coefficients in 2^-40 from the centre outward. -/
def amplitude (cs : List Int) (i : Nat) : Int :=
  let c := cosGrid i
  2 * cosSum c cs c (2 ^ 60) - atD cs 0 0 * 2 ^ 60
/-- A low-pass: up to `pass`/1024 of the rate within the ripple, peak to peak and of unity gain, and from `stop`/1024 on at least `att` dB down, at every multiple of 1/1024. -/
def lowPassOk (cs : List Int) (pass stop : Nat) (ripple : Db) (att : Nat) : Bool :=
  let ps := (List.range (pass + 1)).map (amplitude cs)
  let hi := (ps.foldl Max.max 0).toNat
  let lo := (ps.foldl Min.min (2 ^ 120)).toNat
  decide (0 < lo) && decide (ratioDb (hi * hi) (lo * lo) ≤ ripple)
    && decide (ratioDb (hi * hi) (2 ^ 200) ≤ ripple) && decide (-ripple ≤ ratioDb (lo * lo) (2 ^ 200))
    && (List.range (513 - stop)).all (fun k => let a := amplitude cs (stop + k); decide ((a * a) * (a * a) * 10 ^ (att / 5) ≤ 2 ^ 200 * 2 ^ 200))
/-- The coefficients from the centre outward of a response of `d` samples' delay. -/
def fromCentre (c : Nat → Int) (d : Nat) : List Int := (List.range (d + 1)).map (fun k => c (d - k))
/-- Tap `j` of the response whose coefficients from the centre outward are `l`, in 2^-28. -/
def designed (l : List Int) (j : Nat) : Int := atD l (l.length - 1 - j) 0 * 4096

/-! ### Half-band stages (R40) -/

/-- Group delay of a half-band variant in samples at its input rate. -/
def hbDelay (v : Nat) : Nat := atD [5, 11, 23, 47] v 0
/-- Edge of the protected band in 1/1024 of the input rate, the ripple and the attenuation of a variant. -/
def hbSpec (v : Nat) : Nat × Db × Nat :=
  atD [(51, roundEven dB1 100, 70), (128, roundEven dB1 200, 80), (179, roundEven (3 * dB1) 1000, 90), (204, roundEven dB1 500, 100)] v (0, 0, 0)
/-- A half-band response meets the table of R40: the passband, and every alias of it. -/
def hbOk (c : Nat → Int) (v : Nat) : Bool :=
  let p := hbSpec v
  lowPassOk (fromCentre c (hbDelay v)) p.1 (512 - p.1) p.2.1 p.2.2
/-- The odd coefficients of a half-band response that meets its row, in 2^-28. -/
def hbOdd (v : Nat) : List Int :=
  match v with
  | 0 =>
    [79030905, -13703356, 1781953]
  | 1 =>
    [83058088, -22004536, 8198965, -2725365, 673917, -92971]
  | 2 =>
    [84682198, -26265100, 13625581, -7796963, 4480494, -2480334, 1286953, -610240, 256492, -91294, 25283, -4383]
  | _ =>
    [85122552, -27526120, 15540205, -10126525, 6962448, -4875496, 3414888, -2366240, 1609666, -1068538, 688547, -428522, 256237, -146368, 79345,
     -40497, 19269, -8440, 3346, -1172, 351, -84, 15, -1]
/-- Its coefficients from the centre outward: a half, and every even one zero. -/
def hbDesign (v : Nat) : List Int := 134217728 :: (hbOdd v).flatMap (fun a => [a, 0])
/-- Tap `j` of half-band stage `k` in a variant: the ROM's, if it is such a response. -/
def hbTap (k v j : Nat) : Int := if hbOk (Config.hbRom k v) v then Config.hbRom k v j else designed ((hbDesign v).take (hbDelay v + 1)) j

/-! ### Channel filters (R42) -/

/-- Group delay of a channel filter in samples at its rate. -/
def cfDelay (c : Nat) : Nat := atD [0, 16, 16, 24, 24, 32, 32, 32, 48, 48, 48, 64, 64, 64, 64, 64] c 0
/-- Passband width and stopband edge of a channel filter in hundredths of its rate, and the attenuation. -/
def cfSpec (c : Nat) : Nat × Nat × Nat :=
  atD [(100, 100, 0), (40, 62, 60), (50, 72, 60), (50, 68, 70), (60, 78, 70), (60, 75, 75), (70, 85, 75), (78, 93, 75), (70, 81, 80), (78, 89, 80),
    (81, 92, 80), (78, 87, 85), (81, 90, 85), (84, 93, 85), (40, 49, 85), (60, 69, 85)] c (0, 0, 0)
/-- The ripple of a channel filter. -/
def cfRipple (c : Nat) : Db := if c ≤ 2 then roundEven dB1 50 else if c ≤ 7 then roundEven dB1 100 else roundEven dB1 200
/-- A channel filter response meets the table of R42. -/
def cfOk (r : Nat → Int) (c : Nat) : Bool :=
  let p := cfSpec c
  lowPassOk (fromCentre r (cfDelay c)) (p.1 * 512 / 100) ((p.2.1 * 512 + 99) / 100) (cfRipple c) p.2.2
/-- The coefficients from the centre outward of a channel filter that meets its row, in 2^-28. -/
def cfDesign (c : Nat) : List Int :=
  match c with
  | 1 =>
    [136963770, 84618375, -2645510, -26080000, 2362189, 13337842, -1946148, -7436125, 1466988, 4084653, -996779, -2090504, 593865, 938822, -301824,
     -363767, 92401]
  | 2 =>
    [163499588, 79740883, -26062074, -13538331, 18038228, -1910896, -8967712, 5613677, 2256871, -4265057, 855213, 1828702, -1267565, -295436, 669714,
     -163824, -165394]
  | 3 =>
    [157897000, 81761117, -22023100, -18317847, 17589203, 2766506, -11740891, 3391817, 6080115, -4905128, -1820560, 4008208, -572585, -2315017,
     1351494, 851295, -1162106, -19814, 656074, -242847, -240326, 199767, 35840, -95771, 771]
  | 4 =>
    [184715962, 70597767, -38747401, 5464598, 13826782, -14795213, 4658781, 5181682, -7689749, 3549451, 1867729, -4024286, 2388535, 475384, -1939772,
     1394992, -18652, -809031, 680516, -105170, -275209, 262472, -65461, -63176, 69773]
  | 5 =>
    [180439005, 73012857, -37238823, 1437530, 16832466, -14289767, 1310975, 8335598, -8046228, 1121628, 4741598, -4936893, 896755, 2769158, -3050230,
     665797, 1587136, -1827845, 454644, 868885, -1034548, 281252, 444185, -538303, 153909, 206979, -247650, 71901, 85838, -92347, 28775, 32603,
     -24468]
  | 6 =>
    [207138667, 55992294, -41785506, 23119767, -5446628, -6794388, 11633042, -9908715, 4472318, 1274219, -4794469, 5201915, -3194543, 336525,
     1859207, -2595086, 1958134, -637914, -561341, 1129785, -1006322, 472981, 86040, -402430, 416368, -235162, 21342, 109138, -128538, 77285, -15027,
     -19654, 31174]
  | 7 =>
    [228873536, 38045960, -33726414, 27244125, -19529964, 11631133, -4524230, -1045811, 4669305, -6301338, 6218097, -4916981, 2988193, -988492,
     -656449, 1704895, -2103440, 1951023, -1438376, 781903, -167950, -281439, 518804, -560664, 464323, -301241, 134619, -6051, -67884, 91230, -80031,
     53257, -30221]
  | 8 =>
    [202185499, 59712480, -42439425, 20438326, -835731, -11008699, 13410694, -8511327, 769476, 5333108, -7224586, 4974360, -669278, -3040979,
     4380003, -3159275, 548302, 1804550, -2724906, 2029611, -421127, -1064096, 1672757, -1274970, 301138, 607984, -989360, 765565, -198386, -330443,
     552728, -430371, 118438, 167893, -285403, 220916, -62330, -78089, 132152, -99712, 27425, 32212, -52067, 36827, -8922, -11004, 15718, -11507,
     -3633]
  | 9 =>
    [223658540, 42686560, -36779734, 28070831, -18008358, 8173151, 37853, -5669938, 8355752, -8322130, 6268251, -3154862, -37742, 2523215, -3847629,
     3930058, -3009310, 1523773, 35870, -1259735, 1906833, -1933273, 1464072, -726371, -31123, 608295, -896437, 887480, -653951, 311228, 23681,
     -264517, 372094, -353525, 248542, -109878, -15110, 96501, -125538, 111068, -71708, 27297, 7497, -26022, 29073, -22109, 11862, -3738, -7586]
  | 10 =>
    [231694140, 35563750, -32174607, 26982624, -20599791, 13750088, -7164527, 1479946, 2842093, -5564339, 6684827, -6410820, 5103076, -3202301,
     1151781, 670460, -1999680, 2706924, -2795511, 2375785, -1625699, 746445, 78118, -711457, 1080068, -1174449, 1037843, -747113, 391091, -50891,
     -213995, 372482, -421476, 379899, -279652, 155992, -39472, -49123, 100517, -115788, 103257, -74603, 41307, -12155, -7943, 17863, -19293, 15363,
     -12433]
  | 11 =>
    [220867669, 45104422, -38181464, 28092766, -16663705, 5843353, 2714008, -7976457, 9696672, -8380022, 5080657, -1090031, -2395187, 4540953,
     -5019054, 4003857, -2041519, -157637, 1938397, -2871211, 2834641, -1999798, 735421, 528044, -1430742, 1774905, -1555429, 930032, -146985,
     -541840, 954807, -1021590, 784669, -367297, -76911, 414615, -568399, 529329, -346738, 102422, 119993, -260408, 295425, -237825, 125106, -2846,
     -90847, 135238, -129320, 87491, -31431, -18379, 48718, -55899, 44421, -23323, 2036, 12773, -18576, 16578, -10172, 3091, 1995, -4066, 6072]
  | 12 =>
    [228925894, 38079519, -33981190, 27758438, -20218386, 12301618, -4934866, -1107668, 5310638, -7474652, 7717043, -6419925, 4138582, -1489678,
     -958991, 2777523, -3727734, 3775789, -3065977, 1865277, -492781, -750492, 1637882, -2050353, 1983345, -1529617, 845029, -106729, -526518,
     943973, -1097883, 1002905, -722535, 347504, 27964, -326593, 501355, -539948, 461002, -304307, 118223, 52361, -175084, 234546, -232211, 182526,
     -106949, 27688, 37413, -77880, 91237, -81656, 57387, -27838, 1089, 17661, -26549, 26584, -20594, 12006, -3804, -2101, 5033, -5338, 6212]
  | 13 =>
    [236974414, 30725202, -28582683, 25221347, -20931358, 16073774, -11042161, 6221872, -1951861, -1506627, 3991093, -5446616, 5922121, -5555332,
     4548989, -3141814, 1578179, -80224, -1174355, 2066722, -2542482, 2608745, -2323945, 1782619, -1097694, 382906, 262336, -763964, 1079224,
     -1197505, 1136631, -935812, 646726, -324261, 18309, 232390, -403787, 487349, -488499, 423285, -314098, 185199, -58839, -47673, 123498, -164615,
     172993, -155021, 119591, -76174, 33211, 2974, -28673, 42771, -46294, 41698, -32097, 20561, -9612, 923, 4740, -7396, 7618, -6250, 6245]
  | 14 =>
    [118861139, 83985510, 14968309, -24222390, -13845074, 10377781, 12105731, -3573677, -9929385, -412217, 7530423, 2722209, -5129600, -3846543,
     2926048, 4098164, -1074392, -3736293, -329759, 2995120, 1254413, -2081928, -1726196, 1166818, 1817597, -373549, -1629437, -224299, 1272059,
     600681, -848406, -768741, 441437, 768709, -107169, -654546, -126567, 481682, 256590, -297621, -297732, 136359, 274897, -16654, -215601, -56480,
     144197, 88214, -78421, -89513, 28280, 72994, 3179, -49817, -17940, 27915, 20688, -11549, -16735, 1828, 10570, 2183, -5674, -4394, 94]
  | _ =>
    [172539077, 76918847, -33252719, -6307370, 20502598, -10371595, -5985656, 11624139, -4322274, -5481036, 7530964, -1503247, -4836533, 4984783,
     29634, -4104466, 3205953, 864796, -3340085, 1919594, 1261969, -2595304, 999420, 1371290, -1913407, 369153, 1296575, -1325437, -30221, 1115955,
     -848621, -251264, 888703, -486808, -342367, 657708, -232554, -346827, 450969, -70367, -301118, 283503, 19665, -233542, 159863, 58388, -163833,
     77129, 64834, -103749, 27921, 54402, -58437, 3106, 38077, -28298, -6136, 22555, -10888, -7013, 10961, -2599, -4734, 5253, 2616]
/-- Tap `j` of a channel filter: the ROM's, if it is such a response. -/
def cfTap (c j : Nat) : Int := if cfOk (Config.cfRom c) c then Config.cfRom c j else designed (cfDesign c) j

/-! ### Emission masks (R284) -/

/-- Group delay of an emission mask in half symbols: the mask works at twice the symbol rate, as a property above the Nyquist frequency needs (assumption 71). -/
def maskDelay (m : Nat) : Nat := if m = 1 then 16 else 32
/-- An emission mask passes the lowest frequencies and attenuates as its row says: from 1.2 and 1.1 times Nyquist, 0.3 and 0.275 of its rate. -/
def maskOk (r : Nat → Int) (m : Nat) : Bool :=
  lowPassOk (fromCentre r (maskDelay m)) 0 (if m = 1 then 308 else 282) (roundEven dB1 10) (if m = 1 then 25 else 40)
/-- The coefficients from the centre outward of an emission mask that meets its row, in 2^-28. -/
def maskDesign (m : Nat) : List Int :=
  match m with
  | 1 =>
    [134407155, 84739138, -184073, -26418953, 169085, 13830469, -146400, -7994288, 118696, 4618926, -89698, -2530125, 61891, 1247919, -38785,
     -565800, 25226]
  | _ =>
    [126278557, 84801463, 7793200, -26592298, -7369509, 14077888, 6708634, -8263352, -5871764, 4852520, 4932111, -2680020, -3965432, 1283233,
     3040601, -420534, -2212305, -65171, 1516519, 291364, -969192, -350680, 568148, 315313, -297132, -238361, 131191, 155173, -42359, -85409, 3838,
     41872, 12461]
/-- Tap `j` of an emission mask: the ROM's, if it is such a low-pass. -/
def maskTap (m mode j : Nat) : Int :=
  if maskOk (Config.txMaskRom m mode) m then Config.txMaskRom m mode j else designed (maskDesign m) j

end Sys2Proof.Machine
end

