-- ==== Sys2Proof/Machine/Rates.lean ====
section
/-! DEFINITION. Band rates, ladder paths, delays and the counts of invalid samples (R32, R36, R40 to R51, R60, R69, R95); the levels and limits that bound a band path (R65, R84, R86, R97, R112, R136). -/

namespace Sys2Proof.Machine

/-- The sample period of a stream, as a fraction `num / den` of a sample at 614.4 Msps. -/
structure Rate where
  num : Nat
  den : Nat
  deriving DecidableEq, Repr

/-- Quotient rounded up. -/
def ceilDiv (a b : Nat) : Nat := (a + b - 1) / b

/-- The band rate is at most 614.4 · `d` / `n` Msps. -/
def Rate.atMost (r : Rate) (n d : Nat) : Bool := n * r.den ≤ d * r.num
/-- ceil(time × rate) for a time in ns. -/
def Rate.ofNs (r : Rate) (ns : Nat) : Nat := ceilDiv (ns * 6144 * r.den) (10000 * r.num)
/-- A time field as a sample count, never fewer than 4 (R95). -/
def Rate.count (r : Rate) (ns : Nat) : Nat := Nat.max 4 (r.ofNs ns)

/-- The variant field of stage `k` in BP_PATH. -/
def hbFld (n k : Nat) : Fld :=
  match k with
  | 1 => F.bpPathHb1 n
  | 2 => F.bpPathHb2 n
  | 3 => F.bpPathHb3 n
  | 4 => F.bpPathHb4 n
  | 5 => F.bpPathHb5 n
  | _ => F.bpPathHb6 n

namespace State

/-- 1 on a chain whose ingress lane runs at half rate (R36). -/
def rxHalf (s : State) (c : Nat) : Nat := s.rd (F.chJrxCfgHalfRate c)
/-- The half-band stages start at HB2 on a half-rate chain: 1 there, else 0. -/
def halfOf (s : State) (n : Nat) : Nat := match s.chSource n with | some c => s.rxHalf c | none => 0

/-- MODE of BP_PATH: 0 RESAMPLER, 1 PRESET, 2 FALLBACK, 3 Guvan source. -/
def pathMode (s : State) (n : Nat) : Nat :=
  if (s.gvSource n).isSome then 3
  else if s.planN n plMode = 1 then 1
  else if (s.bp n).flow.fallback then 2 else 0

/-- The plan's final stage is the resampler (R31). -/
def wantsResampler (s : State) (n : Nat) : Bool := (s.gvSource n).isNone && s.planN n plMode == 0

/-- The lowest ladder point of a preset's output rates (R49). -/
def presetMax (p : Nat) : Nat := atD [4, 5, 6] p 6

/-- The ladder point of the fallback preset: the lowest rate of its set not below the planned band rate (R50). -/
def fallbackLadder (s : State) (n : Nat) : Nat :=
  let planned := 2 ^ (s.planN n plStages + s.halfOf n) * s.planN n plStep
  (List.range (presetMax (s.planN n plPreset) + 1)).foldl
    (fun m l => if 1 ≤ l ∧ 2 ^ l * 2 ^ 32 ≤ planned then l else m) 1

/-- The ladder output rate in use is 614.4 / 2^`ladder` Msps. -/
def ladder (s : State) (n : Nat) : Nat :=
  match s.pathMode n with
  | 0 => s.planN n plStages + s.halfOf n
  | 1 => s.planN n plPresetRate + s.halfOf n
  | 2 => s.fallbackLadder n
  | _ => 0

/-- The half-band variant in use at stage `k`. -/
def hbInUse (s : State) (n k : Nat) : Nat :=
  if s.pathMode n = 0 then s.rd (hbFld n k) else s.planN n plPreset + 1
/-- The channel filter in use. -/
def cfInUse (s : State) (n : Nat) : Nat :=
  if s.pathMode n = 0 then s.rd (F.bpPathCf n) else atD [2, 5, 11] (s.planN n plPreset) 0

/-- The period a STEP gives at a ladder point. -/
def stepRate (l stp : Nat) : Rate := ⟨stp * 2 ^ l, 2 ^ 32⟩

/-- The period of the samples of a band path (R32). -/
def rate (s : State) (n : Nat) : Rate :=
  match s.pathMode n with
  | 0 => stepRate (s.ladder n) (s.rd (F.bpRsmpStepStep n))
  | 3 => match assoc s.img.gvPeriod n with | some p => ⟨p.1, p.2⟩ | none => ⟨1, 1⟩
  | _ => ⟨2 ^ s.ladder n, 1⟩

/-- The rates at which tap-units and delay words are costed: the planned band rate, and the fallback's, which may be the higher (R48). -/
def costRates (s : State) (n : Nat) : List Rate :=
  if s.wantsResampler n then [stepRate (s.planN n plStages + s.halfOf n) (s.planN n plStep), ⟨2 ^ s.fallbackLadder n, 1⟩]
  else [s.rate n]

/-! ### Delays and clear counts (R60) -/

/-- Group delay, in samples of 614.4 Msps, of the ladder stages after stage `k`. -/
def ladderDelay (s : State) (n k : Nat) : Nat :=
  ((List.range 7).filter (fun j => k < j && s.halfOf n < j && j ≤ s.ladder n)).foldl
    (fun t j => t + hbDelay (s.hbInUse n j) * 2 ^ (j - 1)) 0
/-- Group delay of the channel filter in use. -/
def filterDelay (s : State) (n : Nat) : Nat := cfDelay (s.cfInUse n) * 2 ^ s.ladder n
/-- Group delay of the resampler: 8 of its input samples (R44); none on a preset. -/
def rsmpDelay (s : State) (n : Nat) : Nat := if s.pathMode n = 0 then 8 * 2 ^ s.ladder n else 0
/-- The delay from the chain input to the stage 4 output. -/
def pathDelay (s : State) (n : Nat) : Nat := s.ladderDelay n 0 + s.filterDelay n + s.rsmpDelay n

/-- N of R60: a settling and delays in samples of 614.4 Msps, and whole band samples. -/
def clearCount (s : State) (n full band : Nat) : Nat :=
  let r := s.rate n
  ceilDiv (full * r.den) r.num + band

/-- A band path start, a regained lane or a FREQ write; 4 samples for a Guvan source. -/
def clearStart (s : State) (n : Nat) : Nat :=
  if (s.gvSource n).isSome then 4 else s.clearCount n (s.pathDelay n) 4
/-- A half-band switch at stage `k` between two variants. -/
def clearHb (s : State) (n k a b : Nat) : Nat :=
  s.clearCount n (2 * Nat.max (hbDelay a) (hbDelay b) * 2 ^ (k - 1) + s.ladderDelay n k + s.filterDelay n + s.rsmpDelay n) 4
/-- A channel filter switch. -/
def clearCf (s : State) (n a b : Nat) : Nat :=
  s.clearCount n (2 * Nat.max (cfDelay a) (cfDelay b) * 2 ^ s.ladder n + s.rsmpDelay n) 4
/-- A STEP write. -/
def clearStep (s : State) (n : Nat) : Nat := s.clearCount n (16 * 2 ^ s.ladder n) 4
/-- A preset switch, or a move between preset and resampler, judged on the new path. -/
def clearMove (s : State) (n : Nat) : Nat := s.clearCount n (2 * s.pathDelay n) 4
/-- DC_FREEZE cleared. -/
def clearDc (s : State) (n : Nat) : Nat := 2 ^ s.planN n plDcK + 3

/-- Apply a change's N: the larger of it and what remains (R61). -/
def clearMore (s : State) (n k : Nat) : State :=
  let b := s.bp n
  s.setBp n { b with flow := { b.flow with clearLeft := Nat.max b.flow.clearLeft k } }

/-! ### The canceller's size (R23, R24, R69) -/

/-- The band path has a canceller at a rate: TAPS above 0 and at most 245.76 Msps. -/
def cancellerAt (s : State) (n : Nat) (r : Rate) : Bool := 0 < s.planN n plTaps && r.atMost 5 2
/-- The band path has a canceller at its present rate. -/
def canceller (s : State) (n : Nat) : Bool := s.cancellerAt n (s.rate n)
/-- d_b at the present rate (R69), within the delay-pool words granted (R76): a rate above the costed one has no more of them. -/
def bulk (s : State) (n : Nat) : Nat :=
  let d := (s.rate n).ofNs (s.planN n plDelay)
  let w := (s.bp n).flow.delayWords
  if w = 0 then d else Nat.min d w
/-- Tap-units of a band path at a rate (R23). -/
def tapsAt (s : State) (n : Nat) (r : Rate) : Nat :=
  if s.cancellerAt n r then s.planN n plTaps * (if r.atMost 5 1 then 1 else 2) else 0
/-- Delay-pool words of a band path at a rate (R24). -/
def wordsAt (s : State) (n : Nat) (r : Rate) : Nat := if s.cancellerAt n r then r.ofNs (s.planN n plDelay) else 0
/-- Tap-units asked for (R23, R48): enough for the canceller at each rate the band path is costed at. -/
def tapCost (s : State) (n : Nat) : Nat := ((s.costRates n).map (s.tapsAt n)).foldl Nat.max 0
/-- Delay-pool words asked for (R24, R48). -/
def delayCost (s : State) (n : Nat) : Nat := ((s.costRates n).map (s.wordsAt n)).foldl Nat.max 0
/-- Credits asked for (R352). -/
def creditCost (s : State) (n : Nat) : Nat := 2 + ceilDiv (s.tapCost n) 64

/-! ### Levels (R65, R84, R86, R112) -/

/-- FIG_IN. -/
def figIn (s : State) (n : Nat) : Db := fieldDb 16 8 (s.planN n plFigIn)
/-- FIG_OUT. -/
def figOut (s : State) (n : Nat) : Db := fieldDb 16 8 (s.planN n plFigOut)
/-- G_chain. -/
def gChain (s : State) (n : Nat) : Db := s.figIn n + s.figOut n

/-- The limits entry that governs a band path. -/
def limIdx (s : State) (n : Nat) : Nat := s.planN n plLimId
/-- The word of an entry that holds an item of PROT_LIM_SEL. -/
def limItemWord (item : Nat) : Nat := atD [0, 1, 2, 3, 5, 4] item 15
/-- The value of an item in force (R136). -/
def limVal (s : State) (e item : Nat) : Db :=
  match Tbl.get (fun _ => none) s.limits (8 * e + item) with
  | some v => v
  | none => (s.limEntry e (limItemWord item)).toInt
/-- The latest accepted value of an item, pending or in force. -/
def limLatest (s : State) (e item : Nat) : Db :=
  s.limPend.foldl (fun v p => if p.entry = e ∧ p.item = item then p.value else v) (s.limVal e item)
/-- P_OUT_MAX in force. -/
def limPower (s : State) (n : Nat) : Db := s.limVal (s.limIdx n) 0
/-- GAIN_LIM in force. -/
def limGain (s : State) (n : Nat) : Db := s.limVal (s.limIdx n) 1
/-- NOISE_LIM in force. -/
def limNoise (s : State) (n : Nat) : Db := s.limVal (s.limIdx n) 2
/-- DUTY_MAX in force. -/
def limDuty (s : State) (n : Nat) : Db := s.limVal (s.limIdx n) 3
/-- FLOOR_MIN in force. -/
def limFloor (s : State) (n : Nat) : Db := s.limVal (s.limIdx n) 4
/-- DUTY_WIN, in seconds of 2^-24. -/
def limDutyWin (s : State) (n : Nat) : Db := s.limVal (s.limIdx n) 5
/-- The privileged flag (R138). -/
def privileged (s : State) (n : Nat) : Bool := (s.limEntry (s.limIdx n) 6).getLsbD 39

/-- C_max: the lowest of GAIN_MAX, the limits' maximum gain and the top of the gain range (R86). -/
def cMax (s : State) (n : Nat) : Db :=
  Min.min (Min.min (s.planDb n plGainMax) (s.limGain n)) (40 * dB1 + s.gChain n)
/-- The bottom of the band gain range. -/
def gBottom (s : State) (n : Nat) : Db := -30 * dB1 + s.gChain n
/-- F with a FLOOR value, u7.4 (R84). -/
def floorEff (s : State) (n : Nat) (fl : BitVec 11) : Db :=
  Max.max (Max.max ((fl.toNat : Int) * 2 ^ 20) (s.limFloor n)) (10 * dB1)
/-- N_MAX (R130). -/
def nMax (s : State) (n : Nat) : Db :=
  if s.planHas n plNoiseMax then Min.min (s.planDb n plNoiseMax) (s.limNoise n) else s.limNoise n

end State

/-- The measured floor of R111: the 32nd smallest of 64 block values, once 64 are held. -/
def BpFloor.measured (f : BpFloor) : Option Db :=
  if f.blocks.length < 64 then none
  else
    let sorted := f.blocks.foldl (fun (l : List Nat) x => l.takeWhile (fun y => decide (y ≤ x)) ++ [x] ++ l.dropWhile (fun y => decide (y ≤ x))) []
    some (powerDb (atD sorted 31 0) (1024 * 2 ^ 38))

/-- F_idle and FLOOR_SRC (R112). -/
def Bp.idle (b : Bp) : Db × Nat :=
  match b.floor.measured with
  | some v => (v, 1)
  | none => match b.floor.held with
    | some v => (v, 2)
    | none => (b.gain.enablePwr, 0)

/-- The applied digital gain of a step (R96). -/
def stepDb (k : Nat) : Db := -30 * dB1 + roundEven ((k : Int) * dB1) 20

namespace State

/-- The applied band gain. -/
def bandGain (s : State) (n : Nat) : Db := stepDb (s.bp n).gain.step + s.gChain n

/-- FLOOR_DBM (R113). NBW is s16.24 MHz. -/
def floorDbm (s : State) (n : Nat) : Db :=
  (s.bp n).idle.1 - s.figIn n - ratioDb (Nat.max 1 (s.planN n plNbw)) (2 ^ 24)

/-- A range of kHz about a carrier lies within one permitted range of the limits entry (R134). `centre` is in kHz, the offset `word` × `khz` / 2^32, OBW in 2^-24 MHz. -/
def inRange (s : State) (e centre : Nat) (word : Int) (khz obw : Nat) : Bool :=
  let mid : Int := (centre : Int) * 2 ^ 33 + 2 * word * khz
  let half : Int := (obw : Int) * 256000
  let w6 := s.limEntry e 6
  (List.range 4).any (fun r =>
    w6.getLsbD r
      && decide (((bitsOf (s.limEntry e (7 + 2 * r)) 31 0 : Nat) : Int) * 2 ^ 33 ≤ mid - half)
      && decide (mid + half ≤ ((bitsOf (s.limEntry e (8 + 2 * r)) 31 0 : Nat) : Int) * 2 ^ 33))

/-- The ingress selection of a FREQ lies in the permitted ranges (R134). -/
def freqOk (s : State) (n f : Nat) : Bool :=
  match s.chSource n with
  | none => true
  | some c => s.inRange (s.limIdx n) (s.rfCentre c) (sx 32 f) (614400 / 2 ^ s.rxHalf c) (s.planN n plObw)

/-- Destination `k` of a band path: enabled, Guvan, chain or port. -/
def dest (s : State) (n k : Nat) : Bool × Bool × Nat :=
  let w := bitsOf (s.plan n (plDest + k)) 9 0
  (decide (512 ≤ w), w / 256 % 2 == 1, w / 16 % 16)

/-- Every enabled JTX destination and the ingress selection lie in the permitted ranges (R134). -/
def rangesOk (s : State) (n : Nat) : Bool :=
  (List.range 4).all (fun k =>
    let d := s.dest n k
    !d.1 || d.2.1 ||
      s.inRange (s.limIdx n) (s.rfCentre d.2.2) (sx 32 (s.planN n (plEfreq + k)))
        (614400 / 2 ^ s.rd (F.chJtxCfgHalfRate d.2.2)) (s.planN n plObw))
    && s.freqOk n (s.rd (F.bpNcoFreq n))

end State

end Sys2Proof.Machine
end

