-- ==== Sys2Proof/Machine/Header.lean ====
section
/-! DEFINITION. The image header, its directory and the checks of an image (R414 to R419). -/

namespace Sys2Proof.Machine

/-- Bytes `i` to `i + k - 1` of an image as a number. -/
def hNat (b : List Byte) (i k : Nat) : Nat := beNat ((b.drop i).take k)

/-- A directory entry (R414). -/
structure Sect where
  ty : Nat
  off : Nat
  len : Nat
  stamp : Nat
  /-- Its zero bytes are zero. -/
  zeros : Bool
  deriving DecidableEq, Repr

/-- IMAGE_LEN. -/
def imageLen (b : List Byte) : Nat := hNat b 8 4
/-- Directory entry `i`. -/
def sectAt (b : List Byte) (i : Nat) : Sect :=
  let o := 164 + 32 * i
  ⟨hNat b o 2, hNat b (o + 4) 4, hNat b (o + 8) 4, hNat b (o + 12) 8, hNat b (o + 2) 2 == 0 && hNat b (o + 20) 12 == 0⟩
/-- The directory; N_SECT beyond 122 names no directory. -/
def sects (b : List Byte) : List Sect := if hNat b 160 2 ≤ 122 then (List.range (hNat b 160 2)).map (sectAt b) else []

/-- No two entries share a byte, and no type stands twice. -/
def sectsApart : List Sect → Bool
  | [] => true
  | x :: t => t.all (fun y => x.ty != y.ty && (decide (x.off + x.len ≤ y.off) || decide (y.off + y.len ≤ x.off))) && sectsApart t

/-- A directory entry by itself is well formed. -/
def sectOk (len : Nat) (x : Sect) : Bool :=
  decide (1 ≤ x.ty) && decide (x.ty ≤ 15) && x.zeros && x.off % 4096 == 0 && x.len % 5 == 0 && decide (x.off + x.len ≤ len)

/-- The sections an image must have (R415). -/
def requiredSects : List Nat := [1, 2, 3, 4, 7, 8, 9, 11, 12]

/-- Check 2: MAGIC, FORMAT, HDR_LEN, N_SECT and the directory. -/
def formatOk (b : List Byte) : Bool :=
  let l := sects b
  hNat b 0 4 == 0x4F4B4131 && hNat b 4 2 == 1 && hNat b 6 2 == 4096 && decide (1 ≤ hNat b 160 2) && decide (hNat b 160 2 ≤ 122) &&
    l.all (sectOk (imageLen b)) && sectsApart l && requiredSects.all (fun k => l.any (fun x => x.ty == k))

/-- IDREV is among IDREV0 to IDREV(N_IDREV − 1). -/
def idrevListed (b : List Byte) (idrev : Word) : Bool :=
  (List.range (Nat.min 8 (hNat b 20 1))).any (fun k => hNat b (24 + 5 * k) 5 == idrev.toNat)

/-- SIGNER_KEY. -/
def signerKey (b : List Byte) : List Byte := (b.drop 64).take 32

/-- Checks 1 to 6 of R419 on a header that was read: the order and the kind of the first failure. -/
def headerCheck (b : List Byte) (idrev : Word) (fu : Fuses) : Option (Nat × Nat) :=
  if 50331648 < imageLen b then some (1, 1)
  else if !formatOk b then some (2, 2)
  else if hNat b 4092 4 ≠ (crc32 (b.take 4092)).toNat then some (3, 3)
  else if !idrevListed b idrev then some (4, 4)
  else if (sects b).any (fun x => x.stamp != hNat b 12 8) then some (5, 5)
  else if fu.keyFused && Config.sha256 (signerKey b) != fu.keyHash then some (6, 6)
  else none

/-- The bytes of a section. -/
def sectBytes (b : List Byte) (ty : Nat) : List Byte :=
  match (sects b).find? (fun x => x.ty == ty) with
  | some x => (b.drop x.off).take x.len
  | none => []

/-- The words of a section: 5 bytes each. -/
def bytesWords : Nat → List Byte → List Word
  | 0, _ => []
  | k + 1, b => BitVec.ofNat 40 (hNat b 0 5) :: bytesWords k (b.drop 5)
/-- The words of a section of an image. -/
def sectWords (b : List Byte) (ty : Nat) : List Word := let l := sectBytes b ty; bytesWords (l.length / 5) l

/-- What the image hash is taken of: bytes 0 to IMAGE_LEN − 1 with those of SIGNATURE as zero (R416). -/
def signedForm (b : List Byte) : List Byte := (b.take 96 ++ List.replicate 64 0 ++ b.drop 160).take (imageLen b)

/-- The image signature of R416. -/
def imageSigned (b : List Byte) : Bool :=
  Config.ed25519 (signerKey b) (Config.sha256 (signedForm b)) ((b.drop 96).take 64)

/-- The limits hash of a LIMITS section: the SHA-256 of its 5 × (17 + 16N) bytes (R418). -/
def limHash (lim : List Byte) : List Byte := Config.sha256 (lim.take (5 * (17 + 16 * hNat lim 2 1)))

/-- The bytes of an image in a flash: those not written read as erased, and none beyond IMAGE_LEN counts. -/
def imageBytes (b : List Byte) : List Byte :=
  let n := Nat.min 50331648 (imageLen b)
  b.take n ++ List.replicate (n - b.length) 255

/-- Checks 7 to 9 of R419 on the bytes of an image whose header has passed: its signature, its firmware, its limits. -/
def bodyCheck (b : List Byte) (idrev : Word) (fu : Fuses) : Option (Nat × Nat) :=
  let fw := sectBytes b 1
  let body := fw.take (fw.length - 64)
  let lim := sectBytes b 8
  if !imageSigned b then some (7, 6)
  else if !Config.ed25519 Config.fwKey (Config.sha256 body) (fw.drop (fw.length - 64)) ∨
      hNat fw 0 5 % 2 ^ 32 ≠ hNat b 12 4 ∨ !(Config.fwTested fw).contains idrev then some (8, 5)
  else if fu.limFused && (limHash lim != fu.limHash || hNat lim 0 2 != fu.limRegion.toNat) then some (9, 7)
  else none

/-- Every check of R419 on the bytes a flash holds from the image start. -/
def bytesCheck (b : List Byte) (idrev : Word) (fu : Fuses) : Option (Nat × Nat) :=
  let b := imageBytes b
  match headerCheck (b.take 4096) idrev fu with
  | some r => some r
  | none => bodyCheck b idrev fu

/-! ### The QSPI sampling point (R467) -/

/-- The longest run of delays that deliver `want`, as its first delay and its length, the first of equal ones; `i` is the delay at the head of the list and `n` the length of the run that ends before it. -/
def longestRun (want : List Byte) : List (List Byte) → Nat → Nat → Nat × Nat → Nat × Nat
  | [], _, _, best => best
  | r :: t, i, n, best =>
    let n := if r = want then n + 1 else 0
    longestRun want t (i + 1) n (if best.2 < n then (i + 1 - n, n) else best)

/-- The sampling delay: the middle of the run of the 16 delays that return the bytes of the single-mode read; none where no delay does. R467 speaks of one run: of several the longest is taken, and of a middle pair the lower (DESIGN CHOICE, assumption 75). -/
def samplingPoint (want : List Byte) (delays : List (List Byte)) : Option Nat :=
  let r := longestRun want (delays.take 16) 0 0 (0, 0)
  if r.2 = 0 then none else some (r.1 + (r.2 - 1) / 2)

end Sys2Proof.Machine

namespace Sys2Proof

/-- BUILD_STAMP of an image (R414). -/
def Image.stamp (g : Image) : BitVec 64 := BitVec.ofNat 64 (Machine.hNat g.bytes 12 8)
/-- The image hash (R416). -/
def Image.digest (g : Image) : List Byte := Config.sha256 (Machine.signedForm g.bytes)
/-- The hash of the signer's key, as KEY_BURN burns it (R427). -/
def Image.signerHash (g : Image) : List Byte := Config.sha256 (Machine.signerKey g.bytes)

end Sys2Proof
end

