-- ==== Sys2Proof/Machine/Slots.lean ====
section
/-! DEFINITION. The flashes: the slot record as a log of entries in two sectors (R413), and the programming and erasing that the management core does (R390, R412). -/

namespace Sys2Proof.Machine

/-! ### The slot record (R413) -/

/-- An entry of the slot record's log. -/
def slotEntry (st : BitVec 3) (tries : Nat) (gen : BitVec 16) : List Byte :=
  let b := beBytes 2 0x534C ++ beBytes 1 st.toNat ++ beBytes 1 tries ++ beBytes 2 gen.toNat ++ List.replicate 6 0
  b ++ beBytes 4 (crc32 b).toNat

/-- The record of an entry with a correct CRC. -/
def goodEntry (e : List Byte) : Option SlotRec :=
  if e.length = 16 ∧ hNat e 0 2 = 0x534C ∧ hNat e 12 4 = (crc32 (e.take 12)).toNat then
    some ⟨true, true, BitVec.ofNat 3 (hNat e 2 1), hNat e 3 1, BitVec.ofNat 16 (hNat e 4 2)⟩
  else none

/-- The last good entry among the first `k` of a sector. -/
def lastEntry : Nat → List Byte → Option SlotRec
  | 0, _ => none
  | k + 1, b =>
    match lastEntry k (b.drop 16) with
    | some r => some r
    | none => goodEntry (b.take 16)

/-- A sector that is entirely erased. -/
def blankSector (b : List Byte) : Bool := b.all (· == 255)
/-- Bytes of a sector in use, in whole entries. -/
def sectorUsed (b : List Byte) : Nat := ((b.reverse.dropWhile (· == 255)).length + 15) / 16 * 16

/-- The sector that holds the newest entries is the second one: the first is erased, or full with entries in the second. -/
def newerSector (s0 s1 : List Byte) : Bool := blankSector s0 || (!blankSector s1 && decide (4096 ≤ sectorUsed s0))

/-- The record of two sectors: the newest entry with a correct CRC; no record where both are erased; unreadable where there is none. -/
def slotScan (s0 s1 : List Byte) : SlotRec :=
  if blankSector s0 && blankSector s1 then ⟨false, true, 0, 0, 0⟩
  else
    let b := newerSector s0 s1
    match lastEntry 256 (if b then s1 else s0) with
    | some r => r
    | none =>
      match lastEntry 256 (if b then s0 else s1) with
      | some r => r
      | none => ⟨true, false, 0, 0, 0⟩

/-- An entry is programmed behind the newest; where its sector is full it begins the other one, and the full sector is erased after it. -/
def slotLog (s0 s1 e : List Byte) : List Byte × List Byte :=
  let b := !(blankSector s0 && blankSector s1) && newerSector s0 s1
  let cur := if b then s1 else s0
  let n := sectorUsed cur
  if 4096 ≤ n then (if b then (e, []) else ([], e))
  else
    let cur' := cur.take n ++ List.replicate (n - cur.length) 255 ++ e
    if b then (s0, cur') else (cur', s1)

namespace State

/-! ### Programming and erasing (R390, R412) -/

/-- A flash, the primary or the alternate. -/
def flashOf (s : State) (alt : Bool) : Flash := if alt then s.flash1 else s.flash0
/-- Replace a flash. -/
def setFlash (s : State) (alt : Bool) (f : Flash) : State := if alt then { s with flash1 := f } else { s with flash0 := f }

/-- A program or erase operation has failed, and failed again: it is abandoned and reported (R390). -/
def flashErr (s : State) : State := s.report srcMgmt 4 1 (Config.msgContext srcMgmt 4 0)

/-- The management core programs or erases a flash: done, or abandoned where the flash fails. -/
def flashPut (s : State) (alt : Bool) (f : Flash → Flash) : State :=
  if (s.flashOf alt).fails then s.flashErr else s.setFlash alt (f (s.flashOf alt))

/-- A flash with a new entry of its slot record (R413). -/
def Flash.withSlot (f : Flash) (st : BitVec 3) (tries : Nat) (gen : BitVec 16) : Flash :=
  let p := slotLog f.sect0 f.sect1 (slotEntry st tries gen)
  { f with sect0 := p.1, sect1 := p.2, slot := ⟨true, true, st, tries, gen⟩ }

/-- The management core programs a new entry of a slot record. -/
def setSlot (s : State) (alt : Bool) (st : BitVec 3) (tries : Nat) (gen : BitVec 16) : State :=
  s.flashPut alt (fun f => Flash.withSlot f st tries gen)
/-- The boot ROM programs one; a failure of the flash has no message then (R390 gives the core's alone). -/
def romSlot (s : State) (alt : Bool) (st : BitVec 3) (tries : Nat) (gen : BitVec 16) : State :=
  if (s.flashOf alt).fails then s else s.setFlash alt (Flash.withSlot (s.flashOf alt) st tries gen)
/-- GEN of a record that is readable. -/
def readGen (r : SlotRec) : Option (BitVec 16) := if !r.present then some 0 else if r.readable then some r.gen else none

end State

end Sys2Proof.Machine
end

