-- ==== Sys2Proof/Machine/Protect.lean ====
section
/-! DEFINITION. The coefficient banks, the band path state machine and its mutes, the resampler pool and the credit governor (R26 to R30, R45 to R48, R70 to R74, R76, R79, R88, R126 to R143, R164 to R166, R348, R349, R352 to R354, R360). -/

namespace Sys2Proof.Machine

/-! ### Coefficient banks (R71, R72, R79) -/

namespace State

/-- Zero a bank of a band path. -/
def zeroBank (s : State) (n : Nat) (b : Bool) : State :=
  let inBank := fun (a : Nat) => decide (16384 * n ≤ a) && decide (a < 16384 * n + 16384)
  { s with mem := s.mem.setTbl (bankSel b) ((s.mem.tbl (bankSel b)).filter (fun p => !inBank p.1)),
           writeBacks := s.writeBacks.filter (fun x => !(x.mem == (bankSel b).num && inBank x.addr)) }

/-- Read the coefficients of a bank, a poisoned one as zero and marked. -/
def readBank (s : State) (n : Nat) (b : Bool) : List (Cplx × Bool) × State :=
  (List.range (s.planN n plTaps)).foldl (fun (acc : List (Cplx × Bool) × State) k =>
    let r := acc.2.memRead (bankSel b) (16384 * n + k) (srcBp n)
    (acc.1 ++ [(if r.1.poison then Cplx.zero else cOf r.1.word, r.1.poison)], r.2)) ([], s)

/-- The scan of a list of coefficients: energy, index of the largest (the first of equals) and spread over the four taps about it (R72, R79). -/
def scanOf (cs : List (Cplx × Bool)) : SwapScan :=
  let pw := cs.map (fun c => c.1.normSq)
  let all := pw.foldl (· + ·) 0
  let peak := (pw.foldl (fun (a : Nat × Nat × Nat) e =>
    if a.2.2 < e then (a.1 + 1, a.1, e) else (a.1 + 1, a.2.1, a.2.2)) (0, 0, 0)).2.1
  let win := ((pw.drop (peak - 1)).take (if peak = 0 then 3 else 4)).foldl (· + ·) 0
  ⟨all, peak, if all = 0 ∨ win = 0 then 0 else clampI 0 (20 * dB1) (ratioDb all win), cs.any (·.2)⟩

/-- Discard an armed swap with a result code and unlock the inactive bank (R74). -/
def dropSwap (s : State) (n result : Nat) : State :=
  let b := s.bp n
  s.setBp n { b with bw := { b.bw with armed := false, scan := none, swapResult := BitVec.ofNat 3 result } }

/-- Cancel an armed swap, if there is one. -/
def cancelSwap (s : State) (n : Nat) : State := if (s.bp n).bw.armed then s.dropSwap n 5 else s

/-- PEAK_LAG and S for the active bank: from it, or the commissioned ones without a canceller or with a zero bank (R79). -/
def lagSpread (s : State) (n : Nat) : (Nat × Db) × State :=
  let (cs, s) := if s.canceller n then s.readBank n (s.bp n).bw.bankB else ([], s)
  let sc := scanOf cs
  if sc.energy = 0 then ((s.planN n plLagInit, s.planDb n plSpreadInit), s)
  else ((s.bulk n + sc.kPeak, sc.spread), s)

/-! ### Parts of a band path that a change of state clears -/

/-- The gate goes to CLOSED, unfrozen, its timers cleared and its counters kept (R104). -/
def gateReset (s : State) (n : Nat) : State :=
  let b := s.bp n
  let g := b.gain
  s.setBp n { b with gain := { g with gate := .closed, frozen := false, run := 0, recent := [], verifyN := 0, capRun := 0, rsLeft := 0, rsSum := 0, rsN := 0 } }

/-- The floor history is cleared; the last measured floor is held (R112). -/
def clearFloor (s : State) (n : Nat) : State :=
  let b := s.bp n
  let held := match b.floor.measured with | some v => some v | none => b.floor.held
  s.setBp n { b with floor := { b.floor with blocks := [], whole := [], held := held, curSum := 0, curN := 0, curOk := true } }

/-- The probe measurement in progress is discarded (R81). -/
def dropProbe (s : State) (n : Nat) : State :=
  let b := s.bp n
  s.setBp n { b with bw := { b.bw with probe := none } }

/-- The mask capture in progress is discarded; a complete one stands (R118). -/
def dropCapture (s : State) (n : Nat) : State :=
  let b := s.bp n
  if b.mask.done then s
  else (s.setBp n { b with mask := { b.mask with captured := 0, block := 0 } }).setTap n { s.tap n with mOut := [], mTags := [] }

/-- The trip's sub-windows start again (R89). -/
def restartTrip (s : State) (n : Nat) : State :=
  let b := s.bp n
  s.setBp n { b with bw := { b.bw with trip := TripWin.init, tripN := 0, tripDone := [], tripHist := [] } }

/-! ### Coexistence demand (R165, R166) -/

/-- The coexistence port a band path is bound to: 0 none, 1 + k CXk. -/
def cxBound (s : State) (n : Nat) : Option Nat :=
  let w := s.planN n plCxBind
  if 1 ≤ w ∧ w ≤ 4 then some (w - 1) else none
/-- The band paths bound to a port. -/
def boundTo (s : State) (k : Nat) : List Nat := s.planned.filter (fun n => s.cxBound n == some k)
/-- STARTING, ACTIVE or BACKED_OFF. -/
def serving (s : State) (n : Nat) : Bool :=
  match (s.bp n).prot.st with
  | .starting | .active | .backedOff => true
  | _ => false
/-- A band path wants the band (R165): a tripped cause is one until its retry timer has run. -/
def wantsBand (s : State) (n : Nat) : Bool :=
  let p := (s.bp n).prot
  s.serving n || (p.st == .muted && p.held == ⟨false, true, false, false, false⟩ && p.retryAt.isNone)

/-- REQ and PRI of a requester port follow its bound band paths (R165); REQ falls later, by its timer, and PRI stands for PRI_FORCE alone until then. -/
def cxDemand (s : State) (k : Nat) : State :=
  if s.rd (F.cxCtrlRole k) = 1 then
    let c := s.cxPort k
    let ws := (s.boundTo k).filter s.wantsBand
    if ws = [] then
      if c.req then s.setCx k { c with relAt := some (c.relAt.getD (s.cyc + usCyc 10)), pri := s.rdB (F.cxCtrlPriForce k) } else s
    else
      let pri := ws.any s.privileged || s.rdB (F.cxCtrlPriForce k)
      if c.req then s.setCx k { c with relAt := none, pri := pri }
      else
        let s := s.setCx k { c with req := true, pri := pri, relAt := none, reqFrom := if c.gnt then none else some s.cyc, noted := false }
        s.inc (F.cxStatGrantCnt k) (F.cxStatGrOvf k)
  else s

/-- Re-evaluate the port a band path is bound to. -/
def cxOf (s : State) (n : Nat) : State := match s.cxBound n with | some k => s.cxDemand k | none => s

/-! ### States (R139 to R142) -/

/-- Any held cause is present. -/
def anyHeld (h : Held) : Bool := h.muteN || h.cx || h.donor || h.duty || h.therm

/-- Replace the state of a band path. -/
def setSt (s : State) (n : Nat) (st : BpSt) : State :=
  let b := s.bp n
  s.setBp n { b with prot := { b.prot with st := st } }

/-- No transition into STARTING, ACTIVE or BACKED_OFF is made in harbour mode, nor, in replay mode, outside the replay set (R140, R404). -/
def held4Service (s : State) (n : Nat) : Bool := (s.replayMode && !s.selected.contains n) || s.harbourOf

/-- A band path leaves STARTING, ACTIVE or BACKED_OFF: its gate closes, its probe measurement and mask capture are discarded. -/
def leaveService (s : State) (n : Nat) : State := ((s.gateReset n).dropProbe n).dropCapture n

/-- Time since the start in units of 0.1 ms, truncated (R447). -/
def bootTenths (s : State) : Nat := (s.boot.lockUs * 98304 + s.cyc * 100) / 9830400

/-- ACTIVE_T of BOOT_TIMES: the first entry of a band path to ACTIVE or BACKED_OFF in this start (R447). -/
def noteActive (s : State) : State := if s.rd F.bootTimesActiveT = 0 then s.wr F.bootTimesActiveT s.bootTenths else s

/-- STARTING, ACTIVE and BACKED_OFF follow RAMP_DONE and the ceiling (R140). -/
def settleSt (s : State) (n : Nat) : State :=
  if s.held4Service n then s
  else
    let b := s.bp n
    let top := decide (s.cMax n ≤ b.bw.ceiling)
    match b.prot.st with
    | .starting => if b.gain.rampDone then ((s.setSt n (if top then .active else .backedOff)).noteActive).cxOf n else s
    | .active => if top then s else s.setSt n .backedOff
    | .backedOff => if top then s.setSt n .active else s
    | _ => s

/-- Entry to STARTING, from OFF or from MUTED (R52, R71, R72, R88, R89, R101, R104, R112, R113, R118, R123). OPEN_SRC is cleared, and the first mask period is numbered 0 (DESIGN CHOICES, assumption 62). The NCO phase, the egress NCO phases and the resampler position go on from where they stood (DESIGN CHOICE, assumption 72: R38 gives them no start). -/
def enterStarting (s : State) (n : Nat) (fromOff : Bool) : State :=
  let s := s.cancelSwap n
  let s := (s.zeroBank n false).zeroBank n true
  let s := if s.planHas n plSeed then s.memWrites .bankA (16384 * n) ((s.planPool n plSeed).take (s.planN n plTaps)) else s
  let b := s.bp n
  let s := s.setBp n { b with bw := { b.bw with bankB := false, coefBad := [] } }
  let (ls, s) := s.lagSpread n
  let s := ((s.gateReset n).clearFloor n).restartTrip n
  let s := (s.dropProbe n)
  let b := s.bp n
  let init := s.planDb n plIsoInit
  let bw := { b.bw with isoP := init, isoSrc := 0, pSrc := 0, isoBw := init, fast := Fast.init, fastQual := false, peakLag := ls.1 }
  let bw := { bw with spread := ls.2, peakNext := none, holdOff := 0 }
  let bw := { bw with ceiling := Min.min (s.cMax n) (init - s.floorEff n bw.floorUse), ceilFifths := 0 }
  let gn := { b.gain with softStarted := false, ramp := none, rampN := 0, rampDone := false, g := -30 * dB1, step := 0, refOff := 0 }
  let gn := if fromOff then { gn with lastStep := 0 } else gn
  let gn := { gn with enablePwr := b.flow.meterIn.coarse, openSrc := 0 }
  let mk := { b.mask with period := 0, periodStart := s.setCyc, captured := 0, block := 0, done := false, judged := false }
  let fl := { b.flow with dc := Cplx.zero, seq := 0 }
  let fl := if fromOff then { fl with dsp := { fl.dsp with out := [] } } else fl
  let pr := { b.prot with st := .starting, tripped := false, serviceFrom := some s.setCyc }
  let pr := if fromOff then { pr with buckets := [], bucket := Bucket.zero, bucketFrom := s.setCyc, bucketN := 0, offReason := 0 } else pr
  let s := s.setBp n { b with bw := bw, gain := gn, mask := mk, prot := pr, flow := fl, floor := { b.floor with since := s.setCyc, begun := true } }
  let s := if fromOff then s.clearMore n (s.clearStart n) else s
  let t := s.tap n
  let s := s.setTap n { t with aSeq := 0, aRes := [], aTags := [], mOut := [], mTags := [] }
  s.cxOf n

/-- MUTED is left once no held cause is present and no retry timer runs (R140). -/
def release (s : State) (n : Nat) : State :=
  let p := (s.bp n).prot
  if p.st = .muted && !anyHeld p.held && p.retryAt.isNone && !s.held4Service n then
    if p.left = .starting ∨ p.mutedAt + 10 * msCyc < s.setCyc ∨ p.tripped then s.enterStarting n false
    else
      let b := s.bp n
      ((s.setBp n { b with prot := { b.prot with st := p.left, serviceFrom := some s.setCyc } }).settleSt n).cxOf n
  else s

/-- Set or clear a held cause (R127, R128). A new one mutes a band path in service, and its entry is counted; a cleared one may end the mute. -/
def setHeld (s : State) (n : Nat) (f : Held → Held) : State :=
  let b := s.bp n
  let h := f b.prot.held
  if h = b.prot.held then s
  else
    let serving := s.serving n
    let s := s.setBp n { b with prot := { b.prot with held := h } }
    if serving && anyHeld h then
      let b := s.bp n
      let p := { b.prot with left := b.prot.st, st := .muted, mutedAt := s.setCyc, tripped := false, retryAt := none }
      let p := { p with holdCnt := p.holdCnt.inc 39, serviceFrom := none }
      ((s.setBp n { b with prot := p }).leaveService n).cxOf n
    else (s.release n).cxOf n

/-- The eight newest entries of a mute history. -/
def noteMute (up : Nat) (h : List Nat) : List Nat := (up :: h).take 8

/-- A tripped cause (R127, R139, R140, R142): counted once in an evaluation interval, it mutes with a retry timer or locks the band path out. -/
def tripped (s : State) (n code : Nat) : State :=
  let b := s.bp n
  let p := b.prot
  let cause := BitVec.ofNat 4 code
  let counted := p.tripIv == some s.evalSeq && (p.st == .muted || p.st == .lockedOut)
  if counted then
    if code < p.cause.toNat then s.setBp n { b with prot := { p with cause := cause } } else s
  else match p.st with
  | .off | .lockedOut | .barred => s
  | st =>
    let locks := match p.history[6]? with | some u => decide (s.uptime ≤ u + 3600) | none => false
    let secs := 2 ^ Nat.min p.retryExp (if s.privileged n then 4 else 8)
    let p' := { p with history := noteMute s.uptime p.history, tripIv := some s.evalSeq, cause := cause, tripped := true }
    let p' := { p' with muteCnt := p.muteCnt.inc 39, lastMuteHi := s.nowHi, lastMuteLo := s.nowLo, serviceFrom := none }
    let p' := if st = .muted then p' else { p' with left := st, mutedAt := s.setCyc }
    let p' := if locks then { p' with st := .lockedOut, lockCnt := p.lockCnt.inc 39, retryAt := none }
      else { p' with st := .muted, retryAt := some (s.setCyc + secs * secCyc), retryExp := Nat.min (p.retryExp + 1) 8 }
    let s := s.setBp n { b with prot := p' }
    let s := (if st = .muted then s else s.leaveService n).cxOf n
    if locks then s.report (srcBp n) 14 1 (Config.msgContext (srcBp n) 14 0) else s

/-! ### The credit governor (R352 to R354, R360) -/

/-- The base reserve of a temperature band. -/
def baseOf (s : State) (tb : Nat) : Nat :=
  match tb with
  | 0 => s.rd F.govBase0BaseTb0
  | 1 => s.rd F.govBase0BaseTb1
  | 2 => s.rd F.govBase0BaseTb2
  | 3 => s.rd F.govBase0BaseTb3
  | _ => s.rd F.govBase1BaseTb4
/-- The VDD_CORE budget in force: the image's, clamped to 880 credits (R22). -/
def budget (s : State) : Nat := Nat.min 880 (s.rd F.govCfgBudget)
/-- HEADROOM. -/
def headroom (s : State) : Nat := s.baseOf 4 - s.thermal.base
/-- Credits in the ledger of a grantee. -/
def credits (s : State) (g : Nat) : Nat := Tbl.get (fun _ => 0) s.thermal.ledger g

/-- Context word of a thermal or governor fault (R358). -/
def thermCtx (s : State) (slot grantee : Nat) : Word :=
  BitVec.ofNat 40 (slot * 2 ^ 36 + s.thermal.tb.toNat * 2 ^ 33 + grantee * 2 ^ 24)

/-- A refused grant (R353): counted and reported; the band path stays in OFF, the port DISABLED, the quay gated. -/
def refuseGrant (s : State) (g : Nat) : State :=
  let s := s.inc F.govCntRefuseCnt F.govCntRfOvf
  let hint := if 1 ≤ g ∧ g ≤ 128 then 0 else 1
  let s := s.report srcTherm 7 hint (s.thermCtx 0 g)
  if 1 ≤ g ∧ g ≤ 128 then
    let n := g - 1
    let b := s.bp n
    (s.setBp n { b with prot := { b.prot with offReason := 2 } }).wr (F.bpProtEnable n) 0
  else if 145 ≤ g then s.wr (F.gvCtrlEnable (g - 145)) 0
  else s

/-- Serve the waiting requests while no transfer is in flight: lowest grantee first, each grant taken whole or refused (R26, R28, R353, R354). The fuel is the number of requests. -/
def govServe (s : State) : Nat → State
  | 0 => s
  | k + 1 =>
    match s.thermal.xfer with
    | some _ => s
    | none =>
      match s.thermal.waiting with
      | [] => s
      | x :: t =>
        let w := t.foldl (fun (m : GovXfer) y => if y.grantee.toNat < m.grantee.toNat then y else m) x
        let rest := s.thermal.waiting.erase w
        let s := { s with thermal := { s.thermal with waiting := rest } }
        let g := w.grantee.toNat
        if w.release then
          { s with thermal := { s.thermal with xfer := some w, lastGrantee := w.grantee, lastDir := true } }
        else if g ≠ 0 ∧ (s.thermal.booksBad ∨ s.thermal.free < w.amount + s.headroom) then (s.refuseGrant g).govServe k
        else
          { s with thermal := { s.thermal with free := s.thermal.free - w.amount, xfer := some w, lastGrantee := w.grantee, lastDir := false } }

/-- Ask the governor for a transfer. -/
def govAsk (s : State) (g amount : Nat) (rel : Bool) : State :=
  let w : GovXfer := ⟨BitVec.ofNat 8 g, amount, rel⟩
  let s := { s with thermal := { s.thermal with waiting := s.thermal.waiting ++ [w] } }
  s.govServe s.thermal.waiting.length

/-- The end of a transfer on the books: the ledger word changes and is written with the transfer's count (R354, R360). -/
def govEnd (s : State) (w : GovXfer) : State :=
  let g := w.grantee.toNat
  let have' := s.credits g
  let now := if w.release then have' - w.amount else have' + w.amount
  let th := { s.thermal with count := s.thermal.count + 1, lastGrantee := w.grantee, lastDir := w.release }
  let th := { th with xfer := none, ledger := Tbl.set (fun _ => 0) th.ledger g now, free := if w.release then th.free + w.amount else th.free }
  let th := if g = 0 then { th with base := now } else th
  let s := { s with thermal := th }
  s.memWrite .hold (0x3FE000 + g) (BitVec.ofNat 40 (now * 2 ^ 30 + th.count.toNat))

/-! ### Grants of a band path (R29, R30, R46, R70) -/

/-- Units of the tap transfers that satisfy a condition. -/
def tapSum (s : State) (f : TapMove → Bool) : Nat := (s.tapFlight.filter f).foldl (fun t m => t + m.units) 0
/-- Tap-units that are not to be had: those granted to band paths, and those on their way back (R23, R26). -/
def tapsOwed (s : State) : Nat :=
  s.bps.foldl (fun t p => t + p.2.flow.tapUnits) 0 + s.tapSum (fun m => !m.grant && decide (s.cyc < m.till))
/-- Tap-units granted that the free pool has not released yet: one transfer is in flight at a time (R26). -/
def tapsToTake (s : State) : Nat := s.tapSum (fun m => m.grant && decide (s.cyc < m.from_))
/-- Tap-units in flight now, to a band path or back: those whose slots the map has still to take (R27). -/
def tapsInFlight (s : State) : Nat := s.tapSum (fun m => decide (m.from_ ≤ s.cyc) && decide (s.cyc < m.till))
/-- A transfer of tap-units follows those under way and ends when the slot map takes it at its next frame of 8 cycles (R26, R27). -/
def moveTaps (s : State) (units : Nat) (take : Bool) : State :=
  if units = 0 then s
  else
    let t := s.tapFlight.filter (fun m => decide (s.cyc < m.till))
    let from' := t.foldl (fun k m => Nat.max k m.till) s.cyc
    { s with tapFlight := t ++ [⟨units, from', (from' / 8 + 1) * 8, take⟩] }
/-- Delay-pool words held. -/
def delayHeld (s : State) : Nat := s.bps.foldl (fun t p => t + p.2.flow.delayWords) 0
/-- The lowest free resampler of the pool. -/
def freeResampler (s : State) : Option Nat := (List.range 64).find? (fun k => s.resampler k == .free)

/-- Give the band path a resampler if one is free; else it runs its fallback preset. -/
def takeResampler (s : State) (n : Nat) : State :=
  let b := s.bp n
  match s.freeResampler with
  | some k =>
    (s.setResampler k (.held (BitVec.ofNat 7 n))).setBp n { b with flow := { b.flow with inst := some (BitVec.ofNat 6 k), fallback := false } }
  | none => s.setBp n { b with flow := { b.flow with fallback := true } }

/-- Start the reset of the resampler released first, the lowest band path's of those released together, unless one is in its reset (R26, R28, R46). -/
def nextReset (s : State) : State :=
  let busy := (List.range 64).any (fun k => match s.resampler k with | .resetting _ => true | _ => false)
  let next := (List.range 64).foldl (fun (m : Option (Nat × Nat × Nat)) k =>
    match s.resampler k, m with
    | .released bp t, none => some (t, bp.toNat, k)
    | .released bp t, some x => if t < x.1 ∨ (t = x.1 ∧ bp.toNat < x.2.1) then some (t, bp.toNat, k) else m
    | _, _ => m) none
  match next with
  | some x => if busy then s else s.setResampler x.2.2 (.resetting (s.cyc + 64))
  | none => s

/-- Return tap-units, delay words and the resampler of a band path, each quantity one transfer at a time (R26): a released resampler is reset for 32 CLK_F cycles, and the slot map takes tap-units at its next frame. -/
def returnPools (s : State) (n : Nat) : State :=
  let b := s.bp n
  let s := match b.flow.inst with
    | some k => (s.setResampler k.toNat (.released (BitVec.ofNat 7 n) s.cyc)).nextReset
    | none => s
  let s := s.moveTaps b.flow.tapUnits false
  s.setBp n { b with flow := { b.flow with inst := none, fallback := false, tapUnits := 0, delayWords := 0 } }

/-- Return the credits of a band path, if it holds any. -/
def returnCredits (s : State) (n : Nat) : State :=
  let c := s.credits (1 + n)
  if c = 0 then s else s.govAsk (1 + n) c true

/-- Watchers of a donor: the band paths that name it (R131). -/
def watchers (s : State) (d : Nat) : List Nat :=
  s.planned.filter (fun n => s.planHas n plDonorBp && s.planN n plDonorBp == d)

/-- The donor of a band path is declared lost: DONOR is held (R131). -/
def donorLost (s : State) (n : Nat) : State :=
  let b := s.bp n
  (s.setBp n { b with prot := { b.prot with donorLost := true, donorOk := none } }).setHeld n (fun h => { h with donor := true })

/-- What OFF and BARRED do alike: grants returned, swap cancelled, THERM and T_RED removed with the episode ended, duty buckets emptied, its watchers told. -/
def enterIdle (s : State) (n : Nat) (st : BpSt) : State :=
  let s := (s.leaveService n).cancelSwap n
  let s := (s.returnPools n).returnCredits n
  let t := s.bpTherm n
  let left := match t.graceEnd with | some g => g - s.setCyc | none => 0
  let s := s.setBpTherm n
    (if t.episode then { t with tRed := 0, kept := none, episode := false, graceEnd := none, leftGrace := left, endedAt := some s.setCyc }
     else { t with tRed := 0, kept := none })
  let b := s.bp n
  let p := { b.prot with st := st, buckets := [], bucket := Bucket.zero, retryAt := none, serviceFrom := none }
  let p := { p with held := { p.held with duty := false, therm := false }, tripped := false }
  let s := (s.setBp n { b with prot := p }).cxOf n
  (s.watchers n).foldl (fun s w => s.donorLost w) s

/-- Entry to OFF (R140): the counters of the three records and MASK_BACKOFF clear. -/
def enterOff (s : State) (n reason : Nat) : State :=
  let s := s.enterIdle n .off
  let b := s.bp n
  let bw := { b.bw with backoffCnt := Sat.zero, tripCnt := Sat.zero }
  let gn := { b.gain with openCnt := Sat.zero, falseCnt := Sat.zero, capCnt := Sat.zero }
  let mk := { b.mask with violCnt := Sat.zero, staleCnt := Sat.zero, maskSeq := 0, backoff := 0 }
  let mk := { mk with consec := 0, passRun := 0 }
  let pr := { b.prot with muteCnt := Sat.zero, holdCnt := Sat.zero, lockCnt := Sat.zero, offReason := BitVec.ofNat 3 reason }
  (s.setBp n { b with bw := bw, gain := gn, mask := mk, prot := pr }).wr (F.bpProtEnable n) 0

/-- Entry to BARRED with a barring cause (R140, R141): recorded against the image in the flash that was booted. -/
def enterBarred (s : State) (n code : Nat) : State :=
  let s := s.enterIdle n .barred
  let b := s.bp n
  let s := s.setBp n { b with prot := { b.prot with cause := BitVec.ofNat 4 code } }
  let id : BpId := BitVec.ofNat 7 n
  let s := s.flashPut s.boot.flash (fun f => { f with barred := f.barred ++ [(id, s.img.digest)] })
  s.report (srcBp n) 13 2 (Config.msgContext (srcBp n) 13 code)

/-- A refusal of delay words or tap-units (R29): everything taken goes back, and the band path stays in OFF with the reason. -/
def refuseEnable (s : State) (n reason : Nat) : State :=
  let b := s.bp n
  (((s.setBp n { b with prot := { b.prot with offReason := BitVec.ofNat 3 reason } }).wr (F.bpProtEnable n) 0).returnPools n).returnCredits n

/-- Where the delay words of a band path begin in the pool: after those granted to the band paths of lower number (R24 gives the grants and no places). -/
def delayBase (s : State) (n : Nat) : Nat := s.bps.foldl (fun t p => if p.1 < n then t + p.2.flow.delayWords else t) 0

/-- The delay-pool words of a band path are in flight: DL5 clears them (R27). -/
def clearing (s : State) (n : Nat) : Bool := s.delayFlight == some (BitVec.ofNat 7 n)
/-- Delay-pool words in flight. -/
def delayInFlight (s : State) : Nat := match s.delayFlight with | some n => (s.bp n.toNat).flow.delayWords | none => 0

/-- Delay-pool words are granted (R27, R249, R258): they are in flight while DL5 clears them, by a descriptor that moves zeros there. -/
def grantDelay (s : State) (n : Nat) : State :=
  let b := s.bp n
  let d := s.delayCost n
  let s := s.setBp n { b with flow := { b.flow with delayWords := d } }
  ({ s with delayFlight := some (BitVec.ofNat 7 n) } : State).enqueue 517 (devDesc 5 0 0 4 0 (s.delayBase n) d 0 1)

/-- A transfer of a grantee waits or is in flight. -/
def govBusy (s : State) (g : Nat) : Bool :=
  s.thermal.waiting.any (fun w => w.grantee.toNat == g) || (match s.thermal.xfer with | some w => w.grantee.toNat == g | none => false)

/-- A band path in OFF gives back what it holds (R29, R140): its pools, and its credits unless a transfer of its own is still to end. Words that DL5 clears go back when it is done. -/
def returnHeld (s : State) (n : Nat) : State :=
  if s.clearing n && !(s.lighter 517).queue.isEmpty then s
  else
    let s := if s.clearing n then { s with delayFlight := none } else s
    let s := s.returnPools n
    if s.govBusy (1 + n) then s else s.returnCredits n

/-- The rest of R29 once credits and delay words are held: tap-units, resampler, the range check, and STARTING. A fallback to the preset here is no change of band rate: STARTING follows, and the band path starts at the preset's rate as at any other, with SEED in bank A and the start row of R60 (DESIGN CHOICE, assumption 72: R76 against R71). -/
def finishTaps (s : State) (n : Nat) : State :=
  if 16384 < s.tapsOwed + s.tapCost n then s.refuseEnable n 4
  else
    let b := s.bp n
    let s := (s.setBp n { b with flow := { b.flow with tapUnits := s.tapCost n } }).moveTaps (s.tapCost n) true
    let s := if s.wantsResampler n then s.takeResampler n else s
    if s.rangesOk n then
      let s := s.enterStarting n true
      -- held causes present already mute it at once (R140)
      let t := s.bpTherm n
      let s := s.setHeld n (fun h => { h with therm := h.therm || (t.hot && !s.privileged n) })
      let b := s.bp n
      if anyHeld b.prot.held && b.prot.st == .starting then
        let p := { b.prot with left := .starting, st := .muted, mutedAt := s.setCyc, tripped := false, holdCnt := b.prot.holdCnt.inc 39, serviceFrom := none }
        ((s.setBp n { b with prot := p }).leaveService n).cxOf n
      else s
    else s.enterBarred n 9

/-- The rest of R29 once the credits are held: delay words, one grant of them in flight at a time (R26), then the others. -/
def finishEnable (s : State) (n : Nat) : State :=
  let b := s.bp n
  if b.prot.st ≠ .off then s
  else if !s.rdB (F.bpProtEnable n) then s.returnHeld n
  else if s.held4Service n || s.clearing n then s
  else if b.flow.delayWords ≠ 0 ∨ s.delayCost n = 0 then s.finishTaps n
  else if s.delayFlight.isSome then s
  else if 262144 < s.delayHeld + s.delayCost n then s.refuseEnable n 3
  else s.grantDelay n

/-- A band path in OFF with ENABLE 1 asks for its credits, or goes on with those it holds. While a transfer of its own waits or is in flight the end of that one decides (R26, R29, R140, R354). -/
def askEnable (s : State) (n : Nat) : State :=
  if (s.bp n).prot.st ≠ .off || !s.present n || !s.rdB (F.bpProtEnable n) || s.held4Service n || s.govBusy (1 + n) then s
  else if s.credits (1 + n) = 0 then s.govAsk (1 + n) (s.creditCost n) false
  else s.finishEnable n

/-- ENABLE becomes 1 (R140): in OFF the credits are asked for; in BARRED the write is ignored, elsewhere nothing changes. -/
def enableFx (s : State) (n : Nat) : State :=
  if (s.bp n).prot.st = .barred then s else (s.wr (F.bpProtEnable n) 1).askEnable n

/-- ENABLE becomes 0 (R140): OFF from any state but OFF and BARRED. -/
def disableFx (s : State) (n : Nat) : State :=
  match (s.bp n).prot.st with
  | .barred => s
  | .off => (s.wr (F.bpProtEnable n) 0).returnHeld n
  | _ => s.enterOff n 1

/-- Band paths that wait for delay-pool words go on, the lowest first, until a grant is in flight (R26, R28). -/
def nextDelay (s : State) : State := s.planned.foldl (fun s n => if s.delayFlight.isNone then s.askEnable n else s) s

/-- DL5 has cleared the words it had in flight (R27, R258): the canceller reads no sample of an earlier service from them, the band path goes on with R29, and the next grant follows. -/
def delayCleared (s : State) : State :=
  match s.delayFlight with
  | none => s
  | some b =>
    let n := b.toNat
    let s : State := { s with delayFlight := none }
    let b := s.bp n
    ((s.setBp n { b with flow := { b.flow with ref := [] } }).finishEnable n).nextDelay

/-- LOCK_ACK (R140, R143): ignored outside LOCKED_OUT. -/
def lockAckFx (s : State) (n : Nat) : State :=
  let b := s.bp n
  if b.prot.st = .lockedOut then
    let p := { b.prot with st := .muted, history := [], retryExp := 0, retryAt := some (s.setCyc + secCyc), left := .starting }
    (s.setBp n { b with prot := p }).cxOf n
  else s

end State

/-- LIGHTER_BURST (R264): a slot or window of a channel. When DL5 has completed a descriptor the delay words it cleared are no longer in flight (R27). -/
def execLighterBurst (ch : BitVec 10) (s : State) : Host.Outcome State Fault Refusal :=
  let t := s.ltrBurst ch.toNat
  .next (if ch.toNat = 517 ∧ (t.lighter 517).done ≠ (s.lighter 517).done then t.delayCleared else t)

end Sys2Proof.Machine
end

