-- ==== Sys2Proof/Machine/Gain.lean ====
section
/-! DEFINITION. Stages 8 to 10: the AGC and its step, the soft start, the uplink gate, the idle floor and the mask monitor (R95 to R125, R347). -/

namespace Sys2Proof.Machine

/-! ### The digital gain (R96, R98) -/

/-- Whether `m` - 1/2 lies at or below r × 10^(e/400), by 400th powers. -/
def gainLe (r m : Nat) (e : Int) : Bool :=
  if 0 ≤ e then decide ((2 * m - 1) ^ 400 ≤ (2 * r) ^ 400 * 10 ^ e.toNat)
  else decide ((2 * m - 1) ^ 400 * 10 ^ (-e).toNat ≤ (2 * r) ^ 400)

/-- The largest `m` below 2^`k` + base with `gainLe`, bit by bit. -/
def gainSearch (r : Nat) (e : Int) : Nat → Nat → Nat
  | 0, m => m
  | k + 1, m => if gainLe r (m + 2 ^ k) e then gainSearch r e k (m + 2 ^ k) else gainSearch r e k m

/-- r × 10^((k − 600)/400) rounded by R8. An exact half arises only at whole powers of ten. -/
def gainMag (r k : Nat) : Nat :=
  let e : Int := (k : Int) - 600
  if e % 400 = 0 then
    (if 0 ≤ e then r * 10 ^ (e / 400).toNat else (roundEven r (10 ^ (-(e / 400)).toNat)).toNat)
  else if r = 0 then 0 else gainSearch r e 27 0

/-- A component through the digital gain of step `k`, before saturation. -/
def gainMul (x : Int) (k : Nat) : Int := if 0 ≤ x then gainMag x.toNat k else -(gainMag (-x).toNat k : Int)

/-- The highest step at or below a digital gain, given in fifths of 2^-24 dB; negative below the range. -/
def stepFloor (c : Int) : Int := (c + 150 * dB1) * 4 / dB1
/-- The step nearest to a digital gain, the lower of two equally near. -/
def stepNear (g : Db) : Int := ((g + 30 * dB1) * 20 + 8388607) / dB1
/-- The step applied for a digital gain under a ceiling in fifths of 2^-24 dB (R98). -/
def stepFor (g : Db) (c : Int) : Nat := (clampI 0 1400 (Min.min (stepNear g) (stepFloor c))).toNat

namespace State

/-- AGC_HOLD is set. -/
def agcHold (s : State) (n : Nat) : Bool := s.rdB (F.bpGainAgcHold n)
/-- The gain does not track: frozen by the gate or held. -/
def gainStill (s : State) (n : Nat) : Bool := (s.bp n).gain.frozen || s.agcHold n
/-- The ceiling as a digital gain. -/
def cDigital (s : State) (n : Nat) : Db := (s.bp n).bw.ceiling - s.gChain n
/-- The ceiling as a digital gain, exact, in fifths of 2^-24 dB. -/
def cFifths (s : State) (n : Nat) : Int := 5 * s.cDigital n + ((s.bp n).bw.ceilFifths : Int)
/-- GAIN_SET as a level. -/
def gainSet (s : State) (n : Nat) : Db := fieldDb 16 7 (s.rd (F.bpGainGainSet n))

/-- The bound of GAIN_SET with the mask and thermal reductions (R97, R347). -/
def setBound (s : State) (n : Nat) : Db :=
  s.gainSet n - s.gChain n - ((s.bp n).mask.backoff : Int) * dB1 - (s.bpTherm n).tRed

/-- d: the detector in dBFS (R97). -/
def detDb (s : State) (n : Nat) : Db :=
  let d := (s.bp n).gain.det
  powerDb (d.foldl (· + ·) 0) (d.length * 2 ^ 38)

/-- The lowest bound of R97 other than the soft-start bound. -/
def wantOther (s : State) (n : Nat) : Db :=
  let tEff := Min.min (s.planDb n plAgcTarget) (s.limPower n - s.figOut n)
  Min.min (Min.min (s.setBound n) (tEff - s.detDb n)) (Min.min (Min.min (s.cDigital n) (s.limGain n - s.gChain n)) (40 * dB1))

/-- g_want (R97). -/
def gWant (s : State) (n : Nat) : Db :=
  let b := s.bp n
  let o := s.wantOther n
  let o := match b.prot.st, b.gain.ramp with
    | .starting, some r => Min.min o r
    | _, _ => o
  Max.max (-30 * dB1) o

/-- Set the internal gain and the applied step (R98). -/
def setGain (s : State) (n : Nat) (g : Db) : State :=
  let b := s.bp n
  s.setBp n { b with gain := { b.gain with g := g, step := stepFor g (s.cFifths n) } }

/-- A frozen or held gain under the ceiling: the step may fall to it and never rises (R98, R99). -/
def stillGain (s : State) (n : Nat) : State :=
  let b := s.bp n
  s.setBp n { b with gain := { b.gain with step := Nat.min b.gain.step (stepFor b.gain.g (s.cFifths n)) } }

/-- The gain of this sample against the last one's: more than 0.5 dB between them clears VALID on 5 samples (R60). -/
def gainClear (s : State) (n : Nat) : State :=
  let b := s.bp n
  let k := b.gain.step
  let far := decide (b.gain.lastStep + 10 < k ∨ k + 10 < b.gain.lastStep)
  let s := s.setBp n { b with gain := { b.gain with lastStep := k } }
  if far then s.clearMore n 5 else s

/-- The ceiling acts on the gain at once when it lies below it (R85, R99). -/
def ceilGain (s : State) (n : Nat) : State :=
  let c := s.cDigital n
  let g := (s.bp n).gain.g
  if c < g then s.setGain n c else s.stillGain n

/-- The gain falls in one step by an amount (R121, R347), to no less than the bottom of the range. -/
def dropGain (s : State) (n : Nat) (d : Db) : State := s.setGain n (Max.max (-30 * dB1) ((s.bp n).gain.g - d))

/-- One AGC update (R98, R101). The soft start sets its −30 dB and its one step of g whatever AGC_HOLD says (DESIGN CHOICE, assumption 62: R100 against R101). The change of g is rounded to 2^-24 dB to the nearest, a half to even (DESIGN CHOICE, assumption 72: R98 only says that g is kept to it). -/
def agcUpdate (s : State) (n : Nat) : State :=
  let b := s.bp n
  let r := s.rate n
  let want := s.gWant n
  let g := b.gain.g
  let s := s.setBp n { b with gain := { b.gain with want := want } }
  if b.prot.st = .starting && !b.gain.softStarted then s.setGain n (-30 * dB1)
  else if s.cDigital n < g then s.setGain n (s.cDigital n)
  else if s.gainStill n then s.stillGain n
  else if want < g then
    s.setGain n (if 768 * r.den ≤ 5 * r.num then want else g + roundEven ((want - g) * (5 * r.num)) (768 * r.den))
  else s.setGain n (g + roundEven ((want - g) * r.num) (12288 * r.den))

/-! ### Soft start (R101) -/

/-- The rise of g_ramp at its step `k` + 1: what keeps it the nearest multiple of 2^-24 dB to its start and `k` + 1 times 0.05 dB (DESIGN CHOICE, assumption 72: R101 gives g_ramp no width). -/
def db005 (k : Nat) : Db := roundEven (((k + 1 : Nat) : Int) * dB1) 20 - roundEven ((k : Int) * dB1) 20
/-- The cycle at which g_ramp rises for the `k`-th time (R101): 0.05 / RAMP_RATE ms apart. -/
def rampDue (s : State) (n k : Nat) : Nat := (s.bp n).gain.rampAt + ceilDiv (k * 49152 * 2 ^ 24) (Nat.max 1 (s.planDb n plRampRate).toNat)

/-- RAMP_DONE sets when g_ramp first meets or exceeds every other bound, judged at each step of either; the band path then leaves STARTING. -/
def rampCheck (s : State) (n : Nat) : State :=
  let b := s.bp n
  match b.gain.ramp with
  | some r =>
    if b.prot.st = .starting ∧ s.wantOther n ≤ r then
      (s.setBp n { b with gain := { b.gain with ramp := none, rampDone := true } }).settleSt n
    else s
  | none => s

/-! ### The gate (R102 to R110) -/

/-- The samples of a time field. -/
def countOf (s : State) (n w : Nat) : Nat := (s.rate n).count (s.planN n w)
/-- k − floor(k / 16). -/
def mostOf (k : Nat) : Nat := k - k / 16
/-- The gate freezes the AGC, on uplink alone (R108). -/
def gateFreeze (s : State) (n : Nat) (f : Bool) : State :=
  if s.uplink n then
    let b := s.bp n
    s.setBp n { b with gain := { b.gain with frozen := f } }
  else s

/-- Open a CLOSED gate from a source. -/
def gateOpen (s : State) (n src : Nat) : State :=
  let b := s.bp n
  let g := b.gain
  s.setBp n { b with gain := { g with gate := .opened, openSrc := BitVec.ofNat 3 src, openCnt := g.openCnt.inc 19, verifyN := 0, run := 0 } }

/-- The window of the opening confirms it (R105). -/
def confirms (s : State) (n : Nat) : Bool :=
  let g := (s.bp n).gain
  let cn := s.countOf n plConfirm
  let w := g.recent.take cn
  mostOf cn ≤ (w.filter (fun x => if 4 ≤ g.openSrc.toNat then x.aboveRef else x.above)).length

/-- Confirm an opening: the gain freezes and P_frz is the mean of the window. The run of samples for a capture starts anew here, and goes on under AGC_HOLD, which only keeps it from acting (DESIGN CHOICES, assumption 72: R110). -/
def gateConfirm (s : State) (n : Nat) : State :=
  let b := s.bp n
  let w := b.gain.recent.take (s.countOf n plConfirm)
  let p := powerDb (w.foldl (fun t x => t + x.pow) 0) (w.length * 2 ^ 38)
  (s.setBp n { b with gain := { b.gain with gate := .confirmed, pFrz := p, capRun := 0 } }).gateFreeze n true

/-- Refreeze after a re-settle with the P_frz of its span; a span without samples has no mean, and P_frz is then open. -/
def gateRefreeze (s : State) (n : Nat) : State :=
  let b := s.bp n
  let g := b.gain
  let (p, s) := if g.rsN = 0 then (let (w, s') := s.free; (w.toInt, s')) else (powerDb g.rsSum (g.rsN * 2 ^ 38), s)
  let b := s.bp n
  (s.setBp n { b with gain := { b.gain with gate := .confirmed, pFrz := p, capRun := 0, rsLeft := 0 } }).gateFreeze n true

/-- The sign of a component, +1 for zero (R103). -/
def sgn (x : Int) : Int := if x < 0 then -1 else 1
/-- A sample as signs. -/
def sgC (c : Cplx) : Cplx := ⟨sgn c.re, sgn c.im⟩

/-- The words of reference sequence `m`, at words 1 024 n + 256 m of their memory; a poisoned one disables the sequence until the next STARTING (R123). -/
def readRef (s : State) (n m : Nat) : Option (List Cplx) × State :=
  let len := if s.planHas n (plRef + m) then bitsOf (s.plan n (plRef + m)) 19 0 else 0
  if len = 0 ∨ (s.bp n).gain.refOff.getLsbD m then (none, s)
  else
    let r := (List.range len).foldl (fun (acc : List Cplx × Bool × State) k =>
      let x := acc.2.2.memRead .refs (1024 * n + 256 * m + k) (srcBp n)
      (acc.1 ++ [cOf x.1.word], acc.2.1 || x.1.poison, x.2)) ([], false, s)
    if r.2.1 then
      let b := r.2.2.bp n
      let s := r.2.2.setBp n { b with gain := { b.gain with refOff := b.gain.refOff ||| (1#4 <<< m) } }
      (none, s.report (srcBp n) 8 2 (bpCtx n m))
    else (some r.1, r.2.2)

/-- The reference sequence matches the newest samples (R103). -/
def refMatches (s : State) (n : Nat) (a : List Cplx) : Bool :=
  let l := a.length
  let xs := ((s.bp n).gain.signs.take l)
  let t := (xs.reverse.zip a).foldl (fun (t : Cplx) p => t.add ((sgC p.1.1).mul (sgC p.2).conj)) Cplx.zero
  decide (xs.length = l) && xs.all (·.2) && decide (s.planN n plRefTh * (4 * l * l) ≤ t.normSq * 65536)

/-! ### The mask monitor (R118 to R121) -/

/-- The plan has a mask. -/
def maskOn (s : State) (n : Nat) : Bool := s.planHas n plMaskSeg && bitsOf (s.plan n plMaskSeg) 19 0 != 0

/-- A failed spectrum (R121): 1 dB of back-off, or the mute at the third in a row. A frozen or held gain drops no further once MASK_BACKOFF stands at 30 (DESIGN CHOICE, assumption 62). -/
def maskFail (s : State) (n : Nat) : State :=
  let b := s.bp n
  let m : BpMask := { b.mask with violCnt := b.mask.violCnt.inc 19, passRun := 0 }
  if 2 ≤ m.consec then
    let s := s.setBp n { b with mask := { m with consec := 0 } }
    if s.serving n || (s.bp n).prot.st == .muted then (s.tripped n 3).report (srcBp n) 9 1 (Config.msgContext (srcBp n) 9 0) else s
  else
    let up := decide (m.backoff < 30)
    let s := s.setBp n { b with mask := { m with consec := m.consec + 1, backoff := Nat.min (m.backoff + 1) 30 } }
    if s.gainStill n && up then s.dropGain n dB1 else s

/-- A passed spectrum (R121). -/
def maskPass (s : State) (n : Nat) : State :=
  let b := s.bp n
  let k := b.mask.passRun + 1
  let full := decide (s.planN n plReleaseN ≤ k)
  s.setBp n { b with mask := { b.mask with consec := 0, passRun := if full then 0 else k, backoff := if full then b.mask.backoff - 1 else b.mask.backoff } }

/-- A verdict that counts: pass or fail, of the period in progress, with its capture done and none taken yet (R120). -/
def verdictCounts (s : State) (n v : Nat) : Bool :=
  let m := (s.bp n).mask
  (v % 4 == 1 || v % 4 == 2) && v / 4 % 8 == m.period % 8 && m.done && !m.judged
/-- MASK_VERDICT (R120, R121): a verdict that does not count is ignored with a note. -/
def maskVerdictFx (s : State) (n v : Nat) : State :=
  let k := v % 4
  if k = 0 then s
  else
    let b := s.bp n
    let m := b.mask
    if !s.verdictCounts n v then s.note (srcBp n) (Config.msgContext (srcBp n) kNote 1)
    else
      let s := s.setBp n { b with mask := { m with judged := true, maskSeq := m.maskSeq + 1 } }
      let s := s.wr (F.bpGainMaskVerdict n) v
      if k = 1 then s.maskPass n else s.maskFail n

/-- GAIN_SET takes a value within GAIN_MAX (R124). Lowered below the applied gain while the gate freezes it, it acts at once (R122): at any write, an unchanged value too, GAIN_SET less MASK_BACKOFF and T_RED is what is compared with g (DESIGN CHOICE, assumption 62). -/
def gainSetFx (s : State) (n v : Nat) : State :=
  let s := s.wr (F.bpGainGainSet n) v
  let b := s.bp n
  if b.gain.frozen && !s.agcHold n && decide (s.setBound n < b.gain.g) then s.setGain n (Max.max (-30 * dB1) (s.setBound n)) else s
/-- A GAIN_SET value lies within GAIN_MAX. -/
def gainSetOk (s : State) (n v : Nat) : Bool := decide (fieldDb 16 7 v ≤ s.planDb n plGainMax) && decide (s.gBottom n ≤ fieldDb 16 7 v)

/-- AGC_HOLD set (R100, R122): a re-settle ends at once. -/
def agcHoldFx (s : State) (n : Nat) : State :=
  let was := s.agcHold n
  let s := s.wr (F.bpGainAgcHold n) 1
  if !was ∧ (s.bp n).gain.gate = .resettle then s.gateRefreeze n else s

/-- NR_CAPTURE (R114). -/
def nrCaptureFx (s : State) (n : Nat) : State :=
  let b := s.bp n
  if b.idle.2 = 1 then s.setBp n { b with gain := { b.gain with nrRef := s.floorDbm n, nrValid := true } }
  else s.note (srcBp n) (Config.msgContext (srcBp n) kNote 2)

/-- A restarted meter (R55). -/
def meterCleared (m : Meter) : Meter := { m with window := [], fineSum := 0, fineN := 0, fineReady := false, blocks := [] }

/-- METER_RESTART (R55). -/
def meterRestartFx (s : State) (n : Nat) : State :=
  let b := s.bp n
  s.setBp n { b with flow := { b.flow with meterIn := meterCleared b.flow.meterIn } }
/-- EG_METER_RESTART (R115). -/
def egRestartFx (s : State) (n : Nat) : State :=
  let b := s.bp n
  s.setBp n { b with flow := { b.flow with meterOut := meterCleared b.flow.meterOut } }

end State

/-! ### Events -/

/-- SOFT_START_BEGIN (R101). -/
def execSoftStartBegin (bp : BpId) (s : State) : Host.Outcome State Fault Refusal :=
  let n := bp.toNat
  let b := s.bp n
  if b.prot.st = .starting ∧ !b.gain.softStarted ∧ 64 ≤ b.flow.meterIn.window.length then
    let g := Max.max (-30 * dB1) (Min.min (s.gWant n) (s.planDb n plStartLevel - b.flow.meterIn.coarse))
    let s := s.setBp n { b with gain := { b.gain with softStarted := true, ramp := some g, rampAt := s.setCyc, rampN := 0 } }
    .next ((s.setGain n g).rampCheck n)
  else .next s

/-- RAMP_STEP (R101): g_ramp rises once 0.05 / RAMP_RATE ms have passed since its last rise. -/
def execRampStep (bp : BpId) (s : State) : Host.Outcome State Fault Refusal :=
  let n := bp.toNat
  let b := s.bp n
  match b.prot.st, b.gain.ramp with
  | .starting, some r =>
    if s.rampDue n (b.gain.rampN + 1) ≤ s.setCyc then
      .next ((s.setBp n { b with gain := { b.gain with ramp := some (r + State.db005 b.gain.rampN), rampN := b.gain.rampN + 1 } }).rampCheck n)
    else .next s
  | _, _ => .next s

/-- GATE_OPEN_ENERGY (R104). -/
def execGateOpenEnergy (bp : BpId) (s : State) : Host.Outcome State Fault Refusal :=
  let n := bp.toNat
  let g := (s.bp n).gain
  if g.gate = .closed ∧ s.serving n ∧ s.planN n plDetectN ≤ g.run ∧ 0 < g.run then .next (s.gateOpen n 1) else .next s

/-- GATE_REF_MATCH (R103, R104): the lowest matching sequence opens the gate, unless energy does. -/
def execGateRefMatch (bp : BpId) (s : State) : Host.Outcome State Fault Refusal :=
  let n := bp.toNat
  let g := (s.bp n).gain
  if g.gate = .closed ∧ s.serving n ∧ !(s.planN n plDetectN ≤ g.run ∧ 0 < g.run) then
    .next (((List.range 4).foldl (fun (acc : Bool × State) m =>
      if acc.1 then acc
      else match acc.2.readRef n m with
        | (some a, s') => if s'.refMatches n a then (true, s'.gateOpen n (4 + m)) else (false, s')
        | (none, s') => (false, s')) (false, s)).2)
  else .next s

/-- GATE_CONFIRM (R105). -/
def execGateConfirm (bp : BpId) (s : State) : Host.Outcome State Fault Refusal :=
  let n := bp.toNat
  if (s.bp n).gain.gate = .opened ∧ s.confirms n then .next (s.gateConfirm n) else .next s

/-- GATE_VERIFY_EXPIRY (R104): confirmation at the same sample wins. -/
def execGateVerifyExpiry (bp : BpId) (s : State) : Host.Outcome State Fault Refusal :=
  let n := bp.toNat
  let b := s.bp n
  let g := b.gain
  if g.gate = .opened ∧ s.countOf n plVerify ≤ g.verifyN ∧ !s.confirms n then
    .next (s.setBp n { b with gain := { g with gate := .closed, run := 0, falseCnt := g.falseCnt.inc 19 } })
  else .next s

/-- The capture condition of R110, AGC_HOLD clear: uplink only. -/
def State.captures (s : State) (n : Nat) : Bool :=
  let g := (s.bp n).gain
  s.uplink n && g.gate == .confirmed && !s.agcHold n && decide (16 ≤ g.capRun)

/-- GATE_CAPTURE (R110). -/
def execGateCapture (bp : BpId) (s : State) : Host.Outcome State Fault Refusal :=
  let n := bp.toNat
  let b := s.bp n
  let g := b.gain
  if s.captures n then
    let rs := (s.rate n).ofNs 1000
    let s := s.setBp n { b with gain := { g with gate := .resettle, frozen := false, capCnt := g.capCnt.inc 19, rsLeft := rs, rsSum := 0, rsN := 0, capRun := 0 } }
    .next (s.clearMore n (rs + 1))
  else .next s

/-- GATE_RESETTLE_END (R110). -/
def execGateResettleEnd (bp : BpId) (s : State) : Host.Outcome State Fault Refusal :=
  let n := bp.toNat
  let g := (s.bp n).gain
  if g.gate = .resettle ∧ g.rsLeft = 0 then .next (s.gateRefreeze n) else .next s

/-- GATE_CLOSE (R106): a capture at the same sample wins (R104). -/
def execGateClose (bp : BpId) (s : State) : Host.Outcome State Fault Refusal :=
  let n := bp.toNat
  let b := s.bp n
  let g := b.gain
  let hn := s.countOf n plHang
  if g.gate = .confirmed ∧ !s.captures n ∧ State.mostOf hn ≤ ((g.recent.take hn).filter (·.quiet)).length then
    .next ((s.setBp n { b with gain := { g with gate := .closed, run := 0 } }).gateFreeze n false)
  else .next s

/-- FLOOR_BLOCK_DONE (R111, R113). -/
def execFloorBlockDone (bp : BpId) (s : State) : Host.Outcome State Fault Refusal :=
  let n := bp.toNat
  let b := s.bp n
  match b.floor.whole with
  | [] => .next s
  | (v, ok) :: t =>
    let f := { b.floor with whole := t }
    .next (s.setBp n { b with floor := if ok then { f with blocks := (v :: f.blocks).take 64, since := s.setCyc, stale := false } else f })

/-- FLOOR_STALE (R113). -/
def execFloorStale (bp : BpId) (s : State) : Host.Outcome State Fault Refusal :=
  let n := bp.toNat
  let b := s.bp n
  if s.present n ∧ b.floor.begun ∧ !b.floor.stale ∧ b.floor.since + s.planN n plFloorAgeMax * msCyc < s.setCyc then
    .next ((s.setBp n { b with floor := { b.floor with stale := true } }).report (srcBp n) 11 0 (Config.msgContext (srcBp n) 11 0))
  else .next s

/-- MASK_CAPTURE_DONE (R118): MASK_AVG whole blocks within 8 ms of the period's start. -/
def execMaskCaptureDone (bp : BpId) (s : State) : Host.Outcome State Fault Refusal :=
  let n := bp.toNat
  let b := s.bp n
  if s.maskOn n ∧ !b.mask.done ∧ 0 < b.mask.captured ∧ s.planN n plMaskAvg ≤ b.mask.captured then
    .next (s.setBp n { b with mask := { b.mask with done := true } })
  else .next s

/-- MASK_PERIOD_END (R118, R120): a completed capture without a verdict counts as a fail, and the next period starts. -/
def execMaskPeriodEnd (bp : BpId) (s : State) : Host.Outcome State Fault Refusal :=
  let n := bp.toNat
  let b := s.bp n
  let up : Bool := match b.prot.st with | .off | .barred => false | _ => true
  if up ∧ b.mask.periodStart + 10 * msCyc ≤ s.setCyc then
    let missed := b.mask.done && !b.mask.judged
    let m : BpMask := { b.mask with period := b.mask.period + 1, periodStart := b.mask.periodStart + 10 * msCyc, captured := 0, block := 0 }
    let m := { m with done := false, judged := false, staleCnt := if missed then m.staleCnt.inc 15 else m.staleCnt }
    let s := (s.setBp n { b with mask := m }).setTap n { s.tap n with mOut := [], mTags := [] }
    if missed then .next ((s.report (srcBp n) 10 1 (Config.msgContext (srcBp n) 10 0)).maskFail n) else .next s
  else .next s

end Sys2Proof.Machine
end

