-- ==== Sys2Proof/Machine/GvCode.lean ====
section
/-! DEFINITION. The Guvan line code: payload symbols and words, the Reed-Solomon code over GF(2^10), interleaving, scrambling, the marker, pilots and levels (R282, R283, R285 to R288, R290, R297, R302). -/

namespace Sys2Proof.Machine

/-- A ten-bit symbol of the frame payload. -/
abbrev Sym := BitVec 10

/-! ### Words and bytes in symbols (R290, R302) -/

/-- The four symbols of a 40-bit word. -/
def wordSyms (w : Word) : List Sym := [(w >>> 30).setWidth 10, (w >>> 20).setWidth 10, (w >>> 10).setWidth 10, w.setWidth 10]
/-- The word at symbol `i` of a payload. -/
def symsWord (l : List Sym) (i : Nat) : Word :=
  BitVec.ofNat 40 (((l.drop i).take 4).foldl (fun n x => n * 1024 + x.toNat) 0)
/-- A management symbol: 0 idle, 1 data, 2 first byte, 3 last byte. -/
def mgmtSym (code : Nat) (b : Byte) : Sym := BitVec.ofNat 10 (code * 256 + b.toNat)

/-! ### CRC-16 of hello words and container maps (R293, R297) -/

/-- One bit of the CRC-16 x^16 + x^12 + x^5 + 1. -/
def crc16Bit (c : BitVec 16) (b : Bool) : BitVec 16 := if c.msb != b then (c <<< 1) ^^^ 0x1021 else c <<< 1
/-- The CRC-16 of the top `n` bits of a 64-bit word, most significant first, from all ones. -/
def crc16Top (w : BitVec 64) (n : Nat) : BitVec 16 := (List.range n).foldl (fun c i => crc16Bit c (w.getMsbD i)) 0xFFFF

/-! ### The code over GF(2^10) (R287) -/

/-- Multiply by α, a root of x^10 + x^3 + 1. -/
def gfA10 (x : Sym) : Sym := if x.msb then (x <<< 1) ^^^ 9 else x <<< 1
/-- Multiply by α^k. -/
def gfPow10 : Nat → Sym → Sym
  | 0, x => x
  | k + 1, x => gfA10 (gfPow10 k x)
/-- Product in GF(2^10), over the bits of the second factor from bit `k − 1` down. -/
def gfMul10 (a b : Sym) : Nat → Sym
  | 0 => 0
  | k + 1 => (if b.getLsbD k then gfPow10 k a else 0) ^^^ gfMul10 a b k
/-- The generator's coefficients below x^k, highest first, its leading coefficient being 1: g = (x + α^0) ⋯ (x + α^(k − 1)). -/
def rsGen : Nat → List Sym
  | 0 => []
  | k + 1 =>
    let g := rsGen k
    let r := gfPow10 k 1
    -- (x + r)(x^k + g): coefficients g ++ [0] plus r times (1 :: g)
    List.zipWith (· ^^^ ·) (g ++ [0]) ((1 :: g).map (fun c => gfMul10 r c 10))
/-- One step of the division by g: the remainder, highest coefficient first, takes in a payload symbol. -/
def rsStep10 (g : List Sym) (r : List Sym) (d : Sym) : List Sym :=
  match r with
  | [] => []
  | h :: t =>
    let f := h ^^^ d
    List.zipWith (· ^^^ ·) (t ++ [0]) (g.map (fun c => gfMul10 f c 10))
/-- The 20 check symbols of 340 payload symbols. -/
def rsCheck10 (m : List Sym) : List Sym := m.foldl (rsStep10 (rsGen 20)) (List.replicate 20 0)

/-- The 16 codewords of a payload. -/
def codewords (payload : List Sym) : List (List Sym) :=
  (List.range 16).map (fun i =>
    let m := (payload.drop (340 * i)).take 340
    m ++ rsCheck10 m)
/-- Interleaved by symbol (R288). -/
def interleave (cs : List (List Sym)) : List Sym := (List.range 360).flatMap (fun j => cs.map (fun c => atD c j 0))

/-! ### Bits and levels (R283, R286, R288) -/

/-- The bits of a symbol, most significant first. -/
def symBits (x : Sym) : List Bool := (List.range 10).map x.getMsbD
/-- The next bits of the scrambling sequence: the last 23, oldest first. -/
def scrambleSeq : Nat → List Bool → List Bool
  | 0, _ => []
  | n + 1, r => (atD r 0 false) :: scrambleSeq n (r.drop 1 ++ [(atD r 18 false).xor (atD r 0 false)])
/-- The stream XORed with the sequence that restarts at every frame. -/
def scramble (bits : List Bool) : List Bool := List.zipWith Bool.xor bits (scrambleSeq bits.length (List.replicate 23 true))
/-- The next bits of the marker's recurrence: the last 6, oldest first. -/
def markerSeq : Nat → List Bool → List Bool
  | 0, _ => []
  | n + 1, r => (atD r 0 false) :: markerSeq n (r.drop 1 ++ [(atD r 1 false).xor (atD r 0 false)])
/-- The alignment marker b[0] to b[63] (R286). -/
def markerBits : List Bool := markerSeq 63 (List.replicate 6 true) ++ [false]

/-- PAM-8 is mode 0. -/
def pam8 (mode : Nat) : Bool := mode == 0
/-- The outer level L. -/
def outerLevel (mode : Nat) : Int := if pam8 mode then 7 else 3
/-- The level of a PAM-8 label (R283). -/
def level8 (a b c : Bool) : Int :=
  match a, b, c with
  | false, false, false => -7
  | false, false, true => -5
  | false, true, true => -3
  | false, true, false => -1
  | true, true, false => 1
  | true, true, true => 3
  | true, false, true => 5
  | true, false, false => 7
/-- The level of a PAM-4 label. -/
def level4 (a b : Bool) : Int :=
  match a, b with
  | false, false => -3
  | false, true => -1
  | true, true => 1
  | true, false => 3
/-- Bits to levels, the fuel being the number of groups. -/
def mapLevels (mode : Nat) : Nat → List Bool → List Int
  | 0, _ => []
  | n + 1, l =>
    if pam8 mode then level8 (atD l 0 false) (atD l 1 false) (atD l 2 false) :: mapLevels mode n (l.drop 3)
    else level4 (atD l 0 false) (atD l 1 false) :: mapLevels mode n (l.drop 2)

/-- Blocks of 8 pilots and 248 data positions (R285). -/
def withPilots (lv : Int) : Nat → List Int → List Int
  | 0, _ => []
  | n + 1, l => [lv, lv, -lv, -lv, lv, -lv, lv, -lv] ++ l.take 248 ++ withPilots lv n (l.drop 248)

/-- Times each symbol is sent (R281, R282). -/
def repetition (mode : Nat) : Nat := atD [1, 1, 1, 2, 4, 8] mode 1

/-- The levels of a frame with a payload, in the order they are sent (R282 to R288). -/
def frameLevels (mode : Nat) (payload : List Sym) : List Int :=
  let lv := outerLevel mode
  let marker := markerBits.map (fun b => if b then lv else -lv)
  let bits := scramble ((interleave (codewords payload)).flatMap symBits)
  let data := mapLevels mode (if pam8 mode then 19200 else 28800) bits
  let idle := List.replicate (if pam8 mode then 80 else 152) (0 : Int)
  let all := withPilots lv (if pam8 mode then 78 else 117) (marker ++ data ++ idle)
  all.flatMap (fun x => List.replicate (repetition mode) x)

/-- The chips of one hello block (R297): the marker and the hello word, each chip 8 times. -/
def helloLevels (w : BitVec 64) : List Int :=
  (markerBits ++ (List.range 64).map w.getMsbD).flatMap (fun b => List.replicate 8 (if b then (3 : Int) else -3))

/-- The levels of one training block (R298): marker, information word with each bit on two symbols, and `body`, 4 000 bits of the sequence of R288. -/
def trainLevels (mode : Nat) (info : BitVec 16) (body : List Bool) : List Int :=
  let lv := outerLevel mode
  let bits := markerBits ++ (List.range 16).flatMap (fun i => [info.getMsbD i, info.getMsbD i]) ++ body
  bits.flatMap (fun b => List.replicate (repetition mode) (if b then lv else -lv))

/-- The levels of a TRAIN turn (R298): 32 blocks, LAST in the final one alone, the sequence of R288 restarted at the first. -/
def trainTurnLevels (mode : Nat) (w : BitVec 16) : List Int :=
  let seq := scrambleSeq 128000 (List.replicate 23 true)
  (List.range 32).flatMap (fun i => trainLevels mode (if i = 31 then w else w &&& 0x7FFF) ((seq.drop (4000 * i)).take 4000))
/-- Length of a TRAIN turn in CLK_E cycles, rounded up: 131 072 symbols, repeated, at 256, 192 or 96 in a CLK_T cycle (R281, R285). -/
def turnCyc (mode : Nat) : Nat :=
  let n := atD [256, 192] mode 96
  (131072 * 32 * repetition mode + n - 1) / n

/-- SNR needed for RX_LOCK, in 1/256 dB (R281). -/
def snrNeed (mode : Nat) : Int := 256 * atD [24, 17, 17, 14, 11, 8] mode 8

/-- A filter line: every output from the input at its place and those before it, zero before the first. -/
def firLine (taps : List Int) (l : List Int) : List Int :=
  (List.range l.length).map (fun i => ((List.range taps.length).map (fun k => if k ≤ i then atD taps k 0 * atD l (i - k) 0 else 0)).foldl (· + ·) 0)

end Sys2Proof.Machine
end

