-- ==== Sys2Proof/Machine/Session.lean ====
section
/-! DEFINITION. Sessions of the management core and the answering of its commands (R391 to R393). -/

namespace Sys2Proof.Machine

/-- Bytes as they stand inside a UART frame: 0x7E and 0x7D escaped (R468). -/
def uartEscape : List Byte → List Byte
  | [] => []
  | b :: t => if b = 0x7E ∨ b = 0x7D then 0x7D :: (b ^^^ 0x20) :: uartEscape t else b :: uartEscape t
/-- The UART frame of a message (R468). -/
def uartFrame (b : List Byte) : List Byte := 0x7E :: (uartEscape b ++ [0x7E])

/-- The outcome of a command's own work: STATUS, data, the state it leaves, and whether the firmware restarted under it, when nothing is answered (R390). -/
structure Answer where
  status : Nat
  data : List Byte
  st : State
  silent : Bool

/-- An answer OK with data. -/
def Answer.ok (s : State) (data : List Byte) : Answer := ⟨0, data, s, false⟩
/-- An answer without data. -/
def Answer.code (s : State) (status : Nat) : Answer := ⟨status, [], s, false⟩

namespace State

/-- Session `i`. -/
def session (s : State) (i : Nat) : Option Session := Tbl.get (fun _ => none) s.mgmt.sessions i
/-- Replace session `i`. -/
def setSession (s : State) (i : Nat) (x : Option Session) : State :=
  { s with mgmt := { s.mgmt with sessions := Tbl.set (fun _ => none) s.mgmt.sessions i x } }

/-- The session of an originator. -/
def sessionOf (s : State) (src : DevAddr) : Option Nat :=
  (List.range 8).find? (fun i => match s.session i with | some x => x.src == src | none => false)

/-- A session closes or is evicted (R391, R440, R396): its shadows, cursor and snapshots are empty for the next one, and its staging ends with the target left in STAGING. -/
def closeSession (s : State) (i : Nat) : State :=
  match s.session i with
  | none => s
  | some x =>
    let who := 1 + i
    let s := s.setSession i none
    let own := match s.mgmt.staging with | some g => g.who == some x.src | none => false
    let s := if own then { s with mgmt := { s.mgmt with staging := none } } else s
    let s := { s with shadows := s.shadows.filter (fun p => p.1 / 2 ^ 24 != who), reads := Tbl.del s.reads who }
    { s with fc := { s.fc with
      cursors := Tbl.del s.fc.cursors who, histSnap := Tbl.del s.fc.histSnap who, emrSnap := Tbl.del s.fc.emrSnap who } }

/-- The session idle longest; of equal ones the lowest. -/
def idlest (s : State) : Nat :=
  (List.range 8).foldl (fun b i =>
    match s.session i, s.session b with
    | some x, some y => if x.lastAt < y.lastAt then i else b
    | _, _ => b) 0

/-- The session a COMMAND belongs to, opened if its originator has none; a ninth originator evicts the one idle longest. -/
def openSession (s : State) (src : DevAddr) : Nat × State :=
  match s.sessionOf src with
  | some i => (i, s)
  | none =>
    match (List.range 8).find? (fun i => (s.session i).isNone) with
    | some i => (i, s.setSession i (some ⟨src, s.cyc, []⟩))
    | none =>
      let i := s.idlest
      (i, (s.closeSession i).setSession i (some ⟨src, s.cyc, []⟩))

/-- Send a RESPONSE (R391), on UART_TX in a frame where the debug port asked (R468). The response to a COMMAND that reached a device without an address leaves on its return port (R309). -/
def respond (s : State) (o : Origin) (seq : BitVec 16) (payload : List Byte) (back : Bool) : State :=
  match o with
  | .debug =>
    let b := mkMsgBytes 1 Config.hopLimit.toNat 0 s.ownAddr seq.toNat 0 payload
    { s with mgmt := { s.mgmt with debugOut := s.mgmt.debugOut ++ [⟨uartFrame b, none, 0⟩] } }
  | .addr src _ =>
    let b := mkMsgBytes 1 Config.hopLimit.toNat src.toNat s.ownAddr seq.toNat 0 payload
    match (if back then s.mgmt.returnPort else none) with
    | some p =>
      s.queueOwn p.toNat ⟨b, none, 0⟩
    | none => s.sendOwn b

/-- Commands answered within the last second. -/
def recentOf (l : List DoneCmd) (cyc : Nat) : List DoneCmd := l.filter (fun d => decide (cyc ≤ d.at_ + secCyc))

/-- A COMMAND the core runs: repeated within 1 s it gets its earlier RESPONSE again, otherwise it is worked and answered once (R391). `act` gets the requester code. -/
def runCommand (s : State) (o : Origin) (seq : BitVec 16) (op : Nat) (act : Nat → State → Answer) : State :=
  let back := !s.addressed
  match o with
  | .debug =>
    let old := recentOf s.mgmt.debugRecent s.cyc
    match old.find? (fun d => d.seq == seq) with
    | some d => s.respond o seq d.payload back
    | none =>
      let r := act 9 s
      if r.silent then r.st
      else
        let payload := beBytes 1 op ++ beBytes 1 r.status ++ r.data
        ({ r.st with mgmt := { r.st.mgmt with debugRecent := old ++ [⟨seq, payload, s.cyc⟩] } } : State).respond o seq payload back
  | .addr src _ =>
    let (i, s) := s.openSession src
    let x := (s.session i).getD ⟨src, s.cyc, []⟩
    let old := recentOf x.recent s.cyc
    let s := s.setSession i (some ⟨src, s.cyc, old⟩)
    match old.find? (fun d => d.seq == seq) with
    | some d => s.respond o seq d.payload back
    | none =>
      let r := act (1 + i) s
      if r.silent then r.st
      else
        let payload := beBytes 1 op ++ beBytes 1 r.status ++ r.data
        (r.st.setSession i (some ⟨src, s.cyc, old ++ [⟨seq, payload, s.cyc⟩]⟩)).respond o seq payload back

/-- The oldest message at the core of the session of an origin: commands of one session are executed in arrival order (R391). -/
def coreNext (s : State) (o : Origin) : Option Msg :=
  s.mgmt.toCore.find? (fun m =>
    match o with
    | .debug => m.port.isNone
    | .addr src _ => m.port.isSome && msgSrc m.bytes == src.toNat)

/-- A message carries a COMMAND with this SEQ, OP and arguments (R392). -/
def carries (m : Msg) (seq : BitVec 16) (op : Nat) (args : List Byte) : Bool :=
  msgSeq m.bytes == seq.toNat && msgPayload m.bytes == beBytes 1 op ++ beBytes 1 0 ++ args

/-- The core answers commands: its firmware or the ROM loader runs, and no C4 latch holds (R389, R390). -/
def coreAnswers (s : State) : Bool := s.mgmt.core == .running && !s.fc.c4

/-- Operations the ROM loader accepts: IDENT, REG_READ and the four IMG commands (R393). -/
def romOp (op : Nat) : Bool := op == 1 || op == 2 || (decide (12 ≤ op) && decide (op ≤ 15))

/-- The origin of a message at the core. -/
def originOf (m : Msg) : Origin :=
  match m.port with
  | some p => .addr (BitVec.ofNat 18 (msgSrc m.bytes)) p
  | none => .debug

/-- The arguments of a listed OP have the form of its row of R392: their length, the sub-op of REPLAY and the action of FAULT_ACK. -/
def argsOk (op : Nat) (p : List Byte) : Bool :=
  let n := p.length
  match op with
  | 1 | 14 | 15 => n == 2
  | 2 | 6 => n == 6
  | 3 => n == 10
  | 4 => n == 7
  | 5 => n == 7 && (msgNat p 6 1 == 1 || msgNat p 6 1 == 2)
  | 7 => n == 6 + 5 * msgNat p 5 1
  | 8 => n == 3
  | 9 => n == 8
  | 10 => n == 5
  | 11 => n == 5 + msgNat p 4 1
  | 12 => n == 39
  | 13 => decide (7 ≤ n) && decide (n ≤ 998)
  | _ => n == 3 && decide (1 ≤ msgNat p 2 1) && decide (msgNat p 2 1 ≤ 4)

/-- A COMMAND payload that no row stands for: an OP not listed, a second byte that is not zero, or arguments that have not the form of their row (R392). -/
def misformed (p : List Byte) : Bool :=
  let op := msgNat p 0 1
  decide (op = 0) || decide (16 < op) || msgNat p 1 1 != 0 || !argsOk op p

/-- The answer to such a payload: UNKNOWN, or BAD_ARG, which for IMG_DATA carries the offset expected of the session. -/
def misformedFx (o : Origin) (p : List Byte) (_who : Nat) (s : State) : Answer :=
  let op := msgNat p 0 1
  if op = 0 ∨ 16 < op then .code s 1
  else if op = 13 then
    let n := match s.mgmt.staging with
      | some g => if g.who = (match o with | .addr src _ => some src | .debug => none) then (s.flashOf g.flash).image.length else 0
      | none => 0
    ⟨2, beBytes 4 n, s, false⟩
  else .code s 2

/-- A message leaves the core's list. -/
def coreDrop (s : State) (m : Msg) : State := { s with mgmt := { s.mgmt with toCore := s.mgmt.toCore.erase m } }

/-- The misformed messages at the head of a session's are answered in their turn. The fuel is the number of messages. -/
def answerMisformed (s : State) (o : Origin) : Nat → State
  | 0 => s
  | k + 1 =>
    match s.coreNext o with
    | none => s
    | some m =>
      let p := msgPayload m.bytes
      if misformed p && s.coreAnswers then
        ((s.coreDrop m).runCommand (originOf m) (BitVec.ofNat 16 (msgSeq m.bytes)) (msgNat p 0 1)
          (fun who s => if s.boot.romLoader && !romOp (msgNat p 0 1) then .code s (if msgNat p 0 1 = 0 ∨ 16 < msgNat p 0 1 then 1 else 6) else misformedFx o p who s)).answerMisformed o k
      else s

/-- A COMMAND with its arguments. Where messages of its session wait at the core it is the oldest of them, and a row that is not waits its turn without effect (R391); else it has just arrived. One the core holds already waits through a restart; one that arrives while the core does not answer is discarded and counted (R390, R391). Under the ROM loader other commands receive STATE. -/
def command (s : State) (o : Origin) (seq : BitVec 16) (op : Nat) (args : List Byte) (act : Nat → State → Answer) : State :=
  let run := fun (s : State) => s.runCommand o seq op (fun who s => if s.boot.romLoader && !romOp op then .code s 6 else act who s)
  match s.coreNext o with
  | some m => if s.coreAnswers && carries m seq op args then (run (s.coreDrop m)).answerMisformed o s.mgmt.toCore.length else s
  | none =>
    if s.coreAnswers then run s
    else match o with
      | .debug => s
      | .addr _ p => s.inc (F.gvMsgcntDropMsg p.toNat) (F.gvMsgcntDrOvf p.toNat)

/-- The core takes a message: a COMMAND waits for its row behind those of its session, and a misformed one for its answer (R391, R392). Notices take effect by their own row. -/
def coreTakes (s : State) (m : Msg) : State :=
  if msgClass m.bytes = 0 then
    let o := originOf m
    let s := { s with mgmt := { s.mgmt with toCore := s.mgmt.toCore ++ [{ m with blocks := 0 }] } }
    s.answerMisformed o s.mgmt.toCore.length
  else s

end State

end Sys2Proof.Machine
end

