-- ==== Sys2Proof/Machine/Breakwater.lean ====
section
/-! DEFINITION. The canceller's swaps, the probe and the fast estimate, the breakwater's intervals, the oscillation trip and the three records (R68 to R94, R125, R130 to R136, R139, R144). -/

namespace Sys2Proof.Machine

/-! ### The probe (R77) -/

/-- Multiplication by x modulo x^20 + x^3 + 1. -/
def lfsrX (a : BitVec 20) : BitVec 20 := if a.msb then (a <<< 1) ^^^ 9 else a <<< 1
/-- The product of two polynomials modulo x^20 + x^3 + 1. -/
def lfsrMul (a b : BitVec 20) : Nat → BitVec 20
  | 0 => 0
  | k + 1 => lfsrX (lfsrMul a b k) ^^^ (if b.getLsbD (19 - k) then a else 0)
/-- x^j modulo x^20 + x^3 + 1, from the top bit of the 20 bits of `j` down. -/
def lfsrPow (j : Nat) : Nat → BitVec 20
  | 0 => 1
  | k + 1 =>
    let r := lfsrPow j k
    let q := lfsrMul r r 20
    if (j / 2 ^ (19 - k)) % 2 = 1 then lfsrX q else q
/-- The parity of a pattern. -/
def parity (a : BitVec 20) : Bool := (List.range 20).foldl (fun p i => p != a.getLsbD i) false
/-- Bit s[j] of the sequence of a band path: its first 20 bits are the seed's, lowest first, each later one is s[j+20] = s[j+3] xor s[j], and the last is 0 (DESIGN CHOICE, assumption 72: R77 gives the polynomial and the seed, neither the end of the seed that comes first nor the direction). -/
def chipBit (n j : Nat) : Bool :=
  if j = 2 ^ 20 - 1 then false
  else parity (lfsrPow j 20 &&& BitVec.ofNat 20 ((n + 1) * 8191))
/-- Chip j, with components of `amp`. -/
def chip (n j : Nat) (amp : Int) : Cplx :=
  let g := fun (b : Bool) => if b then -amp else amp
  ⟨g (chipBit n j), g (chipBit n ((j + 2 ^ 19) % 2 ^ 20))⟩

/-- Bits below the sample step 2^-19 to which a probe and the stage 10 output that carries it are computed: nothing narrows that output (R43, R78). -/
def probeBits : Nat := 40
/-- Component amplitude of a probe at a level, in 2^-59: a / √2 with a² = 10^(level/10), to the nearest step (R77, R78; DEDUCED, assumption 73). -/
def probeAmp (level : Db) : Int := ((isqrt 64 (dbPower level (39 + 2 * probeBits)) 0 + 1) / 2 : Nat)

/-! ### Isolation from correlations (R79, R80) -/

/-- What a measurement gives: resolved or bounded, and the isolation; `open_` where the rules give no value. -/
structure IsoRes where
  resolved : Bool
  iso : Db
  open_ : Bool
  deriving DecidableEq, Repr

/-- The test and the value of R80 for four correlations (2^-(38 + u)), four reference powers (2^-(38 + 2u)), the power sum of z (2^-38) and N samples, `u` being the bits of the reference below 2^-19. `pp` is P_p where it is set, else the mean of the references. -/
def isolation (u : Nat) (corr : List Cplx) (ref : List Nat) (pow n : Nat) (pp : Option Db) (spread gch : Db) : IsoRes :=
  let q := ref.foldl (fun p r => p * (r * r)) 1
  let p := (corr.zip ref).foldl (fun t x => if x.2 = 0 then t else t + x.1.normSq * (q / (x.2 * x.2))) 0
  let sr := ref.foldl (· + ·) 0
  let a := 16 * pow
  let b := n * sr
  if n = 0 ∨ q = 0 then ⟨false, 0, true⟩
  else if 4 * a * q ≤ p * b then
    if p * b = a * q then ⟨true, 0, true⟩ else ⟨true, - ratioDb ((p * b - a * q) * 4 ^ u) (q * b) - spread + gch, false⟩
  else
    let ppd := match pp with | some v => v | none => powerDb sr (4 * n * 2 ^ (38 + 2 * u))
    ⟨false, ratioDb n 1 + ppd - powerDb pow (n * 2 ^ 38) - centiDb 1204 - spread + gch, false⟩

namespace State

/-- Take the isolation of a measurement; an open value is a free one, and so is the outcome of the test when nothing was referenced. -/
def drawIso (s : State) (r : IsoRes) : IsoRes × State :=
  if r.open_ then
    let (w, s') := s.free
    (⟨r.resolved || w.getLsbD 0, w.toInt, true⟩, s')
  else (r, s)

/-- PROBE_MEASUREMENT_DONE (R81, R83): 2^20 samples have been taken. ISO_SRC is 1 from then on, also where a bounded result leaves I_p as it was (DESIGN CHOICE, assumption 63). -/
def probeDone (s : State) (n : Nat) : State :=
  let b := s.bp n
  match b.bw.probe with
  | none => s
  | some p =>
    if p.count < 2 ^ 20 then s
    else
      let g := s.gChain n
      let sp := p.spread
      let (u, s) := s.drawIso (isolation probeBits p.corrIn p.refPow p.powIn p.nValid (some p.level) sp g)
      let (r, s) := s.drawIso (isolation probeBits p.corrOut p.refPow p.powOut p.nValid (some p.level) sp g)
      let bw := { b.bw with probe := none, isoUnc := u.iso, isoRes := r.iso, uncBound := !u.resolved, resBound := !r.resolved }
      let bw := { bw with measSeq := bw.measSeq + 1, probeHi := s.nowHi, probeLo := s.nowLo, pSrc := 1 }
      let bw := { bw with uncResolved := if u.resolved then some u.iso else bw.uncResolved, isoP := if r.resolved then r.iso else Max.max r.iso bw.isoP }
      s.setBp n { b with bw := bw }

/-! ### Back-off (R85, R87) -/

/-- The margin check against F: a back-off by R85, or the margin mute of R87. The flag says that the ceiling moved. -/
def marginCheck (s : State) (n : Nat) : Bool × State :=
  let b := s.bp n
  let f := s.floorEff n b.bw.floorUse
  -- the ceiling's fifths round M down
  let m := b.bw.isoBw - b.bw.ceiling - (if b.bw.ceilFifths = 0 then 0 else 1)
  let s := s.setBp n { b with bw := { b.bw with margin := m } }
  if m < f then
    let c := b.bw.isoBw - f - dB1
    let b := s.bp n
    if c < s.gBottom n then
      let s := s.setBp n { b with bw := { b.bw with ceiling := s.gBottom n, ceilFifths := 0, tripCnt := b.bw.tripCnt.inc 39, holdOff := 1 } }
      let s := ((s.wr (F.bpBwStatMarginMute n) 1).ceilGain n).tripped n 2
      (true, s.report (srcBp n) 2 1 (Config.msgContext (srcBp n) 2 0))
    else
      let s := s.setBp n { b with bw := { b.bw with ceiling := c, ceilFifths := 0, backoffCnt := b.bw.backoffCnt.inc 39, holdOff := 1 } }
      (true, ((s.ceilGain n).settleSt n).report (srcBp n) 3 0 (Config.msgContext (srcBp n) 3 0))
  else (false, s)

/-- A change of band rate (R76, R104, R112, R118, R89): called once the new rate is in force. The sums of the fast estimate in progress are discarded and its count of samples is kept; the last resolved I_unc is one of any earlier service, through OFF too (DESIGN CHOICES, assumption 63). -/
def rateChange (s : State) (n : Nat) : State :=
  let s := ((s.zeroBank n false).zeroBank n true).cancelSwap n
  let s := (((s.dropProbe n).gateReset n).clearFloor n).restartTrip n
  let s := s.dropCapture n
  let b := s.bp n
  let iso := match b.bw.uncResolved with | some v => v | none => s.planDb n plIsoInit
  let bw := { b.bw with bankB := false, coefBad := [], isoP := iso, isoBw := iso, isoSrc := 3, pSrc := 3, peakNext := none }
  let bw := { bw with peakLag := s.planN n plLagInit, spread := s.planDb n plSpreadInit, fast := { Fast.init with total := bw.fast.total } }
  let s := s.setBp n { b with bw := bw }
  if s.serving n then
    let (moved, s) := s.marginCheck n
    -- the interval in progress is no complete one (R86)
    if moved then (let b := s.bp n; s.setBp n { b with bw := { b.bw with holdOff := 2 } }) else s
  else s

/-! ### Live writes of the datapath (R39, R44, R47, R53, R62) -/

/-- Samples pass: the band path is out of OFF and BARRED. -/
def passing (s : State) (n : Nat) : Bool := match (s.bp n).prot.st with | .off | .barred => false | _ => true

/-- FREQ takes a permitted value (R39, R60, R112). -/
def freqFx (s : State) (n f : Nat) : State :=
  let s := (s.wr (F.bpNcoFreq n) f).clearFloor n
  if s.passing n ∧ (s.gvSource n).isNone then s.clearMore n (s.clearStart n) else s

/-- STEP (R44, R76): ignored unless MODE is RESAMPLER. -/
def stepFx (s : State) (n stp : Nat) : State :=
  if s.pathMode n ≠ 0 ∨ s.rd (F.bpRsmpStepStep n) = stp then s
  else
    let s := s.wr (F.bpRsmpStepStep n) stp
    (if s.passing n then s.clearMore n (s.clearStep n) else s).rateChange n
/-- A STEP value lies in its range. -/
def stepOk (stp : Nat) : Bool := decide (2 ^ 32 ≤ stp) && decide (stp ≤ 2 ^ 33)

/-- The LIVE fields of BP_PATH (R62): one change for each altered field, all together; ignored on a preset and on stages not in use. -/
def pathFx (s : State) (n : Nat) (w : Word) : State :=
  if s.pathMode n ≠ 0 then s
  else
    let old := s
    let used := (List.range 7).filter (fun k => s.halfOf n < k && k ≤ s.ladder n)
    let s := used.foldl (fun s k => s.wr (hbFld n k) (bitsOf w (hbFld n k).hi (hbFld n k).lo)) s
    let s := s.wr (F.bpPathCf n) (bitsOf w 20 17)
    let ks := used.filter (fun k => old.rd (hbFld n k) != s.rd (hbFld n k))
    let cf := old.rd (F.bpPathCf n) != s.rd (F.bpPathCf n)
    let s := if s.passing n then
        let s := ks.foldl (fun s k => s.clearMore n (s.clearHb n k (old.rd (hbFld n k)) (s.rd (hbFld n k)))) s
        if cf then s.clearMore n (s.clearCf n (old.rd (F.bpPathCf n)) (s.rd (F.bpPathCf n))) else s
      else s
    if ks ≠ [] ∨ cf then s.clearFloor n else s

/-- DC_FREEZE (R53, R60). -/
def dcFreezeFx (s : State) (n : Nat) (f : Bool) : State :=
  let was := s.rdB (F.bpCtrlDcFreeze n)
  let s := s.wrB (F.bpCtrlDcFreeze n) f
  if was && !f && s.passing n then s.clearMore n (s.clearDc n) else s

/-- RSMP_RETRY (R47, R60, R61): a grant is a move from preset to resampler; it reads 0 at once. -/
def rsmpRetryFx (s : State) (n : Nat) : State :=
  if s.pathMode n = 2 ∧ s.freeResampler.isSome then
    let s := s.takeResampler n
    let b := s.bp n
    let s := s.setBp n { b with flow := { b.flow with clearLeft := s.clearMove n } }
    s.rateChange n
  else s

/-! ### Swaps (R72, R73, R74) -/

/-- SWAP_ARM with a sample number (R72, R74). -/
def swapArmFx (s : State) (n seq : Nat) : State :=
  let b := s.bp n
  let res := fun (s : State) (r : Nat) => s.setBp n { b with bw := { b.bw with swapResult := BitVec.ofNat 3 r } }
  if b.bw.armed then res s 3
  else
    let s := s.wr (F.bpBwCtrlSwapSeq n) seq
    if !s.passing n then res s 7
    else
      let lead := (BitVec.ofNat 24 seq - (b.flow.seq - 1)).toNat
      if 1 ≤ lead ∧ lead < 2 ^ 23 then s.setBp n { b with bw := { b.bw with armed := true, scan := none } }
      else res s 2

/-- SWAP_SCAN_DONE (R72, R92). -/
def swapScan (s : State) (n : Nat) : State :=
  let b := s.bp n
  if b.bw.armed ∧ b.bw.scan.isNone then
    let (cs, s) := s.readBank n (!b.bw.bankB)
    let b := s.bp n
    s.setBp n { b with bw := { b.bw with scan := some (scanOf cs) } }
  else s

/-- The named sample has come: the next sample is it, or it has passed. -/
def swapDue (s : State) (n : Nat) : Bool :=
  decide (((s.bp n).flow.seq - BitVec.ofNat 24 (s.rd (F.bpBwCtrlSwapSeq n))).toNat < 2 ^ 23)

/-- SWAP_TAKE_EFFECT (R73): the energy bound is compared as a level. -/
def swapNow (s : State) (n : Nat) : State :=
  let b := s.bp n
  if b.bw.armed ∧ s.swapDue n then
    match b.bw.scan with
    | none => s.dropSwap n 2
    | some sc =>
      if sc.poison then s.dropSwap n 6
      else if sc.energy ≠ 0 ∧ s.planDb n plEnergyMax < ratioDb sc.energy (2 ^ 38) then s.dropSwap n 4
      else
        let next := if sc.energy = 0 ∨ !s.canceller n then (s.planN n plLagInit, s.planDb n plSpreadInit) else (s.bulk n + sc.kPeak, sc.spread)
        let bw := { b.bw with bankB := !b.bw.bankB, armed := false, scan := none, swapResult := 1, peakNext := some next, coefBad := [] }
        (s.setBp n { b with bw := bw }).clearMore n 3
  else s

/-! ### The interval end (R82 to R87, R94, R125, R130, R133, R136, R144) -/

/-- Pending limits come into force (R136), and no ceiling stands above its C_max. -/
def limitsNow (s : State) : State :=
  let s := s.limPend.foldl (fun s p =>
    { s with limits := Tbl.set (fun _ => none) s.limits (8 * p.entry + p.item) (some p.value) }) s
  { s with limPend := [] }

/-- A rise of 0.1 dB, exact: the ceiling and its fifths of 2^-24 dB, no higher than C_max (R86). -/
def ceilRise (c : Db) (k : Nat) (cm : Db) : Db × Nat :=
  let r := c + 1677721 + ((k + 3) / 5 : Nat)
  if r < cm then (r, (k + 3) % 5) else (cm, 0)

/-- The fast estimate, I_bw, the margin and the ceiling of one band path in service. -/
def bwJudge (s : State) (n : Nat) : State :=
  let b := s.bp n
  let cm := s.cMax n
  let b := if b.bw.ceiling < cm then b else { b with bw := { b.bw with ceiling := cm, ceilFifths := 0 } }
  let s := s.setBp n b
  let f := b.bw.fast
  let r := s.rate n
  let whole := Nat.max f.total (9830 * r.den / r.num)
  let enough := decide (3 * whole ≤ 4 * f.usable) && decide (0 < f.usable)
  let (iso, s) := if enough then s.drawIso (isolation 0 f.corr f.refPow f.pow f.usable none b.bw.spread (s.gChain n)) else (⟨false, 0, false⟩, s)
  let qual := enough && iso.resolved
  let fastI := if qual then iso.iso else b.bw.isoFast
  let useFast := qual && decide (fastI < b.bw.isoP)
  let b := s.bp n
  let bw := { b.bw with fastQual := qual, isoFast := fastI, isoBw := if useFast then fastI else b.bw.isoP, isoSrc := if useFast then 2 else b.bw.pSrc }
  let s := s.setBp n { b with bw := bw }
  let (moved, s) := s.marginCheck n
  if moved then s
  else
    let b := s.bp n
    if 0 < b.bw.holdOff then (s.setBp n { b with bw := { b.bw with holdOff := b.bw.holdOff - 1 } }).settleSt n
    else if b.bw.ceiling < cm ∧ (b.bw.ceilFifths : Int) + 2 ^ 23 ≤ 5 * (b.bw.isoBw - b.bw.ceiling - s.floorEff n b.bw.floorUse - dB1) then
      let c := ceilRise b.bw.ceiling b.bw.ceilFifths cm
      (s.setBp n { b with bw := { b.bw with ceiling := c.1, ceilFifths := c.2 } }).settleSt n
    else s.settleSt n

/-- N_donor of a band path (R130), −200 on downlink. -/
def nDonorNow (s : State) (n : Nat) (gain : Db) : Db := if s.uplink n then s.floorDbm n + gain + roundEven (137 * dB1) 10000 else dbFloor

/-- Word 0 and word 15 of the records: EVAL_SEQ. -/
def evalWord (s : State) : Word := BitVec.ofNat 40 (s.evalSeq.toNat * 65536)
/-- A saturating count with its overflow in bit 39. -/
def satWord (c : Sat) : Word := BitVec.ofNat 40 (c.field 39)

/-- The breakwater record (R94). -/
def bwRecord (s : State) (n : Nat) (gain : Db) : List Word :=
  let w := (s.bp n).bw
  [s.evalWord, dbWord w.isoUnc, dbWord w.isoRes, dbWord w.isoFast, dbWord w.isoBw, dbWord gain, dbWord w.margin, dbWord w.ceiling,
   dbWord (s.floorEff n w.floorUse), BitVec.ofNat 40 (dbField 16 8 w.spread * 2 ^ 24 + w.peakLag % 8192 * 2 ^ 11),
   BitVec.ofNat 40 (w.measSeq.toNat * 65536 + bit w.fastQual * 4 + bit w.resBound * 2 + bit w.uncBound),
   satWord w.backoffCnt, satWord w.tripCnt, w.probeHi, w.probeLo, s.evalWord]

/-- FLOOR_AGE in µs (R113). -/
def floorAge (s : State) (n : Nat) : Nat := if !(s.bp n).floor.begun then 0 else Nat.min ((s.setCyc - (s.bp n).floor.since) * 100 / 98304) (2 ^ 40 - 1)

/-- The gain record (R125). -/
def gainRecord (s : State) (n : Nat) (gain : Db) : List Word :=
  let b := s.bp n
  let g := b.gain
  let rise := if g.nrValid then s.floorDbm n - g.nrRef else 0
  let flags := b.idle.2 * 2 ^ 38 + bit (b.idle.2 == 1) * 2 ^ 37 + bit b.floor.stale * 2 ^ 36 + bit g.nrValid * 2 ^ 35
    + bit b.flow.meterOut.fineReady * 2 ^ 34 + b.flow.meterOut.window.length * 2 ^ 27 + b.mask.consec * 2 ^ 25
    + b.mask.backoff * 2 ^ 19 + g.openSrc.toNat * 2 ^ 16
  [s.evalWord, dbWord gain, dbWord (g.want + s.gChain n), dbWord b.flow.meterOut.coarse, dbWord b.flow.meterOut.fine,
   dbWord b.idle.1, dbWord (s.floorDbm n), dbWord rise, dbWord g.nrRef, dbWord g.pFrz, BitVec.ofNat 40 (s.floorAge n),
   BitVec.ofNat 40 flags, BitVec.ofNat 40 (g.openCnt.field 19 * 2 ^ 20 + g.falseCnt.field 19),
   BitVec.ofNat 40 (g.capCnt.field 19 * 2 ^ 20 + b.mask.violCnt.field 19),
   BitVec.ofNat 40 (b.mask.maskSeq.toNat * 65536 + b.mask.staleCnt.field 15), s.evalWord]

/-- P_OUT: the coarse egress power at the antenna port. -/
def pOut (s : State) (n : Nat) : Db := (s.bp n).flow.meterOut.coarse + s.figOut n

/-- The protection record (R144). -/
def protRecord (s : State) (n : Nat) : List Word :=
  let p := (s.bp n).prot
  [s.evalWord, dbWord p.nDonor, dbWord (s.nMax n), dbWord (s.pOut n), dbWord (s.limPower n), dbWord (s.limGain n), dbWord p.duty,
   dbWord (s.limDuty n), satWord p.muteCnt, satWord p.holdCnt, satWord p.lockCnt, p.lastMuteHi, p.lastMuteLo, 0, 0, s.evalWord]

/-- What the next interval uses from its start: no mute counted in it yet (R142), an empty fast estimate, the FLOOR written so far (R91), and the lag and spread of a swap (R73). -/
def nextInterval (s : State) (n : Nat) : State :=
  let b := s.bp n
  let ls := b.bw.peakNext.getD (b.bw.peakLag, b.bw.spread)
  let bw := { b.bw with floorUse := BitVec.ofNat 11 (s.rd (F.bpBwCtrlFloor n)), fast := Fast.init }
  s.setBp n { b with bw := { bw with peakLag := ls.1, spread := ls.2, peakNext := none }, prot := { b.prot with tripIv := none } }

/-- What the end of an evaluation interval does to one band path. Its record of R125 gives the band gain the interval ended with, before a back-off of this very evaluation, and its other words as that evaluation leaves them (DESIGN CHOICE, assumption 72). -/
def intervalEnd (s : State) (n : Nat) : State :=
  let gain := s.bandGain n
  let b := s.bp n
  let bars := decide (b.flow.meterOut.window.length = 64) && decide (s.limPower n + dB1 < s.pOut n) && s.passing n
  let s :=
    if bars then s.enterBarred n 8
    else if s.serving n then
      let noise := s.nDonorNow n gain
      let s := s.bwJudge n
      let b := s.bp n
      let s := s.setBp n { b with prot := { b.prot with nDonor := noise } }
      if s.uplink n && decide (s.nMax n < noise) && (s.serving n || (s.bp n).prot.tripIv == some s.evalSeq) then
        (s.tripped n 4).report (srcBp n) 12 1 (Config.msgContext (srcBp n) 12 0)
      else s
    else s
  let s := s.holdPuts (0x3FF800 + 16 * n) (s.bwRecord n gain)
  let s := s.holdPuts (0x3FF000 + 16 * n) (s.gainRecord n gain)
  let s := s.holdPuts (0x3FE800 + 16 * n) (s.protRecord n)
  s.nextInterval n

end State

/-! ### The oscillation trip (R89, R90) -/

namespace State

/-- W of R89: the larger of 16 and floor(256 f / 983.04) with f in MHz. -/
def tripW (s : State) (n : Nat) : Nat := let r := s.rate n; Nat.max 16 (256 * 61440 * r.den / (98304 * r.num))

/-- A whole sub-window closes: compared with the earlier ones that ended within 4 µs, and a trip mutes (R90). -/
def tripClose (s : State) (n : Nat) : State :=
  let b := s.bp n
  match b.bw.tripDone with
  | [] => s
  | w :: t =>
    let s := s.setBp n { b with bw := { b.bw with tripDone := t } }
    if w.tainted then s
    else
      let r := s.rate n
      let out := powerDb w.outSum (w.n * 2 ^ 38)
      let l := out - w.endGain - powerDb w.inSum (w.n * 2 ^ 38)
      let near := b.bw.tripHist.filter (fun p => decide ((w.endAt - p.at_) * r.num * 10 ≤ 24576 * r.den))
      let trips := near.any (fun p => decide (p.out + 3 * dB1 < out) && decide (p.loop + 3 * dB1 < l))
      let b := s.bp n
      let s := s.setBp n { b with bw := { b.bw with tripHist := ⟨w.endAt, out, l⟩ :: near } }
      if trips && s.serving n then
        let b := s.bp n
        let c := Max.max (s.gBottom n) (w.endGain - 6 * dB1)
        let s := s.setBp n { b with bw := { b.bw with ceiling := c, ceilFifths := 0, tripCnt := b.bw.tripCnt.inc 39 } }
        let s := ((s.wr (F.bpBwStatOscTrip n) 1).ceilGain n).tripped n 1
        s.report (srcBp n) 1 1 (Config.msgContext (srcBp n) 1 0)
      else s

/-! ### Duty, donors and limits (R131, R132, R136) -/

/-- The cycle at which the `k`-th duty bucket ends (R132): they lie back to back, DUTY_WIN/64 each, from the passage from OFF to STARTING. -/
def bucketDue (s : State) (n k : Nat) : Nat := (s.bp n).prot.bucketFrom + ceilDiv (k * (s.limDutyWin n).toNat * secCyc) (64 * 2 ^ 24)
/-- A duty bucket ends when its time has passed (R132). Buckets before the passage from OFF count as whole and not emitting; without any sample the duty is an open value. -/
def dutyEnd (s : State) (n : Nat) : State :=
  if !s.passing n || decide (s.setCyc < s.bucketDue n ((s.bp n).prot.bucketN + 1)) then s
  else
    let b := s.bp n
    let bs := (b.prot.bucket :: b.prot.buckets).take 64
    let r := s.rate n
    let before := (64 - bs.length) * (s.limDutyWin n).toNat * 614400000 * r.den / (64 * 2 ^ 24 * r.num)
    let emit : Nat := bs.foldl (fun t x => t + x.emit) 0
    let total : Nat := bs.foldl (fun t x => t + x.total) before
    let (d, s) := if total = 0 then (let (w, s') := s.free; (w.toInt, s')) else (roundEven (100 * dB1 * (emit : Int)) total, s)
    let b := s.bp n
    let s := s.setBp n { b with prot := { b.prot with buckets := bs, bucket := Bucket.zero, bucketN := b.prot.bucketN + 1, duty := d } }
    let mx := s.limDuty n
    if mx < 100 * dB1 ∧ mx ≤ d then s.setHeld n (fun h => { h with duty := true })
    else if 100 * dB1 ≤ mx ∨ d ≤ mx - 2 * dB1 then s.setHeld n (fun h => { h with duty := false })
    else s

/-- A donor's lane is locked: a Guvan source has none. -/
def donorLane (s : State) (d : Nat) : Bool := match s.chSource d with | some c => (s.chain c).jrxLock | none => true

/-- The coarse power of a donor is judged for its watchers at each of its samples (R131). -/
def donorWatch (s : State) (d : Nat) : State :=
  let p := (s.bp d).flow.meterIn.coarse
  (s.watchers d).foldl (fun s n =>
    let b := s.bp n
    let mn := s.planDb n plDonorMin
    let since := fun (o : Option Nat) => match o with | some t => some t | none => some s.setCyc
    let low := if p < mn then since b.prot.donorLow else none
    let ok := if mn + 3 * dB1 ≤ p ∧ s.donorLane d then since b.prot.donorOk else none
    s.setBp n { b with prot := { b.prot with donorLow := low, donorOk := ok } }) s

/-- The bounds of an item in 2^-24 of its unit (R133). -/
def limRange (item : Nat) : Db × Db :=
  atD [(-50 * dB1, 60 * dB1), (-30 * dB1, 140 * dB1), (-200 * dB1, 0), (dB1, 100 * dB1), (10 * dB1, 60 * dB1)] item (0, -1)
/-- A limits write is within the item's range and stricter than its latest accepted value (R133, R136); an equal value is not. -/
def limStricter (s : State) (e item : Nat) (v : Db) : Bool :=
  let cur := s.limLatest e item
  decide ((limRange item).1 ≤ v) && decide (v ≤ (limRange item).2) && (if item = 4 then decide (cur < v) else decide (v < cur))

/-- FLOOR is no lower than the limits' minimum (R84). -/
def floorOk (s : State) (n v : Nat) : Bool := decide (s.limFloor n ≤ (v : Int) * 2 ^ 20)

end State

/-! ### Events -/

/-- SWAP_SCAN_DONE (R72). -/
def execSwapScanDone (bp : BpId) (s : State) : Host.Outcome State Fault Refusal := .next (s.swapScan bp.toNat)
/-- SWAP_TAKE_EFFECT (R73). -/
def execSwapTakeEffect (bp : BpId) (s : State) : Host.Outcome State Fault Refusal := .next (s.swapNow bp.toNat)
/-- PROBE_MEASUREMENT_DONE (R81). -/
def execProbeMeasurementDone (bp : BpId) (s : State) : Host.Outcome State Fault Refusal := .next (s.probeDone bp.toNat)
/-- CLK_E cycles of an evaluation interval: 1 966 CLK_S cycles (R82). -/
def intervalCyc : Nat := 15728
/-- BW_INTERVAL_END (R82): limits first, then every band path of the plan by number, then the count. The intervals run back to back from PLL lock, so one ends only at a multiple of their length. -/
def execBwIntervalEnd (s : State) : Host.Outcome State Fault Refusal :=
  if s.cyc % intervalCyc = 0 then
    let s := s.limitsNow
    let s := s.planned.foldl (fun s n => s.intervalEnd n) s
    .next { s with evalSeq := s.evalSeq + 1 }
  else .next s
/-- TRIP_SUBWINDOW_END (R89). -/
def execTripSubwindowEnd (bp : BpId) (s : State) : Host.Outcome State Fault Refusal := .next (s.tripClose bp.toNat)
/-- RESAMPLER_RESET_DONE (R46): the next released instance starts its reset (R26). -/
def execResamplerResetDone (inst : BitVec 6) (s : State) : Host.Outcome State Fault Refusal :=
  match s.resampler inst.toNat with
  | .resetting t => if t ≤ s.cyc then .next ((s.setResampler inst.toNat .free).nextReset) else .next s
  | _ => .next s
/-- RETRY_TIMER_EXPIRY (R139, R140, R142). -/
def execRetryTimerExpiry (bp : BpId) (s : State) : Host.Outcome State Fault Refusal :=
  let n := bp.toNat
  let b := s.bp n
  match b.prot.retryAt with
  | some t => if t ≤ s.setCyc then .next (((s.setBp n { b with prot := { b.prot with retryAt := none } }).release n).cxOf n) else .next s
  | none => .next s
/-- RETRY_EXP_RESET (R139). -/
def execRetryExpReset (bp : BpId) (s : State) : Host.Outcome State Fault Refusal :=
  let n := bp.toNat
  let b := s.bp n
  match b.prot.serviceFrom with
  | some t => if t + 3600 * secCyc ≤ s.setCyc ∧ s.serving n then .next (s.setBp n { b with prot := { b.prot with retryExp := 0 } }) else .next s
  | none => .next s
/-- DONOR_LOSS (R131). -/
def execDonorLoss (bp : BpId) (s : State) : Host.Outcome State Fault Refusal :=
  let n := bp.toNat
  let p := (s.bp n).prot
  -- a donor that has passed no sample yet has read below any DONOR_MIN since PLL lock
  let low := match p.donorLow with
    | some t => some t
    | none => if (s.bp (s.planN n plDonorBp)).flow.meterIn.coarse < s.planDb n plDonorMin then some 0 else none
  match low with
  | some t =>
    if s.planHas n plDonorBp ∧ !p.donorLost ∧ t + s.planN n plLossT * msCyc ≤ s.setCyc then
      .next ((s.crossEntry n 1).donorLost n)
    else .next s
  | none => .next s
/-- DONOR_RESTORE (R131). -/
def execDonorRestore (bp : BpId) (s : State) : Host.Outcome State Fault Refusal :=
  let n := bp.toNat
  let b := s.bp n
  let d := s.planN n plDonorBp
  match b.prot.donorOk with
  | some t =>
    if s.planHas n plDonorBp ∧ b.prot.donorLost ∧ t + 100 * msCyc ≤ s.setCyc ∧ s.donorLane d ∧ s.passing d then
      let s := s.crossEntry n 2
      .next ((s.setBp n { b with prot := { b.prot with donorLost := false, donorLow := none } }).setHeld n (fun h => { h with donor := false }))
    else .next s
  | none => .next s
/-- DUTY_BUCKET_END (R132). -/
def execDutyBucketEnd (bp : BpId) (s : State) : Host.Outcome State Fault Refusal := .next (s.dutyEnd bp.toNat)

/-- MUTE_N changes level (R137, R400): the cause is set at once on every bound band path and removed 2 CLK_S cycles after MUTE_N reads high; the edge is journalled. -/
def muteNFx (s : State) (high : Bool) : State :=
  if s.pins.muteN = high then s
  else
    let s := { s with pins := { s.pins with muteN := high } }
    let s := if high then s else s.inc F.protStatMnCnt F.protStatMnOvf
    let s := s.journal 3 (5 + bit high * 16) s.cycW 0 0
    if high then s.offSoon none false
    else
      (s.planned.filter (fun n => s.planN n plMuteNBind == 1)).foldl (fun s n =>
        if s.replayMode && s.selected.contains n then s else s.setHeld n (fun h => { h with muteN := true })) (s.offNever none false)
/-- MUTE_N_FALL (R137). -/
def execMuteNFall (s : State) : Host.Outcome State Fault Refusal := .next (muteNFx s false)
/-- MUTE_N_RISE (R137). -/
def execMuteNRise (s : State) : Host.Outcome State Fault Refusal := .next (muteNFx s true)

/-- FINE_METER_BLOCK_DONE (R54): the oldest whole block replaces the fine value. -/
def meterBlock (m : Meter) : Meter :=
  match m.blocks with
  | [] => m
  | x :: t =>
    let e := powerDb x (65536 * 2 ^ 38)
    let err := Config.meterError x 65536
    let bound := roundEven dB1 100
    let v := if x = 0 then dbFloor else Max.max dbFloor (e + if -150 * dB1 < e then clampI (-bound) bound err else err)
    { m with blocks := t, fine := v, fineReady := true }
/-- FINE_METER_BLOCK_DONE (R54, R115). -/
def execFineMeterBlockDone (bp : BpId) (egress : Bool) (s : State) : Host.Outcome State Fault Refusal :=
  let n := bp.toNat
  let b := s.bp n
  .next (s.setBp n { b with flow := if egress then { b.flow with meterOut := meterBlock b.flow.meterOut } else { b.flow with meterIn := meterBlock b.flow.meterIn } })
/-- VALID_CLEAR_RUN_END (R55, R60): the run of VALID-clear samples has ended, and the meters start again. -/
def execValidClearRunEnd (bp : BpId) (s : State) : Host.Outcome State Fault Refusal :=
  let n := bp.toNat
  let b := s.bp n
  if b.flow.clearLeft = 0 ∧ !b.flow.validOut then
    .next (s.setBp n { b with flow := { b.flow with meterIn := State.meterCleared b.flow.meterIn, meterOut := State.meterCleared b.flow.meterOut } })
  else .next s

end Sys2Proof.Machine
end

