-- ==== Sys2Proof/Machine/Dsp.lean ====
section
/-! DEFINITION. The filters of a band path: on ingress the NCO, the half-band ladder, the channel filter and the resampler (R35, R38, R40, R42 to R44), on egress the shaping filter, the interpolating section, the half-band stages and the NCO of each JTX destination (R45, R56, R116). The ROM responses are those of `Roms`; the resampler's are open values of `Config`. -/

namespace Sys2Proof.Machine

/-! ### exp(j·2π·φ/2^32) (R38, R56) -/

/-- Bound on a component's error that keeps spurious products 115 dB down (R38): 10^(−115/20)/√2 in 2^-40. -/
def ncoBound : Int := 1382562
/-- exp(j·2π·φ/2^32) in 2^-40 as the NCO forms it: the value and its bounded error. -/
def phasor (p : BitVec 32) : Cplx :=
  let cs := quarterTrig (p.toNat % 2 ^ 30)
  let e : Cplx := ⟨cs.1 / 2 ^ 20, cs.2 / 2 ^ 20⟩
  let e : Cplx := match p.toNat / 2 ^ 30 with
    | 0 => e
    | 1 => ⟨-e.im, e.re⟩
    | 2 => ⟨-e.re, -e.im⟩
    | _ => ⟨e.im, -e.re⟩
  e.add ⟨clampI (-ncoBound) ncoBound (Config.ncoError p false), clampI (-ncoBound) ncoBound (Config.ncoError p true)⟩

/-! ### Filters -/

/-- Taps of a half-band variant (R40). -/
def hbTaps (v : Nat) : Nat := 2 * hbDelay v + 1
/-- Taps of a channel filter (R42). -/
def cfTaps (c : Nat) : Nat := 2 * cfDelay c + 1
/-- A linear-phase response of `m` taps: tap j and tap m − 1 − j are one. -/
def linearPhase (c : Nat → Int) (m j : Nat) : Int := c (Nat.min j (m - 1 - j))
/-- The sum of `c j` times sample j of a line, from sample `j` on, exact. -/
def firFrom (c : Nat → Int) (j : Nat) : List Cplx → Cplx
  | [] => Cplx.zero
  | x :: t => (⟨c j * x.re, c j * x.im⟩ : Cplx).add (firFrom c (j + 1) t)
/-- Response of half-band stage `k` in variant `v` (R40). -/
def hbResponse (k v j : Nat) : Int := linearPhase (hbTap k v) (hbTaps v) j
/-- A sample entered in a line of `m`. -/
def pushLine (m : Nat) (l : List Cplx) (x : Cplx) : List Cplx := (x :: l).take m
/-- Resampling at fraction `p` (of 2^32) between inputs: branch p[31:24] and the next, blended by p[23:8], in 2^-75 for a line in 2^-19. The line's newest sample is the one the branch after the last starts at. -/
def blend (rom : Nat → Nat → Int) (l : List Cplx) (p : Nat) : Cplx :=
  let k := p / 2 ^ 24
  let w : Int := ((p / 2 ^ 8 % 2 ^ 16 : Nat) : Int)
  let a := firFrom (rom k) 0 ((l.drop 1).take 16)
  let b := if k = 255 then firFrom (rom 0) 0 (l.take 16) else firFrom (rom (k + 1)) 0 ((l.drop 1).take 16)
  ⟨a.re * (65536 - w) + b.re * w, a.im * (65536 - w) + b.im * w⟩

namespace State

/-- Count saturated output samples (R43). -/
def countSat (s : State) (n k : Nat) : State :=
  let top := 2 ^ 23 - 1
  let v := Nat.min (s.rd (F.bpStatSatCnt n) + k) top
  let s := s.wr (F.bpStatSatCnt n) v
  if v = top then s.wr (F.bpStatSatOvf n) 1 else s
/-- Narrow a stage's output from `k` fraction bits more than s1.19, and count it if it saturates (R8, R43). -/
def narrowed (s : State) (n : Nat) (x : Cplx) (k : Nat) : Cplx × State :=
  let r := narrowC x k
  (cOf r.1, if r.2 then s.countSat n 1 else s)
/-- Replace the filters of a band path. -/
def setDsp (s : State) (n : Nat) (d : BpDsp) : State :=
  let b := s.bp n
  s.setBp n { b with flow := { b.flow with dsp := d } }

/-! ### Ingress -/

/-- A 16-bit converter sample in bits [19:4] of its component (R35). -/
def convSample (w : Word) : Cplx := ⟨16 * sx 16 (bitsOf w 15 0), 16 * sx 16 (bitsOf w 31 16)⟩
/-- The next sample of a chain: what its converters send is open; zero while the lane has no lock (R37). -/
def chainSample (s : State) (c : Nat) : Cplx × State :=
  if (s.chain c).jrxLock then (let (w, s') := s.free; (convSample w, s')) else (Cplx.zero, s)
/-- Stage 1 on the next chain sample: mixed by exp(−j·2π·φ/2^32), then φ advances by FREQ (R38). -/
def ncoSample (s : State) (n c : Nat) : Cplx × State :=
  let (x, s) := s.chainSample c
  let b := s.bp n
  let s := s.setBp n { b with flow := { b.flow with phase := b.flow.phase + BitVec.ofNat 32 (s.rd (F.bpNcoFreq n)) } }
  s.narrowed n (x.mul (phasor b.flow.phase).conj) 40
/-- The output of ladder stage `k` for two input samples (R40). -/
def hbStage (s : State) (n k : Nat) (a b : Cplx) : Cplx × State :=
  let d := (s.bp n).flow.dsp
  let v := s.hbInUse n k
  let l := pushLine (hbTaps v) (pushLine (hbTaps v) (Tbl.get (fun _ => []) d.hb k) a) b
  (s.setDsp n { d with hb := Tbl.set (fun _ => []) d.hb k l }).narrowed n (firFrom (hbResponse k v) 0 l) 40
/-- The next output of the lowest `k` stages in use. -/
def ladderSample (s : State) (n c : Nat) : Nat → Cplx × State
  | 0 => s.ncoSample n c
  | k + 1 =>
    let (a, s) := s.ladderSample n c k
    let (b, s) := s.ladderSample n c k
    s.hbStage n (s.halfOf n + k + 1) a b
/-- The next channel filter output (R42): CF0 passes its input. -/
def filterSample (s : State) (n c : Nat) : Cplx × State :=
  let (x, s) := s.ladderSample n c (s.ladder n - s.halfOf n)
  let f := s.cfInUse n
  if f = 0 then (x, s)
  else
    let d := (s.bp n).flow.dsp
    let l := pushLine (cfTaps f) d.cf x
    (s.setDsp n { d with cf := l }).narrowed n (firFrom (linearPhase (cfTap f) (cfTaps f)) 0 l) 40
/-- `k` more ladder samples enter the resampler's line. -/
def resamplerFeed (s : State) (n c : Nat) : Nat → State
  | 0 => s
  | k + 1 =>
    let (x, s) := s.filterSample n c
    let d := (s.bp n).flow.dsp
    (s.setDsp n { d with rs := pushLine 17 d.rs x }).resamplerFeed n c k
/-- The next stage 4 output of a chain-fed band path: the preset's, or the resampler's at its position, which advances by STEP (R32, R44). -/
def stageFour (s : State) (n c : Nat) : Cplx × State :=
  if s.pathMode n = 0 then
    let p := (s.bp n).flow.rsmpPos + s.rd (F.bpRsmpStepStep n)
    let s := s.resamplerFeed n c (p / 2 ^ 32)
    let b := s.bp n
    let s := s.setBp n { b with flow := { b.flow with rsmpPos := p % 2 ^ 32 } }
    s.narrowed n (blend Config.rsmpRom b.flow.dsp.rs (p % 2 ^ 32)) 56
  else s.filterSample n c

/-! ### Egress -/

/-- The JTX destinations of a band path: destination number and chain. -/
def jtxDests (s : State) (n : Nat) : List (Nat × Nat) :=
  (List.range 4).filterMap (fun k => let d := s.dest n k; if d.1 && !d.2.1 then some (k, d.2.2) else none)
/-- Bits below the sample step 2^-19 that the samples of stages 11 and 12 are held with: the stage 10 output is not narrowed (R43, assumption 73). -/
def egressBits : Nat := 40
/-- Narrow a stage's output in 2^-(59 + k), and hold the result in 2^-59 again. -/
def narrowedOut (s : State) (n : Nat) (x : Cplx) (k : Nat) : Cplx × State :=
  let r := s.narrowed n x (k + egressBits)
  (⟨r.1.re * 2 ^ egressBits, r.1.im * 2 ^ egressBits⟩, r.2)
/-- Stage 11's shaping filter on a stage 10 output (R116); bypassed in a plan without SHAPE. -/
def shapeStep (s : State) (n : Nat) (y : Cplx) : Cplx × State :=
  if s.planHas n plShape then
    let d := (s.bp n).flow.dsp
    let l := pushLine 64 d.shape y
    let z := (((s.planPool n plShape).take 64).zip l).foldl (fun t p => t.add ((cOf p.1).mul p.2)) Cplx.zero
    (s.setDsp n { d with shape := l }).narrowedOut n z 19
  else (y, s)
/-- The interpolating section's outputs for one band sample (R45, R56): at every ladder period that falls before the next band sample, `p` of 2^32 ladder periods being spent. The fuel is 2, as STEP is at most 2. -/
def upOutputs (s : State) (n stp : Nat) (l : List Cplx) (p : Nat) : Nat → List Cplx × State
  | 0 => ([], s)
  | k + 1 =>
    if p < stp then
      let (y, s) := s.narrowedOut n (blend Config.rsmpUpRom l (p * 2 ^ 32 / stp)) 56
      let (ys, s) := s.upOutputs n stp l (p + 2 ^ 32) k
      (y :: ys, s)
    else ([], s)
/-- The ladder-rate samples of one shaped sample: those of the interpolating section where an instance is held, else the sample itself. -/
def upStep (s : State) (n : Nat) (z : Cplx) : List Cplx × State :=
  if (s.bp n).flow.inst.isSome then
    let d := (s.bp n).flow.dsp
    let l := pushLine 17 d.up z
    let stp := s.rd (F.bpRsmpStepStep n)
    let (ys, s) := s.upOutputs n stp l d.upPos 2
    let d := (s.bp n).flow.dsp
    (ys, s.setDsp n { d with up := l, upPos := d.upPos + ys.length * 2 ^ 32 - stp })
  else ([z], s)
/-- An interpolating half-band stage on one sample (R40, R56): two outputs, of the sample and of the zero set after it, at twice the response. -/
def ehbStage (s : State) (n k : Nat) (x : Cplx) : List Cplx × State :=
  let d := (s.bp n).flow.dsp
  let v := s.planN n (plEhb + k - 1)
  let l1 := pushLine (hbTaps v) (Tbl.get (fun _ => []) d.ehb k) x
  let l2 := pushLine (hbTaps v) l1 Cplx.zero
  let (a, s) := (s.setDsp n { d with ehb := Tbl.set (fun _ => []) d.ehb k l2 }).narrowedOut n (firFrom (hbResponse k v) 0 l1) 39
  let (b, s) := s.narrowedOut n (firFrom (hbResponse k v) 0 l2) 39
  ([a, b], s)
/-- Interpolating stages `k`, `k` − 1, … on samples, `c` of them. -/
def ehbSteps (s : State) (n k : Nat) (xs : List Cplx) : Nat → List Cplx × State
  | 0 => (xs, s)
  | c + 1 =>
    let (ys, s) := xs.foldl (fun (a : List Cplx × State) x => let r := a.2.ehbStage n k x; (a.1 ++ r.1, r.2)) ([], s)
    s.ehbSteps n (k - 1) ys c
/-- The ladder point at which egress interpolation starts: the ladder's, or that of a Guvan source's container rate. A container rate that is no 614.4/2^k Msps has no resampler to meet the JTX rate with, and its samples go through the stages of the next higher point (DESIGN CHOICE, assumption 72: R56 names none). -/
def upLadder (s : State) (n : Nat) : Nat :=
  if s.pathMode n = 3 then Nat.log2 ((s.rate n).num / Nat.max 1 (s.rate n).den) else s.ladder n
/-- A stage 10 output on its way to the JTX lanes of the band path (R56): shaped and interpolated once, the samples then wait for each destination. Of those that wait, at most twice what one band sample gives are kept. -/
def egressStep (s : State) (n : Nat) (y : Cplx) : State :=
  match s.jtxDests n with
  | [] => s
  | (k0, c0) :: t =>
    let (z, s) := s.shapeStep n y
    let (us, s) := s.upStep n z
    let l := s.upLadder n
    let (xs, s) := s.ehbSteps n l us (l - s.rd (F.chJtxCfgHalfRate c0))
    let d := (s.bp n).flow.dsp
    let put := fun (q : Tbl (List Cplx)) (k : Nat) =>
      let w := Tbl.get (fun _ => []) q k ++ xs
      Tbl.set (fun _ => []) q k (w.drop (w.length - 2 * xs.length))
    s.setDsp n { d with out := (((k0, c0) :: t).map (·.1)).foldl put d.out }
/-- Stage 12 for one destination (R56): the next sample that waits, mixed by exp(+j·2π·φ/2^32), and φ advances by EFREQ. Nothing that waits contributes zero. -/
def egressNco (s : State) (n k : Nat) : Cplx × State :=
  let d := (s.bp n).flow.dsp
  let q := Tbl.get (fun _ => []) d.out k
  let p := Tbl.get (fun _ => 0#32) d.ephase k
  let ef := BitVec.ofNat 32 (s.planN n (plEfreq + k))
  let s := s.setDsp n { d with out := Tbl.set (fun _ => []) d.out k (q.drop 1), ephase := Tbl.set (fun _ => 0#32) d.ephase k (p + ef) }
  s.narrowed n (((q.head?).getD Cplx.zero).mul (phasor p)) (40 + egressBits)

end State

end Sys2Proof.Machine
end

