-- ==== Sys2Proof/Machine/Sample.lean ====
section
/-! DEFINITION. One band-rate sample through the stages of a band path (R17, R18, R37, R43, R52 to R59, R63, R68, R72, R77, R82, R89, R96 to R111, R115, R118, R126, R132, R261, R294, R295, R399, R404, R405). -/

namespace Sys2Proof.Machine

/-- A sample on its way: data, VALID, whether its source substituted it, and whether it enters at stage 6. -/
structure Sample where
  x : Cplx
  valid : Bool
  sub : Bool
  atSix : Bool
  deriving DecidableEq, Repr

/-- A tag-plane word of 16 samples (R63). -/
def tagWord (l : List (Bool × Bool)) : Word :=
  BitVec.ofNat 40 ((l.foldl (fun (a : Nat × Nat) t => (a.1 + (bit t.1 * 2 + bit t.2) * 4 ^ a.2, a.2 + 1)) (0, 0)).1)

/-- The tag-plane words of a run of samples. -/
def tagPlane (l : List (Bool × Bool)) : Nat → List Word
  | 0 => []
  | k + 1 => tagWord (l.take 16) :: tagPlane (l.drop 16) k

/-- Frame period of a Guvan mode in CLK_T cycles (R286). -/
def frameTicks (m : Nat) : Nat := atD [78, 156, 312, 624, 1248, 2496] m 78

namespace State

/-! ### Sources -/

/-- The groups of a capture region (R399). -/
def regionGroups (s : State) : Nat := let k := s.selected.length; if k = 0 then 0 else 1376256 / (19 * k)
/-- Hold address of a group of a region. -/
def groupAddr (s : State) (n g : Nat) : Nat :=
  720896 + s.selIndex n * 19 * s.regionGroups + 19 * (if s.regionGroups = 0 then 0 else g % s.regionGroups)

/-- The device queues the descriptor that moves the next recorded group of a band path to its INJECT tap: the tag word and the 16 samples (R404). -/
def injFeed (s : State) (n : Nat) : State :=
  let g := Tbl.get (fun _ => 0) s.rpl.injNext n
  let s := { s with rpl := { s.rpl with injNext := Tbl.set (fun _ => 0) s.rpl.injNext n (g + 1) } }
  s.enqueue (s.capChannel n) (devDesc 4 0 (s.groupAddr n g) 7 n 0 17 1 0)

/-- A recorded sample waits at the stage 6 input of a band path. -/
def injReady (s : State) (n : Nat) : Bool := Tbl.get (fun _ => []) s.rpl.inWords n != [] || decide (17 ≤ (s.injWords n).length)

/-- The next recorded sample of a region (R404): when the last group is used up the next one leaves the INJECT tap, and the descriptor of a later one is queued. -/
def replaySample (s : State) (n : Nat) : Sample × State :=
  let left := Tbl.get (fun _ => []) s.rpl.inWords n
  let (ws, ts, s) := if left = [] then
      let w := s.injWords n
      let k := Tbl.get (fun _ => 0) s.rpl.injSkip n
      let ts := (List.range 16).map (fun j => (atD w 0 0).getLsbD (2 * j + 1))
      let r := s.rpl
      let r := { r with groups := Tbl.set (fun _ => 0) r.groups n (Tbl.get (fun _ => 0) r.groups n + 1), injSkip := Tbl.set (fun _ => 0) r.injSkip n 0 }
      (((w.drop 1).take 16).drop k, ts.drop k, (({ s with rpl := r } : State).setInjWords n (w.drop 17)).injFeed n)
    else (left, Tbl.get (fun _ => []) s.rpl.inTags n, s)
  let r := s.rpl
  let s := { s with rpl := { r with inWords := Tbl.set (fun _ => []) r.inWords n (ws.drop 1), inTags := Tbl.set (fun _ => []) r.inTags n (ts.drop 1) } }
  (⟨cOf (atD ws 0 0), atD ts 0 false, false, true⟩, s)

/-- A sample from an inbound container stream (R295): released once the buffer has held S + 16, zero with VALID clear otherwise; an underflow counts in SLIP_CNT and release waits for a refill, which counts as a band path start. A poisoned word is a sample with VALID clear (R313). Nothing leaves the buffers while DL6, which serves them, is stopped (R258; DESIGN CHOICE, assumption 74). -/
def gvSample (s : State) (n p src : Nat) : Sample × State :=
  let none' : Sample := ⟨Cplx.zero, false, true, false⟩
  let q := s.port p
  if !s.portUp p || s.ltrStopped 518 then (none', s)
  else
    let r := s.rate n
    let x := Tbl.get (fun _ => RxStream.empty) q.rx src
    let put := fun (s : State) (x : RxStream) =>
      let q := s.port p
      s.setPort p { q with rx := Tbl.set (fun _ => RxStream.empty) q.rx src x }
    let starts := !x.released && decide (20 * r.den * frameTicks q.mode.toNat + 16 * r.num ≤ x.buf.length * r.num)
    if x.released || starts then
      let s := if starts && x.refill then s.clearMore n 4 else s
      match x.buf with
      | v :: t =>
        let bad := q.badRx.contains (src, 0)
        let s := (put s ⟨t, true, false⟩).rxShift p src
        (⟨cOf v.word, v.valid && !bad, v.lost, false⟩, if bad then s.report (srcGv p) 7 1 (s.gvCtx p 0) else s)
      | [] => (none', ((put s ⟨[], false, true⟩).inc (F.gvSlipSlipCnt p) (F.gvSlipSlOvf p)).report (srcGv p) 11 0 (s.gvCtx p 0))
    else (none', s)

/-- The sample that reaches stage 5, or stage 6 in a replay (R37, R38, R44, R295, R404). While a lane has no lock its zero samples run through stages 1 to 4 with VALID clear. -/
def source (s : State) (n : Nat) : Sample × State :=
  if s.rpl.st = .replaying then s.replaySample n
  else match s.gvSource n with
  | some (p, src) => s.gvSample n p src
  | none =>
    match s.chSource n with
    | none => (⟨Cplx.zero, false, true, false⟩, s)
    | some c =>
      let lock := (s.chain c).jrxLock
      let (x, s) := s.stageFour n c
      (⟨x, lock, !lock, false⟩, s)

/-! ### Stages -/

/-- Stage 5, the DC blocker (R52): the estimate is kept to 40 fraction bits. -/
def dcBlock (s : State) (n : Nat) (x : Cplx) : Cplx × State :=
  let b := s.bp n
  let m := b.flow.dc
  let y : Cplx := ⟨x.re * 2 ^ 21 - m.re, x.im * 2 ^ 21 - m.im⟩
  let k : Int := 2 ^ s.planN n plDcK
  let m' : Cplx := if s.rdB (F.bpCtrlDcFreeze n) then m else ⟨m.re + y.re / k, m.im + y.im / k⟩
  let s := s.setBp n { b with flow := { b.flow with dc := m' } }
  s.narrowed n y 21

/-- Add a VALID sample to a meter (R54). -/
def meterAdd (m : Meter) (p : Nat) : Meter :=
  let w := (p :: m.window).take 64
  let sum := w.foldl (· + ·) 0
  let err := Config.meterError sum w.length
  let bound := roundEven dB1 100
  let e := powerDb sum (w.length * 2 ^ 38)
  let v := if sum = 0 then dbFloor else Max.max dbFloor (e + if -150 * dB1 < e then clampI (-bound) bound err else err)
  let m := { m with window := w, coarse := v }
  if 65535 ≤ m.fineN then { m with fineSum := 0, fineN := 0, blocks := m.blocks ++ [m.fineSum + p] }
  else { m with fineSum := m.fineSum + p, fineN := m.fineN + 1 }

/-- A sample at a meter: VALID-clear samples at the band path output restart it (R55). -/
def meterStep (m : Meter) (valid : Bool) (p : Nat) : Meter := if valid then meterAdd m p else meterCleared m

/-- Hold address of the delay word of sample `seq`: the granted words are written in turn. -/
def delayAddr (s : State) (n : Nat) (seq : BitVec 24) : Nat :=
  s.delayBase n + (let d := (s.bp n).flow.delayWords; if d = 0 then 0 else seq.toNat % d)

/-- The sample of age d_b leaves the delay pool for the taps; where its word is poisoned every tap reads zero and DELAY_POISON is sent (R92). -/
def delayRead (s : State) (n : Nat) : State :=
  let d := s.bulk n
  let b := s.bp n
  let a := s.delayAddr n (b.flow.seq - BitVec.ofNat 24 d)
  if b.flow.delayWords = 0 ∨ s.cell .hold a = Cell.zero then s
  else
    let (r, s) := s.memRead .hold a (srcBp n)
    if r.poison then
      let b := s.bp n
      let s := s.setBp n { b with flow := { b.flow with ref := setAt' b.flow.ref (d - 1) Cplx.zero } }
      s.report (srcBp n) 5 2 (Config.msgContext (srcBp n) 5 a)
    else s

/-- A sample enters the delay pool: the write of its word clears what a soft error had left there (R255). -/
def delayWrite (s : State) (n : Nat) (seq : BitVec 24) : State :=
  let a := s.delayAddr n seq
  if (s.bp n).flow.delayWords = 0 ∨ s.cell .hold a = Cell.zero then s else s.memWrite .hold a 0

/-- Stage 7, canceller subtraction (R68, R69, R92): poisoned coefficients contribute zero and are reported once. -/
def cancel (s : State) (n : Nat) (x : Cplx) : Cplx × State :=
  if !s.canceller n then (x, s)
  else
    let s := s.delayRead n
    let (cs, s) := s.readBank n (s.bp n).bw.bankB
    let b := s.bp n
    let y := b.flow.ref.drop (s.bulk n - 1)
    let est := (cs.zip y).foldl (fun t p => t.add (p.1.1.mul p.2)) Cplx.zero
    let bad := ((List.range cs.length).zip cs).filterMap (fun p => if p.2.2 && !b.bw.coefBad.contains p.1 then some p.1 else none)
    let s := s.setBp n { b with bw := { b.bw with coefBad := b.bw.coefBad ++ bad } }
    let s := bad.foldl (fun s k => s.report (srcBp n) 4 2 (bpCtx n k)) s
    s.narrowed n ⟨x.re * 2 ^ 19 - est.re, x.im * 2 ^ 19 - est.im⟩ 19

/-- The detector, the signs and the gate's judgement of a stage 7 output sample (R97, R102, R103, R105, R106, R110). -/
def gateStep (s : State) (n : Nat) (r : Cplx) (valid sub : Bool) : State :=
  let b := s.bp n
  let p := r.normSq
  let g := { b.gain with det := if sub then b.gain.det else (p :: b.gain.det).take 8, signs := ((r, valid) :: b.gain.signs).take 256 }
  let s := s.setBp n { b with gain := g }
  let d := s.detDb n
  let f := (s.bp n).idle.1
  let j : GateSample := ⟨p, decide (f + s.planDb n plOpenTh ≤ d), decide (f + s.planDb n plRefConfTh ≤ d), decide (d < f + s.planDb n plCloseTh)⟩
  let keep := Nat.max (s.countOf n plConfirm) (s.countOf n plHang)
  let b := s.bp n
  let g := b.gain
  let g := if valid then { g with recent := (j :: g.recent).take keep, run := if j.above then g.run + 1 else 0, verifyN := g.verifyN + 1 } else g
  let g := if valid then { g with capRun := if g.pFrz + 6 * dB1 ≤ d then g.capRun + 1 else 0 } else g
  let g := if g.gate = .resettle then { g with rsLeft := g.rsLeft - 1, rsSum := g.rsSum + p, rsN := g.rsN + 1 } else g
  s.setBp n { b with gain := g }

/-- Stage 8: the applied step's gain (R96). -/
def gainStage (s : State) (n : Nat) (r : Cplx) : Cplx × State :=
  let k := (s.bp n).gain.step
  let y : Cplx := ⟨gainMul r.re k, gainMul r.im k⟩
  (satC y, if satC y = y then s else s.countSat n 1)

/-- The band path carries its probe (R78, R81). -/
def probing (s : State) (n : Nat) : Bool := s.serving n && !s.harbourOf

/-- The chip added at the stage 10 output, in 2^-59; a measurement starts with the level and lags of its first sample (R78, R79). -/
def probeChip (s : State) (n : Nat) : Cplx × State :=
  if !s.probing n then (Cplx.zero, if (s.bp n).bw.probe.isSome then s.dropProbe n else s)
  else
    let b := s.bp n
    let p : Probe := match b.bw.probe with
      | some p => p
      | none =>
        let level := b.idle.1 + stepDb b.gain.step - 25 * dB1
        let ls := b.bw.peakNext.getD (b.bw.peakLag, b.bw.spread)
        ⟨level, probeAmp level, ls.1 - 1, ls.2, 0, 0, [], [], 0, 0, [], []⟩
    (chip n p.count p.amp, s.setBp n { b with bw := { b.bw with probe := some p } })

/-- Four running sums with four terms added. -/
def addC (a t : List Cplx) : List Cplx := if a = [] then t else (a.zip t).map (fun p => p.1.add p.2)
/-- Four running powers with four terms added. -/
def addN (a t : List Nat) : List Nat := if a = [] then t else (a.zip t).map (fun p => p.1 + p.2)

/-- The probe measurement takes a chip (R79, R81): `z` before and after the canceller. It is discarded when too few of its chips can be VALID. Chips of before its first sample are zero, not the last measurement's (DESIGN CHOICE, assumption 63). -/
def probeStep (s : State) (n : Nat) (zin zout c : Cplx) (valid : Bool) : State :=
  let b := s.bp n
  match b.bw.probe with
  | none => s
  | some p =>
    if 2 ^ 20 ≤ p.count then s
    else
      let chips := (c :: p.chips).take (p.lag + 4)
      let pl := (List.range 4).map (fun i => atD chips (p.lag + i) Cplx.zero)
      let p := { p with count := p.count + 1, chips := chips }
      let p := if valid then
          { p with nValid := p.nValid + 1, corrIn := addC p.corrIn (pl.map (fun y => zin.mul y.conj)), corrOut := addC p.corrOut (pl.map (fun y => zout.mul y.conj)), powIn := p.powIn + zin.normSq, powOut := p.powOut + zout.normSq, refPow := addN p.refPow (pl.map Cplx.normSq) }
        else p
      let few := decide (2 ^ 19 < p.count - p.nValid)
      s.setBp n { b with bw := { b.bw with probe := if few then none else some p } }

/-- The fast estimate takes a sample (R82): usable when VALID and not GATED at the output. -/
def fastStep (s : State) (n : Nat) (r : Cplx) (usable : Bool) : State :=
  let b := s.bp n
  let f := { b.bw.fast with total := b.bw.fast.total + 1 }
  let f := if usable then
      let y := (List.range 4).map (fun i => atD b.flow.ref (b.bw.peakLag + i - 2) Cplx.zero)
      { f with usable := f.usable + 1, corr := addC f.corr (y.map (fun v => r.mul v.conj)), refPow := addN f.refPow (y.map Cplx.normSq), pow := f.pow + r.normSq }
    else f
  s.setBp n { b with bw := { b.bw with fast := f } }

/-- The trip's sub-window takes a sample (R89). P_out is taken with the probe in the stage 10 output (DESIGN CHOICE, assumption 63). -/
def tripStep (s : State) (n : Nat) (zin out : Cplx) (usable : Bool) : State :=
  let b := s.bp n
  let w := b.bw.trip
  let k := b.bw.tripN + 1
  let w := { w with n := w.n + 1, outSum := w.outSum + out.normSq, inSum := w.inSum + zin.normSq, tainted := w.tainted || !usable }
  if s.tripW n ≤ w.n then
    s.setBp n { b with bw := { b.bw with tripN := k, trip := TripWin.init, tripDone := b.bw.tripDone ++ [{ w with endAt := k, endGain := s.bandGain n }] } }
  else s.setBp n { b with bw := { b.bw with tripN := k, trip := w } }

/-- The floor block takes a sample (R111). -/
def floorStep (s : State) (n : Nat) (r : Cplx) (ok : Bool) : State :=
  let b := s.bp n
  let f := b.floor
  let f := { f with curSum := f.curSum + r.normSq, curN := f.curN + 1, curOk := f.curOk && ok }
  let f := if 1024 ≤ f.curN then { f with whole := f.whole ++ [(f.curSum, f.curOk)], curSum := 0, curN := 0, curOk := true } else f
  s.setBp n { b with floor := f }

/-- The mask capture and its tap take a sample of the stage 10 output (R118, R261). -/
def maskStep (s : State) (n : Nat) (seq : BitVec 24) (w : Word) (valid gated : Bool) : State :=
  let b := s.bp n
  let m := b.mask
  if !s.maskOn n || !s.serving n || m.done || decide (s.planN n plMaskAvg ≤ m.captured) || decide (m.periodStart + 8 * msCyc ≤ s.setCyc) then s
  else
    let t := s.tap n
    if !valid then (s.setBp n { b with mask := { m with block := 0 } }).setTap n { t with mOut := [], mTags := [] }
    else
      let t := if t.mOut = [] then { t with mSeq := seq } else t
      let t := { t with mOut := t.mOut ++ [w], mTags := t.mTags ++ [(true, gated)] }
      if 4096 ≤ t.mOut.length then
        let words := BitVec.ofNat 40 (t.mSeq.toNat * 65536) :: (tagPlane t.mTags 256 ++ t.mOut)
        (s.setBp n { b with mask := { m with block := 0, captured := m.captured + 1 } }).setTap n
          { t with mOut := [], mTags := [], mWhole := t.mWhole ++ [⟨words⟩] }
      else (s.setBp n { b with mask := { m with block := t.mOut.length } }).setTap n t

/-- The adaptation tap takes a sample (R75, R261): a block of 512 ends with its record. -/
def adaptStep (s : State) (n : Nat) (seq : BitVec 24) (r : Cplx) (valid gated : Bool) : State :=
  if !s.canceller n then s
  else
    let t := s.tap n
    let t := if t.aRes = [] then { t with aSeq := seq } else t
    let t := { t with aRes := t.aRes ++ [wOfC r], aTags := t.aTags ++ [(valid, gated)] }
    if 512 ≤ t.aRes.length then
      let taps := s.planN n plTaps
      let ref := (s.bp n).flow.ref
      let d := s.bulk n
      let ys := (List.range (511 + taps)).map (fun i => wOfC (atD ref (d + taps + 509 - i) Cplx.zero))
      let words := BitVec.ofNat 40 (t.aSeq.toNat * 65536) :: (tagPlane t.aTags 32 ++ t.aRes ++ ys)
      s.setTap n { t with aRes := [], aTags := [], aWhole := t.aWhole ++ [⟨words⟩] }
    else s.setTap n t

/-- Capture of a selected band path (R399, R402): a group of 16 samples comes to the CAPTURE tap when it is whole, and its DL channel moves it into the ring; after a freeze only the group in progress is finished. -/
def captureStep (s : State) (n : Nat) (x6 : Cplx) (v6 valid gated : Bool) (out : Word) : State :=
  let r := s.rpl
  let inW := Tbl.get (fun _ => []) r.inWords n
  let going := r.st == .recording || (r.st == .frozen && inW != [])
  if !going || !s.selected.contains n || decide (s.regionGroups = 0) then s
  else
    let inT := Tbl.get (fun _ => []) r.inTags n ++ [v6]
    let outT := Tbl.get (fun _ => []) r.outTags n ++ [(valid, gated)]
    let outW := Tbl.get (fun _ => []) r.outWords n ++ [out]
    let r := if inW = [] then { r with groupAt := Tbl.set (fun _ => 0) r.groupAt n s.cyc } else r
    let inW := inW ++ [wOfC x6]
    if inW.length < 16 then
      let r := { r with inWords := Tbl.set (fun _ => []) r.inWords n inW, inTags := Tbl.set (fun _ => []) r.inTags n inT }
      { s with rpl := { r with outTags := Tbl.set (fun _ => []) r.outTags n outT, outWords := Tbl.set (fun _ => []) r.outWords n outW } }
    else
      let g := Tbl.get (fun _ => 0) r.groups n
      let sig := (crc32 (outW.flatMap wordBytes)).toNat * 256 + g % 256
      let words := tagWord (inT.map (fun v => (v, false))) :: (inW ++ [tagWord outT, BitVec.ofNat 40 sig])
      let group : CapGroup := ⟨BitVec.ofNat 7 n, s.groupAddr n g, words⟩
      let cycs := (Tbl.get (fun _ => 0) r.groupAt n :: Tbl.get (fun _ => []) r.groupCyc n).take s.regionGroups
      let r := { r with groups := Tbl.set (fun _ => 0) r.groups n (g + 1), groupCyc := Tbl.set (fun _ => []) r.groupCyc n cycs }
      let r := { r with firstSample := Tbl.set (fun _ => 0) r.firstSample n (cycs.getLast?.getD 0), inWords := Tbl.set (fun _ => []) r.inWords n [] }
      let r := { r with inTags := Tbl.set (fun _ => []) r.inTags n [], outTags := Tbl.set (fun _ => []) r.outTags n [] }
      let r := { r with outWords := Tbl.set (fun _ => []) r.outWords n [], capWait := r.capWait ++ [group] }
      ({ s with rpl := r } : State).capFeed (s.capChannel n)

/-- A word of the record the comparator compares with (R405): read with the outcomes of R255, a poisoned one agreeing with nothing. -/
def recordIs (s : State) (a : Nat) (w : Word) : Bool × State :=
  let r := s.memRead .hold a srcHold
  (!r.1.poison && r.1.word == w, r.2)

/-- The divergence comparator on a group of a replay (R405): its output tags and signature. -/
def compareStep (s : State) (n : Nat) (valid gated : Bool) (out : Word) : State :=
  if s.rpl.st ≠ .replaying then s
  else
    let outT := Tbl.get (fun _ => []) s.rpl.outTags n ++ [(valid, gated)]
    let outW := Tbl.get (fun _ => []) s.rpl.outWords n ++ [out]
    let put := fun (s : State) (t : List (Bool × Bool)) (w : List Word) =>
      let r := s.rpl
      { s with rpl := { r with outTags := Tbl.set (fun _ => []) r.outTags n t, outWords := Tbl.set (fun _ => []) r.outWords n w } }
    if Tbl.get (fun _ => []) s.rpl.inWords n ≠ [] then put s outT outW
    else
      let g := Tbl.get (fun _ => 0) s.rpl.groups n - 1
      let a := s.groupAddr n g
      let t := s.recordIs (a + 17) (tagWord outT)
      let s := if t.1 then t.2 else t.2.diverge 2 n (g % 2 ^ 24)
      let c := s.recordIs (a + 18) (BitVec.ofNat 40 ((crc32 (outW.flatMap wordBytes)).toNat * 256 + g % 256))
      put (if c.1 then c.2 else c.2.diverge 1 n (g % 2 ^ 24)) [] []

/-- Pack the output into the outbound streams of a band path (R58, R59, R126, R294). -/
def packStep (s : State) (n : Nat) (out : Word) (valid gated : Bool) : State :=
  let clear := match (s.bp n).prot.st with
    | .muted | .lockedOut | .barred => true
    | _ => s.boot.harbour || s.replayMode
  (List.range 4).foldl (fun s k =>
    let d := s.dest n k
    let p := d.2.2 % 8
    if d.1 && d.2.1 && (s.port p).framesOn then
      let q := s.port p
      let l := Tbl.get (fun _ => []) q.tx n
      s.setPort p { q with tx := Tbl.set (fun _ => []) q.tx n (l ++ [⟨out, valid && !clear, gated, false⟩]) }
    else s) s

/-- The word a stage 10 output in 2^-59 is stored as: where it goes into 40 bits it is narrowed as R8 has it, which R43 counts nowhere (DEDUCED, assumption 73). -/
def outSample (y : Cplx) : Cplx := cOf (narrowC y probeBits).1

/-- One band sample through stages 5 to 12 (R17). -/
def bandSample (s : State) (n : Nat) : State :=
  let (x, s) := s.source n
  let (x6, s) := if x.atSix then (x.x, s) else s.dcBlock n x.x
  let seq := (s.bp n).flow.seq
  -- the count of invalid samples stands at the band path output (R60)
  let b := s.bp n
  let valid := x.valid && decide (b.flow.clearLeft = 0)
  let closed := b.gain.gate = .closed
  let gated := s.uplink n && closed
  let (r, s) := s.cancel n x6
  let s := s.gateStep n r x.valid x.sub
  let s := ((s.rampCheck n).agcUpdate n).gainClear n
  -- a gain step of more than 0.5 dB clears its own sample first
  let valid := valid && decide ((s.bp n).flow.clearLeft = 0)
  let (y, s) := s.gainStage n r
  let b := s.bp n
  let p := b.prot
  let silent := (p.st == .muted || p.st == .lockedOut) && decide (p.mutedAt + 40 ≤ s.setCyc)
  let y := if gated || silent then Cplx.zero else y
  let fl := { b.flow with clearLeft := b.flow.clearLeft - 1, seq := seq + 1, validOut := valid, gatedOut := gated }
  let fl := { fl with meterIn := meterStep fl.meterIn valid x6.normSq, meterOut := meterStep fl.meterOut valid y.normSq }
  let s := s.setBp n { b with flow := fl }
  let (c, s) := s.probeChip n
  let full : Cplx := ⟨y.re * 2 ^ probeBits + c.re, y.im * 2 ^ probeBits + c.im⟩
  let out := outSample full
  let w := wOfC out
  let usable := valid && !gated
  let s := s.fastStep n r usable
  let s := s.probeStep n x6 r c valid
  let s := s.tripStep n x6 out usable
  let s := s.floorStep n r (valid && decide closed)
  let s := s.maskStep n seq w valid gated
  let s := s.adaptStep n seq r valid gated
  let b := s.bp n
  let keep := Nat.max (s.bulk n + s.planN n plTaps + 512) (b.bw.peakLag + 4)
  let e := if s.serving n && !gated then 1 else 0
  let bk := b.prot.bucket
  let fl := { b.flow with outWord := w, ref := (out :: b.flow.ref).take keep }
  let s := (s.setBp n { b with flow := fl, prot := { b.prot with bucket := ⟨bk.emit + e, bk.total + 1⟩ } }).delayWrite n seq
  let s := s.egressStep n full
  let s := s.captureStep n x6 x.valid valid gated w
  let s := s.compareStep n valid gated w
  let s := s.packStep n w valid gated
  s.donorWatch n

end State

/-- BAND_SAMPLE (R17): no sample passes in OFF or BARRED (R72), nor through a band path outside the plan or, in replay mode, outside a running replay (R404), where one passes when DL0 to DL3 have brought it to the stage 6 input. -/
def execBandSample (bp : BpId) (s : State) : Host.Outcome State Fault Refusal :=
  let n := bp.toNat
  let runs := if s.replayMode then s.rpl.st == .replaying && s.selected.contains n && s.injReady n else true
  if s.present n && s.passing n && runs then .next (s.bandSample n) else .next s

end Sys2Proof.Machine
end

