-- ==== Sys2Proof/Machine/Chain.lean ====
section
/-! DEFINITION. The RF front end and coexistence: FE sequences, the chain state machine, TDD switch points, calibrations and the coexistence ports (R145 to R170), and the JESD lanes of a chain (R33, R34, R37, R57). -/

namespace Sys2Proof.Machine

/-! ### Configuration (R147, R150) -/

/-- The fields of a chain the image does not name. -/
def chainCfgNone : ChainCfg where
  chain := 0
  configured := false
  slots := []
  durations := []
  devices := []
  startup := 0
  background := 0
  rxOk := 0
  bgInt := []
  calReqTimeout := 0
  settleRx := 0
  settleTx := 0
  paLead := 0
  tddPeriod := 0
  tddPhase := 0
  points := []

/-- Sequence slot of a command's target: 2 TO_RX, 3 TO_TX, 4 TO_READY. -/
def toSlot (t : ChSt) : Nat :=
  match t with
  | .receive => 2
  | .transmit => 3
  | _ => 4

namespace State

/-- The image's fields of chain `c`. -/
def chainCfg (s : State) (c : Nat) : ChainCfg :=
  match s.img.chains.find? (fun x => x.chain.toNat == c) with
  | some x => x
  | none => chainCfgNone
/-- The chain follows the TDD schedule: CTRL is SCHEDULE (R150). -/
def onSchedule (s : State) (c : Nat) : Bool := s.rdB (F.chFeCfgCtrl c)
/-- First entry of a sequence slot, if it is not empty. -/
def seqStart (s : State) (c slot : Nat) : Option Nat := assoc (s.chainCfg c).slots slot
/-- Duration of a sequence in CLK_E cycles: 16 in an SCLK cycle (R145); an empty slot takes 0. -/
def seqDur (s : State) (c slot : Nat) : Nat := match assoc (s.chainCfg c).durations slot with | some d => 16 * d | none => 0
/-- Context word of a front-end fault (R169). -/
def feCtx (c slot entry : Nat) : Word := BitVec.ofNat 40 (c * 2 ^ 36 + slot * 2 ^ 32 + entry % 4096)

/-- PAn_EN is driven high (R153, R404, R470). -/
def paEn (s : State) (c : Nat) : Bool := (s.chain c).st == .transmit && s.rdB (F.paCtrlEn c) && !s.rfOff
/-- The JTX stream is blanked (R154). -/
def jtxBlank (s : State) (c : Nat) : Bool := (s.chain c).st != .transmit

/-- RESULT of CH_FE_CMD. -/
def setResult (s : State) (c r : Nat) : State :=
  let ch := s.chain c
  s.setChain c { ch with result := BitVec.ofNat 4 r }
/-- A C0 note of a chain. -/
def chNote (s : State) (c detail : Nat) : State := s.note (srcCh c) (Config.msgContext (srcCh c) kNote detail)
/-- A refused command (R151). -/
def feRefuse (s : State) (c cmd : Nat) : State := (s.setResult c 4).chNote c cmd

/-- Cycle at which CS_N rises after the last transfer of a chain's port: b + 2 SCLK cycles after it fell (R146). -/
def csRise (s : State) (c : Nat) : Nat :=
  match (s.chain c).xfer with
  | some x => x.start + 16 * (x.len + 2)
  | none => 0
/-- A transfer is in progress (R146, R149). -/
def inTransfer (s : State) (c : Nat) : Bool := decide (s.cyc < s.csRise c)
/-- PA_LEAD in CLK_E cycles, rounded up to whole SCLK cycles (R156). -/
def leadOf (s : State) (c : Nat) : Nat := 16 * ceilDiv ((s.chainCfg c).paLead * 6144) 100000
/-- First cycle of a switch point's sequence: the latest falling edge of SCLK that lets its last transfer end at the point (R156). -/
def pointSeq (s : State) (c slot f : Nat) : Nat := 16 * ((f - s.seqDur c slot) / 16)

/-- First cycle of a sequence asked for now: `lead` cycles on, not before its switch point's start, and for one with transfers on the SCLK grid with CS_N high for 2 SCLK cycles before it (R146, R156). -/
def seqBegin (s : State) (c slot lead : Nat) (point : Option Nat) : Nat :=
  let a := match point with
    | some f => Nat.max (s.cyc + lead) (s.pointSeq c slot f)
    | none => s.cyc + lead
  if (s.seqStart c slot).isNone then a
  else 16 * ceilDiv (Nat.max a (match (s.chain c).xfer with | some _ => s.csRise c + 32 | none => 0)) 16

/-- The run of a sequence slot asked for now; an empty slot is at its END at once (R147). -/
def newRun (s : State) (c slot lead : Nat) (point : Option Nat) : SeqRun :=
  let e := s.seqStart c slot
  let a := s.seqBegin c slot lead point
  ⟨BitVec.ofNat 4 slot, e.getD 0, a, a, a, none, none, point, e.isNone⟩

/-- Start the sequence of a slot; while a C4 latch holds nothing is sent any more (R168, R372). -/
def startSeqFor (s : State) (c slot lead : Nat) (point : Option Nat) : State :=
  let ch := s.chain c
  s.setChain c { ch with seq := if s.latched then none else some (s.newRun c slot lead point), settleAt := none }
/-- Start the sequence of a slot for no switch point. -/
def startSeq (s : State) (c slot : Nat) : State := s.startSeqFor c slot 0 none

/-- Enter SWITCHING toward a target (R151, R156); TO_RX follows PA_LEAD after the PA is off (R150). -/
def enterSwitch (s : State) (c : Nat) (t : ChSt) (point : Option Nat) : State :=
  let ch := s.chain c
  (s.setChain c { ch with st := .switching, target := t, calBusy := false }).startSeqFor c (toSlot t)
    (if t = .receive then s.leadOf c else 0) point

/-! ### The schedule (R156, R161) -/

/-- The switch point in force: the last whose offset the frame has passed, else the last of the list. -/
def pointNow (s : State) (c : Nat) : Option TddPoint :=
  let ch := s.chain c
  let ps := (s.chainCfg c).points
  match (ps.filter (fun p => decide (ch.frameStart + 8 * p.offset ≤ s.cyc))).getLast? with
  | some p => some p
  | none => ps.getLast?
/-- State in force by the schedule. -/
def inForce (s : State) (c : Nat) : ChSt :=
  match s.pointNow c with
  | some p => if p.toTx then .transmit else .receive
  | none => .receive
/-- TDD_PERIOD in 2^-24 ns. -/
def tddPer (s : State) (c : Nat) : Int := (s.chainCfg c).tddPeriod * ns1
/-- Calendar time into the frame that a time lies in, in 2^-24 ns (R156). -/
def intoFrame (s : State) (c : Nat) (t : Int) : Int := (t - (s.chainCfg c).tddPhase * ns1) % s.tddPer c
/-- The last CLK_T edge is the first at which the counter has reached or passed a frame's instant (R156). -/
def frameCrossed (s : State) (c : Nat) : Bool :=
  decide (0 < s.tddPer c) && decide (s.time.prev < s.time.now) &&
    decide ((s.time.prev - (s.chainCfg c).tddPhase * ns1) / s.tddPer c < (s.time.now - (s.chainCfg c).tddPhase * ns1) / s.tddPer c)
/-- Cycle of the next frame boundary: the end of the frame in progress at the old phase after a step, else the CLK_T edge that reaches the next instant at the counter's nominal rate of 1 638 400 000 per three ticks (R156, R157). -/
def frameNext (s : State) (c : Nat) : Nat :=
  match (s.chain c).frameEnd with
  | some e => e
  | none => 32 * (s.cyc / 32) + 32 * ceilDiv (3 * (s.tddPer c - s.intoFrame c s.time.now).toNat) 1638400000
/-- Cycle at which a switch point's preroll begins, for the point at cycle `f`: PREROLL before it, on the SCLK grid, with PA_LEAD before TO_RX (R156). -/
def prerollAt (s : State) (c : Nat) (p : TddPoint) (f : Nat) : Nat :=
  if p.toTx then s.pointSeq c 3 f else s.pointSeq c 2 f - s.leadOf c
/-- Cycle of the next instance of a switch point: in the frame in progress while it lies ahead and within it, else in the next (R156, R157). -/
def pointAt (s : State) (c : Nat) (p : TddPoint) : Nat :=
  let f := (s.chain c).frameStart + 8 * p.offset
  if s.cyc ≤ f ∧ f < s.frameNext c then f else s.frameNext c + 8 * p.offset
/-- Cycle at which the next sequence of the schedule begins, if there is one. -/
def nextSeqAt (s : State) (c : Nat) : Option Nat :=
  ((s.chainCfg c).points.map (fun p => s.prerollAt c p (s.pointAt c p))).foldl (fun (b : Option Nat) t =>
    if s.cyc < t then some (match b with | some u => Nat.min t u | none => t) else b) none

/-! ### Calibrations (R159 to R163) -/

/-- A calibration may start now (R161): in a gap of the schedule from RECEIVE or READY, or after another in it; on a COMMAND chain in READY, and in RECEIVE where RX_OK allows. -/
def calFits (s : State) (c k : Nat) : Bool :=
  let ch := s.chain c
  let cfg := s.chainCfg c
  (s.seqStart c (8 + k)).isSome &&
    if s.onSchedule c then
      ((ch.joined && ch.st == .receive) || ch.st == .ready || (ch.st == .calibrating && !ch.calFromLock)) &&
        (match s.pointNow c with | some p => p.gap && !p.toTx | none => false) &&
        (match s.nextSeqAt c with | some t => decide (s.cyc + s.seqDur c (8 + k) + s.seqDur c 2 ≤ t) | none => false)
    else
      match ch.st with
      | .ready => true
      | .calibrating => !ch.calFromLock
      | .receive => cfg.rxOk.getLsbD k
      | _ => false

/-- The lowest calibration of a set at or above `k`, for which a test holds. -/
def lowCal (m : BitVec 8) (k : Nat) (p : Nat → Bool) : Option Nat :=
  (List.range 8).find? (fun j => decide (k ≤ j) && m.getLsbD j && p j)

/-- Start calibration `k`: CALIBRATING from READY or after a lock, CAL_BUSY in RECEIVE. -/
def startCal (s : State) (c k : Nat) : State :=
  let ch := s.chain c
  let st := if ch.st = .receive then ChSt.receive else .calibrating
  (s.setChain c { ch with st := st, calBusy := true, calRun := BitVec.ofNat 3 k, scratch := [] }).startSeq c (8 + k)

/-- A mode S request is refused (R162). -/
def refuseCal (s : State) (c k : Nat) : State :=
  let ch := s.chain c
  let s := s.setChain c { ch with pending := ch.pending &&& ~~~(1#8 <<< k), reqDue := ch.reqDue.filter (fun p => p.1 != k) }
  (s.setResult c 4).chNote c (16 + k)

/-- A calibration is discarded on abort or failure; a request already past its deadline is refused. -/
def discardCal (s : State) (c k : Nat) : State :=
  let ch := s.chain c
  let s := s.setChain c { ch with scratch := [], calBusy := false, seq := none, startup := ch.startup &&& ~~~(1#8 <<< k) }
  match assoc ch.reqDue k with
  | some d => if d ≤ s.cyc then s.refuseCal c k else s
  | none => s

/-- Commitment of a calibration (R159). -/
def commitCal (s : State) (c k : Nat) : State :=
  let ch := s.chain c
  let s := ch.scratch.foldl (fun s p => (s.wr (F.chFeResultValue c p.1) p.2.toNat).wr (F.chFeResultCal c p.1) k) s
  let s := (s.wr (F.chFeCalTimeHiTime c) s.nowHi.toNat).wr (F.chFeCalTimeLoTime c) s.nowLo.toNat
  let bit' : BitVec 8 := 1#8 <<< k
  let ch' := { ch with scratch := [], calBusy := false, seq := none, startup := ch.startup &&& ~~~bit' }
  let ch' := { ch' with done := ch.done ||| bit', pending := ch.pending &&& ~~~bit', reqDue := ch.reqDue.filter (fun p => p.1 != k) }
  s.setChain c { ch' with failConsec := setAt' ch.failConsec k 0, committedAt := assocSet ch.committedAt k s.cyc }

/-! ### Failures (R151, R158, R169) -/

/-- A failure that may be FE_FAULT: the held command refused, and a message with hint C2. In POWERED_DOWN the state stands unless `force`. -/
def feFailed (s : State) (c : Nat) (force : Bool) (kind result slot entry : Nat) : State :=
  let ch := s.chain c
  let s := if ch.held.isSome then s.setResult c result else s
  let ch := s.chain c
  let st := if ch.st = .poweredDown && !force then ChSt.poweredDown else .feFault
  let s := { s with boot := { s.boot with feAwait := s.boot.feAwait.erase c } }
  let ch' := { ch with st := st, held := none, seq := none, settleAt := none, calBusy := false, scratch := [] }
  (s.setChain c { ch' with faultKind := BitVec.ofNat 3 kind, faultEntry := BitVec.ofNat 12 entry }).report (srcCh c) kind 2 (feCtx c slot entry)
/-- The failure of a sequence other than CAL; during an abort it is FE_FAULT in every state (R168). -/
def feFail (s : State) (c kind result slot entry : Nat) : State :=
  s.feFailed c (match (s.chain c).seq with | some r => r.abort.isSome | none => false) kind result slot entry
/-- A parity error in chain state (R169): FE_FAULT at once, with the slot and entry of the sequence that runs. -/
def feParity (s : State) (c : Nat) : State :=
  match (s.chain c).seq with
  | some r => s.feFailed c true 5 4 r.slot.toNat r.entry
  | none => s.feFailed c true 5 4 0 0

/-! ### Commands (R151, R158) -/

/-- Calibration `k` becomes pending; in mode S with a deadline (R162). -/
def pendCal (s : State) (c k : Nat) : State :=
  let ch := s.chain c
  let due := if s.rdB (F.chFeCfgCalMode c) then ch.reqDue else assocSet ch.reqDue k (s.cyc + nsCyc (s.chainCfg c).calReqTimeout)
  s.setChain c { ch with pending := ch.pending ||| (1#8 <<< k), reqDue := due }

/-- A RETUNE or LOCK begins SYNTH_LOCKING. -/
def enterLock (s : State) (c slot : Nat) (left : ChSt) : State :=
  let ch := s.chain c
  (s.setChain c { ch with st := .synthLocking, lockFrom := s.cyc, lockLeft := left }).startSeq c slot

/-- POWER_DOWN from any state. -/
def fePowerDown (s : State) (c : Nat) : State :=
  let ch := s.chain c
  let had := ch.held.isSome
  let ch' := { ch with st := .poweredDown, held := none, settleAt := none, calBusy := false, scratch := [], startup := 0 }
  let s := match ch.seq with
    | some r => s.setChain c { ch' with seq := if r.ended then none else some { r with abort := some .powerDown } }
    | none => s.setChain c ch'
  let s := if (s.chain c).seq.isNone then s.startSeq c 5 else s
  s.setResult c (if had then 6 else 1)

/-- Run a command that is not held, by the rows of R151. POWER_UP in POWERED_DOWN starts UP at once, also while DOWN, or the abort that leads to it, is under way: that is cut short (DESIGN CHOICE, assumption 72: R151 names the state alone). -/
def feRun (s : State) (c cmd arg : Nat) (fromPoint : Bool) : State :=
  let ch := s.chain c
  let sched := s.onSchedule c
  let ok := fun (s : State) => if fromPoint then s else s.setResult c 1
  let go := fun (t : ChSt) => ok (s.enterSwitch c t none)
  match cmd with
  | 1 =>
    if ch.st = .poweredDown then
      let up := (s.chainCfg c).startup
      let ch' := { ch with st := .biasing, failConsec := [0, 0, 0, 0, 0, 0, 0, 0], done := 0, startup := up, pending := ch.pending ||| up }
      ok ((s.setChain c { ch' with faultKind := 0 }).startSeq c 0)
    else s.feRefuse c cmd
  | 3 =>
    if sched && !fromPoint then
      if ch.st = .ready && !ch.joined then
        ok ((s.setChain c { ch with joined := true, joinedAt := s.cyc }).enterSwitch c (s.inForce c) none)
      else s.feRefuse c cmd
    else if ch.st = .ready ∨ ch.st = .transmit then go .receive
    else s.feRefuse c cmd
  | 4 =>
    if sched && !fromPoint then s.feRefuse c cmd
    else if ch.st = .ready ∨ ch.st = .receive then go .transmit
    else s.feRefuse c cmd
  | 5 =>
    if ch.st = .receive ∨ ch.st = .transmit then ok ((s.setChain c { ch with joined := false }).enterSwitch c .ready none)
    else s.feRefuse c cmd
  | 6 =>
    if arg ≤ 1 ∧ (ch.st = .ready ∨ ch.st = .receive ∨ ch.st = .transmit) then ok (s.enterLock c (6 + arg) ch.st)
    else s.feRefuse c cmd
  | 7 =>
    if arg ≤ 7 ∧ (s.seqStart c (8 + arg)).isSome then
      match ch.st with
      | .poweredDown | .feFault | .biasing | .synthLocking => s.feRefuse c cmd
      | _ =>
        let s := ok (s.pendCal c arg)
        if (s.chain c).seq.isNone && s.calFits c arg then s.startCal c arg else s
    else s.feRefuse c cmd
  | 8 =>
    if ch.st = .feFault then ok ((s.setChain c { ch with st := .poweredDown }).startSeq c 5)
    else s.feRefuse c cmd
  | _ => s.feRefuse c cmd

/-- The chain holds commands after a lock: BIASING, SYNTH_LOCKING, or CALIBRATING from it (R158). -/
def lockHolds (s : State) (c : Nat) : Bool :=
  let ch := s.chain c
  ch.st == .biasing || ch.st == .synthLocking || (ch.st == .calibrating && ch.calFromLock)
/-- A calibration runs, or its restore in RECEIVE, outside a lock (R163). -/
def calHolds (s : State) (c : Nat) : Bool :=
  let ch := s.chain c
  (ch.st == .calibrating && !ch.calFromLock) || (ch.st == .receive && ch.seq.isSome)

/-- Hold a command, replacing a held one (R158). -/
def feHold (s : State) (c cmd arg : Nat) (fromPoint : Bool) : State :=
  let ch := s.chain c
  let had := ch.held.isSome
  let s := if had then s.inc (F.chFeCnt1ReplaceCnt c) (F.chFeCnt1RpOvf c) else s
  let ch := s.chain c
  let s := s.setChain c { ch with held := some ⟨BitVec.ofNat 4 cmd, BitVec.ofNat 4 arg, fromPoint⟩ }
  s.setResult c (if had && fromPoint then 3 else 2)

/-- TRANSMIT while a calibration runs from READY or in RECEIVE: an abort at the next safe point, after which the chain goes to TRANSMIT by R152, bound to no switch point (R163). -/
def askAbortTx (s : State) (c : Nat) (fromPoint : Bool) : State :=
  let ch := s.chain c
  let s := if ch.held.isSome then s.inc (F.chFeCnt1ReplaceCnt c) (F.chFeCnt1RpOvf c) else s
  let ch := s.chain c
  let s := match ch.seq with
    | some r => s.setChain c { ch with held := none, seq := some { r with abort := some .transmit, point := none } }
    | none => s.enterSwitch c .transmit none
  if fromPoint then s else s.setResult c 1

/-- A command written to CH_FE_CMD. Code 0 is no command, and 9 to 15 are refused in every state (R170). -/
def feCommand (s : State) (c cmd arg : Nat) : State :=
  if cmd = 0 then s
  else if 9 ≤ cmd then s.feRefuse c cmd
  else if cmd = 2 then s.fePowerDown c
  else if s.lockHolds c then s.feHold c cmd arg false
  else if s.calHolds c then
    if cmd = 4 then (if s.onSchedule c then s.feRefuse c cmd else s.askAbortTx c false)
    else s.feHold c cmd arg false
  else s.feRun c cmd arg false

/-- Execute the held command where its state's work ends (R155, R158): `dflt` is what is done without one. A command for RECEIVE, TRANSMIT or READY takes the place of the return; any other is executed after it. -/
def feHeldOr (s : State) (c : Nat) (dflt : ChSt) : State :=
  let ch := s.chain c
  match ch.held with
  | none => s.enterSwitch c dflt none
  | some h =>
    let s := s.setChain c { ch with held := none }
    let cmd := h.cmd.toNat
    let late := fun (s : State) => if h.fromPoint && cmd = 4 then s.inc (F.chFeCnt1SwitchLateCnt c) (F.chFeCnt1LtOvf c) else s
    let ok := fun (s : State) => if h.fromPoint then s else s.setResult c 1
    let sched := s.onSchedule c && !h.fromPoint
    if cmd = 3 then
      if !sched then ok (s.enterSwitch c .receive none)
      else if ch.joined then (s.feRefuse c cmd).enterSwitch c dflt none
      else
        let ch := s.chain c
        ok ((s.setChain c { ch with joined := true, joinedAt := s.cyc }).enterSwitch c (s.inForce c) none)
    else if cmd = 4 then
      if sched then (s.feRefuse c cmd).enterSwitch c dflt none
      else if h.fromPoint && s.boot.harbour then (s.inc (F.chFeCnt0SkipCnt c) (F.chFeCnt0SkOvf c)).enterSwitch c dflt none
      else late (ok (s.enterSwitch c .transmit none))
    else if cmd = 5 then
      let ch := s.chain c
      ok ((s.setChain c { ch with joined := false }).enterSwitch c .ready none)
    else
      let s := s.enterSwitch c dflt none
      let ch := s.chain c
      s.setChain c { ch with held := some h }

/-- Execute a command kept for the end of a switch or of a restore. -/
def feKept (s : State) (c : Nat) : State :=
  let ch := s.chain c
  match ch.held with
  | some h =>
    let s := s.setChain c { ch with held := none }
    s.feRun c h.cmd.toNat h.arg.toNat h.fromPoint
  | none => s

/-- An FE_AUTO chain of the bring-up receives RECEIVE on reaching READY (R423). -/
def feAwaited (s : State) (c : Nat) : State :=
  if s.boot.feAwait.contains c && (s.chain c).st == .ready then
    ({ s with boot := { s.boot with feAwait := s.boot.feAwait.erase c } } : State).feCommand c 3 0
  else s

/-- The end of calibrating: the next calibration of the gap or start-up, or the sequence that restores the chain (R151, R159, R161). -/
def calNext (s : State) (c k : Nat) : State :=
  let ch := s.chain c
  let next := if ch.st = .calibrating && ch.calFromLock then lowCal ch.startup (k + 1) (fun j => (s.seqStart c (8 + j)).isSome)
    else lowCal ch.pending (k + 1) (s.calFits c)
  match next with
  | some j => s.startCal c j
  | none =>
    if ch.st = .receive then s.startSeq c 2
    else s.feHeldOr c .ready

/-- A calibration fails (R160, R169): a third consecutive failure is FE_FAULT, and so is a failure while an abort waits for its safe point (R168). -/
def calFail (s : State) (c k entry : Nat) : State :=
  let ch := s.chain c
  let n := Nat.min 3 (atD ch.failConsec k 0 + 1)
  let aborting := match ch.seq with | some r => r.abort.isSome | none => false
  let s := s.setChain c { ch with failConsec := setAt' ch.failConsec k n, faultKind := 6, faultEntry := BitVec.ofNat 12 entry }
  let s := s.discardCal c k
  if decide (3 ≤ n) || aborting then s.feFailed c true 6 4 (8 + k) entry
  else (s.report (srcCh c) 6 1 (feCtx c (8 + k) entry)).calNext c k

/-- A sequence fails with a kind: a CAL by R160, any other by R151. A poisoned entry or reserved OP in a CAL is reported beside the calibration's failure (R169). -/
def seqFail (s : State) (c kind result : Nat) (r : SeqRun) : State :=
  if 8 ≤ r.slot.toNat then
    let s := if kind = 4 then s.report (srcCh c) 4 2 (feCtx c r.slot.toNat r.entry) else s
    s.calFail c (r.slot.toNat - 8) r.entry
  else s.feFail c kind result r.slot.toNat r.entry

/-! ### Sequences (R148, R149) -/

/-- The three words of an entry, and whether one is poisoned. -/
def seqWords (s : State) (c e : Nat) : (Word × Word × Word × Bool) × State :=
  let (a, s) := s.memRead .seq (3 * e) (srcCh c)
  let (b, s) := s.memRead .seq (3 * e + 1) (srcCh c)
  let (d, s) := s.memRead .seq (3 * e + 2) (srcCh c)
  ((a.word, b.word, d.word, a.poison || b.poison || d.poison), s)

/-- COND of an entry holds (R148); a reserved code holds never. -/
def seqCond (s : State) (c k : Nat) : Bool :=
  let tdd := s.rdB (F.chFeCfgDuplex c)
  let tb := s.thermal.tb.toNat
  match k with
  | 0 => true
  | 1 => tdd
  | 2 => !tdd
  | 3 => tb == 3 || tb == 4
  | 4 => tb == 0
  | _ => false

/-- A device slot of a chain; one the image does not name has no prefix, a 15-bit address and 32 data bits. -/
def feDevice (s : State) (c dev : Nat) : FeDevice :=
  match (s.chainCfg c).devices.find? (fun d => d.slot.toNat == dev) with
  | some d => d
  | none => ⟨BitVec.ofNat 3 dev, 0, 0, true, 32⟩
/-- Data bits of a device slot. -/
def feDataBits (s : State) (c dev : Nat) : Nat := (s.feDevice c dev).dataBits

end State

/-- The `n` low bits of a number, most significant first. -/
def msbBits (n v : Nat) : List Bool := (List.range n).map (fun i => v.testBit (n - 1 - i))

/-- A transfer with a device slot (R146): the bits the device sends, prefix, R/W, address and the data of a write, and the length with the turnaround and the data of a read. -/
def feTransfer (d : FeDevice) (rd : Bool) (addr data start : Nat) : FeXfer :=
  let a := if d.addr15 then 15 else 7
  let head := msbBits d.prefixLen d.prefixBits.toNat ++ [rd] ++ msbBits a addr
  let bits := if rd then head else head ++ msbBits d.dataBits data
  ⟨d.slot, rd, BitVec.ofNat 15 (addr % 2 ^ a), BitVec.ofNat 32 (data % 2 ^ d.dataBits), start, bits,
    d.prefixLen + 1 + a + d.dataBits + bit rd⟩

namespace State

/-- Move a sequence to its next entry: a later one counts its DELAY from cycle `next`, an END from cycle `done`. -/
def seqAdvance (s : State) (c : Nat) (r : SeqRun) (next done : Nat) : State :=
  let ch := s.chain c
  s.setChain c { ch with seq := some { r with entry := r.entry + 1, pollFrom := none, nextAt := next, doneAt := done } }
/-- Record a transfer on the FE port. -/
def seqXfer (s : State) (c : Nat) (x : FeXfer) : State :=
  let ch := s.chain c
  s.setChain c { ch with xfer := some x }
/-- A sequence goes on after a transfer: the next starts b + 4 cycles after this one, an END follows its CS_N (R146). -/
def seqAfter (s : State) (c : Nat) (r : SeqRun) (x : FeXfer) : State :=
  (s.seqXfer c x).seqAdvance c r (x.start + 16 * (x.len + 4)) (x.start + 16 * (x.len + 2))

/-- The first entry from `e` on whose COND holds (R148). -/
def seqSkip (s : State) (c e : Nat) : Nat → Nat
  | 0 => e
  | fuel + 1 =>
    let w0 := s.memPeek .seq (3 * e)
    if bitsOf w0 39 36 < 8 && !s.seqCond c (bitsOf w0 32 30) then s.seqSkip c (e + 1) fuel else e

/-- The cycle at which the next entry of a run starts: its DELAY after the end of the entry before. A WAIT and the first read of a POLL start there at once: their DELAY is the WAIT's length and the POLL's pitch (R148). -/
def entryAt (s : State) (c : Nat) (r : SeqRun) : Nat :=
  let w0 := s.memPeek .seq (3 * s.seqSkip c r.entry 4096)
  let d := 16 * bitsOf w0 14 0
  match bitsOf w0 39 36 with
  | 0 => r.doneAt + d
  | 3 | 5 => r.nextAt
  | _ => r.nextAt + d

/-- The next entry of a running sequence, which starts at cycle `at_`, past the entries whose COND is false, which take no time. A reserved OP fails the sequence whatever its COND (DESIGN CHOICE, assumption 72: R148). The fuel is the number of entries of the memory. -/
def seqStep (s : State) (c : Nat) (r : SeqRun) (data : BitVec 32) (at_ : Nat) : Nat → State
  | 0 => s.seqFail c 4 4 r
  | fuel + 1 =>
    let ((w0, w1, w2, bad), s) := s.seqWords c r.entry
    let op := bitsOf w0 39 36
    if bad ∨ 8 ≤ op then s.seqFail c 4 4 r
    else if !s.seqCond c (bitsOf w0 32 30) then s.seqStep c { r with entry := r.entry + 1, pollFrom := none } data at_ fuel
    else
      let dev := s.feDevice c (bitsOf w0 35 33)
      let addr := bitsOf w0 29 15
      let delay := 16 * bitsOf w0 14 0
      let slot := bitsOf w1 39 32
      let mask := w2.toNat % 2 ^ 32
      let v := data.toNat % 2 ^ dev.dataBits
      let x := feTransfer dev true addr v at_
      let hit := (Nat.xor v (w1.toNat % 2 ^ 32)) &&& mask == 0
      match op with
      | 0 =>
        let ch := s.chain c
        s.setChain c { ch with seq := some { r with ended := true, pollFrom := none, doneAt := at_ } }
      | 1 => s.seqAfter c r (feTransfer dev false addr (w1.toNat % 2 ^ 32) at_)
      | 2 => if hit then s.seqAfter c r x else (s.seqXfer c x).seqFail c 1 4 r
      | 3 =>
        if hit then s.seqAfter c r x
        else
          let s := s.seqXfer c x
          let ch := s.chain c
          let next := at_ + Nat.max delay (16 * (x.len + 4))
          s.setChain c { ch with seq := some { r with pollFrom := some (r.pollFrom.getD at_), nextAt := next } }
      | 4 =>
        let ch := s.chain c
        (s.setChain c { ch with scratch := assocSet ch.scratch (slot % 8) (BitVec.ofNat 32 (v &&& mask)) }).seqAfter c r x
      | 6 =>
        let ch := s.chain c
        (s.setChain c { ch with raised := ch.raised ||| (1#4 <<< (slot % 4)) }).seqAdvance c r at_ at_
      | 7 => s.seqAfter c r (feTransfer dev false addr (s.rd (F.chFeResultValue c (slot % 8))) at_)
      | _ => s.seqAdvance c r (at_ + delay) (at_ + delay)

/-- A sequence at its END (R151, R159). A settle counts from the switch point, or from the end of a sequence that serves none, to the next CLK_S edge (R152, R156). -/
def seqDone (s : State) (c : Nat) (r : SeqRun) : State :=
  let ch := s.chain c
  let slot := r.slot.toNat
  if 8 ≤ slot then
    let s := s.commitCal c (slot - 8)
    match r.abort with
    | some .transmit => s.enterSwitch c .transmit none
    | some .powerDown => s.startSeq c 5
    | _ => s.calNext c (slot - 8)
  else match ch.st with
  | .poweredDown =>
    if r.abort = some .powerDown then s.startSeq c 5 else s.setChain c { ch with seq := none }
  | .biasing => s.enterLock c 1 .poweredDown
  | .synthLocking => s.setChain c { ch with seq := none, settleAt := some (r.doneAt + usCyc (s.rd (F.chFeCfgSynthSettle c))) }
  | .switching =>
    let ns := if ch.target = .transmit then (s.chainCfg c).settleTx else (s.chainCfg c).settleRx
    s.setChain c { ch with seq := none, settleAt := some (8 * ceilDiv (r.point.getD r.doneAt + nsCyc ns) 8) }
  | _ =>
    if r.abort = some .transmit then s.enterSwitch c .transmit none
    else (s.setChain c { ch with seq := none }).feKept c

/-- The return from SYNTH_LOCKING without a held command (R155). -/
def lockReturn (s : State) (c : Nat) : ChSt :=
  let ch := s.chain c
  if s.onSchedule c && ch.joined then s.inForce c
  else if ch.lockLeft = .receive ∨ ch.lockLeft = .transmit then .receive
  else .ready

/-- A switch point at cycle `at_` is due (R156 to R158, R163, R168): skipped where its sequence would start before the chain's entry to its state. -/
def pointDue (s : State) (c at_ : Nat) (p : TddPoint) : State :=
  let ch := s.chain c
  let skip := s.inc (F.chFeCnt0SkipCnt c) (F.chFeCnt0SkOvf c)
  let cmd := if p.toTx then 4 else 3
  if p.toTx && s.boot.harbour then skip
  else if s.lockHolds c then s.feHold c cmd 0 true
  else if ch.st = .switching ∨ s.prerollAt c p at_ < ch.enteredAt then skip
  else if ch.st = .poweredDown ∨ ch.st = .feFault then (if p.toTx then skip else s)
  else if p.toTx then
    if s.calHolds c then s.askAbortTx c true
    else if ch.st = .ready ∨ ch.st = .receive then s.enterSwitch c .transmit (some at_)
    else s
  else
    if ch.st = .calibrating then s.feHold c cmd 0 true
    else if ch.st = .ready ∨ ch.st = .transmit then s.enterSwitch c .receive (some at_)
    else s

/-- Harbour mode is entered and a chain in TRANSMIT is switched to RECEIVE at once (R157, R168). -/
def goHarbour (s : State) (cause : HarbCause) : State :=
  if s.boot.harbour then s
  else
    let s := s.enterHarbour cause
    (tblKeys s.chains).foldl (fun s c => if (s.chain c).st = .transmit then s.enterSwitch c .receive none else s) s

end State

/-! ### Meanings: sequences and states -/

/-- SEQ_ENTRY (R148, R149): the next entry runs once it is due and no abort waits; `data` is what a read returns. -/
def execSeqEntry (ch : ChainId) (data : BitVec 32) (s : State) : Out :=
  match (s.chain ch.toNat).seq with
  | some r =>
    let a := s.entryAt ch.toNat r
    .next (if r.ended || r.abort.isSome || decide (s.cyc < a) then s else s.seqStep ch.toNat r data a 4096)
  | none => .next s

/-- POLL_TIMEOUT (R148, R158, R160, R169): a LOCK or RETUNE sequence is one by its slot, also while an abort waits. -/
def execPollTimeout (ch : ChainId) (s : State) : Out :=
  let c := ch.toNat
  let k := s.chain c
  match k.seq with
  | none => .next s
  | some r =>
    match r.pollFrom with
    | none => .next s
    | some t =>
      let lock := r.slot == 1 || r.slot == 6 || r.slot == 7
      let tmo := bitsOf (s.memPeek .seq (3 * r.entry + 2)) 39 32
      let lt := usCyc (s.rd (F.chFeCfgLockTimeout c))
      let due := if tmo ≠ 0 then t + usCyc (8 * tmo) else if lock then k.lockFrom + lt else r.startedAt + lt
      if due ≤ s.cyc then .next (if lock then s.seqFail c 3 5 r else s.seqFail c 2 4 r) else .next s

/-- SEQ_ABORT_SAFE_POINT (R149, R159, R163, R168, R372): no safe point lies in a transfer. -/
def execSeqAbortSafePoint (ch : ChainId) (s : State) : Out :=
  let c := ch.toNat
  let k := s.chain c
  match k.seq with
  | none => .next s
  | some r =>
    let cal := 8 ≤ r.slot.toNat
    if s.inTransfer c || r.ended then .next s
    else match r.abort with
    | none => .next s
    | some .c4 => .next ((if cal then s.discardCal c (r.slot.toNat - 8) else s.setChain c { k with seq := none }))
    | some .powerDown => .next (((if cal then s.discardCal c (r.slot.toNat - 8) else s)).startSeq c 5)
    | some .transmit =>
      let s := if cal then (s.discardCal c (r.slot.toNat - 8)).inc (F.chFeCnt1AbortCnt c) (F.chFeCnt1AbOvf c) else s
      .next (s.enterSwitch c .transmit none)

/-- SEQUENCE_COMPLETE (R151): once the END reached is due. -/
def execSequenceComplete (ch : ChainId) (s : State) : Out :=
  match (s.chain ch.toNat).seq with
  | some r => .next (if r.ended && decide (r.doneAt ≤ s.cyc) then s.seqDone ch.toNat r else s)
  | none => .next s

/-- SYNTH_SETTLE_ELAPSED (R151, R155, R158, R162). -/
def execSynthSettleElapsed (ch : ChainId) (s : State) : Out :=
  let c := ch.toNat
  let k := s.chain c
  match k.settleAt with
  | none => .next s
  | some t =>
    if k.st = .synthLocking ∧ t ≤ s.cyc then
      let s := s.setChain c { k with settleAt := none }
      match State.lowCal k.startup 0 (fun j => (s.seqStart c (8 + j)).isSome) with
      | some j =>
        let k := s.chain c
        .next ((s.setChain c { k with calFromLock := true, st := .calibrating }).startCal c j)
      | none =>
        let k := s.chain c
        .next ((s.setChain c { k with calFromLock := false }).feHeldOr c (s.lockReturn c))
    else .next s

/-- LOCK_TIMEOUT (R158). -/
def execLockTimeout (ch : ChainId) (s : State) : Out :=
  let c := ch.toNat
  let k := s.chain c
  match k.seq with
  | some r =>
    if k.st = .synthLocking ∧ !r.ended ∧ k.lockFrom + usCyc (s.rd (F.chFeCfgLockTimeout c)) ≤ s.cyc then .next (s.seqFail c 3 5 r)
    else .next s
  | none => .next s

/-- SWITCH_SETTLE_ELAPSED (R151, R152, R156): the chain enters its target state. -/
def execSwitchSettleElapsed (ch : ChainId) (s : State) : Out :=
  let c := ch.toNat
  let k := s.chain c
  match k.settleAt with
  | none => .next s
  | some t =>
    if k.st = .switching ∧ t ≤ s.cyc then
      let s := s.setChain c { k with st := k.target, settleAt := none, calFromLock := false, enteredAt := t }
      .next (((s.inc (F.chFeCnt0SwitchCnt c) (F.chFeCnt0SwOvf c)).feKept c).feAwaited c)
    else .next s

/-- TDD_FRAME_START (R156, R157): the short frame after a step begins at the old frame's end; any other frame at the CLK_T edge that reached its instant. -/
def execTddFrameStart (ch : ChainId) (s : State) : Out :=
  let c := ch.toNat
  let k := s.chain c
  if !s.onSchedule c then .next s
  else match k.frameEnd with
  | some e => .next (if e ≤ s.cyc then s.setChain c { k with frameStart := e, frameEnd := none } else s)
  | none => .next (if s.frameCrossed c then s.setChain c { k with frameStart := 32 * (s.cyc / 32) } else s)

/-- SWITCH_POINT_PREROLL (R156): a point is the chain's from its join on, one whose PREROLL began before is passed over, and each is taken once, when its PREROLL begins. -/
def execSwitchPointPreroll (ch : ChainId) (point : BitVec 4) (s : State) : Out :=
  let c := ch.toNat
  let k := s.chain c
  match (s.chainCfg c).points[point.toNat]? with
  | some p =>
    let f := s.pointAt c p
    if s.onSchedule c && k.joined && decide (s.prerollAt c p f ≤ s.cyc) && decide (k.joinedAt ≤ s.prerollAt c p f) && f != k.lastPoint then
      .next ((s.setChain c { k with lastPoint := f }).pointDue c f p)
    else .next s
  | none => .next s

/-- CAL_GAP_START (R161, R162). -/
def execCalGapStart (ch : ChainId) (s : State) : Out :=
  let c := ch.toNat
  let k := s.chain c
  if k.seq.isSome ∨ k.st = .calibrating then .next s
  else match State.lowCal k.pending 0 (s.calFits c) with
    | some j => .next (s.startCal c j)
    | none => .next s

/-- CAL_REQ_TIMEOUT (R162): an attempt running at that moment runs to its end. -/
def execCalReqTimeout (ch : ChainId) (k : BitVec 3) (s : State) : Out :=
  let c := ch.toNat
  let h := s.chain c
  match assoc h.reqDue k.toNat with
  | some d =>
    if s.cyc < d then .next s
    else if h.calBusy && h.calRun == k then .next s
    else .next (s.refuseCal c k.toNat)
  | none => .next s

/-- BG_INTERVAL_EXPIRY (R162). -/
def execBgIntervalExpiry (ch : ChainId) (k : BitVec 3) (s : State) : Out :=
  let c := ch.toNat
  let h := s.chain c
  let cfg := s.chainCfg c
  match assoc h.committedAt k.toNat, assoc cfg.bgInt k.toNat with
  | some t, some i =>
    if s.rdB (F.chFeCfgCalMode c) && cfg.background.getLsbD k.toNat && decide (t + nsCyc i ≤ s.cyc) then .next (s.pendCal c k.toNat)
    else .next s
  | _, _ => .next s

/-! ### Coexistence (R164 to R166) -/

/-- Set the held cause CX on the band paths bound to a port (R165, R166); the replay set hears nothing of it (R404). -/
def State.cxCause (s : State) (k : Nat) : State :=
  (s.boundTo k).foldl (fun s n =>
    if s.replayMode && s.selected.contains n then s else s.setHeld n (fun h => { h with cx := true }))
    (s.offNever (some (BitVec.ofNat 2 k)) false)

/-- A requester's deglitched GNT changes (R165): the cause is set at once, and removed 2 CLK_S cycles after GNT reads high. -/
def State.gntChange (s : State) (k : Nat) (high : Bool) : State :=
  let c := s.cxPort k
  if s.rd (F.cxCtrlRole k) = 1 ∧ c.gnt ≠ high then
    let s := s.setCx k { c with gnt := high, reqFrom := if high then none else if c.req then some s.cyc else none }
    let s := if high then s else s.inc (F.cxStatWdCnt k) (F.cxStatWdOvf k)
    let s := s.journal 4 (k * 8 + 2 + bit high) s.cycW 0 0
    if high then s.offSoon (some (BitVec.ofNat 2 k)) false else s.cxCause k
  else s
/-- GNT_FALL (R165, R167). -/
def execGntFall (cx : CxId) (s : State) : Out := .next (s.gntChange cx.toNat false)
/-- GNT_RISE (R165). -/
def execGntRise (cx : CxId) (s : State) : Out := .next (s.gntChange cx.toNat true)

/-- REQ_RELEASE_TIMER (R165): REQ and PRI fall. -/
def execReqReleaseTimer (cx : CxId) (s : State) : Out :=
  let k := cx.toNat
  let c := s.cxPort k
  match c.relAt with
  | some t => if t ≤ s.cyc then .next (s.setCx k { c with req := false, pri := false, relAt := none, reqFrom := none }) else .next s
  | none => .next s

/-- REQ_UNANSWERED (R165): one C0 note per request. -/
def execReqUnanswered (cx : CxId) (s : State) : Out :=
  let k := cx.toNat
  let c := s.cxPort k
  match c.reqFrom with
  | some t =>
    if !c.noted ∧ t + secCyc ≤ s.cyc then
      .next ((s.setCx k { c with noted := true }).note srcProt (Config.msgContext srcProt kNote k))
    else .next s
  | none => .next s

/-- A grantor judges its request (R166): it yields, stays, or releases; the cause is removed 2 CLK_S cycles after the release. -/
def State.cxJudge (s : State) (k : Nat) : State :=
  let c := s.cxPort k
  if c.req then
    let busy := (s.boundTo k).any (fun n => s.privileged n && s.serving n)
    let yes := match s.rd (F.cxCtrlGpol k) with
      | 0 => true
      | 1 => c.pri
      | _ => c.pri || !busy
    if yes && !c.yielding then
      (s.setCx k { c with yielding := true, grantAt := some (s.cyc + 8 * s.rd (F.cxCtrlGrantDelay k)) }).cxCause k
    else s
  else if c.yielding ∨ c.gnt then
    (s.setCx k { c with yielding := false, grantAt := none, gnt := false }).offSoon (some (BitVec.ofNat 2 k)) false
  else s

/-- GRANTOR_REQ_CHANGE (R164, R166): REQ and PRI at their new logical levels, after the deglitch and inversion of their balls. -/
def execGrantorReqChange (cx : CxId) (req pri : Bool) (s : State) : Out :=
  let k := cx.toNat
  let c := s.cxPort k
  if s.rd (F.cxCtrlRole k) = 2 then
    let s := if req ≠ c.req then s.journal 4 (k * 8 + bit req) s.cycW 0 0 else s
    let s := if pri ≠ c.pri then s.journal 4 (k * 8 + 4 + bit pri) s.cycW 0 0 else s
    let s := if req && !c.req then s.inc (F.cxStatGrantCnt k) (F.cxStatGrOvf k) else s
    .next ((s.setCx k { c with req := req, pri := pri }).cxJudge k)
  else .next s

/-- GRANT_DELAY_EXPIRY (R166): GNT is driven high. -/
def execGrantDelayExpiry (cx : CxId) (s : State) : Out :=
  let k := cx.toNat
  let c := s.cxPort k
  match c.grantAt with
  | some t =>
    if t ≤ s.cyc then .next ((s.setCx k { c with gnt := true, grantAt := none }).inc (F.cxStatWdCnt k) (F.cxStatWdOvf k)) else .next s
  | none => .next s

/-! ### JESD lanes (R33, R34, R37, R57) -/

/-- JRX_LOCK_LOST (R37, R131). Whether the sync header lock goes too is open. -/
def execJrxLockLost (ch : ChainId) (s : State) : Out :=
  let c := ch.toNat
  let k := s.chain c
  if k.jrxLock then
    let s := (let (w, s) := s.free; s.setChain c { k with jrxLock := false, shLock := w.getLsbD 0 }).wr (F.chJrxStatLost c) 1
    let s := s.report (srcCh c) 7 1 (Config.msgContext (srcCh c) 7 0)
    .next ((s.planned.filter (fun n => s.chSource n == some c)).foldl (fun s d =>
      (s.watchers d).foldl (fun s w => if (s.bp w).prot.donorLost || s.replayMode then s else s.donorLost w) s) s)
  else .next s

/-- JRX_LOCK_REGAINED (R37, R60). -/
def execJrxLockRegained (ch : ChainId) (s : State) : Out :=
  let c := ch.toNat
  let k := s.chain c
  if k.jrxLock then .next s
  else
    let s := s.setChain c { k with jrxLock := true, shLock := true }
    let s := s.report (srcCh c) 7 0 (Config.msgContext (srcCh c) 7 1)
    .next ((s.planned.filter (fun n => s.chSource n == some c)).foldl (fun s n =>
      if s.passing n && !s.replayMode then s.clearMore n (s.clearStart n) else s) s)

/-- SYSREF_MISALIGN (R34): in the status registers of every running lane. A JTX lane that sends idle in harbour or replay mode is still one, though its RUNNING reads 0 (DESIGN CHOICE, assumption 72). -/
def execSysrefMisalign (s : State) : Out :=
  .next ((List.range 16).foldl (fun s c =>
    let k := s.chain c
    let s := if k.jrxLock then s.wr (F.chJrxStatSysrefMisalign c) 1 else s
    if k.jtxRunning then s.wr (F.chJtxStatSysrefMisalign c) 1 else s) s)

/-- MULTIBLOCK_CRC_FAIL (R33). -/
def execMultiblockCrcFail (ch : ChainId) (s : State) : Out :=
  .next (s.inc (F.chJrxCrcerrCount ch.toNat) (F.chJrxCrcerrOvf ch.toNat))

/-- The band paths that contribute to a JTX stream, with the number of each enabled destination on it. -/
def State.contributors (s : State) (c : Nat) : List (Nat × Nat) :=
  (s.planned.filter s.passing).flatMap (fun n => (s.jtxDests n).filterMap (fun d => if d.2 = c then some (n, d.1) else none))

/-- JTX_SAMPLE (R56, R57, R154, R19): the exact sum of the contributions, narrowed and counted, then blanked. -/
def execJtxSample (ch : ChainId) (s : State) : Out :=
  let c := ch.toNat
  if s.rfOff ∨ !(s.chain c).jtxRunning then
    let k := s.chain c
    .next (s.setChain c { k with jtxOut := Cplx.zero })
  else
    let (sum, s) := (s.contributors c).foldl (fun (a : Cplx × State) d =>
      let (y, s) := a.2.egressNco d.1 d.2
      (a.1.add y, s)) (Cplx.zero, s)
    let y : Cplx := ⟨satS 16 (roundBits sum.re 4), satS 16 (roundBits sum.im 4)⟩
    let over' := y ≠ (⟨roundBits sum.re 4, roundBits sum.im 4⟩ : Cplx)
    let s := if over' then s.inc (F.chJtxSatcntCount c) (F.chJtxSatcntOvf c) else s
    let k := s.chain c
    .next (s.setChain c { k with jtxOut := if s.jtxBlank c then Cplx.zero else y })

end Sys2Proof.Machine
end

