-- ==== Sys2Proof/Machine/Meas.lean ====
section
/-! DEFINITION. Measurement, self-calibration and control loops: converters, requests and triggers, filters, system calibration, trim sets, PA drive and the loop slots (R171 to R199). -/

namespace Sys2Proof.Machine

/-! ### Channels and units (R173, R175) -/

/-- The span of an input in 1/32 V (R173). -/
def spanOf (input : Nat) : Nat := if 16 ≤ input ∧ input ≤ 23 then 5 else if input = 27 ∨ input = 28 then 80 else 40
/-- A fraction of a span in 2^-37, as s16.24 V. -/
def voltWord (span : Nat) (v : Int) (den : Nat) : Word := BitVec.ofInt 40 (satS 40 (roundEven (v * span) (2 ^ 18 * den)))

namespace State

/-- The image's fields of a measurement channel. -/
def mcCfg (s : State) (m : Nat) : Option McCfg := s.img.mcs.find? (fun x => x.mc.toNat == m)
/-- The channel is converted in pair mode (R174). -/
def pairMode (s : State) (input : Nat) : Bool :=
  decide (16 ≤ input ∧ input ≤ 23) && (s.rd F.measCtrlPairMode).testBit (input - 16)
/-- Context word of a measurement fault (R197). -/
def measCtx (adc mc loop : Nat) : Word := BitVec.ofNat 40 (adc * 2 ^ 38 + mc * 2 ^ 33 + loop * 2 ^ 27)
/-- The converter of a channel. -/
def mcAdc (s : State) (m : Nat) : Nat := match s.mcCfg m with | some g => g.adc.toNat | none => 0
/-- Context word of a channel's fault or note (R197): its converter, and the channel. -/
def mcCtx (s : State) (m : Nat) : Word := measCtx (s.mcAdc m) m 0
/-- Context word of a loop slot's fault (R197): the converter of its channel, the channel and the slot. -/
def loopCtx (s : State) (j : Nat) : Word :=
  let m := s.rd (F.loopCtrlMc j)
  measCtx (s.mcAdc m) m j
/-- Slot of the measurement frame now: 960 CLK_E cycles each (R171). -/
def slotNow (s : State) : Nat := s.cyc / 960 % 1024

/-- Scheduled conversions of a channel in a measurement frame of 1 ms (R171, R176). -/
def scanCount (s : State) (g : McCfg) : Nat :=
  (s.img.scan.filter (fun e => e.1 / 1024 == g.adc.toNat && e.2.getLsbD 5 && bitsOf e.2 4 0 == g.mc.toNat)).length
/-- The filter length N: the scheduled conversion rate over NOTCH, rounded (R181). -/
def filterN (s : State) (g : McCfg) : Nat := (roundEven (1000 * s.scanCount g : Nat) g.notch).toNat

/-- A channel's filter restarts (R182); a calibration operation on it starts over. -/
def restartFilter (s : State) (m : Nat) : State :=
  let c := s.mc m
  let s := s.setMc m { c with hist := [], ovrs := [], since := 0, outputs := 0, settled := false }
  match s.meas.calOp with
  | some o =>
    if o.mc.toNat = m then { s with meas := { s.meas with calOp := some { o with outputs := 0, taken := 0, sumNum := 0 } } } else s
  | none => s

/-! ### Conversions (R172, R176 to R180) -/

/-- The loops of a channel take the SP that stands at the sample instant of its scheduled conversion (R191). -/
def latchSp (s : State) (m : Nat) : State :=
  (List.range 32).foldl (fun s j =>
    if s.rd (F.loopCtrlMc j) = m ∧ s.img.loops.any (fun x => x.slot.toNat == j) then
      let l := s.loop j
      s.setLoop j { l with spIn := ((s.cyc, s.rdS (F.loopSpSp j)) :: l.spIn).take 3 }
    else s) s

/-- Start a conversion now. -/
def startConv (s : State) (a m : Nat) (k : ConvKind) (late sched : Bool) : State :=
  let s := if sched then s.latchSp m else s
  let c := s.mc m
  let pair := match s.mcCfg m with | some g => s.pairMode g.input | none => false
  let v : Conv := ⟨k, BitVec.ofNat 5 m, s.cyc, late, pair && c.nextHi, sched, s.nowHi, s.nowLo⟩
  let d := s.adc a
  let s := s.setAdc a { d with conv := some v }
  if k = .urgent then s.inc (F.adcStatUrgCnt a) (F.adcStatUrgOvf a) else s

/-- Waiting work once a conversion has ended (R180): urgent requests, the aborted conversion, scheduled ones that are late. Ordinary requests wait for a slot boundary (R177). -/
def nextWork (s : State) (a : Nat) : State :=
  let d := s.adc a
  match d.urgent, d.aborted, d.late with
  | m :: t, _, _ => (s.setAdc a { d with urgent := t }).startConv a m.toNat .urgent false false
  | [], some (m, sc), _ => (s.setAdc a { d with aborted := none }).startConv a m.toNat .restarted false sc
  | [], none, m :: t => (s.setAdc a { d with late := t }).startConv a m.toNat .scheduled true true
  | [], none, [] => s

/-- An ordinary request (R177). -/
def askOrdinary (s : State) (m : Nat) : State :=
  match s.mcCfg m with
  | none => s
  | some g =>
    let a := g.adc.toNat
    let d := s.adc a
    if d.ordinary.length < 8 then s.setAdc a { d with ordinary := d.ordinary ++ [BitVec.ofNat 5 m] }
    else (s.inc (F.adcStatDropCnt a) (F.adcStatDropOvf a)).report srcMeas 5 0 (measCtx a m 0)

/-- A conversion that an urgent request meets in flight: one started at this very edge has not begun and waits as it did, a scheduled one due now as late (R196); any other is aborted (R179). -/
def giveWay (s : State) (a : Nat) (v : Conv) : State :=
  let d := s.adc a
  if v.at_ = s.cyc ∧ v.kind = .scheduled then
    s.setAdc a { d with late := if v.late then v.mc :: d.late else d.late ++ [v.mc] }
  else if v.at_ = s.cyc ∧ v.kind = .requested then s.setAdc a { d with ordinary := v.mc :: d.ordinary }
  else s.setAdc a { d with aborted := some (v.mc, v.sched) }

/-- An urgent request (R179). -/
def askUrgent (s : State) (m : Nat) : State :=
  match s.mcCfg m with
  | none => s
  | some g =>
    let a := g.adc.toNat
    let d := s.adc a
    match d.conv with
    | some v =>
      if v.kind = .urgent then
        if d.urgent.length < 4 then s.setAdc a { d with urgent := d.urgent ++ [BitVec.ofNat 5 m] }
        else (s.inc (F.adcStatDropCnt a) (F.adcStatDropOvf a)).report srcMeas 4 1 (measCtx a m 0)
      else (s.giveWay a v).startConv a m .urgent false false
    | none => s.startConv a m .urgent false false

/-- The channel a scan-list entry names: the list of converter a stands at 1024a, an entry is 0 where free and 32 + m for MCm. -/
def scanEntry (s : State) (a slot : Nat) : Option Nat × State :=
  let (r, s) := s.memRead .scan (1024 * a + slot) srcMeas
  if r.poison then (none, s.report srcMeas 1 2 (measCtx a 0 0))
  else (if r.word.getLsbD 5 then some (bitsOf r.word 4 0) else none, s)

/-! ### Results (R181, R183) -/

/-- Sums of every window of n values of a list, newest first, the list taken as zero beyond its end. -/
def winSums (n : Nat) : List Int → List Int
  | [] => []
  | x :: t => ((x :: t).take n).foldl (· + ·) 0 :: winSums n t

/-- The newest output of k cascaded running sums of n values. -/
def sincSum (n : Nat) : Nat → List Int → Int
  | 0, l => atD l 0 0
  | k + 1, l => sincSum n k (winSums n l)

/-- v = GAIN × (c/4096 − OFFSET), in 2^-37 of the span (R183). -/
def calibrated (s : State) (m : Nat) (code : Nat) : Int :=
  (s.rd (F.mcCalGain m) : Int) * ((code : Int) * 128 - s.rdS (F.mcCalOffset m))

/-- The flags of a channel, as records and SAR entries carry them. -/
def mcFlags (c : Mc) : Nat := bit c.restarted * 8 + bit c.late * 4 + bit c.settled * 2 + bit (c.raw == 0 || c.raw == 4095)

/-- Loops take the fast value of their channel's scheduled conversion (R191). -/
def feedLoops (s : State) (m at_ : Nat) (v : Int) (late : Bool) : State :=
  (List.range 32).foldl (fun s j =>
    if s.rd (F.loopCtrlMc j) = m ∧ s.img.loops.any (fun x => x.slot.toNat == j) then
      let l := s.loop j
      s.setLoop j { l with sampleAt := some at_, sampleV := v, late := late }
    else s) s

/-- A temperature of a remote diode from the 160 µA code, in 2^-24 °C: ideality in 1/1000, series resistance in mΩ (R340). -/
def diodeTemp (code ideality res : Nat) : Int :=
  roundEven (((code : Int) * 156250000 - 150 * res * 4096) * 100 * degC) (4096 * ideality * 23892) - roundEven (27315 * degC) 100

/-- A result of a pair in pair mode reaches the remote-diode slots that name the pair (R340): a 160 µA result that follows a 10 µA one gives a temperature; the 10 µA result is the continuity check. -/
def diodeResult (s : State) (pair : Nat) (hi afterLo : Bool) (lo code : BitVec 12) : State :=
  (List.range 16).foldl (fun s k =>
    if s.rd (F.tsCfgKind k) = 2 ∧ s.rd (F.tsCfgPair k) = pair then
      match s.img.sensors.find? (fun x => x.slot.toNat == k) with
      | none => s
      | some c =>
        let t := s.tslot k
        if !hi then s.setTslot k { t with contBad := code == 0 || code == 4095 }
        else if afterLo then
          let ovr := code == 0 || code == 4095 || lo == 0 || lo == 4095
          s.setTslot k { t with recent := ((diodeTemp code.toNat c.ideality c.seriesRes, ovr) :: t.recent).take 16 }
        else s
    else s) s

/-- The band-gap channel stays within 1.176 V to 1.224 V of its 1.250 V span. -/
def refOk (num : Int) (den : Nat) : Bool :=
  decide ((1176 : Int) * 2 ^ 37 * den ≤ num * 1250) && decide (num * 1250 ≤ (1224 : Int) * 2 ^ 37 * den)

/-- A finished conversion is taken into its channel: fast value, filter, fine value, record and journal (R181, R184, R197, R199, R400). -/
def takeResult (s : State) (a : Nat) (v : Conv) (code : BitVec 12) : State :=
  let m := v.mc.toNat
  match s.mcCfg m with
  | none => s
  | some g =>
    let c := s.mc m
    let op := match s.meas.calOp with | some o => if o.mc.toNat = m then some o else none | none => none
    let value := s.calibrated m code.toNat
    let n := s.filterN g
    let entry : Int := match op with | some _ => (code.toNat : Int) * 2 ^ 25 | none => value
    let hist := (entry :: c.hist).take (g.k * n)
    let since := c.since + 1
    let out := since % Nat.max 1 n == 0
    let outputs := if out then c.outputs + 1 else c.outputs
    let den := n ^ g.k
    let sum := if out then sincSum n g.k hist else 0
    let settled := c.settled || (out && decide (g.k ≤ outputs))
    let ovrs := ((code == 0 || code == 4095) :: c.ovrs).take (g.k * n)
    let c := { c with ovrs := ovrs, fineOvr := if out then ovrs.any id else c.fineOvr }
    let c := { c with hist := hist, since := since, outputs := outputs, settled := settled }
    let c := { c with raw := code, restarted := v.kind == .restarted, late := v.late, seq := c.seq + 1, got := true }
    let s := if s.pairMode g.input then s.diodeResult (g.input - 16) v.hiI c.nextHi c.lastLo code else s
    let c := if s.pairMode g.input then
        (if v.hiI then { c with nextHi := false, lastHi := code } else { c with nextHi := true, lastLo := code })
      else c
    -- an output before the filter has settled has no stated value (R182)
    let (fineV, s) := if out && op.isNone && !settled then (let (w, s') := s.free; ((w.toInt, 1), s')) else ((sum, den), s)
    let c := if out && op.isNone then { c with fineNum := fineV.1, fineDen := fineV.2 } else c
    let watch := g.input == 24 && out && op.isNone && settled
    let bad := if watch then (if refOk sum den then 0 else c.badRef + 1) else c.badRef
    let s := s.setMc m { c with badRef := bad }
    let s := if watch && bad == 3 then s.report srcMeas 2 2 (measCtx a m 0) else s
    let s := match op with
      | some o =>
        if out then
          let use := decide (g.k < outputs) && decide (o.taken < 16)
          let o := { o with outputs := outputs, taken := if use then o.taken + 1 else o.taken, sumNum := if use then o.sumNum + sum else o.sumNum }
          { s with meas := { s.meas with calOp := some o } }
        else s
      | none => s
    let kind := match v.kind with | .scheduled => 0 | .requested => 1 | .urgent => 2 | .restarted => 3
    let span := spanOf g.input
    let w0 : Word := BitVec.ofNat 40 (c.seq.toNat * 65536)
    let w6 : Word := BitVec.ofNat 40 (code.toNat * 2 ^ 28 + mcFlags c * 2 ^ 24 + kind * 2 ^ 22 + a * 2 ^ 20 + bit v.hiI * 2 ^ 19)
    let s := s.holdPuts (0x3FE700 + 8 * m)
      [w0, voltWord span value 1, voltWord span c.fineNum c.fineDen, BitVec.ofNat 40 v.at_, v.timeHi, v.timeLo, w6, w0]
    let s := if (s.rd F.rplCfgJnlAdc).testBit a then
        s.journal 2 (m * 2 ^ 29 + kind * 2 ^ 27 + mcFlags c * 2 ^ 23 + code.toNat * 2 ^ 11) (BitVec.ofNat 40 v.at_) 0 0
      else s
    if v.sched then s.feedLoops m v.at_ value v.late else s

/-! ### Trim sets (R185 to R188) -/

/-- A trim set becomes pending; one of the other source that it supersedes still counts (R187, R196). -/
def pendTrims (s : State) (set' : List Nat) (alm : Bool) : State :=
  let extra := if s.meas.trimNext.isSome && s.meas.trimAlm != alm then s.meas.trimExtra + 1 else s.meas.trimExtra
  { s with meas := { s.meas with trimNext := some set', trimAlm := alm, trimExtra := extra } }

/-- The code of trim k at a junction temperature in 2^-24 °C, between the almanac's five points. -/
def almCode (sets : List (List Nat)) (tj : Int) (k : Nat) : Nat :=
  let t : List Int := [-40, 0, 25, 70, 105]
  let tj := clampI (-40 * 2 ^ 24) (105 * 2 ^ 24) tj
  let i := if tj ≤ 0 then 0 else if tj ≤ 25 * 2 ^ 24 then 1 else if tj ≤ 70 * 2 ^ 24 then 2 else 3
  let a : Int := (atD (atD sets i []) k 0 : Nat)
  let b : Int := (atD (atD sets (i + 1) []) k 0 : Nat)
  let lo := atD t i 0
  let span : Nat := (atD t (i + 1) 0 - lo).toNat * 2 ^ 24
  (clampI 0 1023 (roundEven (a * (span : Int) + (b - a) * (tj - lo * 2 ^ 24)) span)).toNat

/-- The almanac words: set i, trim k at 32i + k. A poisoned one keeps the active set (R197). -/
def readAlmanac (s : State) : Option (List (List Nat)) × State :=
  (List.range 5).foldl (fun (acc : Option (List (List Nat)) × State) i =>
    let row := (List.range 26).foldl (fun (r : Option (List Nat) × State) k =>
      let (w, s) := r.2.memRead .almanac (32 * i + k) srcMeas
      (match r.1 with | some l => if w.poison then none else some (l ++ [bitsOf w.word 9 0]) | none => none, s)) (some [], acc.2)
    (match acc.1, row.1 with | some l, some x => some (l ++ [x]) | _, _ => none, row.2)) (some [], s)

/-- The almanac interpolation of an uptime second (R186), TJ in 2^-24 °C where a die sensor is in use. -/
def almanacFx (s : State) (tj : Option Int) : State :=
  match tj with
  | none => s
  | some t =>
    if s.rdB F.trimCtrlAlmEn then
      let (sets, s) := s.readAlmanac
      match sets with
      | none => s.report srcMeas 3 1 (measCtx 0 0 0)
      | some l =>
        let s := s.wr F.trimStatTjAlm (dbField 16 8 t)
        let new := (List.range 26).map (almCode l t)
        if new = s.meas.trims then s else s.pendTrims new true
    else s

/-- A write of TRIM_ACTr (R188): the set that is pending, or active, with its codes. -/
def trimActFx (s : State) (r : Nat) (w : Word) : State :=
  let base := s.meas.trimNext.getD s.meas.trims
  let base := if base.length = 26 then base else List.replicate 26 0
  let set' := (List.range 4).foldl (fun l k => setAt' l (4 * r + k) (bitsOf w (39 - 10 * k) (30 - 10 * k))) base
  s.pendTrims set' false

/-! ### PA ports (R189) -/

/-- The loop slot that targets a PA port, if one does. -/
def paLoop (s : State) (c : Nat) : Option Nat :=
  (List.range 32).find? (fun j => s.rd (F.loopCtrlTkind j) == 1 && s.rd (F.loopCtrlTindex j) == c
    && s.img.loops.any (fun x => x.slot.toNat == j))
/-- MODE of a loop: 0 OFF, 1 MANUAL, 2 AUTO. -/
def loopMode (s : State) (j : Nat) : Nat := s.rd (F.loopCtrlMode j)
/-- The code a PA port is driven with: 0 V under a latch, in harbour mode and after a boundary instruction (R19, R372, R470). -/
def paCode (s : State) (c : Nat) : Nat :=
  if s.latched || s.boot.harbour || s.pins.boundary then 0
  else match s.paLoop c with
    | some j => if s.loopMode j = 1 ∨ s.loopMode j = 2 then (s.loop j).code.toNat else s.rd (F.paCtrlManCode c)
    | none => s.rd (F.paCtrlManCode c)

/-! ### Loops (R190 to R195) -/

/-- The image's fields of a loop slot. -/
def loopCfg (s : State) (j : Nat) : Option LoopCfg := s.img.loops.find? (fun x => x.slot.toNat == j)

/-- The output in force on a loop's target, in 2^-32 (R193). -/
def outputNow (s : State) (j : Nat) : Int :=
  match s.rd (F.loopCtrlTkind j) with
  | 1 => (s.paCode (s.rd (F.loopCtrlTindex j)) : Int) * 2 ^ 18
  | 2 => s.rdS (F.loopSpSp (s.rd (F.loopCtrlTindex j)))
  | _ => (s.loop j).u

/-- A set point is written (R193): outside its bounds it is ignored with a C0 note. -/
def loopSpFx (s : State) (j : Nat) (v : Int) : State :=
  match s.loopCfg j with
  | some g => if g.spMin ≤ v ∧ v ≤ g.spMax then s.wr (F.loopSpSp j) (ux 40 v) else s.note (srcLp j) (s.loopCtx j)
  | none => s

/-- MODE of a loop changes (R193, R194). -/
def loopModeFx (s : State) (j mode : Nat) : State :=
  let old := s.loopMode j
  if old = mode then s
  else
    let l := s.loop j
    let now := s.outputNow j
    let l := if old = 0 then { l with u := now, code := BitVec.ofNat 14 (clampI 0 16383 (roundBits now 18)).toNat } else l
    let s := if mode = 1 ∧ old = 2 then s.wr (F.loopManMan j) (ux 40 l.u) else s
    (s.setLoop j { l with preset := mode == 2, idleHeld := false, trimHold := none }).wr (F.loopCtrlMode j) mode

/-- The feed-forward input in 2^-37 over a denominator: a channel's fine value, or GAIN_SET, s9.7 dB, as dB × 2^-8. -/
def ffInput (s : State) (f : FfSrc) : Int × Nat :=
  match f with
  | .none => (0, 1)
  | .mc m => ((s.mc m.toNat).fineNum, (s.mc m.toNat).fineDen)
  | .gain b => (s.rdS (F.bpGainGainSet b.toNat) * 2 ^ 22, 1)

/-- Deliver a loop's output to its target and write its record (R191, R199). -/
def loopDeliver (s : State) (j : Nat) (at_ : Nat) : State :=
  let l := s.loop j
  let l := { l with seq := l.seq + 1, sampleAt := none }
  let s := (s.setLoop j l).wr (F.loopOutOut j) (ux 40 l.u)
  let s := if s.rd (F.loopCtrlTkind j) = 2 then s.loopSpFx (s.rd (F.loopCtrlTindex j)) l.u else s
  let w0 : Word := BitVec.ofNat 40 (l.seq.toNat * 65536)
  s.holdPuts (0x3FE600 + 8 * j) [w0, wordOfInt l.spEff, wordOfInt l.y, wordOfInt l.u, wordOfInt l.i, wordOfInt l.ff, BitVec.ofNat 40 at_, w0]

/-- The output `u` of a loop, in units of 2^-61 over `den`, as its state and code. -/
def setU (l : LoopSt) (u : Int) (den : Nat) : LoopSt :=
  { l with u := satS 40 (roundEven u (2 ^ 29 * den)), code := BitVec.ofNat 14 (clampI 0 16383 (roundEven u (2 ^ 47 * den))).toNat }

/-- The SP that stood at the sample instant of the sample that waits (R191). -/
def spAt (l : LoopSt) : Int :=
  match l.spIn.find? (fun p => l.sampleAt == some p.1) with
  | some p => p.2
  | none => match l.spIn with | p :: _ => p.2 | [] => 0

/-- The AUTO computation of R192, with the SP that stood at the sample (R191), exact in units of 2^-61 over the feed-forward's denominator; the state is kept as s8.32. -/
def loopAuto (s : State) (j : Nat) (g : LoopCfg) : LoopSt :=
  let l := s.loop j
  let y := l.sampleV
  let y32 := satS 40 (roundBits y 5)
  let (xf, den) := s.ffInput g.ffSrc
  let d : Int := den
  let ff := g.kff * (xf - g.ffX0 * 32 * d)
  let ff32 := satS 40 (roundEven ff (2 ^ 29 * den))
  let lo := g.outMin * 2 ^ 29 * d
  let hi := g.outMax * 2 ^ 29 * d
  if l.preset then
    let now := s.outputNow j
    let u := now * 2 ^ 29 * d
    let l := { l with spEff := y32, yPrev := y32, y := y32, i := satS 40 (now - ff32), ff := ff32 }
    setU { l with preset := false, clamped := decide (u < lo) || decide (hi < u) } (clampI lo hi u) den
  else
    let spEff := l.spEff + clampI (-g.ramp) g.ramp (spAt l - l.spEff)
    let sign : Int := if g.reverse then -1 else 1
    let e := sign * (spEff * 32 - y)
    let dd := sign * (l.yPrev * 32 - y)
    let iNew := l.i * 2 ^ 29 + g.ki * e
    let raw := (g.kp * e + iNew + g.kd * dd) * d + ff
    let u := clampI lo hi raw
    let adv := decide (u = raw) || (decide (hi < raw) && decide (e < 0)) || (decide (raw < lo) && decide (0 < e))
    let l := { l with spEff := spEff, yPrev := y32, y := y32, ff := ff32, i := if adv then satS 40 (roundBits iNew 29) else l.i }
    setU { l with clamped := !decide (u = raw) } u den

/-- The IDLE_HOLD of a loop that targets a PA port holds it: PAn_EN is low, or has been since the last release and the sample is from before it rose (R193, R195, R196). -/
def idleHolds (s : State) (j : Nat) (g : LoopCfg) (at_ : Nat) : Bool :=
  let c := s.rd (F.loopCtrlTindex j)
  g.idleHold && s.rd (F.loopCtrlTkind j) == 1 && (!s.paEn c || ((s.loop j).idleHeld && decide (at_ < (s.chain c).paRoseAt)))
/-- The quiet slot of a loop of period 1 slot (R195). -/
def quietHold (s : State) (j slot : Nat) : Bool := s.rd (F.loopCtrlPeriod j) == 0 && slot == 1023

/-- A loop in MANUAL or AUTO is held now (R195), as HOLD shows. -/
def loopHeld (s : State) (j : Nat) : Bool :=
  let l := s.loop j
  let mode := s.loopMode j
  (mode == 1 || mode == 2) &&
    (l.trimHold.isSome || l.idleHeld || s.quietHold j s.slotNow ||
      (s.rd (F.loopCtrlTkind j) == 1 && (s.latched || s.boot.harbour ||
        (match s.loopCfg j with | some g => s.idleHolds j g s.cyc | none => false))))

/-- A loop's fixed-phase write (R191 to R195). A trim update holds it through the first sample after the update, which passes also while the loop is held for another reason (R187). -/
def loopWrite (s : State) (j : Nat) (g : LoopCfg) (at_ : Nat) : State :=
  let l := s.loop j
  let pa := s.rd (F.loopCtrlTkind j) == 1
  let mode := s.loopMode j
  let held : LoopSt := { l with sampleAt := none, trimHold := l.trimHold.filter (fun t => decide (at_ < t)) }
  let hold := s.setLoop j held
  if mode = 0 ∨ 2 < mode then s.setLoop j { l with sampleAt := none }
  else if pa && (s.latched || s.boot.harbour) then hold
  else if s.idleHolds j g at_ then s.setLoop j { held with idleHeld := true }
  else if s.quietHold j ((at_ + 1472) / 960 % 1024) then hold
  else
    let l := if l.idleHeld then { l with idleHeld := false, preset := mode == 2 } else l
    let s := s.setLoop j l
    if l.trimHold.isSome then
      s.setLoop j { l with sampleAt := none, trimHold := l.trimHold.filter (fun t => decide (at_ < t)) }
    else if mode = 1 then
      let u := clampI g.outMin g.outMax (s.rdS (F.loopManMan j))
      (s.setLoop j (setU l (u * 2 ^ 29) 1)).loopDeliver j at_
    else (s.setLoop j (s.loopAuto j g)).loopDeliver j at_

/-! ### Calibration operations (R184, R196) -/

/-- CAL_CMD starts an operation, or is refused as busy. -/
def calStart (s : State) (who : Nat) (full : Bool) (m : Nat) (fsRef : BitVec 20) : State :=
  match s.meas.calOp with
  | some _ => s.note srcMeas (s.mcCtx m)
  | none =>
    match s.mcCfg m with
    | none => s.note srcMeas (s.mcCtx m)
    | some _ =>
      let s := s.restartFilter m
      let s := { s with meas := { s.meas with calOp := some ⟨full, BitVec.ofNat 5 m, fsRef, 0, 0, 0, who⟩ } }
      (s.wr F.calStatResult 1).wr F.calStatMc m

/-- MC_CAL is written (R183): an operation on the channel is aborted. -/
def mcCalFx (s : State) (m : Nat) (w : Word) : State :=
  let s := s.setReg (F.mcCalOffset m).addr w
  let s := match s.meas.calOp with
    | some o => if o.mc.toNat = m then ({ s with meas := { s.meas with calOp := none } } : State).wr F.calStatResult 4 else s
    | none => s
  s.restartFilter m

/-- An accepted calibration: MC_CAL takes its new word, journalled as a LIVE write of its requester, the engines under their one code 10 (R400, R433). -/
def calAccept (s : State) (o : CalOp) (w : Word) : State :=
  let m := o.mc.toNat
  let a := (F.mcCalOffset m).addr
  let s := ({ s with meas := { s.meas with calOp := none } } : State).setReg a w
  let s := (s.inc F.calStatCalCnt F.calStatCalOvf).wr F.calStatResult 2
  let s := (s.wr F.calTimeHiTime s.nowHi.toNat).wr F.calTimeLoTime s.nowLo.toNat
  (s.journal 1 (Nat.min o.who 10 * 2 ^ 24 + a) s.cycW w (BitVec.allOnes 40)).restartFilter m

/-- A refused one changes nothing and is noted. -/
def calRefuse (s : State) (o : CalOp) : State :=
  ((({ s with meas := { s.meas with calOp := none } } : State).wr F.calStatResult 3).note srcMeas (s.mcCtx o.mc.toNat)).restartFilter o.mc.toNat

/-- The judgement of an operation whose 16 fine values have been taken: A = num/den. -/
def calJudge (s : State) (o : CalOp) (num : Int) (den : Nat) : State :=
  let m := o.mc.toNat
  let old := s.reg (F.mcCalOffset m).addr
  if o.full then
    -- A − OFFSET in units of 2^-19 over den
    let d := num * 2 ^ 19 - s.rdS (F.mcCalOffset m) * den
    let fs := sx 20 o.fsRef.toNat
    -- the gain FS_REF / (A − OFFSET) is top / bot, in u2.18
    let top := if d < 0 then -(fs * den) else fs * den
    let bot : Nat := d.natAbs
    if d.natAbs < 2 ^ 13 * den ∨ 2 * top < (bot : Int) ∨ 2 * (bot : Int) < top then s.calRefuse o
    else s.calAccept o (putBits old 19 0 (ux 20 (roundEven (top * 2 ^ 18) bot)))
  else if (den : Int) < 16 * num ∨ 16 * num < -(den : Int) then s.calRefuse o
  else s.calAccept o (putBits old 39 20 (ux 20 (roundEven (num * 2 ^ 19) den)))

/-! ### Triggers (R178) -/

/-- One waiting request comes before another: it is due earlier, or at the same edge its entry is lower. -/
def trigBefore (x y : TrigWait) : Bool := decide (x.due < y.due) || (x.due == y.due && decide (x.entry < y.entry))

/-- A trigger request is made. -/
def serveTrig (s : State) (w : TrigWait) : State :=
  let s := { s with meas := { s.meas with trigs := s.meas.trigs.erase w } }
  match s.img.trigs[w.entry]? with
  | some t => if t.urgent then s.askUrgent t.mc.toNat else s.askOrdinary t.mc.toNat
  | none => s

/-- Trigger requests in the order they are taken. -/
def trigOrder (l : List TrigWait) : List TrigWait :=
  l.foldl (fun l x => l.takeWhile (fun y => !trigBefore x y) ++ [x] ++ l.dropWhile (fun y => !trigBefore x y)) []
/-- A trigger request is made after those that come before it. -/
def serveTrigs (s : State) (w : TrigWait) : State :=
  (trigOrder (s.meas.trigs.filter (fun x => trigBefore x w)) ++ [w]).foldl serveTrig s
/-- Every trigger request due now is made: a request by MEAS_REQ follows them (R196). -/
def serveDue (s : State) : State := (trigOrder (s.meas.trigs.filter (fun x => decide (x.due ≤ s.cyc)))).foldl serveTrig s

/-! ### The PA_EN output register (R178, R195) -/

/-- At a CLK_S edge the PA_EN output register of a chain follows: an edge waits to be recognised, and a fall holds the loops with IDLE_HOLD that target the port. -/
def paRegFx (s : State) (c : Nat) : State :=
  let k := s.chain c
  let level := s.paEn c
  if level = k.paReg then s
  else
    let s := s.setChain c { k with
      paReg := level, paEdges := k.paEdges ||| (if level then 1 else 2), paRoseAt := if level then s.cyc else k.paRoseAt }
    if level then s
    else s.img.loops.foldl (fun s g =>
      let j := g.slot.toNat
      if g.idleHold && s.rd (F.loopCtrlTkind j) == 1 && s.rd (F.loopCtrlTindex j) == c && (s.loopMode j == 1 || s.loopMode j == 2) then
        let l := s.loop j
        s.setLoop j { l with idleHeld := true }
      else s) s

end State

/-! ### Meanings -/

/-- SCAN_CONVERSION_START (R176, R177, R180): at a slot boundary. -/
def execScanConversionStart (adc : AdcId) (s : State) : Out :=
  let a := adc.toNat
  let slot := s.slotNow
  if s.cyc % 960 ≠ 0 then .next s
  else
  let (due, s) := if slot = 1023 then (none, s) else s.scanEntry a slot
  let d := s.adc a
  match d.conv, due with
  | some _, some m => .next (s.setAdc a { d with late := d.late ++ [BitVec.ofNat 5 m] })
  | some _, none => .next s
  | none, some m => .next (s.startConv a m .scheduled false true)
  | none, none =>
    match d.late, d.ordinary with
    | _ :: _, _ => .next (s.nextWork a)
    | [], m :: t => if slot = 1023 then .next s else .next ((s.setAdc a { d with ordinary := t }).startConv a m.toNat .requested false false)
    | [], [] => .next s

/-- CONVERSION_COMPLETE (R172, R180, R181): 120 CLK_S after the sample instant. In replay mode the converters have no effect on the replay set, whose results come from the journal (R404). -/
def execConversionComplete (adc : AdcId) (code : BitVec 12) (s : State) : Out :=
  let a := adc.toNat
  let d := s.adc a
  match d.conv with
  | none => .next s
  | some v =>
    if s.cyc < v.at_ + 960 then .next s
    else
      let s := s.setAdc a { d with conv := none }
      .next ((if s.replayMode then s else s.takeResult a v code).nextWork a)

/-- A recognised edge makes one request of every entry that names it, in ascending order (R178). -/
def State.recognise (s : State) (src : TrigSrc) : State :=
  let hits := (List.range s.img.trigs.length).filterMap (fun k =>
    match s.img.trigs[k]? with
    | some t => if t.sources.contains src then some (⟨k, s.cyc + 8 * t.delay⟩ : TrigWait) else none
    | none => none)
  { s with meas := { s.meas with trigs := s.meas.trigs ++ hits } }

/-- TRIGGER_EDGE (R178, R400): a TRIG edge is journalled; an FE event is one that an EVENT entry has raised, a PA_EN edge one of the output register. -/
def execTriggerEdge (src : TrigSrc) (s : State) : Out :=
  match src with
  | .trig n rising => .next ((s.journal 3 (n.toNat + bit rising * 16) s.cycW 0 0).recognise src)
  | .fe c e =>
    let k := s.chain c.toNat
    if k.raised.getLsbD e.toNat then
      .next ((s.setChain c.toNat { k with raised := k.raised &&& ~~~(1#4 <<< e.toNat) }).recognise src)
    else .next s
  | .paEn c rising =>
    let k := s.chain c.toNat
    let e := if rising then 0 else 1
    if k.paEdges.getLsbD e then
      .next ((s.setChain c.toNat { k with paEdges := k.paEdges &&& ~~~(1#2 <<< e) }).recognise src)
    else .next s

/-- TRIGGER_REQUEST (R178): the request of a recognised edge is made, after every due request that comes before it. -/
def execTriggerRequest (entry : BitVec 5) (s : State) : Out :=
  match s.meas.trigs.find? (fun t => t.entry == entry.toNat && decide (t.due ≤ s.cyc)) with
  | some w => .next (s.serveTrigs w)
  | none => .next s

/-- CAL_OP_COMPLETE (R184). -/
def execCalOpComplete (s : State) : Out :=
  match s.meas.calOp with
  | none => .next s
  | some o =>
    match s.mcCfg o.mc.toNat with
    | none => .next s
    | some g => if o.taken < 16 then .next s else .next (s.calJudge o o.sumNum (2 ^ 41 * Nat.max 1 (s.filterN g ^ g.k)))

/-- TRIM_APPLY (R187): at the start of a quiet slot with no conversion in flight. -/
def execTrimApply (s : State) : Out :=
  match s.meas.trimNext with
  | none => .next s
  | some t =>
    if s.slotNow ≠ 1023 ∨ s.cyc % 960 ≠ 0 ∨ (List.range 4).any (fun a => (s.adc a).conv.isSome) then .next s
    else
      let n := s.meas.trimExtra + 1
      let s := { s with meas := { s.meas with trims := t, trimNext := none, trimExtra := 0 } }
      let s := (List.range 32).foldl (fun s j =>
        if s.loopMode j = 2 then
          let l := s.loop j
          s.setLoop j { l with trimHold := some s.cyc }
        else s) s
      let s := (List.range 32).foldl (fun s m => s.restartFilter m) s
      let s := s.incBy F.trimStatTrimCnt F.trimStatTrimOvf n
      .next ((s.wr F.trimTimeHiTime s.nowHi.toNat).wr F.trimTimeLoTime s.nowLo.toNat)

/-- LOOP_OUTPUT_WRITE (R191): 184 CLK_S after the sample instant. -/
def execLoopOutputWrite (lp : LoopId) (s : State) : Out :=
  let j := lp.toNat
  match (s.loop j).sampleAt, s.loopCfg j with
  | some t, some g => if t + 1472 ≤ s.setCyc then .next (s.loopWrite j g t) else .next s
  | _, _ => .next s

end Sys2Proof.Machine
end

