-- ==== Sys2Proof/Machine/Time.lean ====
section
/-! DEFINITION. Clocks and calendar time: reference loss, the servo, steps, the lodestar, PPS_IN and PPS_OUT (R316 to R337). -/

namespace Sys2Proof.Machine

/-- CLK_T ticks of one second. -/
def secTicks : Nat := 30720000

/-- ωT in 2^-64 for a bandwidth in hundredths of a hertz and an update period in CLK_T ticks; 2π is taken as 6.283185307179586. -/
def omegaT (bw ticks : Nat) : Int := ((6283185307179586 * bw * ticks * 2 ^ 64) / (100 * 10 ^ 15 * secTicks) : Nat)

/-- The bound of corr over a period of `ticks`: 50 ppm (R330), in the units of corr. -/
def corrLim (ticks : Nat) : Int := ((ticks * 100000 * 2 ^ 56) / (3072 * 20000) : Nat)

/-- HOLDOVER's correction: acc alone within the bound, over the period last used, with the remainder carried (R325, R331). -/
def holdCorr (t : TimeBase) : TimeBase :=
  { t with corr := clampI (-corrLim t.tFrame) (corrLim t.tFrame) t.acc + t.corr % 2 ^ 32, corrTicks := t.tFrame }

namespace State

/-- The device is a lodestar (R326). -/
def lodestar (s : State) : Bool := s.rdB F.timeCfgLodestar
/-- The lodestar is withdrawn (R329). -/
def withdrawn (s : State) : Bool := s.time.withdrawnUntil.isSome
/-- STRATUM sent (R326). -/
def stratum (s : State) : Nat :=
  if s.lodestar then (if s.withdrawn then 63 else 0)
  else match s.time.st, s.time.upstream with
    | .acquire, some p => (s.port p.toNat).pStratum.toNat + 1
    | .locked, some p => (s.port p.toNat).pStratum.toNat + 1
    | _, _ => 63
/-- TIME_LOCK sent (R326). -/
def timeLock (s : State) : Bool :=
  if s.lodestar then !s.withdrawn && s.time.st == .locked && s.time.todOk
  else s.time.st == .locked && (match s.time.upstream with | some p => (s.port p.toNat).pTimeLock | none => false)

/-- The code of the time state. -/
def timeSt (s : State) : Nat := match s.time.st with | .free => 0 | .acquire => 1 | .locked => 2 | .holdover => 3
/-- Context word of a time base fault (R336). -/
def timeCtx (s : State) : Word :=
  BitVec.ofNat 40 (s.timeSt * 2 ^ 38 + s.stratum * 2 ^ 32 + (match s.time.upstream with | some p => p.toNat | none => 0) * 2 ^ 28)

/-- The calendar time `k` eighths of a CLK_E cycle into the present one: the counter changes at CLK_T edges (R325, R328). -/
def instant (s : State) (k : Nat) : Int := s.time.now + (((s.setCyc % 32 * 8 + k) * 100000 * 2 ^ 24 / (98304 * 8) : Nat) : Int)

/-- The calendar time at the next CLK_T edge by the present counter. -/
def nextEdge (s : State) : Int := s.instant ((32 - s.setCyc % 32) * 8)

/-- A time the counter can hold: the upper 16 bits of secondsField are zero (R324). -/
def held32 (v : Int) : Int := v % (2 ^ 32 * sec1)

/-- The TDD schedules as the time steps (R157, R332): the frame in progress keeps the end its old phase gives it. -/
def rephase (s : State) : State :=
  (tblKeys s.chains).foldl (fun s c =>
    let ch := s.chain c
    if s.onSchedule c && decide (0 < s.tddPer c) && ch.frameEnd.isNone then
      s.setChain c { ch with frameEnd := some (if s.frameCrossed c then 32 * (s.cyc / 32) else s.frameNext c) }
    else s) s

/-- A step of the counter at a CLK_T edge (R332). -/
def stepTime (s : State) (v : Int) : State :=
  let s := s.rephase
  let s := { s with time := { s.time with now := held32 v, prev := held32 v, far := 0 } }
  (s.inc F.timeCntStepCnt F.timeCntStOvf).report srcTime 3 0 s.timeCtx
/-- A step is asked for: the counter takes the value at the next CLK_T edge at which the source's time was `ref` at instant `a` of the own clock. -/
def askStep (s : State) (ref a : Int) : State :=
  { s with time := { s.time with stepTo := some (ref + (s.nextEdge - a)), far := 0 } }

/-- Entry to HOLDOVER (R331, R336): the phase term ends at once. -/
def enterHoldover (s : State) : State :=
  let s := { s with time := holdCorr { s.time with st := .holdover, secondOk := false } }
  (s.inc F.timeCntHoldCnt F.timeCntHoOvf).report srcTime 4 1 s.timeCtx

/-! ### Choosing the upstream (R327) -/

/-- A port meets the conditions for an upstream. -/
def eligible (s : State) (p : Nat) : Bool :=
  let q := s.port p
  let st := q.pStratum.toNat
  let idle := s.time.st == .free || s.time.st == .holdover
  s.portUp p && (s.portRole p == 1 || s.portRole p == 2) && decide (st ≤ 61) &&
    (decide (st < s.time.sentStratum.toNat) || (idle && decide (st < 63)))

/-- The upstream is dropped once it stops meeting them. -/
def dropUpstream (s : State) : State :=
  match s.time.upstream with
  | none => s
  | some p =>
    if s.eligible p.toNat then s
    else
      let run := s.time.st == .acquire || s.time.st == .locked
      let s := { s with time := { s.time with upstream := none, noLodestarAt := s.cyc + 10 * secCyc } }
      if run then s.enterHoldover else s

/-- Once per uptime second a follower adopts a better port. Under the ROM loader the time base stays in FREE (R425). -/
def adoptUpstream (s : State) : State :=
  if s.lodestar || s.boot.romLoader then s
  else
    let best := (List.range 8).foldl (fun (b : Option Nat) p =>
      if s.eligible p then
        match b with
        | none => some p
        | some q => if (s.port p).pStratum.toNat < (s.port q).pStratum.toNat then some p else b
      else b) none
    match best with
    | none => s
    | some p =>
      let take := match s.time.upstream with
        | none => true
        | some q => decide ((s.port p).pStratum.toNat + 2 ≤ (s.port q.toNat).pStratum.toNat)
      if take then { s with time := { s.time with upstream := some (BitVec.ofNat 3 p) } } else s

/-! ### The servo (R330, R332) -/

/-- The update of R330 for θ, a loop gain ωT and the update period in ticks. -/
def servo (s : State) (theta wT : Int) (ticks : Nat) : State :=
  let t := s.time
  let acc := t.acc + wT * wT * theta / 2 ^ 96
  let corr := clampI (-corrLim ticks) (corrLim ticks) (2 * wT * theta / 2 ^ 32 + acc)
  let ok := decide (theta.natAbs < 50 * 2 ^ 24)
  let far := if 1000 * 2 ^ 24 < theta.natAbs then t.far + 1 else 0
  let t := { t with acc := acc, corr := corr + t.corr % 2 ^ 32, corrTicks := ticks, theta := theta, tFrame := ticks, far := far }
  { s with time := { t with secondOk := t.secondOk && ok, secondUpdates := t.secondUpdates + 1 } }

/-- Entry to ACQUIRE with the step to the source's time: `ref` is the source's time at instant `a` of the own clock. -/
def enterAcquire (s : State) (ref a : Int) : State :=
  ({ s with time := { s.time with st := .acquire, secondOk := false, secondUpdates := 0 } } : State).askStep ref a

/-- Bandwidth of a follower or a lodestar, in hundredths of a hertz. -/
def loopBw (s : State) : Nat :=
  if s.lodestar then atD [1, 3, 10] (s.rd F.timeCfgLsBw) 1 else atD [100, 400, 1600] (s.rd F.timeCfgBw) 100

/-- The whole time nearest a reference with seconds congruent to SEC6 modulo 64. -/
def fullSeconds (sec6 : Nat) (refSec : Int) : Int :=
  let d := ((sec6 : Int) - refSec) % 64
  refSec + (if d < 32 then d else d - 64)

/-- The hop delay of a port (R330): published, or HELLO_DELAY before a whole second has been. -/
def hopDelay (s : State) (p : Nat) : Int :=
  let q := s.port p
  if q.delayOk then q.delay else (q.helloDelay.toNat : Int) * ns1

/-- A frame from the upstream with a correctable H1 (R327, R330): the beacon's SEC6 and fraction, the marker's arrival, the port's ticks per frame. -/
def servoFrame (s : State) (p sec6 : Nat) (frac a : Int) (ticks : Nat) : State :=
  if s.lodestar ∨ s.time.upstream ≠ some (BitVec.ofNat 3 p) then s
  else
    let fresh := match s.time.notice with | some n => decide (s.cyc ≤ n.at_ + 2 * secCyc) | none => false
    let idle := s.time.st == .free || s.time.st == .holdover
    if idle && !fresh then s
    else
      let own := s.time.now / sec1
      let refSec := match s.time.notice with
        | some n => if idle || s.time.st == .acquire then (n.seconds : Int) else own
        | none => own
      let ref := fullSeconds sec6 refSec * sec1 + frac + s.hopDelay p
      if idle then s.enterAcquire ref a
      else
        let s := s.servo (a - ref) (omegaT s.loopBw ticks) ticks
        if 16 ≤ s.time.far then s.askStep ref a else s

/-- At the end of an uptime second ACQUIRE becomes LOCKED if every update of it stayed below 50 ns. -/
def settleTime (s : State) : State :=
  let t := s.time
  let st := if t.st = .acquire && t.secondOk && decide (0 < t.secondUpdates) then TimeSt.locked else t.st
  { s with time := { t with st := st, secondOk := true, secondUpdates := 0 } }

/-! ### The counter (R325) -/

/-- The increment of one CLK_T edge: the nominal increment less the share of the correction. In HOLDOVER the frequency term is applied again each period (R325, R331). -/
def advanceTime (s : State) : State :=
  let t := s.time
  let nom : Int := if s.setCyc / 32 % 3 = 2 then 546133334 else 546133333
  let t := if t.corrTicks = 0 ∧ t.st = .holdover then holdCorr t else t
  if t.corrTicks = 0 then { s with time := { t with prev := t.now, now := held32 (t.now + nom) } }
  else
    let share := t.corr / 2 ^ 32 / (t.corrTicks : Int)
    { s with time := { t with prev := t.now, now := held32 (t.now + nom - share), corr := t.corr - share * 2 ^ 32, corrTicks := t.corrTicks - 1 } }

/-- One CLK_T edge: the increment, then the steps asked for, the TIME_SET value last, so that it stands (R332, R335, R337). -/
def tickTime (s : State) : State :=
  let s := s.advanceTime
  let s := match s.time.stepTo with
    | some v => ({ s with time := { s.time with stepTo := none } } : State).stepTime v
    | none => s
  match s.time.setAt with
  | some v => ({ s with time := { s.time with setAt := none } } : State).stepTime v
  | none => s

/-- A write of TIME_SET_LO (R337): the pair reads the last value written; the step waits for the next CLK_T edge, or is ignored with a C0 note. -/
def timeSetFx (s : State) (w : Word) : State :=
  let s := s.wr F.timeSetLoSet w.toNat
  if s.time.st = .free ∨ (s.lodestar ∧ !s.rdB F.ppsCfgPpsInEn) then
    { s with time := { s.time with setAt := some (timeOf (s.reg F.timeSetHiSet.addr) w) } }
  else s.note srcTime s.timeCtx

/-! ### PPS_IN (R328) -/

/-- PPS_IN_COMP in 2^-24 ns. -/
def ppsComp (s : State) : Int := s.rdS F.ppsCfgPpsInComp * ns1

/-- The nearest whole second to a time, in seconds. -/
def nearSec (t : Int) : Int := (t + sec1 / 2) / sec1

/-- An edge in any state but FREE, judged against the counted second: a third bad one in a row steps the time in every state (R332), and sends LOCKED to HOLDOVER (R328). -/
def ppsJudge (s : State) (a comp sec : Int) (good : State) : State :=
  let dev := a - (sec * sec1 + comp)
  if 1000 * 2 ^ 24 < dev.natAbs then
    let s := (s.inc F.timeCntPpsBad F.timeCntPbOvf).report srcTime 8 0 s.timeCtx
    let s := { s with time := { s.time with ppsGood := false, badEdges := s.time.badEdges + 1 } }
    if s.time.badEdges < 3 then s
    else
      let s := ({ s with time := { s.time with badEdges := 0 } } : State).askStep (sec * sec1 + comp) a
      if s.time.st = .locked then s.enterHoldover else s
  else if good.time.st = .holdover then good.enterAcquire (sec * sec1 + comp) a
  else good.servo dev (omegaT good.loopBw secTicks) secTicks

/-- A PPS_IN edge at a lodestar, stamped at `a`. -/
def ppsEdge (s : State) (a : Int) : State :=
  let comp := s.ppsComp
  let s := { s with time := { s.time with lastEdge := some s.cyc } }
  let due := match s.time.tod with | some (sec, at_) => if at_ + 10 * msCyc ≤ s.cyc then some sec else none | none => none
  let s := if due.isSome then { s with time := { s.time with tod := none, todOk := true } } else s
  let sec := nearSec (a - comp)
  let good := { s with time := { s.time with ppsGood := true, badEdges := 0 } }
  match s.time.st, due with
  | .free, some d => good.enterAcquire ((d : Int) * sec1 + comp) a
  | .free, none => good
  | _, some d =>
    if (d : Int) ≠ sec then
      (if s.time.st = .holdover then good.enterAcquire ((d : Int) * sec1 + comp) a else good.askStep ((d : Int) * sec1 + comp) a).report srcTime 7 1 s.timeCtx
    else s.ppsJudge a comp sec good
  | _, none => s.ppsJudge a comp sec good

/-! ### Notices (R329) -/

/-- The data of the own lodestar notice (R395): state with the withdrawn mark, seconds. -/
def lodestarData (s : State) : List Byte :=
  beBytes 1 (s.timeSt + bit s.withdrawn * 128) ++ beBytes 6 ((s.time.now / sec1).toNat % 2 ^ 32)

/-- A notice from another address is taken (R329). -/
def noticeFx (s : State) (src : DevAddr) (seconds : Nat) : State :=
  let t := s.time
  let two := match t.notice with | some n => n.src != src && decide (s.cyc ≤ n.at_ + 3 * secCyc) | none => false
  let known := match t.other with | some o => decide (s.cyc ≤ o.at_ + 3 * secCyc) | none => false
  let s := { s with time := { t with notice := some ⟨src, seconds, s.cyc⟩, other := if two then t.notice else t.other } }
  let s := if two then s.wr F.timeStatConflict 1 else s
  let s := if two && !known then s.report srcTime 6 1 s.timeCtx else s
  if s.lodestar then
    let was := s.withdrawn
    let s := { s with time := { s.time with withdrawnUntil := some (s.cyc + 3 * secCyc) } }
    if was ∨ (two && !known) then s else s.report srcTime 6 1 s.timeCtx
  else s

end State

/-! ### Meanings -/

/-- REF_LOSS (R318). -/
def execRefLoss (s : State) : Out :=
  if s.rdB F.clkStatRefOk then .next (((s.wr F.clkStatRefOk 0).wr F.clkStatRefLoss 1).report srcTime 1 3 s.timeCtx)
  else .next s

/-- REFCLK_RETURN (R318): REF_OK is set; normal operation does not come back. -/
def execRefclkReturn (s : State) : Out := .next (s.wr F.clkStatRefOk 1)

/-- PLL_UNLOCK (R319). -/
def execPllUnlock (s : State) : Out :=
  if s.rdB F.clkStatPllLock then .next ((s.wr F.clkStatPllLock 0).send srcTime 2 4 s.timeCtx) else .next s

/-- PPS_IN_EDGE (R328, R400): taken, stamped and journalled at a lodestar with PPS_IN_EN; in replay mode the ball has no effect on the time base (R404). -/
def execPpsInEdge (eighth : BitVec 3) (s : State) : Out :=
  if s.lodestar && s.rdB F.ppsCfgPpsInEn then
    let a := s.instant eighth.toNat
    let s := s.journal 3 20 s.cycW (timeLo a) 0
    .next (if s.replayMode then s else ({ s with time := { s.time with stampHi := timeHi a, stampLo := timeLo a } } : State).ppsEdge a)
  else .next s

/-- PPS_GAP_EXPIRY (R328). -/
def execPpsGapExpiry (s : State) : Out :=
  match s.time.lastEdge with
  | some t =>
    if s.lodestar ∧ !s.replayMode ∧ t + 2 * secCyc < s.cyc then
      let s := { s with time := { s.time with ppsGood := false, lastEdge := none } }
      .next (if s.time.st = .locked then s.enterHoldover else s)
    else .next s
  | none => .next s

/-- PPS_OUT_EDGE (R334): in the CLK_E cycle that holds the instant PPS_OUT_COMP before a whole second, at the first eighth of the cycle that reaches it; at most one edge for a second. -/
def execPpsOutEdge (s : State) : Out :=
  let comp := s.rdS F.ppsCfgPpsOutComp * ns1
  let sec := (s.instant 0 + comp + sec1 - 1) / sec1
  let due := sec * sec1 - comp
  if s.rdB F.ppsCfgPpsOutEn && (!s.rdB F.ppsCfgPpsOutGate || s.timeLock) && decide (due < s.instant 8) && s.time.lastPpsSecond != sec.toNat then
    let k := ((List.range 8).find? (fun k => decide (due ≤ s.instant k))).getD 7
    let until' := s.cyc + s.rd F.ppsCfgPpsWidth * msCyc
    .next { s with time := { s.time with ppsOut := true, ppsEighth := BitVec.ofNat 3 k, ppsOutUntil := until', lastPpsSecond := sec.toNat } }
  else .next s

/-- LODESTAR_NOTICE_RECEIVE (R329, R327): a notice of the own address is not another's. -/
def execLodestarNoticeReceive (src : DevAddr) (_withdrawn : Bool) (_state : BitVec 2) (seconds : BitVec 48) (s : State) : Out :=
  if s.addressed ∧ src.toNat = s.ownAddr then .next s
  else .next (s.noticeFx src (seconds.toNat % 2 ^ 32))

/-- LODESTAR_WITHDRAW_END (R329). -/
def execLodestarWithdrawEnd (s : State) : Out :=
  match s.time.withdrawnUntil with
  | some t => if t ≤ s.cyc then .next { s with time := { s.time with withdrawnUntil := none } } else .next s
  | none => .next s

/-- NO_LODESTAR_TIMER (R329): after 10 s without an upstream, and each hour after. -/
def execNoLodestarTimer (s : State) : Out :=
  if !s.lodestar ∧ s.time.upstream.isNone ∧ s.time.noLodestarAt ≤ s.cyc then
    let s := s.report srcTime 5 0 s.timeCtx
    .next { s with time := { s.time with noLodestarAt := s.cyc + 3600 * secCyc } }
  else .next s

end Sys2Proof.Machine
end

