-- ==== Sys2Proof/Machine/Guvan.lean ====
section
/-! DEFINITION. Guvan links: link states and training, frames, containers, the management channel with its credits and routing, and alarm words (R280 to R315). -/

namespace Sys2Proof.Machine

/-! ### Helpers -/

/-- The median of a list of levels; of an even number, the mean of the two in the middle. -/
def medianOf (l : List Int) : Int :=
  let sorted := l.foldl (fun (a : List Int) x => a.takeWhile (fun y => decide (y ≤ x)) ++ [x] ++ a.dropWhile (fun y => decide (y ≤ x))) []
  let n := sorted.length
  if n % 2 = 1 then atD sorted (n / 2) 0 else (atD sorted (n / 2 - 1) 0 + atD sorted (n / 2) 0) / 2

/-- A frame period in 2^-24 ns. -/
def framePeriodNs (ticks : Nat) : Int := ((ticks * 100000 * 2 ^ 24) / 3072 : Nat)

/-- A time of 2^-24 ns in 1/16 ns, truncated. -/
def sixteenths (t : Int) : Nat := (t / 2 ^ 20).toNat

namespace State

/-- Credits a port costs, by MODE_FAST (R352). -/
def portCost (s : State) (p : Nat) : Nat := match s.rd (F.gvCfgModeFast p) with | 0 => 24 | 1 => 16 | _ => 10
/-- The container map of a port's mode in a direction (R293). -/
def gvMap (s : State) (p : Nat) (inbound : Bool) : Option GvMap :=
  s.img.maps.find? (fun m => m.port.toNat == p && m.mode == (s.port p).mode && m.inbound == inbound)
/-- A GV fault of a port, without a message. -/
def gvReport (s : State) (p kind hint : Nat) : State := s.report (srcGv p) kind hint (s.gvCtx p 0)
/-- The band path fed by a stream. -/
def streamTo (s : State) (p src : Nat) : Option Nat := s.planned.find? (fun n => s.gvSource n == some (p, src))

/-! ### Receive blocks (R304) -/

/-- Count blocks of a received message in RX_BLK. -/
def countBlocks (s : State) (p k : Nat) : State :=
  let q := s.port p
  s.setPort p { q with rxBlk := q.rxBlk + BitVec.ofNat 16 k }

/-- A message under way whose end is lost: counted and freed. -/
def endLost (s : State) (p : Nat) : State :=
  let q := s.port p
  if q.rxOpen then
    let n := if 12 ≤ q.rxBytes.length && msgLen q.rxBytes ≤ 1004 then 20 + msgLen q.rxBytes else q.rxBytes.length
    let k := (n + 63) / 64
    let s := s.setPort p { q with rxOpen := false, rxBad := false, rxBytes := [], occupied := q.occupied + k }
    (s.countBlocks p k).freeBlocks p k
  else s

/-! ### Link states (R296) -/

/-- A message queued for a port that has left UP is routed again by its entry, or discarded with a note (R308, R309). The broadcast address and 0.0.0 have no entry. -/
def rerouteMsg (s : State) (p : Nat) (m : Msg) : State :=
  let dst := msgDst m.bytes
  let back := match s.mgmt.returnPort with | some k => if s.portUp k.toNat then some k.toNat else none | none => none
  let entry := s.addressed && dst != 0 && dst != allAddr
  let to_ := if dst = 0 ∨ dst = allAddr then none else if s.addressed then s.routePort dst else back
  let s := if entry then s.routeRead dst else s
  match to_ with
  | some p => s.queueOwn p m
  | none => (s.routeNote p m.bytes).freeMsg m

/-- A port stops being UP: the message being received is lost, FREE and IN_FLIGHT clear, the streams stop, and what waits to leave is routed again. -/
def leaveUp (s : State) (p : Nat) : State :=
  let s := s.endLost p
  let q := s.port p
  let held := q.outQ
  let started := q.sendMsg
  let q := { q with credits := 0, inFlight := 0, owed := 0, occupied := 0, pRxBlk := none, rx := [], badRx := [], tx := [] }
  let kept := q.inbox.map (fun (m : Msg) => ({ m with blocks := 0 } : Msg))
  let q := { q with inbox := kept, outQ := [], sending := [], sendMsg := none, rxSeq := none }
  let s := s.setPort p { q with departures := [], dSum := 0, dN := 0, delayOk := false }
  let s := match started with | some m => s.freeMsg m | none => s
  let s := held.foldl (fun s m => s.rerouteMsg p m) s
  let waits := s.mgmt.outWait.filter (fun w => w.out == BitVec.ofNat 3 p)
  let s : State := { s with mgmt := { s.mgmt with outWait := s.mgmt.outWait.filter (fun w => w.out != BitVec.ofNat 3 p) } }
  let s := waits.foldl (fun s w => if w.copy then (s.routeNote p w.msg.bytes).freeCopies w.msg else s.rerouteMsg p w.msg) s
  s.dropUpstream

/-- Entry to DETECT with the next attempt's fastest mode: silence for 1 ms or 10 ms and a random 0 to 1 ms, drawn by port number and CYC and spread over the millisecond. -/
def enterDetect (s : State) (p fast : Nat) : State :=
  let q := s.port p
  let wasUp := q.st == .up
  let s := s.setPort p { q with st := .detect, framesOn := false }
  let s := if wasUp then s.leaveUp p else s
  let x := Config.detectDraw p s.cyc
  let base := if s.rdB (F.gvCfgLead p) then msCyc else 10 * msCyc
  let q := s.port p
  let q := { q with fast := BitVec.ofNat 3 fast, silenceAt := some (s.cyc + base + x.toNat * msCyc / 65536), heard := none, chosen := 7, turnDue := false, agcFrozen := false, rxGain := 0 }
  let q := { q with turns := 0, heardAt := 0, goSent := false, goEnds := none, trainSt := 0, partnerSt := 0, candidates := [], misses := 0, retrainLeft := 0 }
  let q := { q with retrainReq := false, disjointAt := none, wasUp := false, inbox := [], badIn := [], outQ := [], alarmQ := [], owed := 0, occupied := 0 }
  s.setPort p { q with rxBytes := [], rxOpen := false, rxBad := false, credits := 0, inFlight := 0, sending := [], rxBlk := 0, sentBlk := 0 }

/-- Entry to DISABLED: silent, books reset, ENABLE 0, the credits returned (R296, R352). -/
def enterDisabled (s : State) (p : Nat) : State :=
  let q := s.port p
  let wasUp := q.st == .up
  let s := s.setPort p { q with st := .disabled, framesOn := false, silenceAt := none, disjointAt := none, goEnds := none }
  let s := if wasUp then s.leaveUp p else s
  let q := s.port p
  let q := { q with inbox := [], badIn := [], outQ := [], alarmQ := [], owed := 0, occupied := 0, rxBytes := [], rxOpen := false, rxBad := false }
  let s := s.setPort p { q with credits := 0, inFlight := 0, retrainLeft := 0, retrainReq := false, rxBlk := 0, sentBlk := 0 }
  let s := s.wr (F.gvCtrlEnable p) 0
  let c := s.credits (145 + p)
  if c = 0 then s else s.govAsk (145 + p) c true

/-- A DISABLED port with ENABLE 1 asks for its credits, or starts on those it holds. While a transfer of its own waits or is in flight the end of that one decides (R26, R354). -/
def gvAsk (s : State) (p : Nat) : State :=
  if (s.port p).st ≠ .disabled || !s.rdB (F.gvCtrlEnable p) || s.govBusy (145 + p) then s
  else if s.credits (145 + p) = 0 then s.govAsk (145 + p) (s.portCost p) false
  else s.enterDetect p (s.rd (F.gvCfgModeFast p))

/-- ENABLE written 1 (R296, R352): the port's credits are asked for, and their grant moves it to DETECT. -/
def gvEnableFx (s : State) (p : Nat) : State :=
  if (s.port p).st = .disabled then (s.wr (F.gvCtrlEnable p) 1).gvAsk p else s
/-- ENABLE written 0. -/
def gvDisableFx (s : State) (p : Nat) : State := if (s.port p).st = .disabled then s.wr (F.gvCtrlEnable p) 0 else s.enterDisabled p
/-- RETRAIN written 1 (R296): 8 frames carry it, then the port goes to DETECT. -/
def gvRetrainFx (s : State) (p : Nat) : State :=
  let q := s.port p
  if q.st = .up ∨ q.st = .hunt then s.setPort p { q with retrainReq := true, retrainLeft := if q.retrainLeft = 0 then 8 else q.retrainLeft } else s

/-- The gap of a turn, and of the first frame after GO: 256 CLK_T cycles (R297, R299). -/
def turnGap : Nat := 8192

/-- The first GO turn's last symbol leaves or arrives at cycle `at_`: HUNT, and frames from the CLK_T edge 256 CLK_T cycles on (R285, R299). -/
def enterHunt (s : State) (p at_ : Nat) : State :=
  let q := s.port p
  let ms := (at_ - q.leftDetect) / msCyc
  s.setPort p { q with st := .hunt, framesOn := true, nextFrame := 32 * ceilDiv (at_ + turnGap) 32, huntFrom := at_, candidates := [], turnDue := false, goEnds := none, txFrame := [], trainMs := BitVec.ofNat 8 (Nat.min 255 ms), turnsDone := q.trainTurns }

/-- The own GO turn of a port has ended: the port hunts (R296, R299). -/
def goDue (s : State) : State :=
  (List.range 8).foldl (fun s p => match (s.port p).goEnds with
    | some t => if t ≤ s.cyc then s.enterHunt p t else s
    | none => s) s

/-- Alignment declared: UP, with 0 credits held and 64 to return (R300, R304); every stream counts as a band path start (R295). -/
def enterUp (s : State) (p : Nat) : State :=
  let q := s.port p
  let q := { q with st := .up, wasUp := true, candidates := [], misses := 0, credits := 0, inFlight := 0, owed := 64, occupied := 0 }
  let s := s.setPort p { q with rx := [], badRx := [], dSum := 0, dN := 0, delayOk := false, pRxBlk := none, rxOpen := false, rxBytes := [], rxBad := false }
  s.planned.foldl (fun s n => match s.gvSource n with | some (k, _) => if k = p ∧ s.passing n then s.clearMore n 4 else s | none => s) s

/-- HUNT from UP (R296, R300). -/
def loseAlign (s : State) (p : Nat) : State :=
  let s := (s.gvReport p 2 1).inc (F.gvLinkcntAlignLoss p) (F.gvLinkcntAlOvf p)
  let q := s.port p
  if q.retrainReq then (s.enterDetect p (s.rd (F.gvCfgModeFast p)))
  else (s.setPort p { q with st := .hunt, huntFrom := s.cyc, candidates := [], misses := 0 }).leaveUp p

/-! ### HELLO and TRAIN (R297, R298) -/

/-- The CRC of a hello word stands in its low 16 bits. -/
def helloOk (h : BitVec 64) : Bool := (h >>> 60) == 1#64 && h.setWidth 16 == crc16Top h 48
/-- A field of a hello word. -/
def helloFld (h : BitVec 64) (hi lo : Nat) : Nat := h.toNat / 2 ^ lo % 2 ^ (hi - lo + 1)
/-- A hello word from its fields, with its CRC; LAST stands in the final block of a turn. -/
def mkHello (fast slow chosen lead gap : Nat) (last : Bool) : BitVec 64 :=
  let w : BitVec 64 := BitVec.ofNat 64 (2 ^ 60 + fast * 2 ^ 57 + slow * 2 ^ 54 + chosen * 2 ^ 51 + bit last * 2 ^ 50 + lead * 2 ^ 49 + gap * 2 ^ 24)
  w ||| (crc16Top w 48).setWidth 64

/-- The 16 words of a HELLO turn, from the word of its final block: LAST stands in that one alone (R297). -/
def helloTurn (w : BitVec 64) : List (BitVec 64) :=
  List.replicate 15 (mkHello (helloFld w 59 57) (helloFld w 56 54) (helloFld w 53 51) (helloFld w 49 49) (helloFld w 39 24) false) ++ [w]
/-- The chips of a port's last HELLO turn. -/
def helloTurnLevels (s : State) (p : Nat) : List Int := (helloTurn (s.port p).lastHello).flatMap helloLevels
/-- The levels of a port's last TRAIN turn. -/
def trainTurnOf (s : State) (p : Nat) : List Int := trainTurnLevels (s.port p).mode.toNat (s.port p).lastTrain

/-- A side may start its turn: 256 CLK_T cycles after its partner's ended at the ball; the first turn of a leader follows none (R297, R298). -/
def turnOpen (s : State) (p : Nat) : Bool := (s.port p).heardAt == 0 || decide ((s.port p).heardAt + turnGap ≤ s.cyc)
/-- The gap a side leaves, in whole ns, 0 in its first turn (R297). -/
def gapNs (s : State) (p : Nat) : Nat :=
  let q := s.port p
  if q.turns = 0 then 0 else (s.cyc - q.heardAt) * 100000 / 98304

/-- A hello word heard in HELLO: agreement, or disjoint ranges, in which the turns go on until both sides know. -/
def helloHeard (s : State) (p : Nat) (h : BitVec 64) (delay : BitVec 16) : State :=
  let q := s.port p
  let slow := s.rd (F.gvCfgModeSlow p)
  let fast := Nat.max q.fast.toNat (helloFld h 59 57)
  let q := { q with heard := some h, turnDue := true, heardAt := s.cyc }
  let q := if q.leader && 0 < q.turns then { q with helloDelay := BitVec.ofNat 16 ((delay.toNat - helloFld h 39 24) / 2) } else q
  if slow < fast ∨ helloFld h 56 54 < fast then
    s.setPort p { q with disjointAt := match q.disjointAt with | some t => some t | none => some (s.cyc + secCyc) }
  else if q.leader then
    if q.chosen ≠ 7 ∧ helloFld h 53 51 = q.chosen.toNat then s.setPort p { q with st := .train, mode := q.chosen, turns := 0, trainTurns := 0 }
    else s.setPort p { q with chosen := BitVec.ofNat 3 fast }
  else s.setPort p { q with chosen := BitVec.ofNat 3 (helloFld h 53 51) }

/-! ### Forming a frame (R284, R290 to R294, R302, R306, R311) -/

/-- The message that leaves next: the first with PRIO, else the first. -/
def pickMsg (l : List Msg) : Option Msg :=
  match l.find? (fun m => msgPrio m.bytes) with
  | some m => some m
  | none => l.head?

/-- A message has been sent on: its receive blocks are freed. -/
def sentMsg (s : State) (p : Nat) : State :=
  let q := s.port p
  match q.sendMsg with
  | some m => (s.setPort p { q with sendMsg := none }).freeMsg m
  | none => s

/-- One management symbol of a frame. A message that starts leaves its place in the queue to an originated one that waits (R306). -/
def mgmtSymbol (s : State) (p : Nat) : Sym × State :=
  let q := s.port p
  let emit := fun (s : State) (first : Bool) (l : List Byte) =>
    match l with
    | [] => ((0 : Sym), s)
    | b :: t =>
      let q := s.port p
      let s := s.setPort p { q with sending := t, sendStart := false }
      if t.isEmpty then (mgmtSym 3 b, s.sentMsg p) else (mgmtSym (if first then 2 else 1) b, s)
  if q.sending ≠ [] then emit s q.sendStart q.sending
  else match pickMsg q.outQ with
    | none => (0, s)
    | some m =>
      let k := blocksOf m.bytes
      if q.st = .up ∧ k ≤ q.credits then
        let s := s.setPort p { q with outQ := q.outQ.erase m, sendMsg := some m, credits := q.credits - k, inFlight := q.inFlight + k }
        emit (s.drainWait p) true m.bytes
      else (0, s)

/-- The 85 management symbols. -/
def mgmtSymbols (s : State) (p : Nat) : Nat → List Sym × State
  | 0 => ([], s)
  | n + 1 =>
    let (x, s) := s.mgmtSymbol p
    let (l, s) := s.mgmtSymbols p n
    (x :: l, s)

/-- The words of one container group with the samples it takes. -/
def groupWords (l : List GvSample) (clear : Bool) : List Word :=
  let tags := tagWord (l.map (fun x => (x.valid && !clear, x.gated)))
  let w0 := tags ||| BitVec.ofNat 40 (l.length * 2 ^ 32)
  w0 :: (List.range 16).map (fun j => match l[j]? with | some x => x.word | none => 0)

/-- The symbols of all 78 groups, and the port with the samples taken. -/
def containerSyms (s : State) (p : Nat) : List Sym × State :=
  let map := match s.gvMap p false with | some m => m.groups | none => []
  let clear := s.boot.harbour || s.replayMode
  let r := (List.range 78).foldl (fun (acc : List Sym × State) g =>
    let q := acc.2.port p
    match assoc map g with
    | some n =>
      let l := Tbl.get (fun _ => []) q.tx n
      (acc.1 ++ (groupWords (l.take 16) clear).flatMap wordSyms,
        acc.2.setPort p { q with tx := Tbl.set (fun _ => []) q.tx n (l.drop 16) })
    | none => (acc.1 ++ List.replicate 68 0, acc.2)) ([], s)
  let q := r.2.port p
  (r.1, r.2.setPort p { q with tx := [] })

/-- H0 of a frame (R291). -/
def frameH0 (s : State) (p : Nat) : Word :=
  let q := s.port p
  let id := match s.gvMap p false with | some m => m.mapId.toNat | none => 0
  BitVec.ofNat 40 (id * 2 ^ 24 + q.txSeq.toNat * 2 ^ 16 + q.mode.toNat * 2 ^ 13 + bit s.timeLock * 2 ^ 12 + s.stratum * 2 ^ 6
    + bit s.boot.harbour * 2 ^ 5 + bit s.addressed * 2 ^ 4)

/-- H1: the calendar time at which the marker leaves the ball (R311). -/
def beaconWord (t : Int) : Word :=
  BitVec.ofNat 40 ((t / sec1 % 64).toNat * 2 ^ 34 + sixteenths (t % sec1))

/-- The launch code of the temperature band (R284). -/
def launchCode (s : State) (p : Nat) : Nat :=
  match s.thermal.tb.toNat with
  | 0 => s.rd (F.gvLaunchTb0 p)
  | 1 => s.rd (F.gvLaunchTb1 p)
  | 2 => s.rd (F.gvLaunchTb2 p)
  | 3 => s.rd (F.gvLaunchTb3 p)
  | _ => s.rd (F.gvLaunchTb4 p)

/-- A frame is formed at its cut instant, 256 CLK_F before its marker leaves on a CLK_T edge (R285, R294). -/
def sendFrame (s : State) (p : Nat) : State :=
  let q := s.port p
  -- the marker leaves on a CLK_T edge: the one the frame before it calls for, or when that has passed the next
  let start := 32 * ceilDiv (s.cyc + 512) 32
  let t3 := s.instant (8 * (start - s.cyc))
  let h0 := s.frameH0 p
  let h2 : Word := match q.rxSeq with
    | some (k, a) => BitVec.ofNat 40 (k.toNat * 2 ^ 32 + 2 ^ 31 + sixteenths (t3 - a) % 2 ^ 31)
    | none => 0
  let ret := Nat.min 64 q.owed
  let h3 : Word := BitVec.ofNat 40 (ret * 2 ^ 33 + q.rxBlk.toNat * 2 ^ 17)
  let alarms := (List.range 4).map (fun k => atD q.alarmQ k 0)
  let h8 : Word := BitVec.ofNat 40 (s.ownAddr * 2 ^ 22 + bit (0 < q.retrainLeft) * 2 ^ 21)
  let header := ([h0, beaconWord t3, h2, h3] ++ alarms ++ [h8, 0, 0, 0]).flatMap wordSyms ++ [0, 0, 0]
  let seq := q.txSeq
  let left := q.retrainLeft
  let q := { q with owed := q.owed - ret, sentBlk := q.rxBlk, alarmQ := q.alarmQ.drop 4, txSeq := seq + 1, retrainLeft := left - 1 }
  let q := { q with launch := BitVec.ofNat 4 (s.launchCode p), departures := (seq, t3) :: (q.departures.filter (fun d => d.1 != seq)) }
  let s := s.setPort p q
  let s := { s with time := { s.time with sentStratum := BitVec.ofNat 6 s.stratum } }
  let (ms, s) := s.mgmtSymbols p 85
  let (cs, s) := s.containerSyms p
  let q := s.port p
  let s := s.setPort p { q with txFrame := header ++ ms ++ cs, txPrev := if start = q.nextFrame then q.txFrame else [], nextFrame := start + 32 * frameTicks q.mode.toNat }
  if s.latched && !(s.port p).alarmQ.any (fun w => classFour w && bitsOf w 39 22 == s.ownAddr) then
    -- the alarm word has left: the port goes down, and the core halts after the last (R372)
    let s := s.enterDisabled p
    if (List.range 8).any (fun k => s.portUp k) then s else { s with mgmt := { s.mgmt with core := .halted } }
  else if left = 1 ∧ q.retrainReq then s.enterDetect p (s.rd (F.gvCfgModeFast p))
  else s

/-- The levels port `p` drives for its frame in progress (R282 to R288). -/
def portLevels (s : State) (p : Nat) : List Int := frameLevels (s.port p).mode.toNat (s.port p).txFrame

/-- What port `p`'s driver is given for a run of symbols behind others (R284): through the 16 taps of GV_SHAPE (s2.8) at the symbol rate, then through the ROM low-pass that TX_MASK selects, which works at twice that rate about its group delay of 8 and 16 symbols and has each shaped level twice (assumption 71). Units: 2^-8 of a level, 2^-48 with a mask. -/
def driven (s : State) (p mode : Nat) (before levels : List Int) : List Int :=
  let before := before.drop (before.length - 48)
  let shaped := firLine ((List.range 16).map (fun k => s.rdS (F.gvShapeTap p k))) (before ++ levels)
  match s.rd (F.gvCfgTxMask p) with
  | 0 => shaped.drop before.length
  | m => (firLine ((List.range (2 * maskDelay m + 1)).map (maskTap m mode)) (shaped.flatMap (fun x => [x, x]))).drop (2 * before.length)
/-- The driver's input for the frame in progress, behind the frame right before it. -/
def portShaped (s : State) (p : Nat) : List Int :=
  let q := s.port p
  s.driven p q.mode.toNat (if q.txPrev = [] then [] else frameLevels q.mode.toNat q.txPrev) (s.portLevels p)
/-- The driver's input for the last HELLO turn, behind silence, with what the filters still hold at its end. -/
def helloShaped (s : State) (p : Nat) : List Int := s.driven p 2 [] (s.helloTurnLevels p ++ List.replicate 48 0)
/-- The driver's input for the last TRAIN turn. -/
def trainShaped (s : State) (p : Nat) : List Int := s.driven p (s.port p).mode.toNat [] (s.trainTurnOf p ++ List.replicate 48 0)
/-- The outer-to-outer swing port `p` launches with, in mV (R284). -/
def launchMv (s : State) (p : Nat) : Nat := 400 + 50 * (s.port p).launch.toNat

/-! ### Taking a frame (R289, R295, R300, R304, R311) -/

/-- Codeword `i` cannot be corrected. -/
def cwBad (f : RxFrame) (i : Nat) : Bool := decide (10 < atD f.errors i 0)
/-- A word at symbol `i` was lost. -/
def wordLost (f : RxFrame) (i : Nat) : Bool := cwBad f (i / 340) || cwBad f ((i + 3) / 340)
/-- A header word. -/
def hdr (f : RxFrame) (k : Nat) : Word := symsWord f.syms (4 * k)

/-- Count corrected and uncorrectable codewords. -/
def countFec (s : State) (p : Nat) (f : RxFrame) : State :=
  (List.range 16).foldl (fun s i =>
    let e := atD f.errors i 0
    if e = 0 then s
    else if e ≤ 10 then s.inc (F.gvFecCorrCnt p) (F.gvFecCorrOvf p)
    else (s.inc (F.gvFecUncCnt p) (F.gvFecUncOvf p)).gvReport p 1 0) s

/-- A discarded message: counted in DROP_MSG where R303 or R308 says so, and noted for a CRC error, the hop limit or a missing route (R313). -/
def dropMsg (s : State) (p : Nat) (m : Msg) (count note : Bool) : State :=
  let s := if count then s.inc (F.gvMsgcntDropMsg p) (F.gvMsgcntDrOvf p) else s
  (if note then s.routeNote p m.bytes else s).freeMsg m

/-- A management byte arrives. -/
def takeByte (s : State) (p : Nat) (code : Nat) (b : Byte) : State :=
  let q := s.port p
  match code with
  | 2 =>
    let s := s.endLost p
    let q := s.port p
    s.setPort p { q with rxOpen := true, rxBad := false, rxBytes := [b] }
  | 1 => if q.rxOpen then s.setPort p { q with rxBytes := q.rxBytes ++ [b], rxBad := q.rxBad || decide (1024 ≤ q.rxBytes.length) } else s
  | 3 =>
    if q.rxOpen then
      let bytes := q.rxBytes ++ [b]
      let k := (bytes.length + 63) / 64
      let s := s.setPort p { q with rxOpen := false, rxBytes := [], rxBad := false, rxBlk := q.rxBlk + BitVec.ofNat 16 k }
      if 1024 < bytes.length ∨ 64 < q.occupied + q.owed + k then s.report (srcGv p) 6 1 (s.gvCtx p (msgSrc bytes))
      else if !q.rxBad && !msgOk bytes then
        -- a bad CRC or a malformed header is discarded with the last byte (R303, R304)
        let q' := s.port p
        let s := (s.setPort p { q' with occupied := q'.occupied + k }).inc (F.gvMsgcntRxMsg p) (F.gvMsgcntRxOvf p)
        s.dropMsg p ⟨bytes, some (BitVec.ofNat 3 p), k⟩ true (!msgCrcOk bytes)
      else
        let q' := s.port p
        let s := s.setPort p { q' with occupied := q'.occupied + k }
        if q.rxBad then
          -- bytes were lost: the blocks are those the header claims, which nothing but the count of the partner tells
          (s.setPort p { q with rxBytes := bytes }).endLost p
        else
          let q' := s.port p
          (s.setPort p { q' with inbox := q'.inbox ++ [⟨bytes, some (BitVec.ofNat 3 p), k⟩] }).inc (F.gvMsgcntRxMsg p) (F.gvMsgcntRxOvf p)
    else s
  | _ => s

/-- The management symbols of a frame; an uncorrectable codeword loses those it carries. -/
def takeMgmt (s : State) (p : Nat) (f : RxFrame) : State :=
  if cwBad f 0 then
    let q := s.port p
    if q.rxOpen then s.setPort p { q with rxBad := true } else s
  else (List.range 85).foldl (fun s i =>
    let x : Sym := atD f.syms (51 + i) 0
    s.takeByte p (x.toNat / 256) (x.setWidth 8)) s

/-- Put a sample into a stream's receive buffer of 2S + 32; an overflow discards the oldest. -/
def pushRx (s : State) (p src cap : Nat) (x : GvSample) : State :=
  let q := s.port p
  let b := Tbl.get (fun _ => RxStream.empty) q.rx src
  let full := decide (cap ≤ b.buf.length)
  let b := { b with buf := (if full then b.buf.drop 1 else b.buf) ++ [x] }
  let s := s.setPort p { q with rx := Tbl.set (fun _ => RxStream.empty) q.rx src b }
  if full then ((s.rxShift p src).inc (F.gvSlipSlipCnt p) (F.gvSlipSlOvf p)).gvReport p 11 0 else s

/-- The containers of a frame (R289, R292, R295), which DL6 moves into the buffers (R258): none while it is stopped (DESIGN CHOICE, assumption 74). How many samples a lost tag word named is an open value of 0 to 16. -/
def takeContainers (s : State) (p : Nat) (f : RxFrame) (mismatch : Bool) : State :=
  let q := s.port p
  let ticks := frameTicks q.mode.toNat
  match s.gvMap p true, s.ltrStopped 518 with
  | some m, false =>
    ((List.range 78).foldl (fun s g =>
      match assoc m.groups g with
      | none => s
      | some src =>
        match s.streamTo p src with
        | none => s
        | some n =>
          let r := s.rate n
          let cap := 40 * r.den * ticks / r.num + 32
          let base := 136 + 68 * g
          let lost := wordLost f base
          let tag := symsWord f.syms base
          let (cnt, s) := if lost then
              let (x, s) := s.free
              (x.toNat % 17, s)
            else (Nat.min 16 (bitsOf tag 36 32), s)
          (List.range cnt).foldl (fun s j =>
            let at_ := base + 4 + 4 * j
            let x : GvSample := if mismatch || lost || wordLost f at_ then ⟨0, false, false, true⟩
              else ⟨symsWord f.syms at_, tag.getLsbD (2 * j + 1), tag.getLsbD (2 * j), false⟩
            s.pushRx p src cap x) s) s).devServe 518 0x40000 0
  | _, _ => s

/-- CYC of the cycle in which an instant lay. -/
def arrivalCyc (s : State) (at_ : Int) : Word := BitVec.ofInt 40 ((s.cyc : Int) - (s.instant 0 - at_) * 98304 / (100000 * 2 ^ 24))

/-- The header words of a frame: the partner's fields, credits and books, the hop delay, the journal, the time. -/
def takeHeader (s : State) (p : Nat) (f : RxFrame) : State :=
  let h0 := hdr f 0
  let h1 := hdr f 1
  let h2 := hdr f 2
  let h3 := hdr f 3
  let h8 := hdr f 8
  let q := s.port p
  let ticks := frameTicks q.mode.toNat
  let rx := BitVec.ofNat 16 (bitsOf h3 32 17)
  let counted := match q.pRxBlk with | some k => (rx - k).toNat | none => 0
  let hop : Option Int := if h2.getLsbD 31 then
      match q.departures.find? (fun d => d.1.toNat == bitsOf h2 39 32) with
      | some d => some ((f.arrival - d.2 - (bitsOf h2 30 0 : Nat) * 2 ^ 20) / 2)
      | none => none
    else none
  -- in replay mode the time base takes its upstream from the journal alone (R404)
  let q := { q with pHarbour := h0.getLsbD 5 }
  let q := if s.replayMode then q else { q with pTimeLock := h0.getLsbD 12, pStratum := BitVec.ofNat 6 (bitsOf h0 11 6) }
  let q := { q with pAddrValid := h0.getLsbD 4, pAddr := BitVec.ofNat 18 (bitsOf h8 39 22), pRxBlk := some rx }
  let q := { q with credits := Nat.min 64 (q.credits + bitsOf h3 39 33), inFlight := q.inFlight - counted }
  let q := { q with rxSeq := some (BitVec.ofNat 8 (bitsOf h0 23 16), f.arrival) }
  let q := match hop with | some d => { q with dSum := q.dSum + d, dN := q.dN + 1 } | none => q
  let s := s.setPort p q
  let up := s.time.upstream == some (BitVec.ofNat 3 p)
  let at_ := s.arrivalCyc f.arrival
  let s := if up then s.journal 5 p at_ h1 h2 else s
  let changed := s.rpl.upH0 != h0 || s.rpl.upH8 != h8
  let s := if up && changed then ({ s with rpl := { s.rpl with upH0 := h0, upH8 := h8 } } : State).journal 6 p at_ h0 h8 else s
  let s := if s.replayMode then s else s.dropUpstream.servoFrame p (bitsOf h1 39 34) ((bitsOf h1 33 0 : Nat) * 2 ^ 20) f.arrival ticks
  if h8.getLsbD 21 then s.enterDetect p (s.rd (F.gvCfgModeFast p)) else s

/-- A frame at UP, or the one whose marker declared alignment. -/
def deliverFrame (s : State) (p : Nat) (f : RxFrame) : State :=
  let s := s.countFec p f
  let q := s.port p
  let noises := (f.noise :: q.noises).take 64
  let snrs := (f.snr :: q.snrs).take 64
  -- the pilots correct the gain by no more than 1 dB/s (R299)
  let lim : Int := (dB1 * (frameTicks q.mode.toNat : Int)) / 30720000
  let q := { q with snr := medianOf snrs, snrs := snrs, rxGain := q.rxGain + clampI (-lim) lim f.gainErr }
  let s := s.setPort p { q with loss := f.loss, freq := f.freq, noises := noises, noise := medianOf noises }
  let own := match s.gvMap p true with | some m => m.mapId.toNat | none => 0
  let differs := if cwBad f 0 then q.mismatch else bitsOf (hdr f 0) 39 24 != own
  let starts := differs && !q.mismatch
  let q := s.port p
  let s := s.setPort p { q with mismatch := differs }
  let s := if differs && !cwBad f 0 then s.wr (F.gvStatMapMismatch p) 1 else s
  let s := if starts then s.gvReport p 5 1 else s
  let s := s.takeContainers p f differs
  let s := s.takeMgmt p f
  if cwBad f 0 then s else s.takeHeader p f

/-- Candidates after a marker position at an arrival, oldest opened first: one continues at the frame spacing in its place, a match that continues none opens one, and one whose position has passed is dropped (R300). -/
def nextCands (l : List (Int × Nat)) (arrival : Int) (ticks : Nat) (hit : Bool) : List (Int × Nat) :=
  let t := framePeriodNs ticks
  let near := fun (c : Int × Nat) => decide ((arrival - c.1 - t).natAbs * 4000 ≤ t.natAbs)
  let kept := l.filterMap (fun c =>
    if near c then (if hit then some (arrival, c.2 + 1) else none)
    else if arrival - c.1 - t ≤ 0 then some c else none)
  if hit && !l.any near then (kept ++ [(arrival, 1)]).drop (kept.length + 1 - 8) else kept

/-- An inbound frame position (R300). -/
def recvFrame (s : State) (p : Nat) (f : RxFrame) : State :=
  let q := s.port p
  let hit := decide (60 ≤ f.markerSigns)
  match q.st with
  | .hunt =>
    let l := nextCands q.candidates f.arrival (frameTicks q.mode.toNat) hit
    if l.any (fun c => decide (4 ≤ c.2)) then (s.enterUp p).deliverFrame p f
    else s.setPort p { q with candidates := l }
  | .up =>
    let m := if hit then 0 else q.misses + 1
    let s := s.setPort p { q with misses := m }
    if 8 ≤ m then s.loseAlign p else s.deliverFrame p f
  | _ => s

/-! ### Messages (R308, R309) -/

/-- Delivery to the management core, which takes it at once; while the core does not run the message is discarded and counted (R390). -/
def deliverMsg (s : State) (p : Nat) (m : Msg) : State :=
  let s := s.freeMsg m
  if s.coreAnswers then s.coreTakes { m with port := some (BitVec.ofNat 3 p) }
  else s.inc (F.gvMsgcntDropMsg p) (F.gvMsgcntDrOvf p)

/-- Forward a message on a port with one hop fewer; false while the queue has no room (R306). -/
def forward (s : State) (outp : Nat) (m : Msg) : Option State :=
  s.tryQueue outp { m with bytes := withHops m.bytes (msgHops m.bytes - 1) }

/-- A PORT_DIRECTED message for this device: its inner message leaves unchanged on the port it names (R303). -/
def portDirected (s : State) (p : Nat) (m : Msg) : State :=
  let pl := msgPayload m.bytes
  let outp := msgNat pl 0 1
  let inner := pl.drop 1
  let s := s.freeMsg m
  if outp < 8 ∧ s.portUp outp then
    s.queueOwn outp ⟨inner, none, 0⟩
  else s.routeNote p m.bytes

/-- The oldest whole message of a port. `rest` is the state with it taken from the buffer. -/
def takeMsg (s rest : State) (p : Nat) (m : Msg) : State :=
  let b := m.bytes
  let dst := msgDst b
  if !msgOk b then rest.dropMsg p m true (!msgCrcOk b)
  else if dst = 0 ∨ (s.addressed ∧ dst = s.ownAddr) then
    let r := if dst = 0 && !s.addressed then ({ rest with mgmt := { rest.mgmt with returnPort := some (BitVec.ofNat 3 p) } } : State) else rest
    if msgClass b = 3 then r.portDirected p m else r.deliverMsg p m
  else if dst = allAddr then
    let src := BitVec.ofNat 18 (msgSrc b)
    let seq := BitVec.ofNat 16 (msgSeq b)
    if rest.mgmt.seen.any (fun x => x.src == src && x.seq == seq && decide (rest.cyc ≤ x.at_ + 100 * msCyc)) then rest.freeMsg m
    else
      let seen := (rest.mgmt.seen ++ [(⟨src, seq, rest.cyc⟩ : SeenMsg)])
      let r := { rest with mgmt := { rest.mgmt with seen := seen.drop (seen.length - 32) } }
      (r.deliverMsg p { m with blocks := 0 }).flood m (some p)
  else if msgHops b = 0 then rest.dropMsg p m true true
  else
    let outp := if s.addressed then rest.routePort dst else rest.mgmt.returnPort.map (·.toNat)
    let look := fun (s : State) => if s.addressed then s.routeRead dst else s
    match outp with
    | none => (look rest).dropMsg p m false true
    | some k => match (look rest).forward k m with | some r => r | none => look s

/-! ### Alarm words (R310) -/

/-- ORIGIN, CLASS, GROUP and KIND of two words agree. -/
def sameAlarm (a b : Word) : Bool := (a &&& ~~~ maskOf 18 12) == (b &&& ~~~ maskOf 18 12)

/-- An alarm word is received. -/
def takeAlarm (s : State) (p : Nat) (w : Word) : State :=
  if bitsOf w 39 22 = 0 then s
  else
    let s := s.report (srcGv p) 12 0 w
    let recent := (List.range 8).any (fun k => (s.port k).heardAlarms.any (fun a => sameAlarm a.word w && decide (s.cyc ≤ a.at_ + msCyc)))
    let q := s.port p
    let s := s.setPort p { q with heardAlarms := ⟨w, s.cyc⟩ :: q.heardAlarms.filter (fun a => decide (s.cyc ≤ a.at_ + msCyc)) }
    let hops := bitsOf w 18 12
    if 0 < hops && !recent && s.portRole p != 3 then s.spreadAlarm (putBits w 18 12 (hops - 1)) (some p) else s

/-- Hop delays of the uptime second are published (R312). -/
def publishDelay (s : State) (p : Nat) : State :=
  let q := s.port p
  if q.st = .up ∧ 0 < q.dN then s.setPort p { q with delay := q.dSum / (q.dN : Int), delayOk := true, dSum := 0, dN := 0 } else s

end State

/-! ### Meanings -/

/-- DETECT_SILENCE_EXPIRY (R296): the port begins HELLO as leader. -/
def execDetectSilenceExpiry (p : PortId) (s : State) : Out :=
  let q := s.port p.toNat
  match q.silenceAt with
  | some t =>
    if q.st = .detect ∧ t ≤ s.cyc then
      .next (s.setPort p.toNat { q with st := .hello, leader := true, leftDetect := s.cyc, silenceAt := none, turnDue := true })
    else .next s
  | none => .next s

/-- HELLO_TURN_RECEIVED (R297): the word of the turn, and the time from the own last chip to its first, in ns. -/
def execHelloTurnReceived (p : PortId) (hello : BitVec 64) (delay : BitVec 16) (s : State) : Out :=
  let k := p.toNat
  let q := s.port k
  if !State.helloOk hello then .next s
  else match q.st with
    | .detect =>
      let s := s.setPort k { q with st := .hello, leader := false, leftDetect := s.cyc, silenceAt := none }
      .next (s.helloHeard k hello delay)
    | .hello => .next (s.helloHeard k hello delay)
    | _ => .next s

/-- HELLO_TURN_START (R297): once the gap has passed, a turn of 16 blocks; a follower that echoes CHOSEN has agreed the mode. -/
def execHelloTurnStart (p : PortId) (s : State) : Out :=
  let k := p.toNat
  let q := s.port k
  if q.st = .hello ∧ q.turnDue ∧ s.turnOpen k then
    let w := State.mkHello q.fast.toNat (s.rd (F.gvCfgModeSlow k)) q.chosen.toNat (s.rd (F.gvCfgLead k)) (s.gapNs k) true
    let q := { q with turnDue := false, turns := q.turns + 1, lastHello := w, launch := BitVec.ofNat 4 (s.launchCode k) }
    .next (s.setPort k (if !q.leader && q.chosen != 7 then { q with st := .train, mode := q.chosen, turns := 0, trainTurns := 0 } else q))
  else .next s

/-- MODES_DISJOINT_EXPIRY (R297, R313). -/
def execModesDisjointExpiry (p : PortId) (s : State) : Out :=
  let k := p.toNat
  match (s.port k).disjointAt with
  | some t => if t ≤ s.cyc then .next ((s.gvReport k 9 0).enterDetect k (s.rd (F.gvCfgModeFast k))) else .next s
  | none => .next s

/-- TRAIN_TURN_RECEIVED (R281, R298): the partner's information word, RX_LOCK where the SNR meets the mode's need, EC_DONE where the echo lies 6 dB below it, and the AGC frozen by 4 markers in a row. -/
def execTrainTurnReceived (p : PortId) (turn : TrainTurn) (snr echo : BitVec 16) (s : State) : Out :=
  let k := p.toNat
  let q := s.port k
  if q.st = .train then
    let st := turn.info.toNat / 4096 % 8
    let snrOk := decide (snrNeed q.mode.toNat ≤ snr.toInt)
    let echoOk := decide (echo.toInt ≤ -(snrNeed q.mode.toNat + 6 * 256))
    let own : BitVec 3 := if snrOk && echoOk then 3 else if echoOk then 2 else if snrOk then 1 else 0
    let s := s.setPort k { q with partnerSt := BitVec.ofNat 3 st, trainSt := own, turnDue := true, heardAt := s.cyc, trainTurns := q.trainTurns + 1, agcFrozen := q.agcFrozen || decide (4 ≤ turn.markers.toNat) }
    .next (if st = 4 then s.enterHunt k s.cyc else s)
  else .next s

/-- TRAIN_TURN_START (R298): once the gap has passed, a turn of 32 blocks; a READY side whose partner read READY or GO sends GO, and hunts from its end (R296, R299). The leader's first turn follows the last HELLO turn. -/
def execTrainTurnStart (p : PortId) (s : State) : Out :=
  let k := p.toNat
  let q := s.port k
  if q.st = .train ∧ (q.turnDue ∨ (q.leader ∧ q.trainTurns = 0)) ∧ s.turnOpen k then
    let go := q.trainSt == 3 && (q.partnerSt == 3 || q.partnerSt == 4)
    let st := if go then 4 else q.trainSt.toNat
    let turns := q.trainTurns + 1
    let w : BitVec 16 := BitVec.ofNat 16 (2 ^ 15 + st * 2 ^ 12 + q.mode.toNat * 2 ^ 9 + turns.toNat % 512)
    let q := { q with turnDue := false, lastTrain := w, goSent := go, trainTurns := turns, launch := BitVec.ofNat 4 (s.launchCode k) }
    .next (s.setPort k { q with goEnds := if go then some (s.cyc + turnCyc q.mode.toNat) else q.goEnds })
  else .next s

/-- TRAINING_TIMEOUT (R296, R297, R313). -/
def execTrainingTimeout (p : PortId) (s : State) : Out :=
  let k := p.toNat
  let q := s.port k
  if (q.st = .hello ∨ q.st = .train) ∧ q.disjointAt.isNone ∧ q.leftDetect + 150 * msCyc ≤ s.cyc then
    let slow := s.rd (F.gvCfgModeSlow k)
    let train := q.st == .train
    let s := s.inc (F.gvLinkcntTrainFail k) (F.gvLinkcntTfOvf k)
    let s := if train && decide (slow ≤ q.mode.toNat) then s.gvReport k 3 1 else s
    let fast := if train && s.rdB (F.gvCfgAutoDown k) && decide (q.fast.toNat < slow) then q.fast.toNat + 1 else s.rd (F.gvCfgModeFast k)
    .next (s.enterDetect k fast)
  else .next s

/-- HUNT_TIMEOUT (R296, R313). -/
def execHuntTimeout (p : PortId) (s : State) : Out :=
  let k := p.toNat
  let q := s.port k
  if q.st = .hunt ∧ q.huntFrom + 100 * msCyc ≤ s.cyc then
    let s := if q.wasUp then s.gvReport k 4 1 else s
    .next (s.enterDetect k (s.rd (F.gvCfgModeFast k)))
  else .next s

/-- GV_FRAME_SEND (R290 to R294, R299): from the frame's cut instant on. -/
def execGvFrameSend (p : PortId) (s : State) : Out :=
  if (s.port p.toNat).framesOn ∧ (s.port p.toNat).nextFrame ≤ s.cyc + 512 then .next (s.sendFrame p.toNat) else .next s

/-- GV_FRAME_RECEIVE (R289, R295, R300). -/
def execGvFrameReceive (p : PortId) (f : RxFrame) (s : State) : Out := .next (s.recvFrame p.toNat f)

/-- MSG_RECEIVE (R308, R309): the oldest message of the port is handled; one that waits for room stays, and one with a poisoned word is discarded (R313). -/
def execMsgReceive (p : PortId) (s : State) : Out :=
  let k := p.toNat
  let q := s.port k
  match q.inbox with
  | [] => .next s
  | m :: t =>
    let rest := s.setPort k { q with inbox := t, badIn := (q.badIn.filter (· != 0)).map (· - 1) }
    if q.badIn.contains 0 then .next ((rest.report (srcGv k) 7 1 (s.gvCtx k (msgSrc m.bytes))).freeMsg m)
    else .next (s.takeMsg rest k m)

/-- ALARM_WORD_RECEIVE (R310). -/
def execAlarmWordReceive (p : PortId) (w : Word) (s : State) : Out := .next (s.takeAlarm p.toNat w)

end Sys2Proof.Machine
end

