-- ==== Sys2Proof/Machine/Thermal.lean ====
section
/-! DEFINITION. Temperature and current: sensors, bands, throttling, junction limits, the current check and the credit transfers (R338 to R361). -/

namespace Sys2Proof.Machine

/-! ### Sensors (R339 to R342) -/

/-- A natural logarithm of a / b in 2^-40, for both above zero. -/
def lnRatio (a b : Nat) : Int := roundEven ((log2Fix a - log2Fix b) * 762123384786) (2 ^ 40)

/-- T of a die sensor in 2^-24 °C from v = num / (2^37 den) (R339). -/
def dieTemp (num : Int) (den : Nat) : Int := roundEven ((num * 125 - 60 * 2 ^ 37 * den) * 5 * degC) (2 ^ 37 * den)

/-- T of a thermistor in 2^-24 °C from v = num / (2^37 den), for v within 0.01 to 0.99 (R341). -/
def thermistorTemp (num den : Nat) (c : TsCfg) : Option Int :=
  let one := 2 ^ 37 * den
  if num * 100 < one ∨ 99 * one < num * 100 then none
  else if c.divRes = 0 ∨ c.nomRes = 0 then none
  else
    let l := lnRatio (c.divRes * num) ((one - num) * c.nomRes)
    let bot : Int := 100 * ((c.beta : Int) * 2 ^ 40 + 298150 * l)
    if bot ≤ 0 then none
    else some (roundEven (29815 * c.beta * 2 ^ 64) bot.toNat - roundEven (27315 * degC) 100)

namespace State

/-- The image's parameters of a sensor slot. -/
def tsCfg (s : State) (k : Nat) : Option TsCfg := s.img.sensors.find? (fun x => x.slot.toNat == k)

/-- A converted value within −60 °C to +160 °C (R342). -/
def tsRange (t : Int) : Option Int := if -60 * degC ≤ t ∧ t ≤ 160 * degC then some t else none

/-- The reading of a slot as it stands: its converted value, or none when it is invalid (R339 to R342). -/
def tsReading (s : State) (k : Nat) : Option Int :=
  let m := s.mc (s.rd (F.tsCfgMc k))
  match s.rd (F.tsCfgKind k) with
  | 1 => if m.fineOvr then none else tsRange (dieTemp m.fineNum m.fineDen)
  | 2 =>
    let t := s.tslot k
    if t.contBad || t.recent.any (·.2) || t.recent.isEmpty then none
    else tsRange (roundEven (t.recent.foldl (fun a x => a + x.1) 0) t.recent.length)
  | 3 =>
    match s.tsCfg k with
    | some c => if m.fineOvr ∨ m.fineNum < 0 then none else (thermistorTemp m.fineNum.toNat m.fineDen c).bind tsRange
    | none => none
  | _ => none

/-- A slot takes a reading (R342): three invalid ones in a row fail it, sixteen valid ones bring it back. -/
def slotTakes (s : State) (k : Nat) (r : Option Int) : State :=
    let t := s.tslot k
    match r with
    | some v =>
      let v := v + s.rdS (F.tsCfgOffset k) * 2 ^ 16
      let g := t.goodRun + 1
      let back := t.st != .failed || decide (16 ≤ g)
      s.setTslot k { t with temp := v, badRun := 0, goodRun := g, st := if back then .valid else .failed }
    | none =>
      let b := t.badRun + 1
      let fails := decide (3 ≤ b) && t.st != .failed
      let s := s.setTslot k { t with badRun := b, goodRun := 0, st := if t.st = .failed ∨ 3 ≤ b then .failed else .invalid }
      if fails then s.report srcTherm 1 1 (s.thermCtx k 0) else s

/-- One slot is evaluated. -/
def evalSlot (s : State) (k : Nat) : State := if s.rd (F.tsCfgKind k) = 0 then s else s.slotTakes k (s.tsReading k)

/-- The die sensors in use: valid and, with three valid, within 10 °C of the median (R342). -/
def dieInUse (s : State) : List Nat :=
  let ok := (List.range 3).filter (fun k => (s.tslot k).st == .valid)
  if ok.length = 3 then
    let a := (s.tslot 0).temp
    let b := (s.tslot 1).temp
    let c := (s.tslot 2).temp
    let med := Max.max (Min.min a b) (Min.min (Max.max a b) c)
    ok.filter (fun k => decide (((s.tslot k).temp - med).natAbs ≤ 10 * 16777216))
  else ok

/-- TJ_HOT, TJ and the sensors in use; the loss of sensors is reported when it comes about (R342). -/
def evalDie (s : State) : State :=
  let use := s.dieInUse
  let mask := use.foldl (fun m k => m + 2 ^ k) 0
  let temps := use.map (fun k => (s.tslot k).temp)
  let th := { s.thermal with inUse := BitVec.ofNat 3 mask, dieNoted := if use.length = 0 then 2 else if use.length = 1 then 1 else 0 }
  let th := match temps with
    | [] => th
    | x :: t => { th with tjHot := t.foldl Max.max x, tjMean := roundEven (temps.foldl (· + ·) 0) temps.length }
  let old := s.thermal.dieNoted
  let s : State := { s with thermal := th }
  if use.length = 1 && old ≠ 1 then s.report srcTherm 2 2 (s.thermCtx 0 0)
  else if use.length = 0 && old ≠ 2 then (s.goHarbour .noSensor).report srcTherm 2 3 (s.thermCtx 0 0)
  else s

/-! ### Bands (R343, R344, R355) -/

/-- How many of the bounds 0, 45, 75 and 95 °C a temperature meets. -/
def bandOf (t : Int) : Nat := ([0, 45, 75, 95].filter (fun b : Int => decide (b * degC ≤ t))).length
/-- The band after an evaluation: up at a bound, down 3 °C below it. -/
def bandNext (tb : Nat) (t : Int) : Nat :=
  let up := bandOf t
  let down := bandOf (t + 3 * degC)
  if tb < up then up else if down < tb then down else tb

/-- Time of a whole scrub pass in a band, in s (R256). -/
def passTime (tb : Nat) : Nat := atD [8, 8, 4, 2, 1] tb 1
/-- The settings of a band are applied (R344): JRX preset, JTX drive level, set points and MAN_CODEs; the launch code and the base reserve follow the band in force where they act. -/
def bandSettings (s : State) (tb : Nat) : State :=
  match s.img.bands.find? (fun b => b.tb.toNat == tb) with
  | none => s
  | some b =>
    let s : State := { s with thermal := { s.thermal with jrxPreset := b.jrxPreset, jtxDrive := b.jtxDrive } }
    let s := b.sp.foldl (fun s x => s.loopSpFx x.1.toNat x.2.toInt) s
    b.man.foldl (fun s x => s.wr (F.paCtrlManCode x.1.toNat) x.2.toNat) s

/-- The base reserve moves between the values of two bands in one transfer (R355). -/
def moveBase (s : State) (old new : Nat) : State :=
  let a := s.baseOf old
  let b := s.baseOf new
  if a < b then s.govAsk 0 (b - a) false else if b < a then s.govAsk 0 (a - b) true else s

/-- The band is evaluated; the first evaluation after PLL lock sets it alone (R343). -/
def evalBand (s : State) : State :=
  let th := s.thermal
  if th.evaluated then
    let new := bandNext th.tb.toNat th.tjHot
    if new = th.tb.toNat then s
    else
      let old := th.tb.toNat
      let s : State := { s with thermal := { th with tb := BitVec.ofNat 3 new, scrubPass := passTime new } }
      let s := s.inc F.thermCntBandCnt F.thermCntBcOvf
      let s := if s.boot.locked then s.moveBase old new else s
      if s.boot.image then s.bandSettings new else s
  else
    { s with thermal := { th with evaluated := true, tb := BitVec.ofNat 3 (bandOf th.tjHot), scrubPass := passTime (bandOf th.tjHot) } }

/-! ### Throttling (R345 to R349, R361) -/

/-- The threshold of a band path in 2^-24 °C. -/
def tTh (s : State) (n : Nat) : Int := s.planDb n plTTh
/-- T of a band path's sensor: T_TH + 20 °C while it has failed (R345). -/
def tOf (s : State) (n : Nat) : Int :=
  let t := s.tslot (s.planN n plTSensor)
  if t.st = .failed then s.tTh n + 20 * degC else t.temp
/-- 0.5 dB × min(max(floor(d), 0), 20) for a difference d in 2^-24 °C. -/
def halfSteps (d : Int) : Db := clampI 0 20 (d / degC) * 8388608
/-- T_RED after an evaluation (R346). -/
def tRedNext (red d : Int) : Db :=
  let up := halfSteps d
  let down := halfSteps (d + degC)
  if red < up then up else if down < red then down else red

/-- T_RED takes a value; an increase lowers a still gain in one step (R347). -/
def setTRed (s : State) (n : Nat) (v : Db) : State :=
  let t := s.bpTherm n
  let s := s.setBpTherm n { t with tRed := v }
  if t.tRed < v && s.gainStill n then s.dropGain n (v - t.tRed) else s

/-- T_RED is kept over a parity error (R358). -/
def keepTRed (s : State) (n : Nat) : State :=
  let t := s.bpTherm n
  s.setBpTherm n { t with kept := match t.kept with | some v => some v | none => some t.tRed }

/-- The held cause THERM follows the sensor with 3 °C of hysteresis (R348). -/
def setTherm (s : State) (n : Nat) : State :=
  let d := s.tOf n - s.tTh n
  if 21 * degC ≤ d then s.setHeld n (fun h => { h with therm := true })
  else if d < 18 * degC then s.setHeld n (fun h => { h with therm := false })
  else s

/-- STARTING, ACTIVE, BACKED_OFF or MUTED. -/
def throttles (s : State) (n : Nat) : Bool :=
  match (s.bp n).prot.st with
  | .starting | .active | .backedOff | .muted => true
  | _ => false
/-- OFF or BARRED. -/
def idleSt (s : State) (n : Nat) : Bool :=
  match (s.bp n).prot.st with
  | .off | .barred => true
  | _ => false

/-- A thermal request notice (R349, R395). -/
def thermNotice (s : State) (n phase left : Nat) : State :=
  let t := (s.tslot (s.planN n plTSensor)).temp
  s.notice 2 (beBytes 1 phase ++ beBytes 1 n ++ beBytes 2 (left / secCyc) ++ beBytes 2 (dbField 16 7 t))

/-- T_RED and THERM follow the sensor. -/
def throttle (s : State) (n : Nat) : State :=
  let s := if s.throttles n then s.setTRed n (tRedNext (s.bpTherm n).tRed (s.tOf n - s.tTh n)) else s
  s.setTherm n

/-- The 10 dB of a parity error end (R358): T_RED is what an evaluation of the value before it gives, or in a state or a grace in which none moves it that value. -/
def endForced (s : State) (n : Nat) : State :=
  let t := s.bpTherm n
  match t.kept with
  | none => s
  | some v =>
    let moves := s.throttles n && !(s.privileged n && (!t.episode || t.graceEnd.isSome))
    s.setBpTherm n { t with tRed := if moves then tRedNext v (s.tOf n - s.tTh n) else v, kept := none }

/-- The evaluation of one band path (R346 to R349). -/
def evalThrottle (s : State) (n : Nat) : State :=
  let s := s.endForced n
  let d := s.tOf n - s.tTh n
  let t := s.bpTherm n
  let s := s.setBpTherm n { t with hot := decide (21 * degC ≤ d) }
  if s.idleSt n then s
  else if s.privileged n then
    let t := s.bpTherm n
    if t.episode then
      if d < 0 then
        let left := match t.graceEnd with | some g => g - s.setCyc | none => 0
        let s := s.setBpTherm n { t with episode := false, graceEnd := none, leftGrace := left, endedAt := some s.setCyc }
        (s.throttle n).thermNotice n 3 left
      else if t.graceEnd.isSome then s
      else s.throttle n
    else if s.throttles n && decide (0 < halfSteps d) then
      let early := match t.endedAt with | some e => decide (s.setCyc < e + 60 * secCyc) | none => false
      let g := if early then t.leftGrace else s.rd F.thermCfgGrace * secCyc
      (s.setBpTherm n { t with episode := true, graceEnd := some (s.setCyc + g) }).thermNotice n 1 g
    else if s.throttles n then s.setTRed n (tRedNext t.tRed d)
    else s
  else s.throttle n

/-- The thermal record of a band path (R361). -/
def thermRecord (s : State) (n : Nat) : State :=
  let t := s.bpTherm n
  let left := match t.graceEnd with | some g => (g - s.setCyc) / secCyc | none => 0
  let st := if (s.bp n).prot.held.therm then 3 else if t.episode && t.graceEnd.isSome then 2 else if 0 < t.tRed then 1 else 0
  let red := (t.tRed / 8388608).toNat
  s.memWrite .hold (0x3FE100 + n)
    (BitVec.ofNat 40 (st * 2 ^ 36 + red * 2 ^ 31 + Nat.min left 300 * 2 ^ 22 + s.planN n plTSensor % 16 * 2 ^ 18))

/-! ### Limits (R350, R351, R356) -/

/-- The limits at 110 °C, with release below 107 °C, and 125 °C. -/
def evalLimits (s : State) (before : Int) (shedToo : Bool) : State :=
  let t := s.thermal.tjHot
  let s :=
    if !shedToo then s
    else if 110 * degC ≤ t ∧ !s.thermal.shed then
      (({ s with thermal := { s.thermal with shed := true } } : State).inc F.thermCntShedCnt F.thermCntShOvf).report srcTherm 3 1 (s.thermCtx 0 0)
    else if t < 107 * degC then { s with thermal := { s.thermal with shed := false } }
    else s
  if 125 * degC ≤ t then
    let s := s.goHarbour .junction
    if before < 125 * degC then s.report srcTherm 4 3 (s.thermCtx 0 0) else s
  else s

/-- THERM_N (R350). -/
def evalThermN (s : State) : State :=
  let ep := s.planned.any (fun n => (s.bpTherm n).episode)
  { s with thermal := { s.thermal with thermN := ep || decide (110 * degC ≤ s.thermal.tjHot) || s.thermal.trip } }

/-- The check of the measured core current (R356). -/
def evalCurrent (s : State) : State :=
  if s.rdB F.govCfgCurEn then
    let m := s.mc (s.rd F.govCfgCurMc)
    let q := m.fineNum * s.rd F.govCfgCurScale
    let one : Int := 2 ^ 45 * m.fineDen
    let high := decide ((s.budget : Int) * one < q * 20)
    let abs' := decide (468 * one < q * 10)
    let i := roundEven (q * degC) one.toNat
    let th := s.thermal
    let ov := if high then th.overRun + 1 else 0
    let ab := if abs' then th.absRun + 1 else 0
    let s : State := { s with thermal := { th with iCore := i, iPeak := Max.max th.iPeak i, overRun := ov, absRun := ab } }
    let s := if high then s.inc F.govCntOverCnt F.govCntOvOvf else s
    let s := if ov = 10 then s.report srcTherm 8 1 (s.thermCtx 0 0) else s
    if ab = 2 then s.report srcTherm 9 3 (s.thermCtx 0 0) else s
  else s

/-- What the boot ROM's scan converts of a die sensor: an open fraction of the span, in 2^-37 (R411). -/
def romReading (s : State) : Option Int × State := let r := s.free; (tsRange (dieTemp (r.1.toNat % 2 ^ 37 : Nat) 1), r.2)

/-- The evaluation before an image is loaded (R411, R351): the ROM scan of the three die sensors, whose temperatures and use follow R339 and R342, feeds the band and the 125 °C limit. -/
def evalBoot (s : State) : State :=
  let before := if s.thermal.evaluated then s.thermal.tjHot else -degC * 1000
  let s := (List.range 3).foldl (fun s k => let r := s.romReading; r.2.slotTakes k r.1) s
  (s.evalDie.evalBand).evalLimits before false

/-- A whole evaluation at a frame boundary. -/
def evalThermal (s : State) : State :=
  if s.boot.image then
    let before := if s.thermal.evaluated then s.thermal.tjHot else -degC * 1000
    let s := (List.range 16).foldl (fun s k => s.evalSlot k) s
    let s := (s.evalDie.evalBand).evalLimits before true
    let s := s.planned.foldl (fun s n => s.evalThrottle n) s
    let s := s.evalThermN.evalCurrent
    s.planned.foldl (fun s n => s.thermRecord n) s
  else s.evalBoot

/-! ### Grants of quays and ports (R201, R296, R353) -/

/-- A quay's clock grant ends: CLK_GRANTED reads 1 and its 16 engines come out of gating (R201). -/
def quayClocked (s : State) (q : Nat) : State :=
  (List.range 16).foldl (fun s k =>
    let e := 16 * q + k
    let en := s.engine e
    if en.st = .gated then s.setEngine e { en with st := .idle } else s) (s.wr (F.quayStatClkGranted q) 1)

/-- A grant has ended on the books; the grantee goes on (R29, R201, R296). -/
def granted (s : State) (g : Nat) : State :=
  if g = 0 then s
  else if g ≤ 128 then s.finishEnable (g - 1)
  else if g ≤ 144 then s.quayClocked (g - 129)
  else
    let p := g - 145
    if s.rdB (F.gvCtrlEnable p) then s.enterDetect p (s.rd (F.gvCfgModeFast p))
    else s.govAsk g (s.credits g) true

/-- A release has ended on the books: a grantee that has been enabled again meanwhile asks anew (R296, R354). -/
def released (s : State) (g : Nat) : State :=
  if 1 ≤ g ∧ g ≤ 128 then s.askEnable (g - 1) else if 145 ≤ g then s.gvAsk (g - 145) else s

end State

/-! ### Meanings -/

/-- THERMAL_EVALUATION (R343): at a measurement frame boundary, a CYC that is a multiple of 983 040 (R320). -/
def execThermalEvaluation (s : State) : Out := .next (if s.alive ∧ s.setCyc % msCyc = 0 then s.evalThermal else s)

/-- THERMAL_GRACE_EXPIRY (R349): the grace of a privileged band path's episode has run out. -/
def execThermalGraceExpiry (bp : BpId) (s : State) : Out :=
  let n := bp.toNat
  let t := s.bpTherm n
  match t.graceEnd with
  | some g =>
    if t.episode ∧ g ≤ s.setCyc then
      .next ((((s.setBpTherm n { t with graceEnd := none }).throttle n).thermNotice n 2 0).thermRecord n)
    else .next s
  | none => .next s

/-- ANALOGUE_TRIP (R350, R351, R372): the 135 °C comparator. -/
def execAnalogueTrip (s : State) : Out :=
  if s.alive then
    .next (({ s with thermal := { s.thermal with trip := true, thermN := true } } : State).send srcTherm 5 4 (s.thermCtx 0 0))
  else .next s

/-- GOV_TRANSFER_END (R354, R360): the transfer in flight ends, its grantee goes on and the next request is served. -/
def execGovTransferEnd (s : State) : Out :=
  match s.thermal.xfer with
  | none => .next s
  | some w =>
    let s := s.govEnd w
    let s := if w.release then s.released w.grantee.toNat else s.granted w.grantee.toNat
    .next (s.govServe s.thermal.waiting.length)

end Sys2Proof.Machine
end

