-- ==== Sys2Proof/Machine/Faults.lean ====
section
/-! DEFINITION. Classification and reactions, graces and acknowledges, the logbook take, and the windows of the collector and the logbook (R366 to R388). -/

namespace Sys2Proof.Machine

namespace State

/-! ### The classification table (R366) -/

/-- First word of a table: the real one at 0, the shadow one at 512, entry e at two words each. -/
def clsBase (shadow : Bool) : Nat := if shadow then 512 else 0

/-- Entry words match a message. -/
def clsMatches (w0 : Word) (m : FMsg) : Bool :=
  let mask := bitsOf w0 25 12
  w0.getLsbD 1 && (m.src.toNat &&& mask) == (bitsOf w0 39 26 &&& mask) && (w0.getLsbD 5 || bitsOf w0 11 6 == m.kind.toNat)

/-- The message reports a poisoned entry itself. -/
def isClsPoison (m : FMsg) : Bool := m.src.toNat == srcFc && m.kind == 3#6

/-- The lowest matching entry from `e` on, with its two words. A poisoned entry does not match and is reported (R387). -/
def clsFind (s : State) (m : FMsg) : Nat → Nat → Option (Nat × Word × Word) × State
  | 0, _ => (none, s)
  | k + 1, e =>
    let a := clsBase m.inj + 2 * e
    let (r0, s) := s.memRead .cls a srcFc
    let (r1, s) := s.memRead .cls (a + 1) srcFc
    if r0.poison || r1.poison then
      (if isClsPoison m then s else s.report srcFc 3 1 (BitVec.ofNat 40 e)).clsFind m k (e + 1)
    else if clsMatches r0.word m then (some (e, r0.word, r1.word), s)
    else s.clsFind m k (e + 1)

/-- Bucket e of the real or the shadow table. -/
def bucket (s : State) (shadow : Bool) (e : Nat) : BucketSt :=
  Tbl.get (fun _ => ⟨0, 0⟩) (if shadow then s.fc.shadowBuckets else s.fc.buckets) e
/-- Replace a bucket. -/
def setBucket (s : State) (shadow : Bool) (e : Nat) (b : BucketSt) : State :=
  if shadow then { s with fc := { s.fc with shadowBuckets := Tbl.set (fun _ => ⟨0, 0⟩) s.fc.shadowBuckets e b } }
  else { s with fc := { s.fc with buckets := Tbl.set (fun _ => ⟨0, 0⟩) s.fc.buckets e b } }

/-- A match counts in the entry's bucket; the answer says whether it promotes (R367). -/
def countBucket (s : State) (shadow : Bool) (e : Nat) (w1 : Word) : Bool × State :=
  let n := bitsOf w1 39 32
  let tl := bitsOf w1 31 16 * 983040 / n
  let b := s.bucket shadow e
  let k := (s.cyc - b.ref) / tl
  let level := b.level - k
  let ref := if level = 0 then s.cyc else b.ref + k * tl
  if level + 1 = n then (true, s.setBucket shadow e ⟨0, ref⟩) else (false, s.setBucket shadow e ⟨level + 1, ref⟩)

/-! ### The open-fault table (R368) -/

/-- Open entry i of the real or the shadow table. -/
def openEnt (s : State) (shadow : Bool) (i : Nat) : Option OpenEnt :=
  Tbl.get (fun _ => none) (if shadow then s.fc.shadowOpen else s.fc.open_) i
/-- Replace an open entry. -/
def setOpen (s : State) (shadow : Bool) (i : Nat) (x : Option OpenEnt) : State :=
  if shadow then { s with fc := { s.fc with shadowOpen := Tbl.set (fun _ => none) s.fc.shadowOpen i x } }
  else { s with fc := { s.fc with open_ := Tbl.set (fun _ => none) s.fc.open_ i x } }
/-- The lowest free index. -/
def openFree (s : State) (shadow : Bool) : Option Nat := (List.range 32).find? (fun i => (s.openEnt shadow i).isNone)
/-- An entry is open for a source and class. -/
def openHas (s : State) (shadow : Bool) (src cls : Nat) : Bool :=
  (List.range 32).any (fun i => match s.openEnt shadow i with | some x => x.src.toNat == src && x.cls.toNat == cls | none => false)
/-- Real open entries. -/
def openN (s : State) : Nat := ((List.range 32).filter (fun i => (s.openEnt false i).isSome)).length
/-- ALARM_N is driven low (R373). -/
def alarmLow (s : State) : Bool := s.openN != 0 || s.boot.harbour || s.fc.c4 || s.pins.noLock

/-- GRACE_C2 in cycles; 10 ms before an image gives it (R370). -/
def graceC2 (s : State) : Nat := (if s.boot.image then s.rd F.fcCtrlGraceC2 else 10) * msCyc

/-- R367: class, marks and open entry of a message. The index is that of an entry made for it. -/
def classify (s : State) (m : FMsg) : FMsg × Option Nat × State :=
  let (hit, s) := s.clsFind m 256 0
  let (c, promo, s) := match hit with
    | some (e, w0, w1) =>
      let c := Nat.max m.hint.toNat (bitsOf w0 4 2)
      let (p, s) := s.countBucket m.inj e w1
      (if p then c + 1 else c, p, s)
    | none => (m.hint.toNat, false, s)
  let esc := (c == 2 || c == 3) && (s.openHas m.inj m.src.toNat c || (s.openFree m.inj).isNone)
  let c := Nat.min (if esc then c + 1 else c) 4
  let m := { m with cls := BitVec.ofNat 3 c, promo := promo, esc := esc }
  match (if c = 2 ∨ c = 3 then s.openFree m.inj else none) with
  | some i =>
    let grace := if c = 2 then some (s.cyc + s.graceC2) else none
    (m, some i, s.setOpen m.inj i (some ⟨m.src, m.kind, m.cls, c == 3, grace⟩))
  | none => (m, none, s)

/-! ### Out of service (R363) -/

/-- A chain goes to FE_FAULT; a held command is refused. -/
def chainOut (s : State) (c : Nat) : State :=
  let ch := s.chain c
  if ch.st = .feFault then s
  else
    let s := if ch.held.isSome then s.setResult c 4 else s
    let ch := s.chain c
    s.setChain c { ch with st := .feFault, held := none, seq := none, settleAt := none, calBusy := false, scratch := [] }

/-- A source is taken out of service. -/
def takeOut (s : State) (src : Nat) : State :=
  if src < 0x80 then (s.crossEntry src 3).tripped src 7
  else if 0x100 ≤ src ∧ src < 0x200 then
    match (s.engine (src - 0x100)).st with
    | .idle | .running => s.haltEngine (src - 0x100) .haltedColl
    | _ => s
  else if 0x200 ≤ src ∧ src < 0x410 then (s.ltrAbort (src - 0x200)).2
  else if 0x500 ≤ src ∧ src < 0x510 then s.chainOut (src - 0x500)
  else if 0x600 ≤ src ∧ src < 0x608 then s.gvDisableFx (src - 0x600)
  else if 0x700 ≤ src ∧ src < 0x720 then s.loopModeFx (src - 0x700) 0
  else s

/-! ### Acknowledges (R370) -/

/-- An acknowledge of the real entry at an index; the answer says whether it was accepted. -/
def ackFx (s : State) (idx src cls : Nat) (keep : Bool) : Bool × State :=
  match s.openEnt false idx with
  | none => (false, s)
  | some x =>
    if x.src.toNat ≠ src ∨ x.cls.toNat ≠ cls ∨ (s.fc.parityBad && s.fc.c3At.isSome) then (false, s)
    else
      let s := s.setOpen false idx none
      let s := if src < 0x80 then s.crossEntry src 4 else s
      (true, if !keep && x.graceEnd.isSome && !s.fc.c4 then s.takeOut src else s)

/-- The journal entry of an accepted acknowledge: a LIVE write of FC_ACK (R370, R400). -/
def ackEntry (s : State) (who idx src cls : Nat) (keep : Bool) : State :=
  let v := BitVec.ofNat 40 (src * 2 ^ 26 + cls * 2 ^ 23 + idx * 2 ^ 18 + (if keep then 1 else 2) * 2 ^ 16)
  s.journal 1 (who * 2 ^ 24 + F.fcAckAck.addr) s.cycW v (maskOf 39 16)

/-- The image's keep list names a source group and kind (R370). -/
def kept (s : State) (m : FMsg) : Bool :=
  s.img.keep.any (fun k => k.group.toNat == groupOf m.src.toNat && k.kind == m.kind)

/-! ### Reactions (R369 to R374) -/

/-- Real classifications, promotions and escalations are counted. -/
def countClass (s : State) (m : FMsg) : State :=
  if m.inj then s
  else
    let s := match m.cls.toNat with
      | 0 => s.inc F.fcCnt0CntC0 F.fcCnt0OvfA
      | 1 => s.inc F.fcCnt0CntC1 F.fcCnt0OvfB
      | 2 => s.inc F.fcCnt1CntC2 F.fcCnt1OvfA
      | 3 => s.inc F.fcCnt1CntC3 F.fcCnt1OvfB
      | _ => s
    let s := if m.promo then s.inc F.fcCnt2PromoCnt F.fcCnt2OvfA else s
    if m.esc then s.inc F.fcCnt2EscCnt F.fcCnt2OvfB else s

/-- What every real classification of C2 or C3 does beside its entry: alarm word, notice and freeze (R369, R373, R395, R402). -/
def announce (s : State) (m : FMsg) : State :=
  if m.inj then s
  else ((s.originateAlarm m.cls.toNat m.src.toNat m.kind.toNat).notice 3 (m.words.flatMap wordBytes)).freezeRecording false

/-- The management core acknowledges with KEEP a C2 of the keep list; an accepted acknowledge is journalled (R370). -/
def keepAck (s : State) (i : Nat) (m : FMsg) : State :=
  let r := s.ackFx i m.src.toNat 2 true
  if r.1 then r.2.ackEntry 0 i m.src.toNat 2 true else r.2

/-- The reaction to a classified message; `idx` is its open entry. A test latch leaves the reactions to other injected messages as they are (R376). -/
def react (s : State) (m : FMsg) (idx : Option Nat) : State :=
  if s.fc.c4 then s
  else match m.cls.toNat with
  | 2 =>
    let s := s.announce m
    match idx with
    | some i => if !m.inj && s.mgmt.core == .running && s.kept m then s.keepAck i m else s
    | none => s
  | 3 =>
    let s := (s.announce m).takeOut m.src.toNat
    if s.fc.c3At.isNone && !s.boot.harbour then
      { s with fc := { s.fc with c3At := some (s.cyc + msCyc), c3Src := m.src, c3Kind := m.kind } }
    else s
  | _ => s

/-- A whole classification. -/
def classifyFx (s : State) (m : FMsg) : State :=
  let (m, idx, s) := s.classify m
  let s := s.countClass m
  if m.cls = 4 then s.c4Decide m
  else ((s.history m).logIntake m).react m idx

/-! ### Windows (R374, R382, R385) -/

/-- Record the words a requester's read returns. -/
def setRead (s : State) (who : Nat) (l : List Word) : State := { s with reads := Tbl.set (fun _ => []) s.reads who l }
/-- The words of the last read. -/
def lastRead (s : State) (who : Nat) : List Word := Tbl.get (fun _ => []) s.reads who

/-- A requester's cursor. -/
def cursor (s : State) (who : Nat) : LogCur := Tbl.get (fun _ => LogCur.init) s.fc.cursors who
/-- Replace a cursor. -/
def setCursor (s : State) (who : Nat) (c : LogCur) : State :=
  { s with fc := { s.fc with cursors := Tbl.set (fun _ => LogCur.init) s.fc.cursors who c } }

/-- A slot is read into a requester's snapshot, which says DAMAGED where a word is found uncorrectable; the slot is then retired (R382, R384). -/
def snapSlot (s : State) (who k : Nat) (c : LogCur) : State :=
  let (bad, s) := s.readSlot k
  s.setCursor who { c with snap := if bad then [0, 0, 0, 0, 256] else s.slotWords k }

/-- A read of LOG_W0 snapshots the record the cursor selects (R382). -/
def logSnap (s : State) (who : Nat) : State :=
  let c := s.cursor who
  if c.next then
    match s.nextRec c.seq.toNat with
    | some (k, r) => s.snapSlot who k { c with seq := r.seq, slot := BitVec.ofNat 13 k }
    | none => s.setCursor who { c with snap := [0, 0, 0, 0, 0] }
  else s.snapSlot who c.slot.toNat c

/-- A read of HIST_W0 snapshots the selected history entry (R374). -/
def histSnap (s : State) (who : Nat) : State :=
  let l := if s.rdB F.histSelFrozen then s.fc.frozen else s.fc.rolling
  let w := match l[s.rd F.histSelEntry]? with | some m => m.words | none => [0, 0, 0, 0, 0]
  { s with fc := { s.fc with histSnap := Tbl.set (fun _ => []) s.fc.histSnap who w } }

/-- A read of EMR_W0 snapshots the selected entry (R385); while the C4 latch holds, only the debug port reads the file. -/
def emrSnap (s : State) (who : Nat) : State :=
  let w := if s.fc.c4 && who != 9 then [0, 0, 0, 0, 0]
    else match s.fc.emr[s.rd F.emrSelEntry]? with | some r => r.words | none => [0, 0, 0, 0, 0]
  { s with fc := { s.fc with emrSnap := Tbl.set (fun _ => []) s.fc.emrSnap who w } }

/-- HIST_CLR (R374). -/
def histClrFx (s : State) : State := { s with fc := { s.fc with frozen := [], snapFrozen := false } }
/-- EMR_CLR (R385). -/
def emrClrFx (s : State) : State := { s with fc := { s.fc with emr := [], flushed := 0, damages := [], flushDone := false } }

/-- FI_GO in factory test mode (R375). -/
def fiGoFx (s : State) : State :=
  if s.fc.queue.any (·.inj) || 56 < s.fc.queue.length then s.wr F.fiCtrlResult 2
  else
    let w := s.reg F.fiMsg0Msg.addr
    let m := s.mkMsg (bitsOf w 39 26) (bitsOf w 25 20) (bitsOf w 19 17) (s.reg F.fiMsg1Context.addr) true
    (s.pushQueue m).wr F.fiCtrlResult 1

end State

/-! ### Meanings -/

/-- FAULT_CLASSIFY (R365 to R374): the oldest queued message. -/
def execFaultClassify (s : State) : Out :=
  match s.fc.queue with
  | [] => .next s.offerHeld
  | m :: t => .next (({ s with fc := { s.fc with queue := t } } : State).classifyFx m).offerHeld

/-- A band path already muted by the collector. The other sources' own states make a second taking out of service empty. -/
def State.bpIsOut (s : State) (src : Nat) : Bool :=
  src < 0x80 && (s.bp src).prot.st == .muted && (s.bp src).prot.tripped && (s.bp src).prot.cause == 7#4

/-- One entry's C2 grace ends: the source goes out of service (R370); nothing further where it is out already (R386). -/
def State.graceEnds (s : State) (shadow : Bool) (i : Nat) : State :=
  match s.openEnt shadow i with
  | none => s
  | some x =>
    let s := s.setOpen shadow i (some { x with out := true, graceEnd := none })
    if s.fc.c4 || s.bpIsOut x.src.toNat then s else s.takeOut x.src.toNat

/-- C2_GRACE_EXPIRY (R370): of the real entry, or of the shadow entry of that index. -/
def execC2GraceExpiry (index : BitVec 5) (s : State) : Out :=
  let i := index.toNat
  let due := fun (shadow : Bool) => match s.openEnt shadow i with
    | some x => (match x.graceEnd with | some t => decide (t ≤ s.cyc) | none => false)
    | none => false
  if due false then .next (s.graceEnds false i)
  else if due true then .next (s.graceEnds true i)
  else .next s

/-- C3_GRACE_EXPIRY (R371): the device enters harbour mode. -/
def execC3GraceExpiry (s : State) : Out :=
  match s.fc.c3At with
  | none => .next s
  | some t =>
    if s.cyc < t then .next s
    else
      let s := { s with fc := { s.fc with c3At := none } }
      if s.fc.c4 || s.boot.harbour then .next s
      else .next (((s.wr F.fcStatHarbSrc s.fc.c3Src.toNat).wr F.fcStatHarbKind s.fc.c3Kind.toNat).goHarbour .c3End)

/-- LOGBOOK_TAKE (R378, R380): one intake entry. -/
def execLogbookTake (s : State) : Out :=
  if s.fc.logReady then
    match s.fc.intake with
    | [] => .next s
    | m :: t =>
      let (done, s1) := s.logWrite m
      .next (if done then { s1 with fc := { s1.fc with intake := t } } else s1)
  else .next s

/-- LOG_W0_READ (R382). -/
def execLogW0Read (who : Requester) (s : State) : Out :=
  let k := reqCode who
  let s := s.logSnap k
  .next (s.setRead k [atD (s.cursor k).snap 0 0])

/-- HIST_W0_READ (R374). -/
def execHistW0Read (who : Requester) (s : State) : Out :=
  let k := reqCode who
  let s := s.histSnap k
  .next (s.setRead k [atD (Tbl.get (fun _ => []) s.fc.histSnap k) 0 0])

/-- EMR_W0_READ (R385). -/
def execEmrW0Read (who : Requester) (s : State) : Out :=
  let k := reqCode who
  let s := s.emrSnap k
  .next (s.setRead k [atD (Tbl.get (fun _ => []) s.fc.emrSnap k) 0 0])

end Sys2Proof.Machine
end

