-- ==== Sys2Proof/Machine/Replay.lean ====
section
/-! DEFINITION. Checkpoints, and the actions FREEZE, THAW, ENTER and START of recording and replay (R401, R402, R404). -/

/-- Word `j` of the header's device state, the engine state and the band path state of a checkpoint (R401 says what those words hold, and lays none of them out). -/
opaque Sys2Proof.Config.cpWord : Sys2Proof.Machine.Snap → Nat → Sys2Proof.Word

/-- The state that the first 0x1_5000 words of a checkpoint written from outside stand for, where they stand for one (R401, R404). -/
opaque Sys2Proof.Config.cpState : List Sys2Proof.Word → Option Sys2Proof.Machine.Snap

namespace Sys2Proof.Machine

/-- The entries of a table with keys from `lo` to below `hi`, moved to start at `at_`. -/
def tblMove {α : Type} (t : Tbl α) (lo hi at_ : Nat) : List (Nat × α) :=
  (t.filter (fun p => decide (lo ≤ p.1) && decide (p.1 < hi))).map (fun p => (p.1 - lo + at_, p.2))
/-- A table without its entries from `lo` to below `hi`. -/
def tblCut {α : Type} (t : Tbl α) (lo hi : Nat) : Tbl α := t.filter (fun p => !(decide (lo ≤ p.1) && decide (p.1 < hi)))
/-- The entries of a table from `lo` to below `hi`. -/
def tblCut' {α : Type} (t : Tbl α) (lo hi : Nat) : Tbl α := t.filter (fun p => decide (lo ≤ p.1) && decide (p.1 < hi))
/-- Write a list of entries into a table. -/
def tblPuts {α : Type} (t : Tbl α) (l : List (Nat × α)) : Tbl α := l.foldl (fun t p => Tbl.put t p.1 p.2) t
/-- A table with its entries from `lo` to below `hi` taken from another place of a second table. -/
def tblCopy {α : Type} (t : Tbl α) (lo hi : Nat) (src : Tbl α) (from_ : Nat) : Tbl α :=
  tblPuts (tblCut t lo hi) (tblMove src from_ (from_ + (hi - lo)) lo)

/-- A cell as a copy finds it: the word read, its correctable errors gone, or nothing where it is uncorrectable (R255). -/
def Cell.copied (c : Cell) : Option Cell :=
  if c.poison then none
  else match rsDecode c.flips with
    | .clean => some ⟨c.word ^^^ (c.flips >>> 24).setWidth 40, 0, false⟩
    | .corrected fix => some ⟨c.word ^^^ ((c.flips ^^^ fix) >>> 24).setWidth 40, 0, false⟩
    | .bad => none

/-- The cells of a table as a copy finds them; the destination of a poisoned word keeps nothing of it. -/
def copiedCells (t : Tbl Cell) : Tbl Cell := t.filterMap (fun p => ((p.2.copied).filter (fun c => decide (c ≠ Cell.zero))).map (fun c => (p.1, c)))

namespace State

/-- Words that have been read go to another place of the device (R255, R404): each lands with valid check symbols and no poison, and a write-back of an older read of it is dropped. Damaged ones have been met by the read before. -/
def copyWords (s : State) (k : MemSel) (lo hi : Nat) (src : Tbl Cell) (from_ : Nat) : State :=
  { s with
    mem := s.mem.setTbl k (tblCopy (s.mem.tbl k) lo hi (copiedCells (tblCut' src from_ (from_ + (hi - lo)))) from_)
    writeBacks := s.writeBacks.filter (fun x => !(x.mem == k.num && decide (lo ≤ x.addr) && decide (x.addr < hi))) }

/-- Hold address of a checkpoint slot. -/
def cpBase (slot : Bool) : Nat := if slot then 0x2C0000 else 0x200000
/-- The checkpoint in a slot. -/
def snap (s : State) (slot : Bool) : Option Snap := if slot then s.cp1 else s.cp0
/-- Replace the checkpoint in a slot. -/
def setSnap (s : State) (slot : Bool) (x : Option Snap) : State := if slot then { s with cp1 := x } else { s with cp0 := x }
/-- CP_PERIOD in cycles. -/
def cpCycles (s : State) : Nat := 2 ^ s.rd F.rplCfgCpM * msCyc

/-- General-region pages of hold memory that the replay quay's translation tables map, in page order (R401). -/
def replayPages (s : State) : List Nat :=
  let q := s.rd F.rplCfgQuay
  let tables := (List.range 16).flatMap (fun k => (s.berths (16 * q + k)).map (fun c => c.xbase.toNat / 1024 * 1024))
  let words := s.mem.quay.filter (fun p => tables.any (fun b => decide (262144 * q + b ≤ p.1) && decide (p.1 < 262144 * q + b + 1024)))
  let pages := words.filterMap (fun p =>
    match applyEntry p.2.word 0 ⟨false, false⟩ with
    | .hold a => if 0x380000 ≤ a ∧ a < 0x3FE000 then some (a / 1024) else none
    | _ => none)
  (List.range 504).filterMap (fun k => if pages.contains (0xE00 + k) then some (0xE00 + k) else none)

/-- The snapshot of the replay set now (R401). -/
def takeSnap (s : State) : Snap where
  harbour := s.boot.harbour
  cyc := s.cyc
  stamp := s.img.stamp
  digest := s.img.digest
  from_ := tblPuts [] (s.selected.map (fun n => (n, (Tbl.get (fun _ => 0) s.rpl.groups n, (Tbl.get (fun _ => []) s.rpl.inWords n).length))))
  bps := s.bps
  engines := s.engines
  lighters := s.lighters
  taps := s.taps
  time := s.time
  mcs := s.mcs
  adcs := s.adcs
  meas := s.meas
  loops := s.loops
  thermal := s.thermal
  regs := s.regs
  evalSeq := s.evalSeq
  outTags := s.rpl.outTags
  outWords := s.rpl.outWords
  mem := s.mem

/-- Words of a checkpoint: the general pages the replay quay's tables mapped end it (R401). -/
def cpWords (s : State) (x : Snap) : Nat := 0x95000 + 1024 * Nat.min 172 (replayPages { s with mem := x.mem }).length
/-- Words the copy into a slot moves. -/
def cpTotal (s : State) (slot : Bool) : Nat := match s.snap slot with | some x => s.cpWords x | none => 0

/-- Bytes as words of five, big-endian. -/
def packWords : Nat → List Byte → List Word
  | 0, _ => []
  | k + 1, b => BitVec.ofNat 40 (beNat (b.take 5)) :: packWords k (b.drop 5)

/-- IDREV, build stamp and image SHA-256, nine words of the header (R401). -/
def cpIdent (idrev : Word) (stamp : BitVec 64) (digest : List Byte) : List Word :=
  idrev :: packWords 8 (beBytes 8 stamp.toNat ++ (digest ++ List.replicate 32 0).take 32)

/-- The words of the header that R401 names one by one, in its order: CYC_CP, the identity, the two selection words, and for each selected band path its group and sample index. R401 gives the order and no place: the packing is the model's (DESIGN CHOICE, assumption 49). -/
def cpHeader (s : State) (x : Snap) : List Word :=
  BitVec.ofNat 40 x.cyc :: cpIdent (s.reg 0) x.stamp x.digest ++ [s.reg (F.rplSelSlotA 0).addr, s.reg (F.rplSelSlotA 1).addr] ++
    (List.range 8).map (fun i => match s.selected[i]? with
      | some n => let f := Tbl.get (fun _ => (0, 0)) x.from_ n; BitVec.ofNat 40 (f.1 % 2 ^ 32 * 256 + f.2)
      | none => 0)

/-- Where word `j` of a checkpoint comes from, beyond the header, engine and band path words: a memory, its key and its owner. -/
def cpFrom (s : State) (x : Snap) (j : Nat) : MemSel × Nat × Nat :=
  let q := s.rd F.rplCfgQuay
  if j < 0x55000 then (.dmem, 262144 * q + (j - 0x15000), srcEng (16 * q + (j - 0x15000) / 16384))
  else if j < 0x95000 then (.quay, 262144 * q + (j - 0x55000), srcQuay q)
  else (.hold, 1024 * atD (replayPages { s with mem := x.mem }) ((j - 0x95000) / 1024) 0 + (j - 0x95000) % 1024, srcHold)

/-- A word of the snapshot is read as it stood at CYC_CP (R255, R401): by the read of its memory where it stands there still, and otherwise as the old value that its writer made be copied. -/
def snapRead (s : State) (x : Snap) (k : MemSel) (a src : Nat) : ReadWord × State :=
  let c := Tbl.get (fun _ => Cell.zero) (x.mem.tbl k) a
  if s.cell k a = c then s.memRead k a src
  else
    let r := ({ s with mem := x.mem } : State).memRead k a src
    (r.1, { r.2 with mem := s.mem, writeBacks := s.writeBacks })

/-- The coefficient banks and delay-pool words of selected band path `n` are read from the snapshot, up to the first poisoned one. -/
def snapBp (s : State) (x : Snap) (n : Nat) : Option Nat × State :=
  let t : State := { s with mem := x.mem, bps := x.bps }
  let d := t.delayBase n
  let words := [(MemSel.bankA, 16384 * n, 16384 * n + 16384, srcBp n), (.bankB, 16384 * n, 16384 * n + 16384, srcBp n),
    (.hold, d, d + (t.bp n).flow.delayWords, srcHold)]
  words.foldl (fun (acc : Option Nat × State) w =>
    (t.damagedIn w.1 w.2.1 w.2.2.1).foldl (fun (acc : Option Nat × State) a =>
      match acc.1 with
      | some _ => acc
      | none => let r := acc.2.snapRead x w.1 a w.2.2.2; (if r.1.poison then some a else none, r.2)) acc) (none, s)

/-- The word DL4 reads for place `j` of a slot, or that it met a poisoned one. The words of the engine state and of the band paths, and the device state that ends the header, are what `Config.cpWord` makes of the snapshot. -/
def cpRead (s : State) (x : Snap) (j : Nat) : ReadWord × State :=
  let h := s.cpHeader x
  if j < h.length then (⟨atD h j 0, false⟩, s)
  else if j < 0x15000 then
    let w : Word := Config.cpWord x j
    if 0x5000 ≤ j ∧ (j - 0x5000) % 0x2000 = 0 then
      match s.selected[(j - 0x5000) / 0x2000]? with
      | some n => let r := s.snapBp x n; (⟨w, r.1.isSome⟩, r.2)
      | none => (⟨w, false⟩, s)
    else (⟨w, false⟩, s)
  else let f := s.cpFrom x j; s.snapRead x f.1 f.2.1 f.2.2

/-- The next word of a checkpoint is copied through the checkpoint port; a poisoned one stops DL4 (R255, R266, R401). -/
def cpStep (s : State) : State :=
  match s.rpl.copying with
  | none => s
  | some (slot, k) =>
    match s.snap slot with
    | none => s
    | some x =>
      if s.ltrStopped 516 || decide (s.cpWords x ≤ k) then s
      else
        let r := s.cpRead x k
        if r.1.poison then r.2.ltrStop 516 3 false (cpBase slot + k)
        else
          let s := r.2.memWrite .hold (cpBase slot + k) r.1.word
          { s with rpl := { s.rpl with copying := some (slot, k + 1) } }

/-- The older of the two slots (R401): one not valid, slot 0 first, else the one with the earlier CYC_CP. -/
def olderSlot (s : State) : Bool :=
  let v := s.rpl.cpValid
  if !v.getLsbD 0 then false
  else if !v.getLsbD 1 then true
  else notEarlier (BitVec.ofNat 40 (atD s.rpl.cpCyc 0 0)) (BitVec.ofNat 40 (atD s.rpl.cpCyc 1 0))

/-- A checkpoint is taken (R401): its slot is invalid until the copy completes, one word each CLK_F cycle. -/
def cpStart (s : State) : State :=
  let slot := s.olderSlot
  let r := s.rpl
  let v := r.cpValid &&& (if slot then 1 else 2)
  let cyc' := if slot then [atD r.cpCyc 0 0, s.cyc] else [s.cyc, atD r.cpCyc 1 0]
  ({ s with rpl := { r with cpValid := v, cpCyc := cyc', copying := some (slot, 0) } } : State).setSnap slot (some s.takeSnap)

/-- A checkpoint copy has completed: the slot is valid, DL4 has done one more, and the journal records it. -/
def cpDone (s : State) (slot : Bool) : State :=
  let r := s.rpl
  let s := { s with rpl := { r with copying := none, cpValid := r.cpValid ||| (if slot then 2 else 1) } }
  (s.devServe 516 (cpBase slot) (s.cpTotal slot)).journal 10 (bit slot) (BitVec.ofNat 40 (atD r.cpCyc (bit slot) 0)) 0 0

/-- Words from outside have been written into hold memory: of a slot whose header, engine or band path words they touch, the model no longer holds the state behind those words (R404). -/
def foreign (s : State) (a count : Nat) : State :=
  let hit := fun (b : Nat) => decide (b < a + count) && decide (a < b + 0x15000)
  { s with cp0 := if hit (cpBase false) then none else s.cp0, cp1 := if hit (cpBase true) then none else s.cp1 }

/-- DL0 to DL3 drop what they hold, and the CAPTURE and INJECT taps are empty. -/
def emptyTaps (s : State) : State :=
  let s : State := { s with rpl := { s.rpl with capWait := [] } }
  let s := (List.range 4).foldl (fun s k => (s.ltrAbort (512 + k)).2) s
  { s with rpl := { s.rpl with capTap := [], injTap := [], injNext := [], injSkip := [] } }

/-- THAW (R402): the regions and the journal are emptied, both checkpoints are invalid, and recording runs again. Acts in the frozen state. -/
def thawFx (s : State) : State :=
  if s.rpl.st = .frozen then
    let s := { s with mem := { s.mem with hold := tblCut s.mem.hold 0x80000 0x200000 } }
    let r := { s.rpl with st := .recording, rplOk := false, cpValid := 0, copying := none, jHead := 0, jCount := 0 }
    let r := { r with groups := [], firstSample := [], groupAt := [], groupCyc := [], inTags := [], inWords := [], outTags := [], outWords := [] }
    ({ s with rpl := r, cp0 := none, cp1 := none } : State).emptyTaps
  else s

/-- ENTER (R404): refused while a chain is in TRANSMIT, and once in replay mode. Every band path outside the replay set goes to OFF. -/
def enterReplay (s : State) : Bool × State :=
  if s.replayMode || (tblKeys s.chains).any (fun c => (s.chain c).st == .transmit) then (false, s)
  else
    let out := s.planned.filter (fun n => !s.selected.contains n)
    let s := out.foldl (fun s n => match (s.bp n).prot.st with | .off | .barred => s | _ => s.enterOff n 1) s
    (true, { s with rpl := { s.rpl with st := .replayMode, copying := none } })

/-- A table whose entries of some keys are taken from another. -/
def pick {α : Type} [DecidableEq α] (d : Nat → α) (t src : Tbl α) (p : Nat → Bool) : Tbl α :=
  tblPuts (t.filter (fun x => !p x.1)) (src.filter (fun x => p x.1 && decide (x.2 ≠ d x.1)))

/-- A register of the replay set: those of the selected band paths, the replay quay and its engines, and of the time base, measurement, loops, thermal and governor blocks. -/
def setReg? (s : State) (a : Nat) : Bool :=
  let q := s.rd F.rplCfgQuay
  (decide (4096 ≤ a) && decide (a < 6144) && s.selected.contains ((a - 4096) / 16))
    || (decide (8192 ≤ a) && decide (a < 10240) && (a - 8192) / 128 == q)
    || (decide (12288 ≤ a) && decide (a < 14336) && (a - 12288) / 128 == q)
    || (decide (128 ≤ a) && decide (a < 256)) || (decide (384 ≤ a) && decide (a < 480)) || (decide (520 ≤ a) && decide (a < 704))

/-- Restore a checkpoint (R401, R404): the replay set as it stood at CYC_CP; data memories, quay memory and pages from the words of the slot, the pages being those that the restored tables map. -/
def restore' (s : State) (slot : Bool) (x : Snap) : State :=
  let q := s.rd F.rplCfgQuay
  let b := cpBase slot
  let sel := s.selected
  let inQ := fun e => e / 16 == q
  let inL := fun n => n / 32 == q && decide (n < 512)
  let s' := s.copyWords .dmem (262144 * q) (262144 * q + 262144) s.mem.hold (b + 0x15000)
  let s' := s'.copyWords .quay (262144 * q) (262144 * q + 262144) s.mem.hold (b + 0x55000)
  let s' := { s' with engines := pick (fun _ => Engine.init) s'.engines x.engines inQ, lighters := pick (fun _ => Lighter.init) s'.lighters x.lighters inL }
  let s' := (s'.replayPages.zip (List.range 172)).foldl (fun t p =>
    t.copyWords .hold (1024 * p.1) (1024 * p.1 + 1024) s.mem.hold (b + 0x95000 + 1024 * p.2)) s'
  let s' := { s' with bps := pick (fun _ => Bp.init) s.bps x.bps sel.contains, taps := pick (fun _ => Taps.init) s.taps x.taps sel.contains }
  let s' := sel.foldl (fun t n =>
    let d := t.delayBase n
    ((t.copyWords .bankA (16384 * n) (16384 * n + 16384) x.mem.bankA (16384 * n)).copyWords
      .bankB (16384 * n) (16384 * n + 16384) x.mem.bankB (16384 * n)).copyWords .hold d (d + (t.bp n).flow.delayWords) x.mem.hold d) s'
  let s' := { s' with time := x.time, mcs := x.mcs, meas := x.meas, loops := x.loops, thermal := x.thermal, evalSeq := x.evalSeq }
  { s' with regs := pick regReset s'.regs x.regs s.setReg? }

/-- Journal entry `i` is an entry, of a CYC at or after `c`. -/
def jFrom (s : State) (c : Word) (i : Nat) : Bool := let (w0, w1, _, _) := s.jWords i; bitsOf w0 39 34 != 0 && notEarlier w1 c
/-- The first journal entry at or after a CYC: the nearest one, and of equal ones the first in ring order (R400, R404). -/
def firstEntry (s : State) (c : Word) : Option Nat :=
  let dist := fun (i : Nat) => if s.jFrom c i then ((s.jWords i).2.1 - c).toNat else 2 ^ 40
  let least := (List.range 49152).foldl (fun m i => Nat.min m (dist i)) (2 ^ 40)
  if least = 2 ^ 40 then none else (List.range 49152).find? (fun i => dist i == least && dist ((i + 49151) % 49152) != least)
/-- Entries from place `i` to the newest one of the ring: the run ends before an entry that is none or is earlier than the one before it (R400). -/
def entriesFrom (s : State) (c : Word) (i : Nat) : Nat → Nat
  | 0 => 0
  | k + 1 => if s.jFrom c i then 1 + s.entriesFrom (s.jWords i).2.1 (i + 1) k else 0

/-- The header of a slot gives the running device and image (R404): its identity words, read by DL4. The answer holds CYC_CP and the words of the selected band paths. -/
def headerOk (s : State) (slot : Bool) : Option (Word × List Word) × State :=
  let b := cpBase slot
  match s.readRun .hold b (b + 20) srcHold with
  | (some _, s) => (none, s)
  | (none, s) =>
    let w := (List.range 20).map (fun i => s.memPeek .hold (b + i))
    (if (w.drop 1).take 9 = cpIdent (s.reg 0) s.img.stamp s.img.digest then some (atD w 0 0, w.drop 12) else none, s)

/-- START (R404): the header of the checkpoint named by FROM_SLOT must give the running device and image; then the checkpoint is restored and RCYC starts at CYC_CP. A poisoned word of the slot stops DL4, and nothing is restored (DESIGN CHOICE, assumption 49). Of a slot written from outside, the state behind its first words is what `Config.cpState` makes of them. -/
def startReplay (s : State) : Bool × State :=
  let slot := s.rdB F.rplCfgFromSlot
  let b := cpBase slot
  match s.headerOk slot with
  | (none, s) => (false, s)
  | (some (c, froms), s) =>
    match s.readRun .hold b (b + 0xC0000) srcHold with
    | (some a, s) => (false, s.ltrStop 516 3 false a)
    | (none, s) =>
      let s := (s.readRun .hold 0x80000 0xB0000 srcHold).2
      let x := (s.snap slot).getD ((Config.cpState ((List.range 0x15000).map (fun i => s.memPeek .hold (b + i)))).getD s.takeSnap)
      let s := (s.restore' slot x).emptyTaps
      let start := if BitVec.ofNat 40 x.cyc = c then x.cyc else c.toNat
      let first := s.selected.zip (froms.map (fun (w : Word) => w.toNat / 256))
      let r := { s.rpl with st := .replaying, rcyc := start, harbour := x.harbour, diverged := false, divWhere := 0, divCyc := 0 }
      let r := { r with outTags := x.outTags, outWords := x.outWords, inWords := [], inTags := [] }
      let r := { r with groups := tblPuts [] first, injNext := tblPuts [] first }
      let r := { r with injSkip := tblPuts [] (s.selected.zip (froms.map (fun (w : Word) => w.toNat % 256))) }
      let j := s.firstEntry c
      let r := { r with jNext := j.getD 0, jLeft := match j with | some i => s.entriesFrom c i 49152 | none => 0 }
      -- two groups ahead of each band path, in the order of the selection slots
      (true, s.selected.foldl (fun s n => (s.injFeed n).injFeed n) { s with rpl := r })

end State

end Sys2Proof.Machine
end

