-- ==== Sys2Proof/Machine/View.lean ====
section
/-! DEFINITION. What every register reads (R432, chapter 17 and the register tables of every chapter): the stored fields, with the fields the device keeps elsewhere put over them. -/

namespace Sys2Proof.Machine

/-- Put fields over a word. -/
def puts (w : Word) (l : List (Fld × Nat)) : Word := l.foldl (fun w p => putBits w p.1.hi p.1.lo p.2) w

/-- Code of a harbour cause, as HARB_CAUSE. -/
def harbCode : Option HarbCause → Nat
  | none => 0
  | some .c3End => 1
  | some .junction => 2
  | some .noSensor => 3
  | some .romLoader => 4

/-- Code of a band path state. -/
def BpSt.code : BpSt → Nat
  | .off => 0 | .starting => 1 | .active => 2 | .backedOff => 3 | .muted => 4 | .lockedOut => 5 | .barred => 6
/-- Code of a gate state. -/
def GateSt.code : GateSt → Nat
  | .closed => 0 | .opened => 1 | .confirmed => 2 | .resettle => 3
/-- Code of a chain state (R151). -/
def ChSt.code : ChSt → Nat
  | .poweredDown => 0 | .biasing => 1 | .synthLocking => 2 | .calibrating => 3 | .ready => 4 | .receive => 5
  | .transmit => 6 | .switching => 7 | .feFault => 8
/-- Code of an engine state. -/
def EngSt.code : EngSt → Nat
  | .idle => 0 | .running => 1 | .haltedReq => 2 | .haltedColl => 3 | .haltedFault => 4 | .gated => 5
/-- Code of a link state. -/
def LinkSt.code : LinkSt → Nat
  | .disabled => 0 | .detect => 1 | .hello => 2 | .train => 3 | .hunt => 4 | .up => 5
/-- Code of a replay state. -/
def RplSt.code : RplSt → Nat
  | .off => 0 | .recording => 1 | .frozen => 2 | .replayMode => 3 | .replaying => 4 | .done => 5
/-- Code of a core state. -/
def CoreSt.code : CoreSt → Nat
  | .starting => 0 | .running => 1 | .restarting => 2 | .halted => 3
/-- Code of a sensor slot state. -/
def TsSt.code : TsSt → Nat
  | .unused => 0 | .valid => 1 | .invalid => 2 | .failed => 3
/-- Code of a conversion kind. -/
def ConvKind.code : ConvKind → Nat
  | .scheduled => 0 | .requested => 1 | .urgent => 2 | .restarted => 3
/-- Slot state code that IMG_STAT and BOOT_REJ show: 6 with no record, 7 unreadable (R413, R447). -/
def SlotRec.view (r : SlotRec) : Nat := if !r.present then 6 else if !r.readable then 7 else r.st.toNat

namespace State

/-- The device runs on the image that a flash holds; the slot records of the boot source and of the other flash. -/
def ownSlot (s : State) : SlotRec := if s.boot.flash then s.flash1.slot else s.flash0.slot
/-- The slot record of the target (R396). -/
def targetSlot (s : State) : SlotRec := if s.boot.flash then s.flash0.slot else s.flash1.slot

/-- State of a slot as IMG_STAT gives it: an erased flash reads VALID with GEN 0 and an unreadable one EMPTY (R413). -/
def slotState (r : SlotRec) : Nat := if !r.present then 4 else if !r.readable then 0 else r.st.toNat

/-- GLB_STAT (R446). -/
def glbStat (s : State) : Word :=
  puts 0 [(F.glbStatCfgLocked, bit s.boot.locked), (F.glbStatHarbour, bit s.boot.harbour),
    (F.glbStatHarbCause, harbCode s.boot.cause), (F.glbStatC4Latch, bit s.fc.c4), (F.glbStatTestLatch, bit s.fc.testLatch),
    (F.glbStatReplayMode, bit s.replayMode), (F.glbStatRomLoader, bit s.boot.romLoader),
    (F.glbStatFactoryTest, bit s.factoryTest), (F.glbStatTb, s.thermal.tb.toNat)]

/-- The four bytes `k` of a digest as a register word (R447). -/
def digestWord (l : List Byte) (k : Nat) : Word := BitVec.ofNat 40 (beNat ((l.drop (4 * k)).take 4))

/-- Open sessions. -/
def openSessions (s : State) : Nat := ((List.range 8).filter (fun i => (Tbl.get (fun _ => none) s.mgmt.sessions i).isSome)).length

/-- PROT_LIM_DATA (R143): the value in force of the selected item. -/
def limData (s : State) : Word :=
  let n := s.rd F.protLimSelBp
  let item := s.rd F.protLimSelItem
  if s.present n ∧ item < 6 then dbWord (s.limVal (s.limIdx n) item) else 0

/-- The global block (R446). -/
def viewGlb (s : State) (j : Nat) (w : Word) : Word :=
  match j with
  | 2 => s.glbStat
  | 4 => puts w [(F.bookTapsFree, 16384 + s.tapsToTake - s.tapsOwed), (F.bookTapsInFlight, s.tapsInFlight)]
  | 5 => puts w [(F.bookRsmpFree, ((List.range 64).filter (fun k => s.resampler k == .free)).length),
      (F.bookRsmpInFlight, ((List.range 64).filter (fun k => match s.resampler k with | .resetting _ => true | _ => false)).length)]
  | 6 => puts w [(F.bookDelayFree, 262144 - s.delayHeld), (F.bookDelayInFlight, s.delayInFlight)]
  | 7 => puts w [(F.bookDescdFree, 512 - (s.usedSlots 16).length), (F.bookDescdInFlight, s.slotsInFlight 16)]
  | 11 => s.limData
  | 12 => puts w [(F.protStatMuteNLow, bit (s.alive && !s.pins.muteN)), (F.protStatLimFused, bit s.fuses.limFused),
      (F.protStatRegion, bitsOf (s.limWord 0) 39 24)]
  | 13 => puts w [(F.mgmtStatCoreState, s.mgmt.core.code), (F.mgmtStatSessions, s.openSessions), (F.mgmtStatRomLoader, bit s.boot.romLoader)]
  | 14 =>
    let o := s.ownSlot
    let out := if s.boot.romLoader then 3 else if s.boot.rolledBack then 2 else if s.boot.trial then 1 else 0
    puts 0 [(F.imgStatOwnState, slotState o), (F.imgStatTargetState, slotState s.targetSlot), (F.imgStatBootFlash, bit s.boot.flash),
      (F.imgStatTries, if slotState o = 3 then o.tries else 0), (F.imgStatGen, o.gen.toNat), (F.imgStatOutcome, out)]
  | 15 => 0
  | 19 => puts w [(F.rplStatState, s.rpl.st.code), (F.rplStatRplOk, bit s.rpl.rplOk), (F.rplStatCause, bit s.rpl.causeCmd),
      (F.rplStatCpValid, s.rpl.cpValid.toNat), (F.rplStatFrom, bit s.rpl.fromSlot)]
  | 20 => s.rpl.freezeCyc
  | 21 => s.rpl.fromCyc
  | 22 => s.rpl.divWhere
  | 23 => s.rpl.divCyc
  | _ => w

/-- The boot and image block (R447): hashes and fuses; the rest is stored by the boot ROM. -/
def viewBoot (s : State) (j : Nat) (w : Word) : Word :=
  if j = 3 then
    puts w [(F.fuseStatLimFused, bit s.fuses.limFused), (F.fuseStatKeyFused, bit s.fuses.keyFused),
      (F.fuseStatFactoryLock, bit s.fuses.factoryLock), (F.fuseStatFusedRegion, if s.fuses.limFused then s.fuses.limRegion.toNat else 0)]
  else if j < 8 then w
  else if j < 16 then (if s.boot.image then digestWord s.img.digest (j - 8) else 0)
  else if j < 24 then (if s.boot.image then digestWord (limHash (sectBytes s.img.bytes 8)) (j - 16) else 0)
  else if j < 32 then (if s.fuses.limFused then digestWord s.fuses.limHash (j - 24) else 0)
  else if j < 40 then (if s.fuses.keyFused then digestWord s.fuses.keyHash (j - 32) else 0)
  else w

/-- Clocks and time (chapter 12). -/
def viewClk (s : State) (j : Nat) (w : Word) : Word :=
  match j with
  | 1 => s.cycW
  | 2 => BitVec.ofNat 40 s.uptime
  | 3 => s.nowLo
  | 4 => s.nowHi
  | 6 => puts w [(F.timeStatState, s.timeSt), (F.timeStatStratum, s.stratum), (F.timeStatTimeLock, bit s.timeLock),
      (F.timeStatUpstream, match s.time.upstream with | some p => p.toNat | none => 0), (F.timeStatUpValid, bit s.time.upstream.isSome),
      (F.timeStatWithdrawn, bit s.withdrawn), (F.timeStatPpsOk, bit s.time.ppsGood), (F.timeStatTodOk, bit s.time.todOk)]
  | 7 => BitVec.ofInt 40 (satS 40 s.time.theta)
  | 8 => BitVec.ofInt 40 (satS 40
      (if s.time.tFrame = 0 then 0 else roundEven (-s.time.acc * 10 ^ 9) ((framePeriodNs s.time.tFrame).toNat * 2 ^ 8)))
  | 10 => s.time.stampLo
  | 11 => s.time.stampHi
  | _ => w

/-- A temperature of 2^-24 °C as s9.7 °C. -/
def tempField (t : Int) : Nat := dbField 16 7 t

/-- Thermal and current (chapter 13). -/
def viewThm (s : State) (j : Nat) (w : Word) : Word :=
  let th := s.thermal
  match j with
  | 0 =>
    let inGrace := (s.planned.filter (fun n => (s.bpTherm n).graceEnd.isSome)).length
    let red := (s.planned.filter (fun n => decide (0 < (s.bpTherm n).tRed))).length
    let muted := (s.planned.filter (fun n => (s.bp n).prot.held.therm)).length
    puts 0 [(F.thermStatTb, th.tb.toNat), (F.thermStatThermNLow, bit th.thermN), (F.thermStatShed, bit th.shed),
      (F.thermStatDieDegraded, bit (th.evaluated && (List.range 3).any (fun k => !th.inUse.getLsbD k))), (F.thermStatGraceN, inGrace),
      (F.thermStatThrottledN, red), (F.thermStatThermMutedN, muted)]
  | 2 => puts 0 [(F.tjTjHot, tempField th.tjHot), (F.tjTjMean, tempField th.tjMean), (F.tjDieInUse, th.inUse.toNat)]
  | 3 => puts w [(F.govCfgBudget, s.budget)]
  | 6 => puts 0 [(F.bookCreditFree, th.free), (F.bookCreditInFlight, match th.xfer with | some x => x.amount | none => 0)]
  | 7 => puts 0 [(F.govStatBase, th.base), (F.govStatHeadroom, s.headroom), (F.govStatBusy, bit th.xfer.isSome),
      (F.govStatGrantee, th.lastGrantee.toNat), (F.govStatDir, bit th.lastDir)]
  | 8 => puts 0 [(F.govCurICore, dbField 16 8 th.iCore), (F.govCurIPeak, dbField 16 8 th.iPeak)]
  | _ =>
    if 16 ≤ j ∧ j < 32 then
      let t := s.tslot (j - 16)
      puts 0 [(F.tsValTemp (j - 16), tempField t.temp), (F.tsValState (j - 16), t.st.code)]
    else w

/-- Faults and logbook (chapter 14), as requester `who` reads it. -/
def viewFc (s : State) (who j : Nat) (w : Word) : Word :=
  let c := s.cursor who
  match j with
  | 1 => puts w [(F.fcStatC4Latch, bit s.fc.c4), (F.fcStatHarbour, bit s.boot.harbour), (F.fcStatFactoryTest, bit s.factoryTest),
      (F.fcStatTestLatch, bit s.fc.testLatch), (F.fcStatAlarmNLow, bit s.alarmLow), (F.fcStatSnapFrozen, bit s.fc.snapFrozen),
      (F.fcStatOpenN, s.openN)]
  | 2 => puts w [(F.fcAckAck, 0)]
  | 3 => puts w [(F.fcQueueDepth, s.fc.queue.length), (F.fcQueuePeak, s.fc.peak)]
  | 8 | 9 =>
    let sh := s.rdB F.clsSelShadow
    if sh && !s.factoryTest then 0
    else s.memPeek .cls (clsBase sh + 2 * s.rd F.clsSelEntry + (j - 8)) &&& (if j = 8 then maskOf 39 1 else maskOf 39 16)
  | 10 =>
    let sh := s.rdB F.clsSelShadow
    puts 0 [(F.clsStatLevel, if sh && !s.factoryTest then 0 else (s.bucket sh (s.rd F.clsSelEntry)).level)]
  | 12 =>
    let sh := s.rdB F.openSelShadow
    if sh && !s.factoryTest then 0
    else match s.openEnt sh (s.rd F.openSelIndex) with
      | none => 0
      | some x =>
        let left := match x.graceEnd with | some t => (t - s.cyc) / (msCyc / 10) | none => 0
        puts 0 [(F.openDataValid, 1), (F.openDataSource, x.src.toNat), (F.openDataKind, x.kind.toNat), (F.openDataClass, x.cls.toNat),
          (F.openDataOut, bit x.out), (F.openDataGrace, bit x.graceEnd.isSome), (F.openDataGraceLeft, left)]
  | 13 => puts w [(F.histSelHistClr, 0)]
  | 19 => puts 0 [(F.logCursorMode, bit c.next), (F.logCursorSeq, c.seq.toNat), (F.logCursorSlot, c.slot.toNat)]
  | 25 => puts 0 [(F.logHeadSeq, s.fc.headSeq.toNat), (F.logHeadEmpty, bit s.fc.head.isNone),
      (F.logHeadSlot, match s.fc.head with | some k => k.toNat | none => 0)]
  | 26 => puts w [(F.bookLogFree, 8192 - s.logHeld - s.logRetired)]
  | 27 => puts w [(F.logCapTotal, 8192 - s.logRetired), (F.logCapRetired, s.logRetired)]
  | 33 => puts 0 [(F.logOccA 0, s.logOcc 0), (F.logOccB 0, s.logOcc 1)]
  | 34 => puts 0 [(F.logOccA 1, s.logOcc 2), (F.logOccB 1, s.logOcc 3)]
  | 35 => puts w [(F.emrSelEmrClr, 0)]
  | 41 => puts 0 [(F.emrStatFlushed, s.fc.flushed), (F.emrStatDamageN, s.fc.damages.length), (F.emrStatFlushDone, bit s.fc.flushDone)]
  | 42 | 43 | 44 => if s.factoryTest then puts w [] else 0
  | _ =>
    if 14 ≤ j ∧ j < 19 then atD (Tbl.get (fun _ => []) s.fc.histSnap who) (j - 14) 0
    else if 20 ≤ j ∧ j < 25 then atD c.snap (j - 20) 0
    else if 36 ≤ j ∧ j < 41 then (if s.fc.c4 ∧ who ≠ 9 then 0 else atD (Tbl.get (fun _ => []) s.fc.emrSnap who) (j - 36) 0)
    else w

/-- The active trim code of DAC `k`; zero until a set has been loaded or applied (R439). -/
def trimCode (s : State) (k : Nat) : Nat := atD s.meas.trims k 0

/-- Measurement (chapter 07). -/
def viewMeas (s : State) (j : Nat) (w : Word) : Word :=
  if j = 1 then puts w [(F.measReqGo, 0)]
  else if 2 ≤ j ∧ j < 6 then
    let a := j - 2
    let d := s.adc a
    let kind := match d.conv with | some v => v.kind.code | none => 0
    let mc := match d.conv with | some v => v.mc.toNat | none => 0
    puts w [(F.adcStatBusy a, bit d.conv.isSome), (F.adcStatKind a, kind), (F.adcStatMc a, mc), (F.adcStatQdepth a, d.ordinary.length)]
  else if j = 6 then puts w [(F.calCmdOp, 0)]
  else if j = 10 then puts w [(F.trimCtrlPending, bit s.meas.trimNext.isSome)]
  else if 14 ≤ j ∧ j < 21 then
    let r := j - 14
    BitVec.ofNat 40 (s.trimCode (4 * r) * 2 ^ 30 + s.trimCode (4 * r + 1) * 2 ^ 20 +
      (if r = 6 then 0 else s.trimCode (4 * r + 2) * 2 ^ 10 + s.trimCode (4 * r + 3)))
  else if 32 ≤ j ∧ j < 64 then
    let m := j - 32
    let c := s.mc m
    puts 0 [(F.mcValFine m, ux 20 (satS 20 (roundEven (c.fineNum * 4) (2 ^ 20 * c.fineDen)))), (F.mcValFast m, c.raw.toNat),
      (F.mcValRestarted m, bit c.restarted), (F.mcValLate m, bit c.late), (F.mcValSettled m, bit c.settled),
      (F.mcValOvr m, bit (c.got && (c.raw == 0 || c.raw == 4095)))]
  else w

/-- FE and PA (chapters 06 and 07). -/
def viewFe (s : State) (j : Nat) (w : Word) : Word :=
  if 4 ≤ j ∧ j < 8 then
    let c := s.cxPort (j - 4)
    puts w [(F.cxStatReqLvl (j - 4), bit c.req), (F.cxStatGntLvl (j - 4), bit c.gnt), (F.cxStatPriLvl (j - 4), bit c.pri)]
  else if 24 ≤ j ∧ j < 40 then
    let c := j - 24
    let lp := s.paLoop c
    let drives := match lp with | some k => s.loopMode k == 1 || s.loopMode k == 2 | none => false
    puts 0 [(F.paStatPaEnLvl c, bit (s.paEn c)), (F.paStatLoopDriven c, bit drives), (F.paStatLoop c, lp.getD 0), (F.paStatDrvCode c, s.paCode c)]
  else if 40 ≤ j ∧ (j - 40) % 4 = 0 then
    let k := (j - 40) / 4
    let l := s.loop k
    puts w [(F.loopCtrlHold k, bit (s.loopHeld k)), (F.loopCtrlRamping k, bit (l.spEff != s.rdS (F.loopSpSp k))),
      (F.loopCtrlClamped k, bit l.clamped), (F.loopCtrlLate k, bit l.late)]
  else w

/-- The code of a held command, 0 with none. -/
def heldCode (c : Chain) : Nat × Nat := match c.held with | some h => (h.cmd.toNat, h.arg.toNat) | none => (0, 0)

/-- A chain's block (chapters 02 and 06). -/
def viewCh (s : State) (n j : Nat) (w : Word) : Word :=
  let c := s.chain n
  match j with
  | 1 => puts w [(F.chJrxStatLinkUp n, bit c.jrxLock), (F.chJrxStatEmbLock n, bit c.jrxLock), (F.chJrxStatShLock n, bit c.shLock)]
  | 4 => puts w [(F.chJtxStatRunning n, bit (c.jtxRunning && !s.rfOff))]
  | 7 => puts w [(F.chFeCmdResult n, c.result.toNat), (F.chFeCmdCmd n, 0)]
  | 8 =>
    puts 0 [(F.chFeStatState n, c.st.code), (F.chFeStatTarget n, if c.st = .switching then c.target.code else 0),
      (F.chFeStatHeldCmd n, (heldCode c).1), (F.chFeStatHeldArg n, (heldCode c).2), (F.chFeStatCalBusy n, bit c.calBusy),
      (F.chFeStatCalRun n, if c.calBusy then c.calRun.toNat else 0), (F.chFeStatPaEnOut n, bit (s.paEn n)),
      (F.chFeStatJtxBlank n, bit (s.jtxBlank n)), (F.chFeStatInSchedule n, bit c.joined), (F.chFeStatFaultKind n, c.faultKind.toNat),
      (F.chFeStatFaultEntry n, c.faultEntry.toNat)]
  | 9 =>
    let fails := (List.range 8).foldl (fun t k => t + Nat.min 3 (atD c.failConsec k 0) * 4 ^ k) 0
    puts 0 [(F.chFeCalPending n, c.pending.toNat), (F.chFeCalDone n, c.done.toNat), (F.chFeCalFailConsec n, fails)]
  | _ => w

/-- A Guvan port's block (chapter 11). -/
def viewGv (s : State) (n j : Nat) (w : Word) : Word :=
  let p := s.port n
  match j with
  | 1 => puts w [(F.gvCtrlRetrain n, bit p.retrainReq)]
  | 2 => puts w [(F.gvStatLstate n, p.st.code), (F.gvStatMode n, p.mode.toNat), (F.gvStatPHarbour n, bit p.pHarbour),
      (F.gvStatPTimeLock n, bit p.pTimeLock), (F.gvStatPStratum n, p.pStratum.toNat), (F.gvStatPAddrValid n, bit p.pAddrValid),
      (F.gvStatPAddr n, p.pAddr.toNat)]
  | 3 => puts 0 [(F.gvPhySnr n, dbField 16 8 p.snr), (F.gvPhyLossEst n, dbField 16 8 p.loss)]
  | 4 => dbWord p.noise
  | 5 => dbWord p.delay
  | 6 => dbWord p.freq
  | 7 => puts 0 [(F.bookGvcrFree n, p.credits), (F.bookGvcrInFlight n, p.inFlight)]
  | 8 => puts 0 [(F.gvRxbufOccupied n, p.occupied), (F.gvRxbufOwed n, p.owed), (F.gvRxbufRxBlk n, p.sentBlk.toNat)]
  | 13 => puts 0 [(F.gvTrainTrainMs n, p.trainMs.toNat), (F.gvTrainTurns n, p.turnsDone.toNat), (F.gvTrainHelloDelay n, p.helloDelay.toNat)]
  | 32 => puts w [(F.gvLaunchActive n, p.launch.toNat)]
  | _ => w

/-- The half-band variant fields as BP_PATH reads them: 0 in stages not in use. -/
def hbView (s : State) (n : Nat) (w : Word) : Word :=
  (List.range 7).foldl (fun w k =>
    if k = 0 then w
    else
      let used := s.halfOf n < k && k ≤ s.ladder n && s.pathMode n != 3
      putBits w (hbFld n k).hi (hbFld n k).lo (if used then s.hbInUse n k else 0)) w

/-- A band path's block (chapters 02 to 05). BP_PATH.PRESET reads 0 in RESAMPLER mode, where the plan names a fallback preset (DESIGN CHOICE, assumption 64). -/
def viewBp (s : State) (n j : Nat) (w : Word) : Word :=
  let b := s.bp n
  match j with
  | 0 => puts w [(F.bpCtrlRsmpRetry n, 0), (F.bpCtrlMeterRestart n, 0)]
  | 2 =>
    if s.present n then
      let mode := s.pathMode n
      puts (s.hbView n w) [(F.bpPathMode n, mode), (F.bpPathPreset n, if mode = 1 ∨ mode = 2 then s.planN n plPreset + 1 else 0),
        (F.bpPathStages n, if mode = 3 then 0 else s.ladder n - s.halfOf n), (F.bpPathCf n, if mode = 3 then 0 else s.cfInUse n),
        (F.bpPathDcK n, s.planN n plDcK), (F.bpPathRsmpInst n, match b.flow.inst with | some k => k.toNat | none => 0),
        (F.bpPathRsmpHeld n, bit b.flow.inst.isSome)]
    else w
  | 5 => dbWord b.flow.meterIn.coarse
  | 6 => dbWord b.flow.meterIn.fine
  | 7 => puts w [(F.bpStatFineReady n, bit b.flow.meterIn.fineReady), (F.bpStatCoarseN n, b.flow.meterIn.window.length),
      (F.bpStatValidOut n, bit b.flow.validOut), (F.bpStatDcFrozen n, s.rd (F.bpCtrlDcFreeze n))]
  | 8 => puts w [(F.bpBwCtrlSwapArm n, bit b.bw.armed), (F.bpBwCtrlActiveBank n, bit b.bw.bankB), (F.bpBwCtrlSwapResult n, b.bw.swapResult.toNat)]
  | 9 => puts w [(F.bpBwStatMargin n, dbField 16 7 b.bw.margin), (F.bpBwStatCeiling n, dbField 16 7 b.bw.ceiling),
      (F.bpBwStatBackoff n, bit (decide (b.bw.ceiling < s.cMax n) && s.present n)), (F.bpBwStatFastQual n, bit b.bw.fastQual),
      (F.bpBwStatResBound n, bit b.bw.resBound), (F.bpBwStatProbeOn n, bit b.bw.probe.isSome), (F.bpBwStatIsoSrc n, b.bw.isoSrc.toNat)]
  | 10 => puts w [(F.bpGainGainStep n, b.gain.step), (F.bpGainGateState n, b.gain.gate.code), (F.bpGainAgcFrozen n, bit b.gain.frozen),
      (F.bpGainRampDone n, bit b.gain.rampDone), (F.bpGainNrCapture n, 0), (F.bpGainEgMeterRestart n, 0)]
  | 11 =>
    let p := b.prot
    let held := bit p.held.muteN * 16 + bit p.held.cx * 8 + bit p.held.donor * 4 + bit p.held.duty * 2 + bit p.held.therm
    let hour := (p.history.filter (fun u => decide (s.uptime ≤ u + 3600))).length
    let left := match p.retryAt with | some t => (t - s.setCyc) / secCyc | none => 0
    puts w [(F.bpProtState n, p.st.code), (F.bpProtCause n, p.cause.toNat), (F.bpProtHeld n, held), (F.bpProtRetryExp n, p.retryExp),
      (F.bpProtHourCnt n, hour), (F.bpProtRetryLeft n, left), (F.bpProtOffReason n, p.offReason.toNat), (F.bpProtLockAck n, 0)]
  | _ => w

/-- An engine's block (chapter 08). STATE reads its reset value 0 until the engine load step gates the engines or finds them clocked (R201, R227). -/
def viewEng (s : State) (e j : Nat) (w : Word) : Word :=
  let en := s.engine e
  match j with
  | 0 => puts 0 [(F.engCtrlRestart e, bit en.restart)]
  | 1 =>
    let b := match en.running with | some b => b.toNat | none => en.lastBerth.toNat
    let urgent := match en.running with | some b => s.urgentBerth e b.toNat | none => false
    puts w [(F.engStatState e, if en.st = .gated ∧ !s.boot.image then 0 else en.st.code), (F.engStatBerth e, b), (F.engStatUrgent e, bit urgent), (F.engStatSuspended e, en.suspended.toNat),
      (F.engStatLastFault e, en.lastFault.toNat)]
  | 2 => puts 0 [(F.engPcBerth e, en.issuedBerth.toNat), (F.engPcPc e, en.issuedPc), (F.engPcProg e, en.issuedProg.toNat)]
  | 3 => en.lastIn
  | 4 => puts 0 [(F.engLoadLastUsed e, en.lastUsed), (F.engLoadPeakUsed e, en.peakUsed)]
  | 5 => puts w [(F.engMbStatInN e, en.inbox.length), (F.engMbStatOutN e, en.outbox.length)]
  | _ => w

/-- A quay's block (chapters 08 and 10). -/
def viewQuay (s : State) (q j : Nat) (w : Word) : Word :=
  let halted := fun k => match (s.engine (16 * q + k)).st with | .haltedReq | .haltedColl | .haltedFault => true | _ => false
  let running := fun k => (s.engine (16 * q + k)).st == .running
  let mask := fun (p : Nat → Bool) => (List.range 16).foldl (fun t k => t + bit (p k) * 2 ^ k) 0
  match j with
  | 1 => puts w [(F.quayStatHalted q, mask halted), (F.quayStatRunning q, mask running)]
  | 2 => puts w [(F.bookDescFree q, 1024 - (s.usedSlots q).length), (F.bookDescInFlight q, s.slotsInFlight q)]
  | 6 => s.ltrStat (512 + q)
  | 7 => s.ltrPos (512 + q)
  | _ =>
    if 32 ≤ j ∧ j < 64 then s.ltrStat (32 * q + (j - 32))
    else if 64 ≤ j then s.ltrPos (32 * q + (j - 64))
    else w

/-- What register `a` reads for requester `who`, shadows apart. Reserved registers and unmapped addresses read zero. -/
def regView (s : State) (who a : Nat) : Word :=
  let w := s.reg a
  if a < 48 then s.viewGlb a w
  else if a < 64 then 0
  else if a < 112 then s.viewBoot (a - 64) w
  else if a < 128 then 0
  else if a < 176 then s.viewClk (a - 128) w
  else if a < 192 then 0
  else if a < 256 then s.viewThm (a - 192) w
  else if a < 384 then s.viewFc who (a - 256) w
  else if a < 480 then s.viewMeas (a - 384) w
  else if a < 512 then 0
  else if a < 704 then s.viewFe (a - 512) w
  else if a < 1024 then 0
  else if a < 1536 then (if (a - 1024) % 32 < 24 then s.viewCh ((a - 1024) / 32) ((a - 1024) % 32) w else 0)
  else if a < 2048 then (if (a - 1536) % 64 < 48 then s.viewGv ((a - 1536) / 64) ((a - 1536) % 64) w else 0)
  else if a < 4096 then 0
  else if a < 6144 then (if (a - 4096) % 16 < 12 then s.viewBp ((a - 4096) / 16) ((a - 4096) % 16) w else 0)
  else if a < 8192 then 0
  else if a < 10240 then (if (a - 8192) % 8 < 6 then s.viewEng ((a - 8192) / 8) ((a - 8192) % 8) w else 0)
  else if a < 12288 then 0
  else if a < 14336 then (if (a - 12288) % 128 < 96 then s.viewQuay ((a - 12288) / 128) ((a - 12288) % 128) w else 0)
  else 0

end State

end Sys2Proof.Machine
end

