-- ==== Sys2Proof/Machine/Parity.lean ====
section
/-! DEFINITION. Registers with bad parity and blocks with bad state: who owns a register, and what each chapter has its block do (R64, R257, R390, R438). -/

namespace Sys2Proof.Machine

/-- The source that owns a register, for the C0 note of R64. -/
def ownerSrc (a : Nat) : Nat :=
  if a = 10 ∨ a = 11 then srcProt
  else if a < 64 then srcMgmt
  else if a < 128 then srcBoot
  else if a < 192 then srcTime
  else if a < 256 then srcTherm
  else if a < 384 then srcFc
  else if a < 512 then srcMeas
  else if a < 520 then srcProt
  else if a < 552 then srcCh ((a - 520) % 16)
  else if a < 704 then srcLp ((a - 552) / 4)
  else if a < 1536 then srcCh ((a - 1024) / 32)
  else if a < 2048 then srcGv ((a - 1536) / 64)
  else if a < 6144 then srcBp ((a - 4096) / 16)
  else if a < 10240 then srcEng ((a - 8192) / 8)
  else srcQuay ((a - 12288) / 128)

namespace State

/-! ### Faults of the core (R390) -/

/-- A firmware restart: at most 200 ms. -/
def fwRestart (s : State) (kind : Nat) : State :=
  let s := s.report srcMgmt kind 2 (Config.msgContext srcMgmt kind 0)
  let s := { s with mgmt := { s.mgmt with core := .restarting, restartDone := some (s.cyc + 200 * msCyc) } }
  s.inc F.mgmtStatRestartCnt F.mgmtStatRsOvf

/-! ### Parity (R257) -/

/-- The reaction each chapter states for a parity failure in its block's state (R92, R123, R169, R225, R266, R274, R313, R336, R357, R387, R390). -/
def parityFx (s : State) : ParityAt → State
  | .none | .reg _ => s
  | .breakwater n => (s.tripped n.toNat 5).report (srcBp n.toNat) 6 2 (Config.msgContext (srcBp n.toNat) 6 0)
  | .gain n => (s.tripped n.toNat 6).report (srcBp n.toNat) 7 2 (Config.msgContext (srcBp n.toNat) 7 0)
  | .chain c => s.feParity c.toNat
  | .engine e saving =>
    let en := s.engine e.toNat
    let b := match en.running with | some b => b.toNat | none => en.lastBerth.toNat
    if saving then s.doubleFault e.toNat b en.live.pc en.live.prog.toNat
    else
      let s := s.haltEngine e.toNat .haltedFault
      (s.setEngine e.toNat { s.engine e.toNat with lastFault := 7 }).send (srcEng e.toNat) 7 (engHint 7 (s.handlerOf e.toNat == some b))
        (engCtx e.toNat b en.live.pc en.live.prog.toNat)
  | .lighter n => s.ltrStop n.toNat 6 (s.lighter n.toNat).fside (s.lighter n.toNat).nextAddr.toNat
  | .loop j => (s.loopModeFx j.toNat 0).report (srcLp j.toNat) 1 2 (s.loopCtx j.toNat)
  | .port p =>
    let s := s.gvReport p.toNat 8 2
    if (s.port p.toNat).st = .disabled then s else s.enterDetect p.toNat (s.rd (F.gvCfgModeFast p.toNat))
  | .timeBase =>
    let s := { s with time := { s.time with st := .free, acc := 0, corr := 0, corrTicks := 0 } }
    s.report srcTime 9 2 s.timeCtx
  | .thermal => (s.planned.foldl (fun s n => (s.keepTRed n).setTRed n (10 * dB1)) s).report srcTherm 6 2 (s.thermCtx 0 0)
  | .books => ({ s with thermal := { s.thermal with booksBad := true } } : State).report srcTherm 10 3 (s.thermCtx 0 0)
  | .collector =>
    ({ s with fc := { s.fc with parityBad := true } } : State).report srcFc 2 3 (Config.msgContext srcFc 2 0)
  | .core => s.fwRestart 3

/-- The block whose state a register belongs to, where its chapter states a reaction. -/
def parityOwner (a : Nat) : ParityAt :=
  if 128 ≤ a ∧ a < 192 then .timeBase
  else if 195 ≤ a ∧ a < 202 then .books
  else if 192 ≤ a ∧ a < 256 then .thermal
  else if 256 ≤ a ∧ a < 384 then .collector
  else if 552 ≤ a ∧ a < 680 then .loop (BitVec.ofNat 5 ((a - 552) / 4))
  else if 1024 ≤ a ∧ a < 1536 then .chain (BitVec.ofNat 4 ((a - 1024) / 32))
  else if 1536 ≤ a ∧ a < 2048 then .port (BitVec.ofNat 3 ((a - 1536) / 64))
  else if 4096 ≤ a ∧ a < 6144 then
    (if (a - 4096) % 16 = 8 ∨ (a - 4096) % 16 = 9 then .breakwater (BitVec.ofNat 7 ((a - 4096) / 16))
     else if (a - 4096) % 16 = 10 then .gain (BitVec.ofNat 7 ((a - 4096) / 16)) else .none)
  else if 8192 ≤ a ∧ a < 10240 then .engine (BitVec.ofNat 8 ((a - 8192) / 8)) false
  else if 12288 ≤ a ∧ a < 14336 then
    let q := (a - 12288) / 128
    let j := (a - 12288) % 128
    if j = 6 ∨ j = 7 then .lighter (BitVec.ofNat 10 (512 + q))
    else if 32 ≤ j ∧ j < 96 then .lighter (BitVec.ofNat 10 (32 * q + j % 32))
    else .none
  else .none

/-- A register whose parity fails on a read or the readback (R257, R438): counted, and reported by its owning block; a block whose chapter names no kind sends a note. -/
def parityFound (s : State) (a : Nat) : State :=
  let s := (s.inc F.regStatParCnt F.regStatParOvf).wr F.regStatParAddr a
  match parityOwner a with
  | .none => s.note (ownerSrc a) (Config.msgContext (ownerSrc a) kNote a)
  | p => s.parityFx p

end State

end Sys2Proof.Machine
end

