-- ==== Sys2Proof/Machine/Fabric.lean ====
section
/-! DEFINITION. The register fabric (chapter 17): who may write what, the refusals and their order, the effect of a write on every register, the two-half reads, and every command that is a register write or read. -/

namespace Sys2Proof.Machine

/-- How the fabric answers an access (R432, R436, R438, R439). -/
inductive Ans where
  | ok | unmapped | noField | reservedBit | range | preLock | parity
  deriving DecidableEq, Repr

/-- The management status of an answer: 0 OK, 2 BAD_ARG, 3 DENIED, 4 LIMIT, 6 STATE, 7 VERIFY. -/
def Ans.status : Ans → Nat
  | .ok => 0 | .unmapped => 2 | .noField => 3 | .reservedBit => 2 | .range => 4 | .preLock => 6 | .parity => 7

/-- The mask of the rows of a layout with a property. -/
def rowMask (rows : List Row) (p : Row → Bool) : Word :=
  rows.foldl (fun m r => if p r then m ||| maskOf r.hi r.lo else m) 0

/-- A run-time writer may write the field (R435). -/
def Acc.writable : Acc → Bool
  | .rw | .live | .w1c => true
  | _ => false
/-- The field takes the value written. -/
def Acc.takes : Acc → Bool
  | .rw | .live => true
  | _ => false

/-- Self-acting fields and MASK_VERDICT: a write of their idle value, zero, is ignored (R435, R436, R120, R93). -/
def selfActing (a : Nat) : Word :=
  let bp := 4096 ≤ a ∧ a < 6144
  let ch := 1024 ≤ a ∧ a < 1536
  let j := (a - 4096) % 16
  if bp ∧ j = 0 then maskOf 2 1
  else if bp ∧ j = 8 then maskOf 39 39
  else if bp ∧ j = 10 then maskOf 6 0
  else if bp ∧ j = 11 then maskOf 1 1
  else if ch ∧ (a - 1024) % 32 = 7 then maskOf 3 0
  else if a = 385 then maskOf 6 6
  else if a = 390 then maskOf 7 6
  else if 8192 ≤ a ∧ a < 10240 ∧ (a - 8192) % 8 = 0 then maskOf 2 0
  else if 12288 ≤ a ∧ a < 14336 ∧ ((a - 12288) % 128 = 7 ∨ 64 ≤ (a - 12288) % 128) then maskOf 14 13
  else if 1536 ≤ a ∧ a < 2048 ∧ (a - 1536) % 64 = 1 then maskOf 1 1
  else if a = 258 then maskOf 17 16
  else if a = 269 ∨ a = 291 ∨ a = 298 then maskOf 39 39
  else if a = 15 then maskOf 39 36
  else 0

/-- The _HI register of the pair whose _LO stands at an address (R440). -/
def hiOf (a : Nat) : Option Nat :=
  if a = 131 then some 132
  else if a = 138 then some 139
  else if a = 140 then some 141
  else if a = 393 then some 392
  else if a = 397 then some 396
  else if 1024 ≤ a ∧ a < 1536 ∧ (a - 1024) % 32 = 13 then some (a - 1)
  else none
/-- The address holds a _HI register of a pair. -/
def isHi (a : Nat) : Bool :=
  a == 132 || a == 139 || a == 141 || a == 392 || a == 396 || (decide (1024 ≤ a) && decide (a < 1536) && (a - 1024) % 32 == 12)

namespace State

/-- The rows of a register as they stand: CLS_W0 and CLS_W1 of the shadow table are RW, with the layout of R366 (R388). -/
def rowsNow (s : State) (a : Nat) : Option (List Row) :=
  if (a = 264 ∨ a = 265) ∧ s.rdB F.clsSelShadow then
    some (if a = 264 then [⟨39, 1, .rw, 0, true⟩, ⟨0, 0, .ro, 0, false⟩] else [⟨39, 16, .rw, 0, true⟩, ⟨15, 0, .ro, 0, false⟩])
  else layout a

/-! ### Reads (R440, R382, R374, R385) -/

/-- A read of a register by requester `who`: its answer, the word, and what the read changes. -/
def fabricRead (s : State) (who a : Nat) : Ans × Word × State :=
  match layout a with
  | none => (.unmapped, 0, s)
  | some _ =>
    if s.parBad.contains a then (.parity, 0, s.parityFound a)
    else
      let s := if a = 276 then s.logSnap who else if a = 270 then s.histSnap who else if a = 292 then s.emrSnap who else s
      match hiOf a with
      | some h =>
        (.ok, s.regView who a, { s with shadows := Tbl.set (fun _ => none) s.shadows (who * 2 ^ 24 + h) (some (s.regView who h)) })
      | none =>
        if isHi a then
          match Tbl.get (fun _ => none) s.shadows (who * 2 ^ 24 + a) with
          | some w => (.ok, w, s)
          | none => (.ok, s.regView who a, s)
        else (.ok, s.regView who a, s)

/-! ### Ranges of LIVE fields (R436) -/

/-- A limits write is to an item that may be changed, to a stricter value within its range (R133, R136, R143). -/
def limOk (s : State) (w : Word) : Bool :=
  let n := s.rd F.protLimSelBp
  let item := s.rd F.protLimSelItem
  s.present n && decide (item < 5) && s.limStricter (s.limIdx n) item w.toInt

/-- Every LIVE field of the register takes a value within its range. A FLOOR above the 60.0 dB that R67 gives the plan field is taken, as R84 names only the lower bound of a write (DESIGN CHOICE, assumption 63). -/
def liveOk (s : State) (a : Nat) (w : Word) : Bool :=
  if a = 11 then s.limOk w
  else if a = 140 then decide (bitsOf w 39 8 < 1000000000)
  else if a = 258 then bitsOf w 17 16 != 3
  else if a = 390 then bitsOf w 7 6 != 3
  else if 448 ≤ a ∧ a < 480 then decide (2 ^ 17 ≤ bitsOf w 19 0) && decide (bitsOf w 19 0 ≤ 2 ^ 19)
  else if 552 ≤ a ∧ a < 680 then
    let j := (a - 552) / 4
    if (a - 552) % 4 = 0 then bitsOf w 39 38 != 3
    else if (a - 552) % 4 = 1 then
      match s.loopCfg j with | some g => decide (g.spMin ≤ w.toInt) && decide (w.toInt ≤ g.spMax) | none => true
    else true
  else if 4096 ≤ a ∧ a < 6144 then
    let n := (a - 4096) / 16
    match (a - 4096) % 16 with
    | 1 => s.freqOk n (bitsOf w 31 0)
    | 3 => stepOk (bitsOf w 33 0)
    | 8 => s.floorOk n (bitsOf w 34 24)
    | 10 => s.gainSetOk n (bitsOf w 39 24)
    | _ => true
  else true

/-! ### Effects -/

/-- Store the RW and LIVE bits of a write. -/
def storeBits (s : State) (a : Nat) (m w : Word) : State := s.setReg a ((s.reg a &&& ~~~ m) ||| (w &&& m))

/-- Clear the W1C bits a write names, each with the count it guards (R435). -/
def clearW1c (s : State) (a : Nat) (w : Word) : List Row → State
  | [] => s
  | [r] => if r.acc = .w1c ∧ w.getLsbD r.lo then s.storeBits a (maskOf r.hi r.lo) 0 else s
  | r :: q :: t =>
    let s := if r.acc = .w1c ∧ w.getLsbD r.lo then
        let s := s.storeBits a (maskOf r.hi r.lo) 0
        if q.acc = .sat then s.storeBits a (maskOf q.hi q.lo) 0 else s
      else s
    clearW1c s a w (q :: t)

/-- The effect of a write on a band path's register (chapters 02 to 05). -/
def writeBp (s : State) (n j : Nat) (w : Word) : State :=
  match j with
  | 0 =>
    let s := if w.getLsbD 2 then s.rsmpRetryFx n else s
    let s := if w.getLsbD 1 then s.meterRestartFx n else s
    s.dcFreezeFx n (w.getLsbD 0)
  | 1 => s.freqFx n (bitsOf w 31 0)
  | 2 => s.pathFx n w
  | 3 => s.stepFx n (bitsOf w 33 0)
  | 8 =>
    let s := s.wr (F.bpBwCtrlFloor n) (bitsOf w 34 24)
    if w.getLsbD 39 then s.swapArmFx n (bitsOf w 23 0) else s
  | 10 =>
    let s := if w.getLsbD 7 then s.agcHoldFx n else s.wr (F.bpGainAgcHold n) 0
    let s := s.gainSetFx n (bitsOf w 39 24)
    let s := if w.getLsbD 6 then s.nrCaptureFx n else s
    let s := if w.getLsbD 5 then s.egRestartFx n else s
    s.maskVerdictFx n (bitsOf w 4 0)
  | 11 =>
    -- ENABLE 0 comes first in the table of R140, and leaves LOCK_ACK nothing to act on
    if w.getLsbD 0 then (if w.getLsbD 1 then s.lockAckFx n else s).enableFx n else s.disableFx n
  | _ => s

/-- The effect of a write on an engine's register (R222, R227). -/
def writeEng (s : State) (e j : Nat) (w : Word) : State :=
  match j with
  | 0 =>
    let s := if w.getLsbD 0 then s.haltReq e else s
    let s := if w.getLsbD 1 then s.resumeReq e else s
    if w.getLsbD 2 then s.restartReq e else s
  | 3 => s.mbIn e w
  | _ => s

/-- The effect of a write of LTR_POS or DL_POS (R266). -/
def writeLtr (s : State) (n : Nat) (w : Word) : State :=
  let s := if w.getLsbD 14 then (s.ltrAbort n).2 else s
  if w.getLsbD 13 && !s.latched then (s.ltrResume n).2 else s

/-- The effect of a write of GV_CTRL (R296). -/
def writeGv (s : State) (p : Nat) (w : Word) : State :=
  if w.getLsbD 0 then
    let s := if s.latched then s else s.gvEnableFx p
    if w.getLsbD 1 then s.gvRetrainFx p else s
  else s.gvDisableFx p

/-- The effect of a limits write (R136): a stricter value waits for the end of the interval. -/
def writeLim (s : State) (w : Word) : State :=
  let n := s.rd F.protLimSelBp
  let item := s.rd F.protLimSelItem
  let e := s.limIdx n
  if s.limStricter e item w.toInt then { s with limPend := s.limPend ++ [⟨e, item, w.toInt⟩] } else s

/-- The effect of a write of RPL_CTRL (R402, R404, R407). -/
def writeRpl (s : State) (w : Word) : State :=
  let s := if w.getLsbD 39 then s.freezeRecording true else s
  let s := if w.getLsbD 38 then s.thawFx else s
  let s := if w.getLsbD 37 then s.enterReplay.2 else s
  if w.getLsbD 36 && s.rpl.st == .replayMode then s.startReplay.2 else s

/-- The bounds of CLS_W1 (R366): N from 1 and W from 1 to 60 000. -/
def clsW1Ok (w : Word) : Bool := decide (1 ≤ bitsOf w 39 32) && decide (1 ≤ bitsOf w 31 16) && decide (bitsOf w 31 16 ≤ 60000)
/-- The effect of a write on the faults and logbook block (R370, R374 to R376, R382, R385). -/
def writeFc (s : State) (who j : Nat) (w : Word) : State :=
  match j with
  | 2 =>
    let s := s.storeBits 258 (maskOf 39 18) w
    match bitsOf w 17 16 with
    | 0 => s
    | k =>
      -- engines do not acknowledge (R370)
      let r := if 10 ≤ who then (false, s) else s.ackFx (bitsOf w 22 18) (bitsOf w 39 26) (bitsOf w 25 23) (k == 1)
      r.2.wr F.fcAckResult (if r.1 then 1 else 2)
  | 7 => s.storeBits 263 (maskOf 8 0) w
  | 8 | 9 =>
    let a := clsBase true + 2 * s.rd F.clsSelEntry + (j - 8)
    if s.factoryTest ∧ (j = 8 ∨ clsW1Ok w) then s.memWrite .cls a w else s
  | 11 => s.storeBits 267 (maskOf 5 0) w
  | 13 =>
    let s := s.storeBits 269 (maskOf 4 0) w
    if w.getLsbD 39 then s.histClrFx else s
  | 19 =>
    let c := s.cursor who
    s.setCursor who { c with next := w.getLsbD 39, seq := BitVec.ofNat 24 (bitsOf w 37 14), slot := BitVec.ofNat 13 (bitsOf w 12 0) }
  | 35 =>
    let s := s.storeBits 291 (maskOf 3 0) w
    if w.getLsbD 39 then s.emrClrFx else s
  | 42 => if s.factoryTest ∧ w.getLsbD 39 then s.fiGoFx else s
  | 43 => if s.factoryTest then s.storeBits 299 (maskOf 39 17) w else s
  | 44 => if s.factoryTest then s.storeBits 300 (maskOf 39 0) w else s
  | _ => s

/-- The effect of a write on the measurement block (R178, R184, R186, R187). -/
def writeMeas (s : State) (who j : Nat) (w : Word) : State :=
  if j = 0 then (if bitsOf w 4 0 < 26 then s.storeBits 384 (maskOf 4 0) w else s)
  else if j = 1 then
    let s := s.storeBits 385 (maskOf 7 7 ||| maskOf 4 0) w
    if w.getLsbD 6 then (if w.getLsbD 7 then s.serveDue.askUrgent (bitsOf w 4 0) else s.serveDue.askOrdinary (bitsOf w 4 0)) else s
  else if j = 6 then
    let s := s.storeBits 390 (maskOf 39 20 ||| maskOf 4 0) w
    match bitsOf w 7 6 with
    | 0 => s
    | k => s.calStart who (k == 2) (bitsOf w 4 0) (BitVec.ofNat 20 (bitsOf w 39 20))
  else if j = 10 then s.storeBits 394 (maskOf 1 1) w
  else if 14 ≤ j ∧ j < 21 then s.trimActFx (j - 14) w
  else if 64 ≤ j then s.mcCalFx (j - 64) w
  else s

/-- The effect of a write on the FE and PA block (R165, R189, R193, R194). -/
def writeFe (s : State) (j : Nat) (w : Word) : State :=
  if j < 4 then (s.storeBits (512 + j) (maskOf 4 4) w).cxDemand j
  else if 8 ≤ j ∧ j < 24 then s.storeBits (512 + j) (maskOf 14 0) w
  else if 40 ≤ j then
    match (j - 40) % 4 with
    | 0 => s.loopModeFx ((j - 40) / 4) (bitsOf w 39 38)
    | 1 => s.loopSpFx ((j - 40) / 4) w.toInt
    | 2 => s.setReg (512 + j) w
    | _ => s
  else s

/-- The effect of an accepted write on a register's RW and LIVE fields. -/
def writeFx (s : State) (who a : Nat) (w : Word) : State :=
  if a = 10 then s.storeBits 10 (maskOf 14 8 ||| maskOf 2 0) w
  else if a = 11 then s.writeLim w
  else if a = 15 then s.writeRpl w
  else if a = 16 then s.storeBits 16 (maskOf 24 24) w
  else if a < 128 then s
  else if a = 140 then s.timeSetFx w
  else if a = 141 then s.setReg 141 w
  else if a < 256 then s
  else if a < 384 then s.writeFc who (a - 256) w
  else if a < 480 then s.writeMeas who (a - 384) w
  else if a < 704 then s.writeFe (a - 512) w
  else if a < 1536 then
    let c := (a - 1024) / 32
    if (a - 1024) % 32 = 7 then (s.storeBits a (maskOf 7 4) w).feCommand c (bitsOf w 3 0) (bitsOf w 7 4) else s
  else if a < 2048 then (if (a - 1536) % 64 = 1 then s.writeGv ((a - 1536) / 64) w else s)
  else if a < 6144 then s.writeBp ((a - 4096) / 16) ((a - 4096) % 16) w
  else if a < 10240 then s.writeEng ((a - 8192) / 8) ((a - 8192) % 8) w
  else
    let q := (a - 12288) / 128
    let j := (a - 12288) % 128
    if j = 7 then s.writeLtr (512 + q) w
    else if 64 ≤ j then s.writeLtr (32 * q + (j - 64)) w
    else s

/-! ### The journal of live writes (R434) -/

/-- The register lies in the block of a selected band path, of the replay quay or of one of its engines. -/
def regOfSet (s : State) (a : Nat) : Bool :=
  let q := s.rd F.rplCfgQuay
  s.rd F.rplCfgSetN != 0 &&
    ((decide (4096 ≤ a) && decide (a < 6144) && s.selected.contains ((a - 4096) / 16))
      || (decide (8192 ≤ a) && decide (a < 10240) && (a - 8192) / 128 == q)
      || (decide (12288 ≤ a) && decide (a < 14336) && (a - 12288) / 128 == q))

/-- RW and LIVE fields a write leaves as they are although it is accepted: BP_PATH on a preset and in stages not in use, STEP without a resampler, ENABLE in BARRED, LOCK_ACK outside LOCKED_OUT or beside ENABLE 0, RSMP_RETRY and NR_CAPTURE without effect, SWAP_SEQ that arms nothing, a verdict that does not count, a TRIM_RB_SEL past the last record, an entry of the shadow table out of range, injection outside factory test. -/
def deadBits (s : State) (a : Nat) (w : Word) : Word :=
  if 4096 ≤ a ∧ a < 6144 then
    let n := (a - 4096) / 16
    match (a - 4096) % 16 with
    | 0 => if s.pathMode n = 2 ∧ s.freeResampler.isSome then 0 else maskOf 2 2
    | 2 => if s.pathMode n ≠ 0 then maskOf 39 0
        else (List.range 7).foldl (fun m k =>
          if k = 0 ∨ (s.halfOf n < k ∧ k ≤ s.ladder n) then m else m ||| maskOf (hbFld n k).hi (hbFld n k).lo) 0
    | 3 => if s.pathMode n ≠ 0 then maskOf 39 0 else 0
    | 8 => if w.getLsbD 39 && !(s.bp n).bw.armed then 0 else maskOf 23 0
    | 10 => (if s.verdictCounts n (bitsOf w 4 0) then 0 else maskOf 4 0) ||| (if (s.bp n).idle.2 = 1 then 0 else maskOf 6 6)
    | 11 => (if (s.bp n).prot.st = .barred then maskOf 0 0 else 0) |||
        (if (s.bp n).prot.st = .lockedOut ∧ w.getLsbD 0 then 0 else maskOf 1 1)
    | _ => 0
  else if (a = 264 ∨ a = 265 ∨ a = 298 ∨ a = 299 ∨ a = 300) ∧ !s.factoryTest then maskOf 39 0
  else if a = 265 ∧ !clsW1Ok w then maskOf 39 0
  else if a = 384 ∧ 26 ≤ bitsOf w 4 0 then maskOf 4 0
  else 0

/-- The bits of a write that take effect. -/
def effMask (s : State) (a : Nat) (w : Word) (rows : List Row) : Word :=
  let takes := rowMask rows (fun r => r.acc.takes && (maskOf r.hi r.lo &&& selfActing a == 0 || bitsOf w r.hi r.lo != 0))
  (takes &&& ~~~ s.deadBits a w) ||| (rowMask rows (fun r => r.acc == .w1c) &&& w)

/-- The LIVE_WRITE entry of an accepted write. Engine stores of the replay quay are compared as decisions instead. -/
def liveEntry (s : State) (who a : Nat) (w mask : Word) : State :=
  if who < 10 then s.journal 1 (who * 2 ^ 24 + a) s.cycW w mask
  else if s.inReplayQuay (who - 10) || !s.regOfSet a then s
  else s.journal 1 (10 * 2 ^ 24 + a) s.cycW w mask

/-! ### Writes (R436) -/

/-- How the fabric answers a write of a whole register, judged in the order of R436. -/
def writeAns (s : State) (a : Nat) (w : Word) : Ans :=
  match s.rowsNow a with
  | none => .unmapped
  | some rows =>
    if !s.boot.locked then .preLock
    else if rowMask rows (fun r => r.acc.writable) = 0 then .noField
    else if w &&& ~~~ rowMask rows (fun r => r.name) ≠ 0 then .reservedBit
    else if !s.liveOk a w then .range
    else .ok

/-- An accepted write by requester `who`: its journal entry, its effect, the parity of the register good again, and the W1C bits it names. -/
def acceptWrite (s : State) (who a : Nat) (w : Word) : State :=
  let rows := (s.rowsNow a).getD []
  let s := s.liveEntry who a w (s.effMask a w rows)
  let s := s.writeFx who a w
  ({ s with parBad := s.parBad.filter (fun x => x != a) } : State).clearW1c a w rows

/-- What a write does when it is answered so: all or nothing, and a note for a value out of range. -/
def applyWrite (s : State) (who a : Nat) (w : Word) (r : Ans) : State :=
  match r with
  | .ok => s.acceptWrite who a w
  | .range => s.note (ownerSrc a) (Config.msgContext (ownerSrc a) kNote a)
  | _ => s

/-- A requester's path to the fabric is open: the core for its own writes and its sessions', the debug port while no C4 latch holds (R372, R389, R391). -/
def canReach (s : State) (who : Nat) : Bool :=
  if who = 9 then s.alive && !s.fc.c4
  else if who < 9 then s.mgmt.core == .running && !s.fc.c4
  else s.alive

/-- A write by any requester. A store by an engine of the replay quay is a decision (R400, R405). -/
def reqWrite (s : State) (who a : Nat) (w : Word) : Ans × State :=
  if s.canReach who then
    let r := s.writeAns a w
    let s := if 10 ≤ who ∧ (r = .ok ∨ r = .range) then s.decision (who - 10) false (BitVec.ofNat 40 a) w else s
    (r, s.applyWrite who a w r)
  else (.preLock, s)

/-- The word a writer of some fields sends: the current values of the other writable fields, and the idle value of self-acting ones (R436). -/
def restWord (s : State) (who a : Nat) : Word :=
  match s.rowsNow a with
  | some rows => s.regView who a &&& rowMask rows (fun r => r.acc.takes) &&& ~~~ selfActing a
  | none => 0

/-- A write of fields of one register. -/
def fieldWrite (s : State) (who : Requester) (a : Nat) (l : List (Fld × Nat)) : State :=
  (s.reqWrite (reqCode who) a (puts (s.restWord (reqCode who) a) l)).2

/-! ### Engine loads and stores of registers (R217, R236, R400) -/

/-- The REG_IN detail of a register load of the replay quay, outside the blocks replay reproduces. -/
def ldrRegIn (s : State) (e a : Nat) : Option Nat :=
  if s.inReplayQuay e && !s.regOfSet a then some (e * 2 ^ 24 + a) else none

/-- LDR. -/
def ldrFx (s : State) (e : Nat) (f : I2) : State :=
  let en := s.engine e
  let a := en.live.addr f.a.toNat f.imm
  match s.fabricRead (10 + e) a with
  | (.unmapped, _, _) => s.taskFault e 3 en.live.pc
  | (.parity, _, s') => s'.pushLoad e f.d.toNat ⟨0, true⟩ none
  | (_, w, s') => s'.pushLoad e f.d.toNat ⟨w, false⟩ (s.ldrRegIn e a)

/-- STR: PC is past the store when its effect comes. -/
def strFx (s : State) (e : Nat) (f : I2) : State :=
  let en := s.engine e
  let a := en.live.addr f.a.toNat f.imm
  let w := en.live.getW f.d.toNat
  match s.writeAns a w with
  | .ok | .range => ((s.stepPc e).reqWrite (10 + e) a w).2
  | .unmapped => s.taskFault e 3 en.live.pc
  | _ => s.taskFault e 4 en.live.pc

end State

/-! ### Meanings: any register -/

/-- LDR (R235, R236). -/
def execLdr (e : EngId) (f : I2) (s : State) : Out :=
  .next (s.issue e.toNat (encI 0x52 f) (fun s => s.ldrFx e.toNat f))
/-- STR (R235, R217, R236). -/
def execStr (e : EngId) (f : I2) (s : State) : Out :=
  .next (s.issue e.toNat (encI 0x53 f) (fun s => s.strFx e.toNat f))
/-- TWO_HALF_READ_LO (R440): a read of the _LO register of a pair, which returns no word where its parity fails (R438). -/
def execTwoHalfReadLo (who : Requester) (addr : BitVec 24) (s : State) : Out :=
  let k := reqCode who
  if (hiOf addr.toNat).isSome && s.canReach k then
    let r := s.fabricRead k addr.toNat
    .next (r.2.2.setRead k (if r.1 = .ok then [r.2.1] else []))
  else .next s
/-- REGISTER_WRITE (R435, R436). -/
def execRegisterWrite (who : Requester) (addr : BitVec 24) (w : Word) (s : State) : Out :=
  .next (s.reqWrite (reqCode who) addr.toNat w).2

/-! ### Meanings: band path fields -/

/-- FREQ_WRITE (R39, R134). -/
def execFreqWrite (who : Requester) (bp : BpId) (freq : BitVec 32) (s : State) : Out :=
  let f := F.bpNcoFreq bp.toNat
  .next (s.fieldWrite who f.addr [(f, freq.toNat)])
/-- BP_PATH_WRITE (R62): the whole register. -/
def execBpPathWrite (who : Requester) (bp : BpId) (w : Word) (s : State) : Out :=
  .next (s.reqWrite (reqCode who) (F.bpPathMode bp.toNat).addr w).2
/-- STEP_WRITE (R44, R76). -/
def execStepWrite (who : Requester) (bp : BpId) (stp : BitVec 34) (s : State) : Out :=
  let f := F.bpRsmpStepStep bp.toNat
  .next (s.fieldWrite who f.addr [(f, stp.toNat)])
/-- DC_FREEZE_SET (R53). -/
def execDcFreezeSet (who : Requester) (bp : BpId) (s : State) : Out :=
  let f := F.bpCtrlDcFreeze bp.toNat
  .next (s.fieldWrite who f.addr [(f, 1)])
/-- DC_FREEZE_CLEAR (R53, R60). -/
def execDcFreezeClear (who : Requester) (bp : BpId) (s : State) : Out :=
  let f := F.bpCtrlDcFreeze bp.toNat
  .next (s.fieldWrite who f.addr [(f, 0)])
/-- METER_RESTART (R55). -/
def execMeterRestart (who : Requester) (bp : BpId) (s : State) : Out :=
  let f := F.bpCtrlMeterRestart bp.toNat
  .next (s.fieldWrite who f.addr [(f, 1)])
/-- RSMP_RETRY (R47). -/
def execRsmpRetry (who : Requester) (bp : BpId) (s : State) : Out :=
  let f := F.bpCtrlRsmpRetry bp.toNat
  .next (s.fieldWrite who f.addr [(f, 1)])
/-- SWAP_ARM (R72). -/
def execSwapArm (who : Requester) (bp : BpId) (seq : BitVec 24) (s : State) : Out :=
  let f := F.bpBwCtrlSwapArm bp.toNat
  .next (s.fieldWrite who f.addr [(f, 1), (F.bpBwCtrlSwapSeq bp.toNat, seq.toNat)])
/-- FLOOR_WRITE (R84, R93). -/
def execFloorWrite (who : Requester) (bp : BpId) (floor : BitVec 11) (s : State) : Out :=
  let f := F.bpBwCtrlFloor bp.toNat
  .next (s.fieldWrite who f.addr [(f, floor.toNat)])
/-- GAIN_SET_WRITE (R122, R124). -/
def execGainSetWrite (who : Requester) (bp : BpId) (gain : BitVec 16) (s : State) : Out :=
  let f := F.bpGainGainSet bp.toNat
  .next (s.fieldWrite who f.addr [(f, gain.toNat)])
/-- AGC_HOLD_SET (R100). -/
def execAgcHoldSet (who : Requester) (bp : BpId) (s : State) : Out :=
  let f := F.bpGainAgcHold bp.toNat
  .next (s.fieldWrite who f.addr [(f, 1)])
/-- AGC_HOLD_CLEAR (R100). -/
def execAgcHoldClear (who : Requester) (bp : BpId) (s : State) : Out :=
  let f := F.bpGainAgcHold bp.toNat
  .next (s.fieldWrite who f.addr [(f, 0)])
/-- NR_CAPTURE (R114). -/
def execNrCapture (who : Requester) (bp : BpId) (s : State) : Out :=
  let f := F.bpGainNrCapture bp.toNat
  .next (s.fieldWrite who f.addr [(f, 1)])
/-- EG_METER_RESTART (R115). -/
def execEgMeterRestart (who : Requester) (bp : BpId) (s : State) : Out :=
  let f := F.bpGainEgMeterRestart bp.toNat
  .next (s.fieldWrite who f.addr [(f, 1)])
/-- MASK_VERDICT (R120, R121). -/
def execMaskVerdict (who : Requester) (bp : BpId) (verdict : BitVec 5) (s : State) : Out :=
  let f := F.bpGainMaskVerdict bp.toNat
  .next (s.fieldWrite who f.addr [(f, verdict.toNat)])
/-- BP_ENABLE (R140). -/
def execBpEnable (who : Requester) (bp : BpId) (s : State) : Out :=
  let f := F.bpProtEnable bp.toNat
  .next (s.fieldWrite who f.addr [(f, 1)])
/-- BP_DISABLE (R140). -/
def execBpDisable (who : Requester) (bp : BpId) (s : State) : Out :=
  let f := F.bpProtEnable bp.toNat
  .next (s.fieldWrite who f.addr [(f, 0)])
/-- LOCK_ACK (R140, R143). -/
def execLockAck (who : Requester) (bp : BpId) (s : State) : Out :=
  let f := F.bpProtLockAck bp.toNat
  .next (s.fieldWrite who f.addr [(f, 1)])
/-- PROT_LIM_DATA_WRITE (R136, R143). -/
def execProtLimDataWrite (who : Requester) (value : Word) (s : State) : Out :=
  .next (s.reqWrite (reqCode who) 11 value).2

/-! ### Meanings: chains -/

/-- A command written to CH_FE_CMD (R151). -/
def State.feWrite (s : State) (who : Requester) (c cmd arg : Nat) : State :=
  s.fieldWrite who (F.chFeCmdCmd c).addr [(F.chFeCmdCmd c, cmd), (F.chFeCmdArg c, arg)]
/-- POWER_UP (R151). -/
def execPowerUp (who : Requester) (ch : ChainId) (s : State) : Out := .next (s.feWrite who ch.toNat 1 0)
/-- POWER_DOWN (R151). -/
def execPowerDown (who : Requester) (ch : ChainId) (s : State) : Out := .next (s.feWrite who ch.toNat 2 0)
/-- RECEIVE (R151). -/
def execReceive (who : Requester) (ch : ChainId) (s : State) : Out := .next (s.feWrite who ch.toNat 3 0)
/-- TRANSMIT (R151). -/
def execTransmit (who : Requester) (ch : ChainId) (s : State) : Out := .next (s.feWrite who ch.toNat 4 0)
/-- READY (R151). -/
def execReady (who : Requester) (ch : ChainId) (s : State) : Out := .next (s.feWrite who ch.toNat 5 0)
/-- RETUNE (R155). -/
def execRetune (who : Requester) (ch : ChainId) (k : BitVec 4) (s : State) : Out := .next (s.feWrite who ch.toNat 6 k.toNat)
/-- CAL (R159). -/
def execCal (who : Requester) (ch : ChainId) (k : BitVec 4) (s : State) : Out := .next (s.feWrite who ch.toNat 7 k.toNat)
/-- CLEAR_FAULT (R151). -/
def execClearFault (who : Requester) (ch : ChainId) (s : State) : Out := .next (s.feWrite who ch.toNat 8 0)

/-! ### Meanings: measurement and loops -/

/-- MEAS_REQ, ordinary (R177). -/
def execMeasReqOrdinary (who : Requester) (mc : McId) (s : State) : Out :=
  .next (s.fieldWrite who 385 [(F.measReqUrgent, 0), (F.measReqGo, 1), (F.measReqMc, mc.toNat)])
/-- MEAS_REQ, urgent (R179). -/
def execMeasReqUrgent (who : Requester) (mc : McId) (s : State) : Out :=
  .next (s.fieldWrite who 385 [(F.measReqUrgent, 1), (F.measReqGo, 1), (F.measReqMc, mc.toNat)])
/-- CAL_ZERO (R184). -/
def execCalZero (who : Requester) (mc : McId) (s : State) : Out :=
  .next (s.fieldWrite who 390 [(F.calCmdOp, 1), (F.calCmdMc, mc.toNat)])
/-- CAL_FULL (R184). -/
def execCalFull (who : Requester) (mc : McId) (fsRef : BitVec 20) (s : State) : Out :=
  .next (s.fieldWrite who 390 [(F.calCmdOp, 2), (F.calCmdMc, mc.toNat), (F.calCmdFsRef, fsRef.toNat)])
/-- MC_CAL_WRITE (R183). -/
def execMcCalWrite (who : Requester) (mc : McId) (offset gain : BitVec 20) (s : State) : Out :=
  .next (s.reqWrite (reqCode who) (448 + mc.toNat) (offset ++ gain)).2
/-- TRIM_ACT_WRITE (R187): register 7 does not exist. -/
def execTrimActWrite (who : Requester) (r : BitVec 3) (w : Word) (s : State) : Out :=
  if r.toNat < 7 then .next (s.reqWrite (reqCode who) (398 + r.toNat) w).2 else .next s
/-- LOOP_MODE_WRITE (R193, R194). -/
def execLoopModeWrite (who : Requester) (lp : LoopId) (mode : BitVec 2) (s : State) : Out :=
  .next (s.fieldWrite who (552 + 4 * lp.toNat) [(F.loopCtrlMode lp.toNat, mode.toNat)])
/-- LOOP_SP_WRITE (R193). -/
def execLoopSpWrite (who : Requester) (lp : LoopId) (w : Word) (s : State) : Out :=
  .next (s.reqWrite (reqCode who) (553 + 4 * lp.toNat) w).2
/-- LOOP_MAN_WRITE (R194). -/
def execLoopManWrite (who : Requester) (lp : LoopId) (w : Word) (s : State) : Out :=
  .next (s.reqWrite (reqCode who) (554 + 4 * lp.toNat) w).2

/-! ### Meanings: engines and lighters -/

/-- ENG_MB_IN_WRITE (R222). -/
def execEngMbInWrite (who : Requester) (e : EngId) (w : Word) (s : State) : Out :=
  .next (s.reqWrite (reqCode who) (8195 + 8 * e.toNat) w).2
/-- HALT (R227). -/
def execHalt (who : Requester) (e : EngId) (s : State) : Out :=
  .next (s.fieldWrite who (8192 + 8 * e.toNat) [(F.engCtrlHalt e.toNat, 1)])
/-- RESUME (R227). -/
def execResume (who : Requester) (e : EngId) (s : State) : Out :=
  .next (s.fieldWrite who (8192 + 8 * e.toNat) [(F.engCtrlResume e.toNat, 1)])
/-- RESTART (R227). -/
def execRestart (who : Requester) (e : EngId) (s : State) : Out :=
  .next (s.fieldWrite who (8192 + 8 * e.toNat) [(F.engCtrlRestart e.toNat, 1)])
/-- The position register of a lighter channel: LTR_POSc of quay q for 32 q + c, DL_POSk for 512 + k. -/
def ltrPosAddr (n : Nat) : Nat := if 512 ≤ n then 12295 + 128 * (n - 512) else 12352 + 128 * (n / 32) + n % 32
/-- LTR_POS_ABORT (R266): channels 528 and above do not exist. -/
def execLtrPosAbort (who : Requester) (ch : BitVec 10) (s : State) : Out :=
  if ch.toNat < 528 then
    .next (s.reqWrite (reqCode who) (ltrPosAddr ch.toNat) (maskOf 14 14)).2
  else .next s
/-- LTR_POS_RESUME (R266). -/
def execLtrPosResume (who : Requester) (ch : BitVec 10) (s : State) : Out :=
  if ch.toNat < 528 then
    .next (s.reqWrite (reqCode who) (ltrPosAddr ch.toNat) (maskOf 13 13)).2
  else .next s

/-! ### Meanings: Guvan ports, time, faults -/

/-- GV_ENABLE (R296). -/
def execGvEnable (who : Requester) (p : PortId) (s : State) : Out :=
  .next (s.fieldWrite who (F.gvCtrlEnable p.toNat).addr [(F.gvCtrlEnable p.toNat, 1)])
/-- GV_DISABLE (R296). -/
def execGvDisable (who : Requester) (p : PortId) (s : State) : Out :=
  .next (s.fieldWrite who (F.gvCtrlEnable p.toNat).addr [(F.gvCtrlEnable p.toNat, 0)])
/-- GV_RETRAIN (R296). -/
def execGvRetrain (who : Requester) (p : PortId) (s : State) : Out :=
  .next (s.fieldWrite who (F.gvCtrlEnable p.toNat).addr [(F.gvCtrlRetrain p.toNat, 1)])
/-- TIME_SET_LO_WRITE (R337, R442). -/
def execTimeSetLoWrite (who : Requester) (w : Word) (s : State) : Out := .next (s.reqWrite (reqCode who) 140 w).2
/-- A write of FC_ACK. -/
def ackWord (index : BitVec 5) (source : BitVec 14) (cls : BitVec 3) (k : Nat) : Word :=
  BitVec.ofNat 40 (source.toNat * 2 ^ 26 + cls.toNat * 2 ^ 23 + index.toNat * 2 ^ 18 + k * 2 ^ 16)
/-- FC_ACK with KEEP (R370). -/
def execFcAckKeep (who : Requester) (index : BitVec 5) (source : BitVec 14) (cls : BitVec 3) (s : State) : Out :=
  .next (s.reqWrite (reqCode who) 258 (ackWord index source cls 1)).2
/-- FC_ACK with OUT (R370). -/
def execFcAckOut (who : Requester) (index : BitVec 5) (source : BitVec 14) (cls : BitVec 3) (s : State) : Out :=
  .next (s.reqWrite (reqCode who) 258 (ackWord index source cls 2)).2
/-- HIST_CLR (R374). -/
def execHistClr (who : Requester) (s : State) : Out := .next (s.fieldWrite who 269 [(F.histSelHistClr, 1)])
/-- EMR_CLR (R385). -/
def execEmrClr (who : Requester) (s : State) : Out := .next (s.fieldWrite who 291 [(F.emrSelEmrClr, 1)])
/-- FI_GO (R375). -/
def execFiGo (who : Requester) (s : State) : Out := .next (s.fieldWrite who 298 [(F.fiCtrlFiGo, 1)])

end Sys2Proof.Machine
end

