-- ==== Sys2Proof/Machine/Mgmt.lean ====
section
/-! DEFINITION. The Quizia management core: its standing duties, its faults, the command set, the update path and replay control (R389 to R407). -/

namespace Sys2Proof.Machine

namespace State

/-- The core performs its standing duties: its firmware runs and no C4 latch holds (R389). -/
def coreWorks (s : State) : Bool := s.coreAnswers && !s.boot.romLoader

/-! ### Standing duties (R389) -/

/-- One pair of the management ring (R223, R224): DATA to the store of 4 096 pairs, NOTE and REPORT to the collector. -/
def ringPair (s : State) (p : Word × Word) : State :=
  let e := bitsOf p.2 39 32
  let pay := BitVec.ofNat 40 (bitsOf p.1 35 0)
  match bitsOf p.1 39 36 with
  | 0 =>
    let l := s.mgmt.store ++ [p]
    { s with mgmt := { s.mgmt with store := l.drop (l.length - 4096) } }
  | 1 => s.note (srcEng e) pay
  | 2 => s.report (srcEng e) 9 1 pay
  | k => s.note (srcEng e) (Config.msgContext (srcEng e) kNote k)

/-- The ring is emptied, oldest first. -/
def ringDrain (s : State) : State :=
  let l := s.mgmt.ring
  l.foldl ringPair { s with mgmt := { s.mgmt with ring := [] } }

/-- A record as the cursor of requester `who` finds it by a NEXT read from a sequence number: its words, the record, and what the read leaves (R382). -/
def nextRead (s : State) (who seq : Nat) : Option LogRec × State :=
  let found := s.nextRec seq
  let s := (s.setCursor who { s.cursor who with next := true, seq := BitVec.ofNat 24 seq }).logSnap who
  match found with
  | some (_, r) => if (atD (s.cursor who).snap 4 0).getLsbD 10 then (some r, s) else (none, s)
  | none => (none, s)

/-- Records lost before mirroring: those overwritten between the last one mirrored and `seq`. -/
def mirrorGap (s : State) (seq : BitVec 24) : State :=
  let lost := (seq - s.mgmt.mirrorSeq - 1).toNat
  if lost = 0 then s
  else (s.incBy F.mgmtStatMirrorLost F.mgmtStatMlOvf lost).report srcMgmt 5 1 (Config.msgContext srcMgmt 5 lost)

/-- Append to the log area, a ring of 262 144 records. -/
def logPut (f : Flash) (r : LogRec) : Flash :=
  let l := f.log ++ [r]
  { f with log := l.drop (l.length - 262144) }

/-- Mirror records to the log area by NEXT reads, at most `k` of them. -/
def mirrorN (s : State) : Nat → State
  | 0 => s
  | k + 1 =>
    match s.nextRead 0 s.mgmt.mirrorSeq.toNat with
    | (none, s) => s
    | (some r, s) =>
      let s := s.mirrorGap r.seq
      let s := s.flashPut s.boot.flash (fun f => logPut f r)
      mirrorN { s with mgmt := { s.mgmt with mirrorSeq := r.seq } } k

/-- The newest records that the log area does not hold yet, at most 64, newest first, as a read of each finds them (R389, R406). -/
def unmirrored (s : State) : List LogRec × State :=
  ((s.newestRecs.filter (fun p => follows 24 p.2.seq.toNat s.mgmt.mirrorSeq.toNat)).take 64).foldl (fun (r : List LogRec × State) p =>
    let x := r.2.readSlot p.1
    (if x.1 then r.1 else r.1 ++ [p.2], x.2)) ([], s)

/-- The logbook mirror (R389, R406). In a C3 grace the frozen snapshot and up to 64 unmirrored records, newest first, go to the pre-erased reserve pages before anything else; the records reach the log area in their turn all the same. -/
def mirror (s : State) : State :=
  let f := s.flashOf s.boot.flash
  let s := if s.fc.c3At.isSome ∧ f.reserve = [] ∧ f.reserveLog = [] then
      let (l, s) := s.unmirrored
      s.flashPut s.boot.flash (fun f => { f with reserve := s.fc.frozen, reserveLog := l })
    else s
  s.mirrorN 8192

/-- The duties after a start: the emergency register file is stored and cleared, the reserve pages are erased where a C3 grace has used them, and a BOOT notice is sent (R385, R389, R395, R412). -/
def afterStart (s : State) : State :=
  let f := s.flashOf s.boot.flash
  let saved := if f.fails then [] else s.fc.emr
  let s := if s.fc.emr = [] then s else s.flashPut s.boot.flash (fun f => { f with emrStore := f.emrStore ++ s.fc.emr })
  let s := if f.reserve = [] ∧ f.reserveLog = [] then s else s.flashPut s.boot.flash (fun f => { f with reserve := [], reserveLog := [] })
  let s := s.fieldWrite .mgmt 291 [(F.emrSelEmrClr, 1)]
  let out := bitsOf (s.viewGlb 14 0) 14 12
  s.notice 4 (beBytes 1 out ++ wordBytes (s.reg 0) ++ beBytes 8 s.img.stamp.toNat ++ beBytes 1 saved.length)

/-! ### Commands (R392) -/

/-- IDENT. -/
def identFx (_who : Nat) (s : State) : Answer :=
  let flags := bit s.boot.harbour * 8 + bit s.replayMode * 4 + bit s.boot.romLoader * 2 + bit s.addressed
  .ok s (wordBytes (s.reg 0) ++ beBytes 8 s.img.stamp.toNat ++ beBytes 3 s.ownAddr ++ beBytes 1 flags)

/-- Read `k` registers from an address upwards; a _HI that stands just below its _LO is read after it (R441). The answer says whether every parity was good. -/
def readRegs (s : State) (who a : Nat) : Nat → Bool × List Word × State
  | 0 => (true, [], s)
  | 1 =>
    let (r, w, s) := s.fabricRead who a
    (r == .ok, [w], s)
  | k + 2 =>
    if hiOf (a + 1) = some a then
      let (r1, lo, s) := s.fabricRead who (a + 1)
      let (r2, hi, s) := s.fabricRead who a
      let (b, l, s) := readRegs s who (a + 2) k
      (r1 == .ok && r2 == .ok && b, hi :: lo :: l, s)
    else
      let (r, w, s) := s.fabricRead who a
      let (b, l, s) := readRegs s who (a + 1) (k + 1)
      (r == .ok && b, w :: l, s)

/-- REG_READ (R441, R432, R438). -/
def regReadFx (a count who : Nat) (s : State) : Answer :=
  if count = 0 ∨ 128 < count ∨ (List.range count).any (fun i => (layout (a + i)).isNone) then .code s 2
  else
    match s.readRegs who a count with
    | (true, l, s) => .ok (s.setRead who l) (l.flatMap wordBytes)
    | (false, _, s) => .code s 7

/-- REG_WRITE (R394, R436). -/
def regWriteFx (a : Nat) (w : Word) (who : Nat) (s : State) : Answer :=
  let r := s.reqWrite who a w
  .code r.2 r.1.status

/-- `k` records by NEXT reads from the cursor, ending before the first read that finds none. -/
def logNext (s : State) (who seq : Nat) : Nat → List Word × State
  | 0 => ([], s)
  | k + 1 =>
    match s.nextRead who seq with
    | (none, s) => ([], s)
    | (some r, s) =>
      let ws := (s.cursor who).snap
      let (l, s) := logNext s who r.seq.toNat k
      (ws ++ l, s)

/-- `k` slots from `slot`; the last slot ends the answer. -/
def logSlots (s : State) (who slot : Nat) : Nat → List Word × State
  | 0 => ([], s)
  | k + 1 =>
    if 8192 ≤ slot then ([], s)
    else
      let s := (s.setCursor who { s.cursor who with next := false, slot := BitVec.ofNat 13 slot }).logSnap who
      let ws := (s.cursor who).snap
      let (l, s) := logSlots s who (slot + 1) k
      (ws ++ l, s)

/-- LOG_READ (R382): mode 0 SLOT, 1 NEXT, as LOG_CURSOR codes them. -/
def logReadFx (mode at_ count who : Nat) (s : State) : Answer :=
  if 1 < mode ∨ count = 0 ∨ 32 < count ∨ (mode = 0 ∧ 8192 ≤ at_) then .code s 2
  else
    let (l, s) := if mode = 1 then s.logNext who at_ count else s.logSlots who at_ count
    .ok s (l.flatMap wordBytes)

/-- FAULT_ACK (R370). -/
def faultAckFx (idx src cls act who : Nat) (s : State) : Answer :=
  if act ≠ 1 ∧ act ≠ 2 then .code s 2
  else
    let r := s.ackFx idx src cls (act == 1)
    if r.1 then .ok (r.2.ackEntry who idx src cls (act == 1)) [] else .code r.2 6

/-- Read `k` words of hold memory; the answer says whether one was poisoned. -/
def holdReads (s : State) (a : Nat) : Nat → Bool × List Word × State
  | 0 => (false, [], s)
  | k + 1 =>
    let (r, s) := s.memRead .hold a srcHold
    let (p, l, s) := holdReads s (a + 1) k
    (r.poison || p, r.word :: l, s)

/-- HOLD_READ: the canceller delay pool, the Guvan buffers and addresses outside the memory are DENIED. DL7 moves the words (R258), and a command that finds it stopped answers STATE (DESIGN CHOICE, assumption 74). A poisoned word restarts the firmware (R390). -/
def holdReadFx (a count _who : Nat) (s : State) : Answer :=
  if count = 0 ∨ 192 < count then .code s 2
  else if a < 0x80000 ∨ 0x400000 < a + count then .code s 3
  else if s.ltrStopped 519 then .code s 6
  else
    match s.holdReads a count with
    | (false, l, s) => .ok (s.devServe 519 a count) (l.flatMap wordBytes)
    | (true, _, s) => ⟨0, [], s.fwRestart 1, true⟩

/-- HOLD_WRITE (R404): in replay mode, into the journal, the capture regions and the checkpoint slots. DL7 moves the words (R258), and a command that finds it stopped answers STATE (DESIGN CHOICE, assumption 74). -/
def holdWriteFx (a count : Nat) (ws : List Word) (_who : Nat) (s : State) : Answer :=
  if !s.replayMode then .code s 6
  else if count = 0 ∨ 192 < count ∨ ws.length ≠ count then .code s 2
  else if a < 0x80000 ∨ 0x380000 < a + count then .code s 3
  else if s.ltrStopped 519 then .code s 6
  else .ok (((s.holdPuts a ws).foreign a count).devServe 519 a count) []

/-- MB_READ: the oldest stored pairs leave the store with the answer. -/
def mbReadFx (count _who : Nat) (s : State) : Answer :=
  if count = 0 ∨ 96 < count then .code s 2
  else
    let l := s.mgmt.store.take count
    .ok { s with mgmt := { s.mgmt with store := s.mgmt.store.drop count } } (l.flatMap (fun p => wordBytes p.1 ++ wordBytes p.2))

/-- TIME_OF_DAY (R328). -/
def timeOfDayFx (sec _who : Nat) (s : State) : Answer :=
  if s.lodestar then .ok { s with time := { s.time with tod := some (sec % 2 ^ 32, s.cyc) } } [] else .code s 6

/-- ADDR_SET (R14, R309): an address of 18 bits other than 0.0.0 and the broadcast address (R13). -/
def addrSetFx (a _who : Nat) (s : State) : Answer :=
  if s.img.hasAddress.isSome then .code s 3
  else if a = 0 ∨ allAddr ≤ a then .code s 2
  else .ok ((s.wr F.devAddrValid 1).wr F.devAddrAddr a) []

/-- Entries of a route table, and its place among the routes: 0 span, 1 node, 2 device. -/
def routeTable (t : Nat) : Option (Nat × Nat) :=
  match t with
  | 0 => some (256, 0)
  | 1 => some (64, 256)
  | 2 => some (16, 320)
  | _ => none

/-- ROUTE_LOAD. -/
def routeLoadFx (t first count : Nat) (es : List Byte) (_who : Nat) (s : State) : Answer :=
  match routeTable t with
  | none => .code s 2
  | some (size, base) =>
    if size < first + count ∨ es.length ≠ count then .code s 2
    else
      .ok (s.memWrites .routes (base + first) (es.map (fun b => b.zeroExtend 40))) []

/-- The holder of staging a command comes from. -/
def stager (o : Origin) : Option DevAddr := match o with | .addr src _ => some src | .debug => none

/-- The flash IMG_BEGIN names: the target in normal operation (byte 0), 1 primary or 2 alternate under the ROM loader (R393). -/
def imgTarget (s : State) (t : Nat) : Option Bool :=
  if s.boot.romLoader then (if t = 1 then some false else if t = 2 then some true else none)
  else if t = 0 then some (!s.boot.flash) else none

/-- IMG_BEGIN (R396, R426): the record goes to STAGING before anything is erased. Where the flash fails, the operation of this and the next two commands is abandoned and reported, and the command answers VERIFY (R390; DESIGN CHOICE, assumption 48: no status is given). -/
def imgBeginFx (o : Origin) (len : Nat) (hash : List Byte) (t : Nat) (_who : Nat) (s : State) : Answer :=
  if s.mgmt.staging.isSome then .code s 5
  else if !s.boot.romLoader && s.ownSlot.present && s.ownSlot.readable && s.ownSlot.st == 3 then .code s 6
  else match s.imgTarget t with
    | none => .code s 2
    | some alt =>
      if 50331648 < len ∨ hash.length ≠ 32 then .code s 2
      else
        let gen := (readGen (s.flashOf alt).slot).getD 0
        if (s.flashOf alt).fails then .code s.flashErr 7
        else
          let s := s.setSlot alt 1 0 gen
          let s := s.flashPut alt (fun f => { f with image := [] })
          .ok { s with mgmt := { s.mgmt with staging := some ⟨stager o, alt, len, hash⟩ } } []

/-- The staging a command may use: held by its own session. -/
def ownStaging (s : State) (o : Origin) : Option Staging :=
  match s.mgmt.staging with
  | some g => if g.who = stager o then some g else none
  | none => none

/-- IMG_DATA (R396): in order, into the target. -/
def imgDataFx (o : Origin) (off : Nat) (bytes : List Byte) (_who : Nat) (s : State) : Answer :=
  match s.ownStaging o with
  | none => .code s 6
  | some g =>
    let f := s.flashOf g.flash
    let n := f.image.length
    if off ≠ n ∨ bytes = [] ∨ 992 < bytes.length ∨ g.len < n + bytes.length then ⟨2, beBytes 4 n, s, false⟩
    else if f.fails then .code s.flashErr 7
    else .ok (s.flashPut g.flash (fun f => { f with image := f.image ++ bytes })) []

/-- The generation a commit writes (R397, R426). -/
def commitGen (s : State) : BitVec 16 :=
  if s.boot.romLoader then
    match readGen s.flash0.slot, readGen s.flash1.slot with
    | some a, some b => (if follows 16 b.toNat a.toNat then b else a) + 1
    | some a, none => a + 1
    | none, some b => b + 1
    | none, none => 1
  else s.ownSlot.gen + 1

/-- IMG_COMMIT (R397, R426): the target becomes PENDING, or EMPTY with IMG_FAIL. -/
def imgCommitFx (o : Origin) (_who : Nat) (s : State) : Answer :=
  match s.ownStaging o with
  | none => .code s 6
  | some g =>
    let f := s.flashOf g.flash
    if f.image.length < g.len then .code s 2
    else
      let done' := { s with mgmt := { s.mgmt with staging := none } }
      if Config.sha256 f.image = g.hash ∧ bytesCheck f.image (s.reg 0) s.fuses = none then
        let s := done'.setSlot g.flash 2 0 done'.commitGen
        if f.fails then .code s 7
        else .ok (if s.boot.romLoader then { s with mgmt := { s.mgmt with resetAt := some (s.cyc + 100 * msCyc) } } else s) []
      else .code ((done'.setSlot g.flash 0 0 f.slot.gen).report srcMgmt 6 0 (Config.msgContext srcMgmt 6 0)) 7

/-- IMG_ABORT (R396). -/
def imgAbortFx (o : Origin) (_who : Nat) (s : State) : Answer :=
  match s.ownStaging o with
  | none => .code s 6
  | some _ => .ok { s with mgmt := { s.mgmt with staging := none } } []

/-! ### Replay (R402, R404) -/

/-- START as command: in replay mode; VERIFY when the header differs. -/
def replayStartFx (_who : Nat) (s : State) : Answer :=
  if s.rpl.st = .replayMode then
    let r := s.startReplay
    .code r.2 (if r.1 then 0 else 7)
  else .code s 6

/-- A LIVE_WRITE entry is applied to the registers of the replay set and to the limits; the inbound mailbox has its own entries. -/
def applyLive (s : State) (detail : Nat) (w mask : Word) : State :=
  let who := detail / 2 ^ 24
  let a := detail % 2 ^ 24
  let mailbox := decide (8192 ≤ a) && decide (a < 10240) && (a - 8192) % 8 == 3
  if (s.setReg? a || a == 10 || a == 11) && !mailbox then
    let v := (w &&& mask) ||| (s.restWord who a &&& ~~~ mask)
    let s := s.writeFx who a v
    match layout a with | some rows => s.clearW1c a (w &&& mask) rows | none => s
  else s

/-- A SAR entry: the conversion's result is taken as it was recorded. -/
def applySar (s : State) (detail : Nat) (at_ : Word) : State :=
  let m := detail / 2 ^ 29
  let flags := detail / 2 ^ 23 % 16
  match s.mcCfg m with
  | none => s
  | some g =>
    let kind := match detail / 2 ^ 27 % 4 with
      | 0 => ConvKind.scheduled | 1 => ConvKind.requested | 2 => ConvKind.urgent | _ => ConvKind.restarted
    let v : Conv := ⟨kind, BitVec.ofNat 5 m, at_.toNat, decide (flags / 4 % 2 = 1), s.pairMode g.input && (s.mc m).nextHi,
      kind == .scheduled || kind == .restarted, s.nowHi, s.nowLo⟩
    s.takeResult g.adc.toNat v (BitVec.ofNat 12 (detail / 2 ^ 11))

/-- A PIN entry: a PPS_IN edge at its stamp, or MUTE_N for the selected band paths. -/
def applyPin (s : State) (detail : Nat) (stamp : Word) : State :=
  let high := decide (detail / 16 % 2 = 1)
  match detail % 16 with
  | 4 =>
    let lo : Int := (stamp.toNat * 65536 : Nat)
    let sec := (s.time.now - lo + sec1 / 2) / sec1
    let a := sec * sec1 + lo
    if s.lodestar && s.rdB F.ppsCfgPpsInEn then ({ s with time := { s.time with stampHi := timeHi a, stampLo := timeLo a } } : State).ppsEdge a else s
  | 5 =>
    if high then s.offSoon none true
    else (s.selected.filter (fun n => s.planN n plMuteNBind == 1)).foldl (fun s n => s.setHeld n (fun h => { h with muteN := true })) (s.offNever none true)
  | _ => s

/-- A CX entry: a requester's GNT, or a grantor's REQ, as held cause of the selected band paths bound to the port. -/
def applyCx (s : State) (detail : Nat) : State :=
  let k := detail / 8 % 4
  let high := decide (detail % 2 = 1)
  let port := some (BitVec.ofNat 2 k)
  let on := fun (_ : Unit) => ((s.boundTo k).filter (fun n => s.selected.contains n)).foldl (fun s n => s.setHeld n (fun h => { h with cx := true })) (s.offNever port true)
  match s.rd (F.cxCtrlRole k), detail / 2 % 4 with
  | 1, 1 => if high then s.offSoon port true else on ()
  | 2, 0 => if high then on () else s.offSoon port true
  | _, _ => s

/-- A GV_TIME or GV_HDR entry of the upstream port: the header's time and standing reach the time base. -/
def applyTime (s : State) (p : Nat) (arrival h1 : Word) : State :=
  let ticks := frameTicks (s.port p).mode.toNat
  let back := ((BitVec.ofNat 40 s.rpl.rcyc - arrival).toNat * 100000 * 2 ^ 24 / 98304 : Nat)
  s.servoFrame p (bitsOf h1 39 34) ((bitsOf h1 33 0 : Nat) * 2 ^ 20) (s.instant 0 - back) ticks

/-- A GV_HDR entry: stratum and lock of the upstream partner. -/
def applyHdr (s : State) (p : Nat) (h0 : Word) : State :=
  let q := s.port p
  (s.setPort p { q with pTimeLock := h0.getLsbD 12, pStratum := BitVec.ofNat 6 (bitsOf h0 11 6) }).dropUpstream

/-- An MB_IN entry: the word becomes visible to its engine. -/
def applyMb (s : State) (e : Nat) (w : Word) : State :=
  let en := s.engine e
  let vis := en.inbox.takeWhile (fun x => x.visible)
  match en.inbox.dropWhile (fun x => x.visible) with
  | _ :: t => s.setEngine e { en with inbox := vis ++ [⟨w, s.rpl.rcyc, true⟩] ++ t }
  | [] => s.setEngine e { en with inbox := vis ++ [⟨w, s.rpl.rcyc, true⟩] }

/-- A CROSS entry: what happened outside the replay set to a selected band path. -/
def applyCross (s : State) (detail : Nat) : State :=
  let n := detail / 128
  if s.selected.contains n then
    match detail % 128 with
    | 1 => s.donorLost n
    | 2 =>
      let b := s.bp n
      (s.setBp n { b with prot := { b.prot with donorLost := false, donorLow := none } }).setHeld n (fun h => { h with donor := false })
    | 3 => s.tripped n 7
    | 5 => { s with rpl := { s.rpl with harbour := true } }
    | _ => s
  else s

/-- The next journal entry is passed, and applied if it could be read. -/
def jApply (s : State) (f : State → State) : State := let r := s.jTake; if r.1 then f r.2 else r.2

/-- Apply the next journal entry once RCYC has reached its CYC (R404). A DECISION or REG_IN entry of the present cycle waits for its store, move or load; a DECISION that has been passed is missing. -/
def journalApply (s : State) : State :=
  let (w0, w1, w2, w3) := s.jNow
  let now := BitVec.ofNat 40 s.rpl.rcyc
  let detail := bitsOf w0 33 0
  if s.rpl.st ≠ .replaying ∨ bitsOf w0 39 34 = 0 ∨ !notEarlier now w1 then s
  else match bitsOf w0 39 34 with
    | 1 => s.jApply (fun s => s.applyLive detail w2 w3)
    | 2 => s.jApply (fun s => s.applySar detail w1)
    | 3 => s.jApply (fun s => s.applyPin detail w2)
    | 4 => s.jApply (fun s => s.applyCx detail)
    | 5 => s.jApply (fun s => s.applyTime (detail % 8) w1 w2)
    | 6 => s.jApply (fun s => s.applyHdr (detail % 8) w2)
    | 7 => s.jApply (fun s => s.applyMb (detail % 256) w2)
    | 8 => s.jApply (fun s => s.applyCross detail)
    | 9 => if w1 = now then s else s.jApply (fun s => s.diverge 4 (detail / 2 ^ 24) (if detail % 2 = 0 then w2.toNat else 0))
    | 11 => if w1 = now then s else s.jApply id
    | _ => s.jApply id

/-- The DECISION entries left over at the end are missing ones. -/
def leftover (s : State) : Nat → State
  | 0 => s
  | k + 1 =>
    let (w0, w1, w2, _) := s.jNow
    if bitsOf w0 39 34 = 0 ∨ !notEarlier s.rpl.freezeCyc w1 then s
    else
      let detail := bitsOf w0 33 0
      leftover (s.jApply (fun s =>
        if bitsOf w0 39 34 = 9 then s.diverge 4 (detail / 2 ^ 24) (if detail % 2 = 0 then w2.toNat else 0) else s)) k

/-- The replay stops at the freeze CYC (R404). -/
def replayEnds (s : State) : State :=
  if s.rpl.st = .replaying ∧ notEarlier (BitVec.ofNat 40 s.rpl.rcyc) s.rpl.freezeCyc then
    let s := s.leftover 49152
    { s with rpl := { s.rpl with st := .done } }
  else s

end State

/-! ### Meanings: duties -/

/-- MGMT_RING_DRAIN (R389, R224). -/
def execMgmtRingDrain (s : State) : Out := .next (if s.coreWorks then s.ringDrain else s)
/-- LOGBOOK_MIRROR (R389, R371). -/
def execLogbookMirror (s : State) : Out := .next (if s.coreWorks then s.mirror else s)
/-- MGMT_WATCHDOG_EXPIRY (R390). -/
def execMgmtWatchdogExpiry (s : State) : Out := .next (if s.coreAnswers then s.fwRestart 2 else s)
/-- MGMT_RESTART_DONE (R390). -/
def execMgmtRestartDone (s : State) : Out :=
  .next (if s.mgmt.core = .restarting then { s with mgmt := { s.mgmt with core := .running, restartDone := none } } else s)
/-- MGMT_FIRMWARE_START_DONE (R422, R385, R395). -/
def execMgmtFirmwareStartDone (s : State) : Out :=
  if s.mgmt.core = .starting ∧ s.boot.locked ∧ !s.fc.c4 then
    .next ({ s with mgmt := { s.mgmt with core := .running } } : State).afterStart
  else .next s
/-- SESSION_IDLE_CLOSE (R391): 60 s without a COMMAND. -/
def execSessionIdleClose (session : BitVec 3) (s : State) : Out :=
  match s.session session.toNat with
  | some x => if x.lastAt + 60 * secCyc ≤ s.cyc then .next (s.closeSession session.toNat) else .next s
  | none => .next s

/-! ### Meanings: commands -/

/-- IDENT (R392). -/
def execIdent (o : Origin) (seq : BitVec 16) (s : State) : Out := .next (s.command o seq 1 [] State.identFx)
/-- REG_READ (R441). -/
def execRegRead (o : Origin) (seq : BitVec 16) (addr : BitVec 24) (count : Byte) (s : State) : Out :=
  .next (s.command o seq 2 (beBytes 3 addr.toNat ++ [count]) (State.regReadFx addr.toNat count.toNat))
/-- REG_WRITE (R394). -/
def execRegWrite (o : Origin) (seq : BitVec 16) (addr : BitVec 24) (w : Word) (s : State) : Out :=
  .next (s.command o seq 3 (beBytes 3 addr.toNat ++ wordBytes w) (State.regWriteFx addr.toNat w))
/-- LOG_READ (R392). -/
def execLogRead (o : Origin) (seq : BitVec 16) (mode : Byte) (at_ : BitVec 24) (count : Byte) (s : State) : Out :=
  .next (s.command o seq 4 ([mode] ++ beBytes 3 at_.toNat ++ [count]) (State.logReadFx mode.toNat at_.toNat count.toNat))
/-- FAULT_ACK (R370). -/
def execFaultAck (o : Origin) (seq : BitVec 16) (index : Byte) (source : BitVec 16) (cls action : Byte) (s : State) : Out :=
  .next (s.command o seq 5 ([index] ++ beBytes 2 source.toNat ++ [cls, action]) (State.faultAckFx index.toNat source.toNat cls.toNat action.toNat))
/-- HOLD_READ (R392). -/
def execHoldRead (o : Origin) (seq : BitVec 16) (addr : BitVec 24) (count : Byte) (s : State) : Out :=
  .next (s.command o seq 6 (beBytes 3 addr.toNat ++ [count]) (State.holdReadFx addr.toNat count.toNat))
/-- HOLD_WRITE (R404). -/
def execHoldWrite (o : Origin) (seq : BitVec 16) (addr : BitVec 24) (count : Byte) (words : List Word) (s : State) : Out :=
  .next (s.command o seq 7 (beBytes 3 addr.toNat ++ [count] ++ words.flatMap wordBytes) (State.holdWriteFx addr.toNat count.toNat words))
/-- MB_READ (R392). -/
def execMbRead (o : Origin) (seq : BitVec 16) (count : Byte) (s : State) : Out :=
  .next (s.command o seq 8 [count] (State.mbReadFx count.toNat))
/-- TIME_OF_DAY (R328). -/
def execTimeOfDay (o : Origin) (seq : BitVec 16) (seconds : BitVec 48) (s : State) : Out :=
  .next (s.command o seq 9 (beBytes 6 seconds.toNat) (State.timeOfDayFx seconds.toNat))
/-- ADDR_SET (R309). -/
def execAddrSet (o : Origin) (seq : BitVec 16) (addr : BitVec 24) (s : State) : Out :=
  .next (s.command o seq 10 (beBytes 3 addr.toNat) (State.addrSetFx addr.toNat))
/-- ROUTE_LOAD (R392). -/
def execRouteLoad (o : Origin) (seq : BitVec 16) (table first count : Byte) (entries : List Byte) (s : State) : Out :=
  .next (s.command o seq 11 ([table, first, count] ++ entries) (State.routeLoadFx table.toNat first.toNat count.toNat entries))
/-- IMG_BEGIN (R396). -/
def execImgBegin (o : Origin) (seq : BitVec 16) (len : BitVec 32) (hash : List Byte) (target : Byte) (s : State) : Out :=
  .next (s.command o seq 12 (beBytes 4 len.toNat ++ hash ++ [target]) (State.imgBeginFx o len.toNat hash target.toNat))
/-- IMG_DATA (R396). -/
def execImgData (o : Origin) (seq : BitVec 16) (offset : BitVec 32) (bytes : List Byte) (s : State) : Out :=
  .next (s.command o seq 13 (beBytes 4 offset.toNat ++ bytes) (State.imgDataFx o offset.toNat bytes))
/-- IMG_COMMIT (R397). -/
def execImgCommit (o : Origin) (seq : BitVec 16) (s : State) : Out := .next (s.command o seq 14 [] (State.imgCommitFx o))
/-- IMG_ABORT (R396). -/
def execImgAbort (o : Origin) (seq : BitVec 16) (s : State) : Out := .next (s.command o seq 15 [] (State.imgAbortFx o))
/-- REPLAY, FREEZE (R402). -/
def execReplayFreeze (o : Origin) (seq : BitVec 16) (s : State) : Out :=
  .next (s.command o seq 16 [1] (fun _ s => .ok (s.freezeRecording true) []))
/-- REPLAY, THAW (R402). -/
def execReplayThaw (o : Origin) (seq : BitVec 16) (s : State) : Out :=
  .next (s.command o seq 16 [2] (fun _ s => .ok s.thawFx []))
/-- REPLAY, ENTER (R404). -/
def execReplayEnter (o : Origin) (seq : BitVec 16) (s : State) : Out :=
  .next (s.command o seq 16 [3] (fun _ s => let r := s.enterReplay; .code r.2 (if r.1 then 0 else 6)))
/-- REPLAY, START (R404). -/
def execReplayStart (o : Origin) (seq : BitVec 16) (s : State) : Out :=
  .next (s.command o seq 16 [4] State.replayStartFx)

/-! ### Meanings: recording and replay -/

/-- CHECKPOINT_START (R401): at a CYC that is a multiple of CP_PERIOD, while recording runs and DL4 is not stopped. -/
def execCheckpointStart (s : State) : Out :=
  if s.recording ∧ s.rpl.copying.isNone ∧ s.ltrStopped 516 = false ∧ s.cyc % s.cpCycles = 0 then .next s.cpStart else .next s
/-- CHECKPOINT_DONE (R401): every word of the snapshot has been copied. -/
def execCheckpointDone (s : State) : Out :=
  match s.rpl.copying with
  | some (slot, k) => if s.recording ∧ s.cpTotal slot ≤ k then .next (s.cpDone slot) else .next s
  | none => .next s
/-- JOURNAL_ENTRY_APPLY (R404, R405). -/
def execJournalEntryApply (s : State) : Out := .next s.journalApply
/-- REPLAY_END (R404). -/
def execReplayEnd (s : State) : Out := .next s.replayEnds

end Sys2Proof.Machine
end

