-- ==== Sys2Proof/Machine/Boot.lean ====
section
/-! DEFINITION. Start-up (chapter 16): reset, the choice of the boot source, the checks and the load of an image, the bring-up steps and the ROM loader (R398, R408 to R426, R447). -/

namespace Sys2Proof.Machine

/-- A flash as a start finds it (R413): the boot ROM scans its slot sectors. Where they were programmed from outside, so may have been the image. -/
def slotSeen (v : SlotView) (f : Flash) : Flash :=
  match v with
  | .kept fails => { f with slot := slotScan f.sect0 f.sect1, fails := fails }
  | .sectors s0 s1 fails => { f with sect0 := s0, sect1 := s1, slot := slotScan s0 s1, image := [], fails := fails }

/-- A readable record in a state. -/
def SlotRec.inSt (r : SlotRec) (st : BitVec 3) : Bool := r.present && r.readable && r.st == st
/-- A record that counts as VALID: written so, or both sectors erased (R413). -/
def SlotRec.valid (r : SlotRec) : Bool := !r.present || r.inSt 4
/-- A record that cannot be read (R413). -/
def SlotRec.lost (r : SlotRec) : Bool := r.present && !r.readable

namespace State

/-! ### Reset (R408, R409, R411) -/

/-- The device in reset: every block as at power-up; the flashes, the fuses as burned, the emergency register file, the balls, the test access port and, until they are cleared, the memories stay. A burn cut short is not committed (R471). -/
def resetState (s : State) : State :=
  { reset with
    pending := s.pending
    mem := s.mem
    flash0 := s.flash0
    flash1 := s.flash1
    fuses := s.burned
    burned := s.burned
    pins := { s.pins with boundary := false, noLock := false }
    fc := { Collector.init with emr := s.fc.emr, flushed := s.fc.flushed, damages := s.fc.damages, flushDone := s.fc.flushDone }
    freeCtr := s.freeCtr }

/-- The emergency register file is lost (R471). -/
def loseEmr (s : State) : State := { s with fc := { s.fc with emr := [], flushed := 0, damages := [], flushDone := false } }

/-! ### The boot source (R398, R419) -/

/-- The two flashes in BOOT_SEL order. -/
def selOrder (s : State) : List Bool := [s.boot.bootSel, !s.boot.bootSel]

/-- Choose a flash. -/
def bootFrom (s : State) (alt trial rolled : Bool) : State :=
  { s with boot := { s.boot with flash := alt, trial := trial, rolledBack := rolled } }

/-- The flash booted by generation, or by BOOT_SEL order among unreadable ones. -/
def byGen (s : State) : Option Bool :=
  let v0 := s.flash0.slot.valid
  let v1 := s.flash1.slot.valid
  let g := fun (r : SlotRec) => if r.present then r.gen.toNat else 0
  if v0 && v1 then
    let a := g s.flash0.slot
    let b := g s.flash1.slot
    some (if follows 16 a b then false else if follows 16 b a then true else s.boot.bootSel)
  else if v0 then some false
  else if v1 then some true
  else s.selOrder.find? (fun k => (s.flashOf k).slot.lost)

/-- The rules of a cold start; the first that applies decides (R398). -/
def chooseSource (s : State) : State :=
  match s.selOrder.find? (fun k => (s.flashOf k).slot.inSt 2) with
  | some k => (s.romSlot k 3 1 (s.flashOf k).slot.gen).bootFrom k true false
  | none =>
    match s.selOrder.find? (fun k => (s.flashOf k).slot.inSt 3) with
    | some k =>
      let r := (s.flashOf k).slot
      if r.tries < 3 then (s.romSlot k 3 (r.tries + 1) r.gen).bootFrom k true false
      else
        let s := s.romSlot k 5 r.tries r.gen
        let o := (s.flashOf (!k)).slot
        if o.valid || o.lost then s.bootFrom (!k) false true
        else { s with boot := { s.boot with noSource := true } }
    | none =>
      match s.byGen with
      | some k => s.bootFrom k false false
      | none => { s with boot := { s.boot with noSource := true } }

/-- What BOOT_REJk shows of a slot record as a start finds it (R447). -/
def showSlot (s : State) (k : Nat) (r : SlotRec) : State :=
  let known := r.present && r.readable
  let s := s.wr (F.bootRejSlotState k) r.view
  let s := s.wr (F.bootRejGen k) (if known then r.gen.toNat else 0)
  s.wr (F.bootRejTries k) (if known then r.tries else 0)

/-- A start (R408, R410): the balls are sampled, the slot records applied. -/
def coldStartFx (s : State) (bootSel testEn lost : Bool) (v0 v1 : SlotView) : State :=
  let s := if lost then s.loseEmr else s
  let s := { s with
    flash0 := slotSeen v0 s.flash0
    flash1 := slotSeen v1 s.flash1 }
  let s := (s.wrB F.bootStatBootSelLvl bootSel).wrB F.bootStatTestEnLvl testEn
  let s := (s.showSlot 0 s.flash0.slot).showSlot 1 s.flash1.slot
  ({ s with boot := { s.boot with st := .pllLocking, bootSel := bootSel, testEn := testEn } } : State).chooseSource

/-- Context word of a boot message (R429). -/
def bootCtx (s : State) (check rest : Nat) : Word :=
  BitVec.ofNat 40 (bit s.boot.flash * 2 ^ 39 + check * 2 ^ 35 + rest)

/-! ### The ROM loader (R425) -/

/-- A grant made at once, in the order asked, before the configuration runs (R201, R353, R425). -/
def grantNow (s : State) (g amount : Nat) : State :=
  if s.thermal.free < amount + s.headroom then s.refuseGrant g
  else ({ s with thermal := { s.thermal with free := s.thermal.free - amount } } : State).govEnd ⟨BitVec.ofNat 8 g, amount, false⟩

/-- The budget and the base reserve of the band in force (R352). -/
def takeBase (s : State) : State :=
  let b := s.baseOf s.thermal.tb.toNat
  ({ s with thermal := { s.thermal with free := s.budget - b } } : State).govEnd ⟨0, b, false⟩

/-- A Guvan port as the ROM loader sets it up. -/
def romPort (s : State) (p : Nat) : State :=
  let s := s.wr (F.gvCfgModeFast p) 0
  let s := s.wr (F.gvCfgModeSlow p) 5
  let s := ((s.wr (F.gvCfgAutoDown p) 1).wr (F.gvCfgRole p) 2).wr (F.gvCfgTxMask p) 1
  let s := (s.wr (F.gvLaunchTb0 p) 8).wr (F.gvLaunchTb1 p) 8
  let s := ((s.wr (F.gvLaunchTb2 p) 8).wr (F.gvLaunchTb3 p) 8).wr (F.gvLaunchTb4 p) 8
  let s := (s.wr (F.gvShapeTap p 0) 256).wr (F.gvCtrlEnable p) 1
  let s := s.grantNow (145 + p) 24
  s.enterDetect p 0

/-- Harbour mode under the ROM loader (R420, R425): its values set, the configuration is locked (R439). -/
def enterRomLoader (s : State) : State :=
  let s := s.report srcBoot 9 1 (s.bootCtx 0 0)
  let s := s.goHarbour .romLoader
  let s := { s with boot := { s.boot with st := .romLoader, romLoader := true }, mgmt := { s.mgmt with core := .running } }
  let s := s.wr F.govCfgBudget 400
  let s := [F.govBase0BaseTb0, F.govBase0BaseTb1, F.govBase0BaseTb2, F.govBase0BaseTb3, F.govBase1BaseTb4].foldl (fun s f => s.wr f 160) s
  let s := (List.range 8).foldl (fun s p => s.romPort p) s.takeBase
  ({ s with boot := { s.boot with locked := true } } : State).wr F.bootTimesLockT s.bootTenths

/-! ### Rejection (R419, R420) -/

/-- The other flash may be tried: its record is VALID or absent; an unreadable one only where the rejected one's was unreadable too, and no readable record applies. -/
def mayTry (s : State) (alt : Bool) : Bool :=
  let o := (s.flashOf (!alt)).slot
  !s.boot.tried.contains (!alt) && (o.valid || (o.lost && (s.flashOf alt).slot.lost))

/-- An image is rejected by a check: recorded and reported, a TRIAL record becomes REJECTED, and the other flash or the ROM loader follows. -/
def rejectImage (s : State) (check kind : Nat) : State :=
  let alt := s.boot.flash
  let k := bit alt
  let s := s.report srcBoot kind 1 (s.bootCtx check 0)
  let s := ((s.wr (F.bootRejRejected k) 1).wr (F.bootRejCheck k) check).wr (F.bootRejKind k) kind
  let r := (s.flashOf alt).slot
  let s := if r.inSt 3 then s.romSlot alt 5 r.tries r.gen else s
  if s.mayTry alt then
    let s := s.report srcBoot 8 1 (s.bootCtx check 0)
    { s with boot := { s.boot with flash := !alt, trial := false, st := .reading, header := [] } }
  else s.enterRomLoader

/-- The header of the flash being tried has been read (R412, R419, R467): that of the image written through the device where the flash holds one, else the one given. In quad and quad-DTR mode the sampling point is found first. -/
def headerFx (s : State) (readOk : Bool) (delays : List (List Byte)) (given : List Byte) : State :=
  let held := (s.flashOf s.boot.flash).image
  let header := if held = [] then given else (imageBytes held).take 4096
  let s := { s with boot := { s.boot with tried := s.boot.tried ++ [s.boot.flash] } }
  let s := (s.wr (F.bootRejTried (bit s.boot.flash)) 1).wr F.bootStatAttempts s.boot.tried.length
  let mode := hNat header 21 1 % 4
  let point := if mode = 0 then none else samplingPoint (header.take 16) delays
  let s := { s with boot := { s.boot with sampling := point } }
  if !readOk ∨ (mode ≠ 0 ∧ point.isNone) then s.rejectImage 1 1
  else match headerCheck header (s.reg 0) s.fuses with
    | some (check, kind) => s.rejectImage check kind
    | none =>
      let s := s.wr F.bootStatQspiMode mode
      { s with boot := { s.boot with st := .loading, header := header } }

/-! ### The load (R421, R422) -/

/-- A load of a register: the fields of the named access types take the image's value. Self-acting bits are not set by a load. A load of TRIM_ACT sets the active codes (R198, R439), and one of CLS_W0 or CLS_W1 writes the entry of the real table that CLS_SEL selects (R9, R388). -/
def loadReg (takes : Acc → Bool) (s : State) (a : Nat) (w : Word) : State :=
  match layout a with
  | none => s
  | some rows =>
    let m := rowMask rows (fun r => r.name && takes r.acc) &&& ~~~ selfActing a
    if a = 264 ∨ a = 265 then
      let sh := s.rdB F.clsSelShadow
      if m = 0 ∨ (sh && !s.factoryTest) then s else s.memWrite .cls (clsBase sh + 2 * s.rd F.clsSelEntry + (a - 264)) (w &&& m)
    else if 398 ≤ a ∧ a < 405 ∧ m ≠ 0 then
      let base := if s.meas.trims.length = 26 then s.meas.trims else List.replicate 26 0
      { s with meas := { s.meas with trims := (List.range 4).foldl (fun l k => setAt' l (4 * (a - 398) + k) (bitsOf w (39 - 10 * k) (30 - 10 * k))) base } }
    else s.setReg a ((s.reg a &&& ~~~ m) ||| (w &&& m))

/-- Fields an image's sections load. -/
def loads : Acc → Bool
  | .rw | .rwl | .live => true
  | _ => false
/-- Fields REGINIT loads (R415). -/
def regInits : Acc → Bool
  | .rw | .rwl => true
  | _ => false

/-- The registers of a band path that its plan entry fills (R417, R439), and its commissioned reference floor (R114). FLOOR stands in the plan as in BP_BW_CTRL, a right-aligned u7.4: its chapter gives that format there and none in R67 (DEDUCED, assumption 72). -/
def loadPath (s : State) (n : Nat) : State :=
  let s := s.wr (F.bpNcoFreq n) (s.planN n plFreq)
  let s := [1, 2, 3, 4, 5, 6].foldl (fun s k => s.wr (hbFld n k) (s.planN n (plHb + k - 1))) s
  let s := (s.wr (F.bpPathCf n) (s.planN n plCf)).wr (F.bpRsmpStepStep n) (s.planN n plStep)
  -- bits [3:0] of a destination are reserved (R10)
  let d := fun k => if s.planHas n (plDest + k) then s.planN n (plDest + k) / 16 * 16 else 0
  let s := ((s.wr (F.bpEgressDest0 n) (d 0)).wr (F.bpEgressDest1 n) (d 1)).wr (F.bpEgressDest2 n) (d 2)
  let s := (s.wr (F.bpEgressDest3 n) (d 3)).wr (F.bpBwCtrlFloor n) (s.planN n plFloor)
  let s := s.wr (F.bpGainGainSet n) (s.planN n plGainSet)
  let b := s.bp n
  let hasNr := s.planHas n plNrRef
  s.setBp n { b with bw := { b.bw with floorUse := BitVec.ofNat 11 (s.rd (F.bpBwCtrlFloor n)) },
                     gain := { b.gain with nrRef := if hasNr then s.planDb n plNrRef else 0, nrValid := hasNr } }

/-- A list of words at their addresses. -/
def loadWords (k : MemSel) (base : Nat) (l : List (Nat × Word)) (s : State) : State := l.foldl (fun s p => s.memWrite k (base + p.1) p.2) s

/-- The memories an image fills. -/
def loadMems (s : State) : State :=
  let g := s.img
  let s := s.memWrites .mgmt 0 (sectWords g.bytes 1)
  let s := g.engines.foldl (fun s e =>
    (s |> loadWords .imem (8192 * e.eng.toNat) e.imem |> loadWords .dmem (16384 * e.eng.toNat) e.dmem)) s
  let s := g.quays.foldl (fun s q => loadWords .quay (262144 * q.quay.toNat) q.mem s) s
  let s := loadWords .scan 0 g.scan (s.memWrites .seq 0 g.feSeq)
  let s := ((List.range g.almanac.length).zip g.almanac).foldl (fun s p =>
    s.memWrites .almanac (32 * p.1) (p.2.map (BitVec.ofNat 40))) s
  let s := s.planned.foldl (fun s n => (List.range 4).foldl (fun s m =>
    if s.planHas n (plRef + m) then s.memWrites .refs (1024 * n + 256 * m) (s.planPool n (plRef + m)) else s) s) s
  let s := s.planned.foldl (fun s n =>
    (if s.planHas n plShapeResp then s.memWrites .mask (8192 * n + 4096) (s.planPool n plShapeResp) else s) |>
      fun s => if s.planHas n plMaskSeg then s.memWrites .mask (8192 * n) (s.planPool n plMaskSeg) else s) s
  let s := g.routes.foldl (fun s p => s.memWrite .routes p.1 (p.2.zeroExtend 40)) s
  (s.memWrites .cls (clsBase false) g.classify).memWrites .cls (clsBase true) g.classify

/-- What sections give outside registers and memories: address, calibration words, loop modes. An image whose address record is 0.0.0 or 255.63.15 gives no address: neither is ever assigned (R13). -/
def loadRest (s : State) : State :=
  let g := s.img
  let s := match g.hasAddress.filter (fun a => a != 0 && a.toNat != allAddr) with | some a => ((s.wr F.devAddrValid 1).wr F.devAddrFromImage 1).wr F.devAddrAddr a.toNat | none => s
  let s := g.mcs.foldl (fun s c => s.setReg (F.mcCalOffset c.mc.toNat).addr (c.offset0 ++ c.gain0)) s
  let s := s.planned.foldl (fun s n => s.loadPath n) s
  let s := g.loops.foldl (fun s l => s.loopModeFx l.slot.toNat l.mode0.toNat) s
  s.bandSettings s.thermal.tb.toNat

/-- The band paths the flash names as barred under this image enter BARRED; another image's entries are cleared (R141). A barred donor is lost at once (R131). -/
def loadBarred (s : State) : State :=
  let f := s.flashOf s.boot.flash
  let l := f.barred.filter (fun p => p.2 == s.img.digest)
  let s := if l = f.barred then s else s.flashPut s.boot.flash (fun f => { f with barred := l })
  l.foldl (fun s p => (s.watchers p.1.toNat).foldl (fun s w => s.donorLost w) (s.setSt p.1.toNat .barred)) s

/-- Causes held from the levels of the balls as the configuration takes hold (R128, R137, R165). -/
def loadHeld (s : State) : State :=
  let s := if s.pins.muteN then s
    else (s.planned.filter (fun n => s.planN n plMuteNBind == 1)).foldl (fun s n => s.setHeld n (fun h => { h with muteN := true })) s
  -- the inputs of a port stand at the low level of their pull-downs until a partner moves them (R459)
  let s := (List.range 4).foldl (fun s k =>
    let c := s.cxPort k
    match s.rd (F.cxCtrlRole k) with
    | 1 => s.setCx k { c with gnt := s.rdB (F.cxCtrlGntInv k) }
    | 2 => (s.setCx k { c with req := s.rdB (F.cxCtrlReqInv k), pri := s.rdB (F.cxCtrlPriInv k) }).cxJudge k
    | _ => s) s
  (List.range 4).foldl (fun s k =>
    if s.rd (F.cxCtrlRole k) = 1 ∧ !(s.cxPort k).gnt then s.cxCause k
    else if s.rd (F.cxCtrlRole k) = 2 ∧ (s.cxPort k).gnt then s.cxCause k else s) s

/-- A quay that the image enables asks for its clock (R201). -/
def loadQuay (s : State) (q : Nat) : State :=
  if s.rdB (F.quayCtrlClkEn q) then
    let s := s.grantNow (129 + q) 16
    if s.credits (129 + q) = 0 then s else s.quayClocked q
  else s

/-! ### Bring-up (R423) -/

/-- The field of BOOT_STEPS of a step. -/
def stepFld (k : Nat) : Fld :=
  match k with
  | 0 => F.bootStepsJesd
  | 1 => F.bootStepsFe
  | 2 => F.bootStepsGuvan
  | _ => F.bootStepsSoft

/-- The chains the image configures; those brought up at start; the ports and the band paths it enables. -/
def stepUnits (s : State) (k : Nat) : List Nat :=
  match k with
  | 0 => (List.range 16).filter (fun c => (s.chainCfg c).configured)
  | 1 => (List.range 16).filter (fun c => s.rdB (F.chFeCfgFeAuto c))
  | 2 => (List.range 8).filter (fun p => s.rdB (F.gvCtrlEnable p))
  | _ => s.planned.filter (fun n => s.planN n plAutostart == 1)

/-- A step starts: its action on every unit. -/
def stepStart (s : State) (k : Nat) : State :=
  let s := s.wr (stepFld k) 1
  let s := { s with boot := { s.boot with step := some (BitVec.ofNat 2 k), stepAt := s.cyc } }
  let l := s.stepUnits k
  match k with
  | 0 => l.foldl (fun s c => let ch := s.chain c; s.setChain c { ch with jtxRunning := true }) s
  | 1 => l.foldl (fun s c => s.feCommand c 1 0) { s with boot := { s.boot with feAwait := l } }
  | 2 => l.foldl (fun s p => s.gvEnableFx p) s
  | _ => l.foldl (fun s n => s.enableFx n) s

/-- A unit is up, or is not waited for any longer: a chain in FE_FAULT, a band path whose grant was refused. -/
def unitUp (s : State) (k u : Nat) : Bool :=
  match k with
  | 0 => (s.chain u).jrxLock && (s.chain u).jtxRunning
  | 1 =>
    let c := s.chain u
    c.st == .receive || c.st == .transmit || c.joined || c.st == .feFault
  | 2 => s.portUp u
  | _ => (s.bp u).prot.st != .off || (s.bp u).prot.offReason != 0

/-- The next step, or none after the soft start. -/
def stepNext (s : State) (k : Nat) : State :=
  if k < 3 then s.stepStart (k + 1)
  else { s with boot := { s.boot with step := none, softEnd := if s.boot.harbour then none else some s.cyc } }

/-- A step ends because its units are up. The lanes of the JESD step are up by the event itself. -/
def stepEnd (s : State) (k : Nat) : State :=
  let s := if k = 0 then (s.stepUnits 0).foldl (fun s c => let ch := s.chain c; s.setChain c { ch with jrxLock := true, shLock := true }) s else s
  if (s.stepUnits k).all (s.unitUp k) then (s.wr (stepFld k) 2).stepNext k else s

/-- The units of a step that are not up, as BOOT_STEP and NOT_UP carry them. -/
def notUp (s : State) (k : Nat) : BitVec 32 :=
  let mask := fun (p : Nat → Bool) => ((s.stepUnits k).filter (fun u => !p u)).foldl (fun m u => m + 2 ^ u) 0
  match k with
  | 0 => Config.jesdMask (BitVec.ofNat 16 (mask (fun c => (s.chain c).jrxLock))) (BitVec.ofNat 16 (mask (fun c => (s.chain c).jtxRunning)))
  | _ => BitVec.ofNat 32 (mask (s.unitUp k))

/-- The bound of a step, in cycles: Fraune's of the FE step is not in the image, and the soft start has none. -/
def stepBound (k : Nat) : Nat :=
  match k with
  | 0 => 20 * msCyc
  | 2 => 300 * msCyc
  | _ => 0

/-- A step ends at its bound. -/
def stepAtBound (s : State) (k : Nat) : State :=
  let m := s.notUp k
  let s := (s.wr (stepFld k) 3).wr F.bootStepsNotUp m.toNat
  let s := s.report srcBoot 13 0 (s.bootCtx 0 (k * 2 ^ 32 + m.toNat))
  s.stepNext k

/-! ### Acceptance (R421, R422) -/

/-- The registers of the boot block at the lock (R447). -/
def showLock (s : State) : State :=
  let s := (s.wr F.bootStatAccepted 1).wrB F.bootStatBootedFlash s.boot.flash
  let s := s.wr (F.bootStampStamp 0) (s.img.stamp.toNat / 2 ^ 32)
  let s := s.wr (F.bootStampStamp 1) (s.img.stamp.toNat % 2 ^ 32)
  s.wr F.bootTimesLockT s.bootTenths

/-- An image that passed every check is loaded, the configuration is locked, and the bring-up starts. -/
def acceptImage (s : State) (g : Image) : State :=
  let s := { s with img := g, boot := { s.boot with image := true } }
  let s := g.regs.foldl (fun s p => loadReg loads s p.1 p.2) s
  let s := s.loadMems.loadRest
  let s := g.regInit.foldl (fun s p => loadReg regInits s p.1 p.2) s
  let s := s.loadBarred.loadHeld
  let s := if 880 < s.rd F.govCfgBudget then s.note srcTherm (s.thermCtx 0 0) else s
  let s := s.takeBase
  let s := (List.range 16).foldl (fun s q => s.loadQuay q) s
  let s := { s with rpl := { s.rpl with st := if s.rd F.rplCfgSetN = 0 then .off else .recording } }
  let s := { s with boot := { s.boot with st := .running, locked := true }, mgmt := { s.mgmt with core := .starting } }
  let s := s.showLock
  let s := g.engines.foldl (fun s e => s.freshTasks e.eng.toNat) s
  s.stepStart 0

/-- The image of a stream (R421): its bytes are the header read before it and those that follow, or the bytes written through the device where the flash holds them; the sections whose words the manual lays out are those words of it, and the other sections say what the stream's records give. -/
def streamed (s : State) (g : Image) : Image :=
  let held := (s.flashOf s.boot.flash).image
  let b := imageBytes (if held = [] then s.boot.header ++ g.bytes.drop 4096 else held)
  let w := sectWords b 15
  { g with bytes := b, plan := sectWords b 4, limits := sectWords b 8,
           regInit := (List.range (w.length / 2)).map (fun i => (bitsOf (atD w (2 * i) 0) 23 0, atD w (2 * i + 1) 0)) }

/-- The stream of an image is complete: checks 7 to 9 on its bytes decide (R419, R421). -/
def loadedFx (s : State) (readOk : Bool) (g : Image) : State :=
  let g := s.streamed g
  if !readOk then s.rejectImage 1 1
  else match bodyCheck g.bytes (s.reg 0) s.fuses with
    | some (check, kind) => s.rejectImage check kind
    | none => s.acceptImage g

/-- The clearing of the memories is complete (R411, R429). -/
def clearedFx (s : State) : State :=
  let s := { s with mem := Mem.cleared, fc := { s.fc with logReady := true }, boot := { s.boot with st := .reading } }
  let s := if s.fuses.limFused then s else s.report srcBoot 10 0 (s.bootCtx 0 0)
  let s := if s.fuses.keyFused then s else s.report srcBoot 11 0 (s.bootCtx 0 0)
  if s.boot.noSource then s.enterRomLoader else s

/-- The PLL locks: the dividers are released with CYC at 0, and the collector, the scrubber, the time base and the boot scan run (R317, R411). -/
def pllLocked (s : State) (us : Nat) : State :=
  let s := { s with cyc := 0, uptime := 0, time := TimeBase.init, pins := { s.pins with noLock := false } }
  let s := { s with boot := { s.boot with st := .clearing, lockUs := us } }
  let s := ((s.wr F.clkStatPllLock 1).wr F.clkStatRefOk 1).wr F.clkStatLockUs us
  if s.boot.rolledBack then s.report srcMgmt 7 1 (Config.msgContext srcMgmt 7 0) else s

end State

/-! ### Meanings -/

/-- COLD_START (R408 to R410, R398): from reset, unless the C4 latch holds. -/
def execColdStart (bootSel testEn vddIoLost : Bool) (primary alternate : SlotView) (s : State) : Out :=
  if s.boot.st = .inReset ∧ !s.fc.c4 then .next (s.coldStartFx bootSel testEn vddIoLost primary alternate) else .next s
/-- PWR_GOOD_FALL (R409): the device enters reset; a C4 latch stays. -/
def execPwrGoodFall (s : State) : Out :=
  let r := s.resetState
  .next (if s.fc.c4 then { r with fc := { r.fc with c4 := true }, mgmt := { r.mgmt with core := .halted } } else r)
/-- PLL_LOCK (R317, R411). -/
def execPllLock (locked : Bool) (lockUs : BitVec 16) (s : State) : Out :=
  if s.boot.st = .pllLocking then
    .next (if locked then s.pllLocked lockUs.toNat else { s with pins := { s.pins with noLock := true } })
  else .next s
/-- SRAM_CLEAR_DONE (R411). -/
def execSramClearDone (s : State) : Out := .next (if s.boot.st = .clearing ∧ !s.fc.c4 then s.clearedFx else s)
/-- IMAGE_HEADER_READ (R419, R467): of the flash being tried. -/
def execImageHeaderRead (flash readOk : Bool) (delays : List (List Byte)) (header : List Byte) (s : State) : Out :=
  .next (if s.boot.st = .reading ∧ flash = s.boot.flash ∧ !s.fc.c4 then s.headerFx readOk delays header else s)
/-- IMAGE_LOADED (R421, R422). -/
def execImageLoaded (flash readOk : Bool) (img : Image) (s : State) : Out :=
  .next (if s.boot.st = .loading ∧ flash = s.boot.flash ∧ !s.fc.c4 then s.loadedFx readOk img else s)
/-- BRINGUP_STEP_END (R423). -/
def execBringupStepEnd (step : BitVec 2) (s : State) : Out :=
  .next (if s.boot.step = some step ∧ !s.fc.c4 then s.stepEnd step.toNat else s)
/-- BRINGUP_STEP_BOUND (R423). -/
def execBringupStepBound (step : BitVec 2) (s : State) : Out :=
  .next (if s.boot.step = some step ∧ step ≠ 3 ∧ s.boot.stepAt + State.stepBound step.toNat ≤ s.cyc ∧ !s.fc.c4 then s.stepAtBound step.toNat
    else s)
/-- ROM_LOADER_RESET (R426): a restart from RESET_N, which the C4 latch ignores. -/
def execRomLoaderReset (s : State) : Out :=
  match s.mgmt.resetAt with
  | some t => .next (if s.boot.romLoader ∧ t ≤ s.cyc ∧ !s.fc.c4 then s.resetState else s)
  | none => .next s
/-- TRIAL_CONFIRM (R398): 60 s past the soft-start step without harbour mode. -/
def execTrialConfirm (s : State) : Out :=
  match s.boot.softEnd with
  | some t =>
    let r := s.ownSlot
    .next (if r.inSt 3 ∧ t + 60 * secCyc ≤ s.cyc ∧ !s.boot.harbour ∧ !s.fc.c4 then s.setSlot s.boot.flash 4 r.tries r.gen else s)
  | none => .next s
/-- VDD_CORE_POWER_CYCLE (R372, R455): the C4 latch is cleared, the emergency register file kept. -/
def execVddCorePowerCycle (s : State) : Out := .next s.resetState
/-- RESET_N_FALL (R408, R372): ignored while the C4 latch holds. -/
def execResetNFall (s : State) : Out := .next (if s.fc.c4 then s else s.resetState)
/-- VDD_IO_LOSS (R385, R471): while VDD_CORE is off; the next start is as from power-up. -/
def execVddIoLoss (s : State) : Out :=
  if s.boot.st = .inReset then .next { (s.resetState).loseEmr with pins := { Pins.init with muteN := s.pins.muteN } } else .next s

end Sys2Proof.Machine
end

