-- ==== Sys2Proof/Machine/Balls.lean ====
section
/-! DEFINITION. The balls as the state drives them (R153, R164, R189, R334, R350, R373, R426, R459, R460), the boundary register over them and the data registers of the test access port (R469, R470). -/

namespace Sys2Proof.Machine

/-- What a ball shows: a driven level, an open-drain ball let go, a ball that is an input or at high impedance, or one that carries a transfer whose bits have no place in the state. -/
inductive Ball where
  | low | high | released | input | busy
  deriving DecidableEq, Repr

/-- A driven level. -/
def Ball.of (b : Bool) : Ball := if b then .high else .low

namespace State

/-- The I/O ring holds its reset states: in reset, and before the configuration lock for the balls the image configures (R460). -/
def ringHeld (s : State) : Bool := !s.alive || !s.boot.locked

/-- PAn_EN (R153, R460). -/
def ballPaEn (s : State) (c : Nat) : Ball := .of (!s.ringHeld && s.paEn c)
/-- PAn_DRV in 2.5 V / 16 384 (R189, R460). -/
def ballPaDrv (s : State) (c : Nat) : Nat := if s.ringHeld then 0 else s.paCode c
/-- The JTX pairs of a chain: idle while held, where egress is off and where the chain's transmitter does not run (R19, R56, R460); else they carry the stream. -/
def jtxIdle (s : State) (c : Nat) : Bool := s.ringHeld || s.rfOff || !(s.chain c).jtxRunning
/-- The pair of a Guvan port: idle while held and in DISABLED (R296, R460). -/
def gvIdle (s : State) (p : Nat) : Bool := !s.alive || (s.port p).st == .disabled
/-- FEn_CS_N: low from the fall at a transfer's start for b + 2 SCLK cycles (R146, R460). -/
def ballFeCs (s : State) (c : Nat) : Ball := .of (s.ringHeld || !s.inTransfer c)
/-- FE_SCLKk: low at the CLK_S counts that are even and high at those that are odd, while a port of its group has CS_N low (R145, R460). -/
def ballFeSclk (s : State) (k : Nat) : Ball :=
  .of (!s.ringHeld && (List.range 4).any (fun i => s.inTransfer (4 * k + i)) && s.cyc / 8 % 2 == 1)
/-- FEn_SDIO: each bit from the falling edge of SCLK that launches it, the first one SCLK cycle after CS_N falls; let go for the turnaround and the data of a read (R146, R459, R460). -/
def ballFeSdio (s : State) (c : Nat) : Ball :=
  if s.ringHeld || !s.inTransfer c then .input
  else match (s.chain c).xfer with
    | some x =>
      match x.bits[(s.cyc - x.start) / 16 - 1]? with
      | some b => if x.start + 16 ≤ s.cyc then .of b else .input
      | none => .input
    | none => .input
/-- The boot ROM or the management core reads a flash through its QSPI port (R412, R460). -/
def qspiReads (s : State) (alt : Bool) : Bool :=
  s.boot.flash == alt && match s.boot.st with | .reading | .loading => true | _ => false
/-- QSPIn_CS_N: high in reset and at rest, low through a transfer (R412, R460). Between two commands of the bus only the boot ROM's reads are under way. -/
def ballQspiCs (s : State) (alt : Bool) : Ball := .of (!s.qspiReads alt)
/-- QSPIn_CLK: low in reset and at rest (R460). -/
def ballQspiClk (s : State) (alt : Bool) : Ball := if s.qspiReads alt then .busy else .low
/-- QSPIn_IO: inputs with their pulls in reset and at rest (R460). -/
def ballQspiIo (s : State) (alt : Bool) : Ball := if s.qspiReads alt then .busy else .input
/-- UART_TX: high in reset and between frames (R460, R468); each frame leaves whole with the command that sends it. -/
def ballUartTx (_s : State) : Ball := .high
/-- TDO: at high impedance outside the Shift-DR and Shift-IR states, in which no command of the bus leaves it (R460). -/
def ballTdo (_s : State) : Ball := .input
/-- RESET_N: the open-drain driver of the ROM loader pulls it low once its time has come (R426, R459). -/
def ballResetN (s : State) : Ball :=
  match s.mgmt.resetAt with
  | some t => if s.boot.romLoader && decide (t ≤ s.cyc) then .low else .released
  | none => .released
/-- ALARM_N, open drain (R373, R411, R459). -/
def ballAlarm (s : State) : Ball := if s.alarmLow then .low else .released
/-- THERM_N, open drain (R350, R459, R460). -/
def ballTherm (s : State) : Ball := if s.alive && s.thermal.thermN then .low else .released
/-- PPS_OUT (R334, R460). -/
def ballPpsOut (s : State) : Ball := .of (!s.ringHeld && s.time.ppsOut)
/-- CXn_REQ: driven by a requester and by an unused port, an input of a grantor and while held (R164, R460). -/
def ballCxReq (s : State) (k : Nat) : Ball :=
  if s.ringHeld ∨ s.rd (F.cxCtrlRole k) = 2 then .input
  else .of (xor (s.rd (F.cxCtrlRole k) == 1 && (s.cxPort k).req) (s.rdB (F.cxCtrlReqInv k)))
/-- CXn_GNT: driven by a grantor and by an unused port, an input of a requester and while held (R164, R460). -/
def ballCxGnt (s : State) (k : Nat) : Ball :=
  if s.ringHeld ∨ s.rd (F.cxCtrlRole k) = 1 then .input
  else .of (xor (s.rd (F.cxCtrlRole k) == 2 && (s.cxPort k).gnt) (s.rdB (F.cxCtrlGntInv k)))
/-- CXn_PRI: driven by a requester, an input of a grantor, of an unused port and while held (R164, R460). -/
def ballCxPri (s : State) (k : Nat) : Ball :=
  if s.ringHeld ∨ s.rd (F.cxCtrlRole k) ≠ 1 then .input
  else .of (xor (s.cxPort k).pri (s.rdB (F.cxCtrlPriInv k)))
end State

/-! ### The boundary register (R470) -/

/-- The 1.8 V digital balls, which the boundary register covers (R450, R458, R470). -/
inductive Pad where
  | paEn (c : Nat) | feCs (c : Nat) | feSclk (k : Nat) | feSdio (c : Nat)
  | cxReq (k : Nat) | cxGnt (k : Nat) | cxPri (k : Nat)
  | ppsOut | ppsIn | resetN | pwrGood | alarmN | thermN | muteN | bootSel | testEn | trig (k : Nat)
  | uartTx | uartRx | qspiCs (alt : Bool) | qspiClk (alt : Bool) | qspiIo (alt : Bool) (k : Nat)
  | trstN | tck | tms | tdi | tdo
  deriving DecidableEq, Repr

/-- The cells in order. The manual gives them none; the model takes the balls by their interfaces (DESIGN CHOICE, assumption 76). -/
def pads : List Pad :=
  (List.range 16).map .paEn ++ (List.range 16).map .feCs ++ (List.range 4).map .feSclk ++ (List.range 16).map .feSdio ++
  (List.range 4).map .cxReq ++ (List.range 4).map .cxGnt ++ (List.range 4).map .cxPri ++
  [.ppsOut, .ppsIn, .resetN, .pwrGood, .alarmN, .thermN, .muteN, .bootSel, .testEn] ++ (List.range 4).map .trig ++
  [.uartTx, .uartRx] ++ [.qspiCs false, .qspiClk false] ++ (List.range 4).map (.qspiIo false) ++
  [.qspiCs true, .qspiClk true] ++ (List.range 4).map (.qspiIo true) ++ [.trstN, .tck, .tms, .tdi, .tdo]

/-- A ball that can be an output. -/
def Pad.drives : Pad → Bool
  | .ppsIn | .pwrGood | .muteN | .bootSel | .testEn | .trig _ | .uartRx | .trstN | .tck | .tms | .tdi => false
  | _ => true
/-- A ball that is always driven while it is not at high impedance: no open drain, no input. -/
def Pad.pushPull : Pad → Bool
  | .paEn _ | .feCs _ | .feSclk _ | .ppsOut | .uartTx | .qspiCs _ | .qspiClk _ => true
  | _ => false
/-- The open-drain balls (R459). -/
def Pad.openDrain : Pad → Bool
  | .resetN | .alarmN | .thermN => true
  | _ => false

/-- The weak pull of a ball while it is an input (R459): the level of an unconnected one, if it has a pull. -/
def Pad.pull : Pad → Option Bool
  | .bootSel | .testEn | .muteN | .trstN | .trig _ | .ppsIn | .cxReq _ | .cxGnt _ | .cxPri _ | .feSdio _ => some false
  | .tms | .tdi | .uartRx => some true
  | .qspiIo _ k => if 2 ≤ k then some true else none
  | _ => none

namespace State

/-- What the device itself makes of a ball. -/
def coreBall (s : State) : Pad → Ball
  | .paEn c => s.ballPaEn c
  | .feCs c => s.ballFeCs c
  | .feSclk k => s.ballFeSclk k
  | .feSdio c => s.ballFeSdio c
  | .cxReq k => s.ballCxReq k
  | .cxGnt k => s.ballCxGnt k
  | .cxPri k => s.ballCxPri k
  | .ppsOut => s.ballPpsOut
  | .resetN => s.ballResetN
  | .alarmN => s.ballAlarm
  | .thermN => s.ballTherm
  | .uartTx => s.ballUartTx
  | .qspiCs k => s.ballQspiCs k
  | .qspiClk k => s.ballQspiClk k
  | .qspiIo k _ => s.ballQspiIo k
  | .tdo => s.ballTdo
  | _ => .input

/-- Bit `i` of the update latches of the boundary register: cell k has its level at 2k and its output enable at 2k + 1. -/
def bndBit (s : State) (i : Nat) : Bool := (atD s.pins.bndOut (i / 40) 0).getLsbD (i % 40)

/-- The ball of the i-th cell as the boundary register drives it: a push-pull output at its level, an open-drain one low or let go, the others by their enable; an input ball as ever. -/
def cellBall (s : State) (i : Nat) (p : Pad) : Ball :=
  let level := s.bndBit (2 * i)
  if p.pushPull then .of level
  else if p.openDrain then (if level then .released else .low)
  else if p.drives && s.bndBit (2 * i + 1) then .of level
  else .input

/-- A ball as the board sees it (R470): EXTEST and CLAMP drive the outputs from the boundary register, HIGHZ lets every one go, and PAn_EN is low under all three; TDO stays with the test access port. -/
def ball (s : State) (p : Pad) : Ball :=
  let own := match p with | .tdo => true | _ => false
  match s.pins.jtag, p with
  | .extest, .paEn _ | .clamp, .paEn _ | .highz, .paEn _ => .low
  | .extest, _ | .clamp, _ => if own then s.coreBall p else s.cellBall (pads.findIdx (· == p)) p
  | .highz, _ => if own then s.coreBall p else .input
  | _, _ => s.coreBall p

/-- The level a cell captures where the state holds it: a driven level, or that of an input whose level some command gave. -/
def padLevel (s : State) (p : Pad) : Option Bool :=
  match s.ball p with
  | .low => some false
  | .high => some true
  | _ =>
    match p with
    | .muteN => some s.pins.muteN
    | .bootSel => some s.boot.bootSel
    | .testEn => some s.boot.testEn
    | .resetN | .pwrGood => if s.alive then some true else none
    | .cxReq k => if s.rd (F.cxCtrlRole k) = 2 then some (xor (s.cxPort k).req (s.rdB (F.cxCtrlReqInv k))) else none
    | .cxPri k => if s.rd (F.cxCtrlRole k) = 2 then some (xor (s.cxPort k).pri (s.rdB (F.cxCtrlPriInv k))) else none
    | .cxGnt k => if s.rd (F.cxCtrlRole k) = 1 then some (xor (s.cxPort k).gnt (s.rdB (F.cxCtrlGntInv k))) else none
    | _ => none

/-- The boundary register captures the balls (R469, R470); a level that the state does not hold is an open value. -/
def bndCapture (s : State) : State :=
  let r := pads.foldl (fun (r : List Bool × State) p =>
    match r.2.padLevel p with
    | some b => (r.1 ++ [b], r.2)
    | none => let x := r.2.free; (r.1 ++ [x.1.getLsbD 0], x.2)) ([], s)
  { r.2 with pins := { r.2.pins with bndDr := r.1 } }

/-- The update latches take what the tester has shifted in, which no command of the bus carries: open values. -/
def bndUpdate (s : State) : State :=
  let r := (List.range 5).foldl (fun (r : List Word × State) _ => let x := r.2.free; (r.1 ++ [x.1], x.2)) ([], s)
  { r.2 with pins := { r.2.pins with bndOut := r.1 } }

/-- The data registers of the test access port, by the instruction in force (R469): the length and the word a capture gives. -/
def jtagCapture (s : State) : Nat × Nat :=
  match s.pins.jtag with
  | .idcode => (32, 0x2564009F)
  | .regAccess => (66, s.pins.regDr.toNat)
  | .emrRead => (204, s.pins.emrDr.toNat)
  | .limBurn | .keyBurn | .lockBurn => (1, bit s.pins.burnDr)
  | .samplePreload | .extest => (pads.length, (s.pins.bndDr.zip (List.range pads.length)).foldl (fun t x => t + bit x.1 * 2 ^ x.2) 0)
  | .bypass | .clamp | .highz => (1, 0)

end State

end Sys2Proof.Machine
end

