-- ==== Sys2Proof/Machine/Debug.lean ====
section
/-! DEFINITION. The debug port: the UART (R468), the test access port (R469, R470) and the fuses it burns (R427). -/

namespace Sys2Proof.Machine

/-! ### The UART (R468) -/

/-- The bytes between two 0x7E, with escapes undone; nothing for a malformed frame. -/
def unescape : List Byte → Option (List Byte)
  | [] => some []
  | [b] => if b = 0x7E ∨ b = 0x7D then none else some [b]
  | b :: c :: t =>
    if b = 0x7E then none
    else if b = 0x7D then (if c = 0x7E ∨ c = 0x7D then none else (unescape t).map (fun l => (c ^^^ 0x20) :: l))
    else (unescape (c :: t)).map (fun l => b :: l)

/-- The message of a frame. -/
def uartMsg (frame : List Byte) : Option (List Byte) :=
  match frame with
  | [] => none
  | b :: t => if b = 0x7E ∧ t.getLast? = some 0x7E then unescape t.dropLast else none

namespace State

/-- Messages of the debug port at the core that are not answered yet. -/
def debugWaiting (s : State) : Nat := (s.mgmt.toCore.filter (fun m => m.port.isNone)).length

/-- A whole message from the UART: at most one waits while another is carried out. A PORT_DIRECTED one sends its inner message on the port it names (R303). -/
def uartTake (s : State) (b : List Byte) : State :=
  let dst := msgDst b
  if !msgOk b ∨ !(dst = 0 ∨ (s.addressed ∧ dst = s.ownAddr)) ∨ !s.coreAnswers then s
  else if msgClass b = 3 then s.portDirected (msgNat (msgPayload b) 0 1 % 8) ⟨b, none, 0⟩
  else if 2 ≤ s.debugWaiting then s
  else s.coreTakes ⟨b, none, 0⟩

/-! ### The test access port (R469, R470) -/

/-- The instruction of a code; every code not listed acts as BYPASS (R469). -/
def irOf (code : Byte) : JtagIr :=
  match code.toNat with
  | 0x01 => .idcode
  | 0x02 => .samplePreload
  | 0x03 => .extest
  | 0x04 => .clamp
  | 0x05 => .highz
  | 0x20 => .regAccess
  | 0x21 => .emrRead
  | 0x30 => .limBurn
  | 0x31 => .keyBurn
  | 0x32 => .lockBurn
  | _ => .bypass

/-- An instruction becomes the one in force; the instruction register captured the standard value before it. -/
def setIr (s : State) (i : JtagIr) : State := { s with pins := { s.pins with jtag := i, irCapture := 1 } }

/-- EXTEST, CLAMP and HIGHZ take effect only in harbour mode or under the ROM loader with no chain in TRANSMIT; otherwise they act as BYPASS and say so in the instruction capture. -/
def boundaryOk (s : State) : Bool :=
  (s.boot.harbour || s.boot.romLoader) && !(tblKeys s.chains).any (fun c => (s.chain c).st == .transmit)

/-- One of the three boundary instructions. -/
def boundaryIr (s : State) (i : JtagIr) : State :=
  if s.boundaryOk then
    let s := s.setIr i
    { s with pins := { s.pins with boundary := true } }
  else { s with pins := { s.pins with jtag := .bypass, irCapture := 5 } }

/-- The data register REG_ACCESS captures after an access: done, refused, address, data. -/
def regDrOf (refused : Bool) (a : BitVec 24) (d : Word) : BitVec 66 := (1#1 ++ BitVec.ofBool refused) ++ (a ++ d)

/-- An access of the debug-port requester at Update-DR (R433, R469): writes are refused while the C4 latch holds, reads are served. What is captured as data after a write is an open value. -/
def regAccessFx (s : State) (go write : Bool) (a : BitVec 24) (w : Word) : State :=
  let s := s.setIr (irOf 0x20)
  if !go then s
  else if write then
    let (r, s) := s.reqWrite 9 a.toNat w
    let (x, s) := s.free
    { s with pins := { s.pins with regDr := regDrOf (r != .ok) a x } }
  else if s.alive then
    let (r, d, s) := s.fabricRead 9 a.toNat
    let s := if r = .ok then s.setRead 9 [d] else s
    { s with pins := { s.pins with regDr := regDrOf (r != .ok) a d } }
  else { s with pins := { s.pins with regDr := regDrOf true a 0 } }

/-- EMR_READ: the five words of the entry named, for the next capture (R385, R469). -/
def emrReadFx (s : State) (k : BitVec 4) : State :=
  let s := s.setIr (irOf 0x21)
  let ws := match s.fc.emr[k.toNat]? with | some r => r.words | none => [0, 0, 0, 0, 0]
  let d := (atD ws 0 0 ++ atD ws 1 0) ++ (atD ws 2 0 ++ atD ws 3 0) ++ (atD ws 4 0 ++ k)
  { s with pins := { s.pins with emrDr := d.setWidth 204 } }

/-! ### Fuses (R427, R470) -/

/-- The conditions of a burn at its update-IR. -/
def burnOk (s : State) (vddIoOk unburned : Bool) : Bool :=
  s.boot.image && s.boot.locked && !s.boot.harbour && unburned && vddIoOk &&
    decide (0 ≤ s.thermal.tjHot) && decide (s.thermal.tjHot ≤ 85 * degC)

/-- A burn instruction: accepted it waits its turn, refused it reads 0 and burns nothing. -/
def burnIr (s : State) (i : JtagIr) (group : BitVec 2) (ok : Bool) : State :=
  let s := s.setIr i
  let s := { s with pins := { s.pins with burnDr := ok } }
  if ok then { s with burn := s.burn ++ [⟨group, s.cyc + 50 * msCyc⟩] } else s

/-- A group burned from the running image, in force from the next start. -/
def commitBurn (s : State) (group : BitVec 2) : Fuses :=
  let f := s.burned
  match group with
  | 1 => { f with limHash := limHash (sectBytes s.img.bytes 8), limRegion := BitVec.ofNat 16 (bitsOf (s.limWord 0) 39 24), limFused := true }
  | 2 => { f with keyHash := s.img.signerHash, keyFused := true }
  | 3 => { f with factoryLock := true }
  | _ => f

/-- A burn ends: its commit bit follows a good readback only. -/
def burnEnds (s : State) (verified : Bool) : State :=
  match s.burn with
  | [] => s
  | b :: t =>
    let s := { s with burn := t, burned := if verified then s.commitBurn b.group else s.burned }
    let s := (s.wr F.fuseStatBurnGroup b.group.toNat).wrB F.fuseStatBurnOk verified
    s.report srcBoot 12 0 (s.bootCtx 0 (b.group.toNat + 4 * bit verified))

end State

/-! ### Meanings -/

/-- UART_FRAME_RECEIVE (R468). -/
def execUartFrameReceive (frame : List Byte) (s : State) : Out :=
  match uartMsg frame with
  | some b => .next (s.uartTake b)
  | none => .next s
/-- IDCODE (R469). -/
def execIdcode (s : State) : Out := .next (s.setIr (State.irOf 0x01))
/-- SAMPLE/PRELOAD (R469): the boundary register captures the balls and is loaded. -/
def execSamplePreload (s : State) : Out := .next ((s.setIr (State.irOf 0x02)).bndCapture).bndUpdate
/-- EXTEST (R470): where it takes effect, the boundary register captures the balls. -/
def execExtest (s : State) : Out := let t := s.boundaryIr (State.irOf 0x03); .next (if t.pins.jtag = .extest then t.bndCapture else t)
/-- CLAMP (R470). -/
def execClamp (s : State) : Out := .next (s.boundaryIr (State.irOf 0x04))
/-- HIGHZ (R470). -/
def execHighz (s : State) : Out := .next (s.boundaryIr (State.irOf 0x05))
/-- REG_ACCESS (R469). -/
def execRegAccess (go write : Bool) (addr : BitVec 24) (w : Word) (s : State) : Out := .next (s.regAccessFx go write addr w)
/-- EMR_READ (R469). -/
def execEmrRead (index : BitVec 4) (s : State) : Out := .next (s.emrReadFx index)
/-- BYPASS (R469): 0xFF, and every code not listed. -/
def execBypass (s : State) : Out := .next (s.setIr (State.irOf 0xFF))
/-- TEST_LOGIC_RESET (R469): IDCODE is in force; a burn in progress goes on (R471). -/
def execTestLogicReset (s : State) : Out := .next (s.setIr .idcode)
/-- LIM_BURN (R427). -/
def execLimBurn (vddIoOk : Bool) (s : State) : Out := .next (s.burnIr (State.irOf 0x30) 1 (s.burnOk vddIoOk (!s.burned.limFused)))
/-- KEY_BURN (R427). -/
def execKeyBurn (vddIoOk : Bool) (s : State) : Out := .next (s.burnIr (State.irOf 0x31) 2 (s.burnOk vddIoOk (!s.burned.keyFused)))
/-- LOCK_BURN (R427). -/
def execLockBurn (vddIoOk : Bool) (s : State) : Out := .next (s.burnIr (State.irOf 0x32) 3 (s.burnOk vddIoOk (!s.burned.factoryLock)))
/-- FUSE_BURN_DONE (R427, R470). -/
def execFuseBurnDone (verified : Bool) (s : State) : Out := .next (s.burnEnds verified)

end Sys2Proof.Machine
end

