-- ==== Sys2Proof/Machine/EngAlu.lean ====
section
/-! DEFINITION. Integer, fraction, shift, bit-field, predicate and complex instructions of the engines (R231 to R234): one meaning for each over the shared operand forms. -/

namespace Sys2Proof.Machine

/-- The effect of an instruction on its task: the task after it, SAT, ACCSAT. -/
abbrev TaskFx := State → Task → Task × Bool × Bool

/-- An integer operation on w[a] and w[b], wrapped or saturated by S (R206). -/
def intOp (f : T3) (g : Int → Int → Int) : TaskFx := fun _ t =>
  let r := narrowInt 40 (f.fn.getLsbD 16) (g (t.getW f.a.toNat).toInt (t.getW f.b.toNat).toInt)
  (t.setW f.d.toNat (BitVec.ofNat 40 r.1), r.2, false)

/-- A componentwise complex operation, wrapped modulo 2^20 or saturated by S. -/
def cplxOp (f : T3) (g : Cplx → Cplx → Cplx) : TaskFx := fun _ t =>
  let c := g (cOf (t.getW f.a.toNat)) (cOf (t.getW f.b.toNat))
  if f.fn.getLsbD 16 then (t.setW f.d.toNat (wOfC (satC c)), satC c != c, false)
  else (t.setW f.d.toNat (wOfC c), false, false)

/-- An operation on the words w[a] and w[b]. -/
def wordOp (f : T3) (g : Word → Word → Word) : TaskFx :=
  noFlags (fun t => t.setW f.d.toNat (g (t.getW f.a.toNat) (t.getW f.b.toNat)))

/-- An operation on w[a] and the zero-extended immediate. -/
def immOp (f : I2) (g : Word → Word → Word) : TaskFx :=
  noFlags (fun t => t.setW f.d.toNat (g (t.getW f.a.toNat) (immZ f.imm)))

/-- A predicate set from w[a] and w[b]; the destination stands in dst[29:27] (R229). -/
def predOp (f : T3) (g : Word → Word → Bool) : TaskFx :=
  noFlags (fun t => t.setP f.d.toNat (g (t.getW f.a.toNat) (t.getW f.b.toNat)))

/-- A predicate set from w[a] and the sign-extended immediate. -/
def predImm (f : I2) (g : Word → Word → Bool) : TaskFx :=
  noFlags (fun t => t.setP f.d.toNat (g (t.getW f.a.toNat) (immS f.imm)))

/-- A predicate set from two predicates. -/
def predLogic (f : T3) (g : Bool → Bool → Bool) : TaskFx :=
  noFlags (fun t => t.setP f.d.toNat (g (t.getP f.a.toNat) (t.getP f.b.toNat)))

/-- The bit field an immediate names: low bit in [11:6], width in [5:0] (R232). -/
def fieldBits (a i : Word) : Nat := (a.toNat / 2 ^ (i.toNat / 64 % 64)) % 2 ^ (i.toNat % 64)

/-- How many of the bits from `k` − 1 down equal bit 39 before one differs. -/
def signRun (a : Word) : Nat → Nat
  | 0 => 0
  | k + 1 => if a.getLsbD k == a.getLsbD 39 then signRun a k + 1 else 0

/-- ADD: integer add (R231). -/
def execAdd (e : EngId) (f : T3) (s : State) : Out :=
  .next (s.runTask e.toNat (encT 0x01 f) (intOp f (fun a b => a + b)))

/-- SUB: integer subtract (R231). -/
def execSub (e : EngId) (f : T3) (s : State) : Out :=
  .next (s.runTask e.toNat (encT 0x02 f) (intOp f (fun a b => a - b)))

/-- CADD: complex add (R231). -/
def execCadd (e : EngId) (f : T3) (s : State) : Out :=
  .next (s.runTask e.toNat (encT 0x03 f) (cplxOp f Cplx.add))

/-- CSUB: complex subtract (R231). -/
def execCsub (e : EngId) (f : T3) (s : State) : Out :=
  .next (s.runTask e.toNat (encT 0x04 f) (cplxOp f Cplx.sub))

/-- MUL: integer multiply, low 40 bits or saturated (R231). -/
def execMul (e : EngId) (f : T3) (s : State) : Out :=
  .next (s.runTask e.toNat (encT 0x05 f) (intOp f (fun a b => a * b)))

/-- FMUL: fraction multiply with convergent rounding (R231). -/
def execFmul (e : EngId) (f : T3) (s : State) : Out :=
  .next (s.runTask e.toNat (encT 0x06 f) (intOp f (fun a b => roundBits (a * b) 39)))

/-- MIN: the lesser, signed (R231). -/
def execMin (e : EngId) (f : T3) (s : State) : Out :=
  .next (s.runTask e.toNat (encT 0x07 f) (wordOp f (fun a b => if a.toInt ≤ b.toInt then a else b)))

/-- MAX: the greater, signed (R231). -/
def execMax (e : EngId) (f : T3) (s : State) : Out :=
  .next (s.runTask e.toNat (encT 0x08 f) (wordOp f (fun a b => if a.toInt ≤ b.toInt then b else a)))

/-- ABS: absolute value (R231). -/
def execAbs (e : EngId) (f : T3) (s : State) : Out :=
  .next (s.runTask e.toNat (encT 0x09 f) (intOp f (fun a _ => if a < 0 then -a else a)))

/-- AND (R231). -/
def execAndW (e : EngId) (f : T3) (s : State) : Out :=
  .next (s.runTask e.toNat (encT 0x0A f) (wordOp f (fun a b => a &&& b)))

/-- OR (R231). -/
def execOrW (e : EngId) (f : T3) (s : State) : Out :=
  .next (s.runTask e.toNat (encT 0x0B f) (wordOp f (fun a b => a ||| b)))

/-- XOR (R231). -/
def execXor (e : EngId) (f : T3) (s : State) : Out :=
  .next (s.runTask e.toNat (encT 0x0C f) (wordOp f (fun a b => a ^^^ b)))

/-- SEL: w[a] or w[b] by a predicate (R231). -/
def execSel (e : EngId) (f : T3) (s : State) : Out :=
  .next (s.runTask e.toNat (encT 0x0D f) (noFlags (fun t => t.setW f.d.toNat (if t.getP (f.fn.toNat % 8) then t.getW f.a.toNat else t.getW f.b.toNat))))

/-- CONJ: complex conjugate (R231). -/
def execConj (e : EngId) (f : T3) (s : State) : Out :=
  .next (s.runTask e.toNat (encT 0x0E f) (cplxOp f (fun a _ => a.conj)))

/-- ADDI: add immediate, wrapping (R231). -/
def execAddi (e : EngId) (f : I2) (s : State) : Out :=
  .next (s.runTask e.toNat (encI 0x10 f) (noFlags (fun t => t.setW f.d.toNat (t.getW f.a.toNat + immS f.imm))))

/-- ADDIS: add immediate, saturating (R231). -/
def execAddis (e : EngId) (f : I2) (s : State) : Out :=
  .next (s.runTask e.toNat (encI 0x11 f) (fun _ t =>
    let r := narrowInt 40 true ((t.getW f.a.toNat).toInt + (immS f.imm).toInt)
    (t.setW f.d.toNat (BitVec.ofNat 40 r.1), r.2, false)))

/-- ANDI: and with a zero-extended immediate (R231). -/
def execAndi (e : EngId) (f : I2) (s : State) : Out :=
  .next (s.runTask e.toNat (encI 0x12 f) (immOp f (fun a i => a &&& i)))

/-- ORI (R231). -/
def execOri (e : EngId) (f : I2) (s : State) : Out :=
  .next (s.runTask e.toNat (encI 0x13 f) (immOp f (fun a i => a ||| i)))

/-- XORI (R231). -/
def execXori (e : EngId) (f : I2) (s : State) : Out :=
  .next (s.runTask e.toNat (encI 0x14 f) (immOp f (fun a i => a ^^^ i)))

/-- LUI: immediate shifted left by 18 (R231). -/
def execLui (e : EngId) (f : I2) (s : State) : Out :=
  .next (s.runTask e.toNat (encI 0x15 f) (immOp f (fun _ i => i <<< 18)))

/-- RDCYC: CYC at the issue cycle, RCYC in the replay set (R231, R404). -/
def execRdcyc (e : EngId) (f : T3) (s : State) : Out :=
  .next (s.runTask e.toNat (encT 0x18 f) (fun s t => (t.setW f.d.toNat (BitVec.ofNat 40 (s.engCyc e.toNat)), false, false)))

/-- RDTIME: both halves of the calendar time from one reading (R231). -/
def execRdtime (e : EngId) (f : T3) (s : State) : Out :=
  .next (s.runTask e.toNat (encT 0x19 f) (fun s t => ((t.setW f.d.toNat s.nowHi).setW (f.d.toNat + 1) s.nowLo, false, false)))

/-- RDST: STATUS (R231). -/
def execRdst (e : EngId) (f : T3) (s : State) : Out :=
  .next (s.runTask e.toNat (encT 0x1A f) (noFlags (fun t => t.setW f.d.toNat (BitVec.ofNat 40 t.status))))

/-- CLST: clear SAT with fn[3], ACCSAT with fn[2] (R231). -/
def execClst (e : EngId) (f : T3) (s : State) : Out :=
  .next (s.runTask e.toNat (encT 0x1B f) (noFlags (fun t => { t with sat := t.sat && !f.fn.getLsbD 3, accsat := t.accsat && !f.fn.getLsbD 2 })))

/-- RDP: the predicates in [7:0], [0] reading 1 (R231). -/
def execRdp (e : EngId) (f : T3) (s : State) : Out :=
  .next (s.runTask e.toNat (encT 0x1C f) (noFlags (fun t => t.setW f.d.toNat (BitVec.ofNat 40 (t.p.toNat / 2 * 2 + 1)))))

/-- SHL: shift left by w[b][5:0], saturating with S (R232). -/
def execShl (e : EngId) (f : T3) (s : State) : Out :=
  .next (s.runTask e.toNat (encT 0x20 f) (fun _ t =>
    let n := (t.getW f.b.toNat).toNat % 64
    let r := narrowInt 40 (f.fn.getLsbD 16) ((t.getW f.a.toNat).toInt * 2 ^ n)
    (t.setW f.d.toNat (BitVec.ofNat 40 r.1), r.2, false)))

/-- SHR: logical shift right by w[b][5:0] (R232). -/
def execShr (e : EngId) (f : T3) (s : State) : Out :=
  .next (s.runTask e.toNat (encT 0x21 f) (wordOp f (fun a b => a >>> (b.toNat % 64))))

/-- SRA: arithmetic shift right by w[b][5:0] (R232). -/
def execSra (e : EngId) (f : T3) (s : State) : Out :=
  .next (s.runTask e.toNat (encT 0x22 f) (wordOp f (fun a b => a.sshiftRight (b.toNat % 64))))

/-- SHLI: shift left by an immediate, wrapping (R232). -/
def execShli (e : EngId) (f : I2) (s : State) : Out :=
  .next (s.runTask e.toNat (encI 0x23 f) (immOp f (fun a i => a <<< (i.toNat % 64))))

/-- SHRI (R232). -/
def execShri (e : EngId) (f : I2) (s : State) : Out :=
  .next (s.runTask e.toNat (encI 0x24 f) (immOp f (fun a i => a >>> (i.toNat % 64))))

/-- SRAI (R232). -/
def execSrai (e : EngId) (f : I2) (s : State) : Out :=
  .next (s.runTask e.toNat (encI 0x25 f) (immOp f (fun a i => a.sshiftRight (i.toNat % 64))))

/-- EXTU: an unsigned bit field (R232). -/
def execExtu (e : EngId) (f : I2) (s : State) : Out :=
  .next (s.runTask e.toNat (encI 0x26 f) (immOp f (fun a i => BitVec.ofNat 40 (fieldBits a i))))

/-- EXTS: a signed bit field (R232). -/
def execExts (e : EngId) (f : I2) (s : State) : Out :=
  .next (s.runTask e.toNat (encI 0x27 f) (immOp f (fun a i => BitVec.ofInt 40 (sx (i.toNat % 64) (fieldBits a i)))))

/-- INS: insert the low bits of w[a] into a field of w[d] (R232). -/
def execIns (e : EngId) (f : I2) (s : State) : Out :=
  .next (s.runTask e.toNat (encI 0x28 f) (noFlags (fun t =>
    let lo := f.imm.toNat / 64 % 64
    let wd := f.imm.toNat % 64
    t.setW f.d.toNat (putBits (t.getW f.d.toNat) (lo + wd - 1) lo (t.getW f.a.toNat).toNat))))

/-- NORM: bits below [39] that equal it before the first that differs (R232). -/
def execNorm (e : EngId) (f : T3) (s : State) : Out :=
  .next (s.runTask e.toNat (encT 0x29 f) (wordOp f (fun a _ => BitVec.ofNat 40 (signRun a 39))))

/-- POPC: set bits (R232). -/
def execPopc (e : EngId) (f : T3) (s : State) : Out :=
  .next (s.runTask e.toNat (encT 0x2A f) (wordOp f (fun a _ => BitVec.ofNat 40 ((List.range 40).filter (fun i => a.getLsbD i)).length)))

/-- CSRA: each component shifted right with convergent rounding (R232). -/
def execCsra (e : EngId) (f : I2) (s : State) : Out :=
  .next (s.runTask e.toNat (encI 0x2B f) (immOp f (fun a i => wOfC ⟨roundBits (cOf a).re (i.toNat % 32), roundBits (cOf a).im (i.toNat % 32)⟩)))

/-- PEQ: equal (R233). -/
def execPeq (e : EngId) (f : T3) (s : State) : Out :=
  .next (s.runTask e.toNat (encT 0x30 f) (predOp f (fun a b => a == b)))

/-- PNE: not equal (R233). -/
def execPne (e : EngId) (f : T3) (s : State) : Out :=
  .next (s.runTask e.toNat (encT 0x31 f) (predOp f (fun a b => a != b)))

/-- PLT: less than, signed (R233). -/
def execPlt (e : EngId) (f : T3) (s : State) : Out :=
  .next (s.runTask e.toNat (encT 0x32 f) (predOp f (fun a b => decide (a.toInt < b.toInt))))

/-- PLE: less or equal, signed (R233). -/
def execPle (e : EngId) (f : T3) (s : State) : Out :=
  .next (s.runTask e.toNat (encT 0x33 f) (predOp f (fun a b => decide (a.toInt ≤ b.toInt))))

/-- PLTU: less than, unsigned (R233). -/
def execPltu (e : EngId) (f : T3) (s : State) : Out :=
  .next (s.runTask e.toNat (encT 0x34 f) (predOp f (fun a b => decide (a.toNat < b.toNat))))

/-- PBIT: bit w[b][5:0] of w[a], false from 40 up (R233). -/
def execPbit (e : EngId) (f : T3) (s : State) : Out :=
  .next (s.runTask e.toNat (encT 0x35 f) (predOp f (fun a b => a.getLsbD (b.toNat % 64))))

/-- PEQI: equal to the immediate (R233). -/
def execPeqi (e : EngId) (f : I2) (s : State) : Out :=
  .next (s.runTask e.toNat (encI 0x36 f) (predImm f (fun a i => a == i)))

/-- PLTI: less than the immediate (R233). -/
def execPlti (e : EngId) (f : I2) (s : State) : Out :=
  .next (s.runTask e.toNat (encI 0x37 f) (predImm f (fun a i => decide (a.toInt < i.toInt))))

/-- PGTI: greater than the immediate (R233). -/
def execPgti (e : EngId) (f : I2) (s : State) : Out :=
  .next (s.runTask e.toNat (encI 0x38 f) (predImm f (fun a i => decide (i.toInt < a.toInt))))

/-- PAND (R233). -/
def execPand (e : EngId) (f : T3) (s : State) : Out :=
  .next (s.runTask e.toNat (encT 0x39 f) (predLogic f (fun a b => a && b)))

/-- POR (R233). -/
def execPor (e : EngId) (f : T3) (s : State) : Out :=
  .next (s.runTask e.toNat (encT 0x3A f) (predLogic f (fun a b => a || b)))

/-- PXOR (R233). -/
def execPxor (e : EngId) (f : T3) (s : State) : Out :=
  .next (s.runTask e.toNat (encT 0x3B f) (predLogic f (fun a b => a != b)))

/-- PANDN (R233). -/
def execPandn (e : EngId) (f : T3) (s : State) : Out :=
  .next (s.runTask e.toNat (encT 0x3C f) (predLogic f (fun a b => a && !b)))

/-- PNZ: w[a] is not zero (R233). -/
def execPnz (e : EngId) (f : T3) (s : State) : Out :=
  .next (s.runTask e.toNat (encT 0x3D f) (predOp f (fun a _ => a != 0)))

/-- WRP: P1 to P7 from w[a][7:1] (R233). -/
def execWrp (e : EngId) (f : T3) (s : State) : Out :=
  .next (s.runTask e.toNat (encT 0x3E f) (noFlags (fun t => { t with p := (t.getW f.a.toNat).setWidth 8 &&& 0xFE })))

/-- CMUL: complex multiply, rounded and saturated (R234). -/
def execCmul (e : EngId) (f : T3) (s : State) : Out :=
  .next (s.runTask e.toNat (encT 0x40 f) (fun _ t =>
    let r := narrowC (productC (t.getW f.a.toNat) (t.getW f.b.toNat) (f.fn.getLsbD 0)) 19
    (t.setW f.d.toNat r.1, r.2, false)))

/-- CMAC: multiply-accumulate into acc[dst] (R234). -/
def execCmac (e : EngId) (f : T3) (s : State) : Out :=
  .next (s.runTask e.toNat (encT 0x41 f) (fun _ t =>
    let r := t.accumulate f.d.toNat (productC (t.getW f.a.toNat) (t.getW f.b.toNat) (f.fn.getLsbD 0))
    (r.1, false, r.2)))

/-- CMSU: multiply-subtract from acc[dst] (R234). -/
def execCmsu (e : EngId) (f : T3) (s : State) : Out :=
  .next (s.runTask e.toNat (encT 0x42 f) (fun _ t =>
    let c := productC (t.getW f.a.toNat) (t.getW f.b.toNat) (f.fn.getLsbD 0)
    let r := t.accumulate f.d.toNat ⟨-c.re, -c.im⟩
    (r.1, false, r.2)))

/-- ACLR: clear an accumulator (R234). -/
def execAclr (e : EngId) (f : T3) (s : State) : Out :=
  .next (s.runTask e.toNat (encT 0x43 f) (noFlags (fun t => (t.setAcc f.d.toNat 0 0).setAcc f.d.toNat 1 0)))

/-- ANRW: narrow an accumulator by a shift, clearing it with fn[4] (R207, R234). -/
def execAnrw (e : EngId) (f : T3) (s : State) : Out :=
  .next (s.runTask e.toNat (encT 0x44 f) (fun _ t =>
    let k := f.a.toNat
    let r := narrowC ⟨(t.getAcc k 0).toInt, (t.getAcc k 1).toInt⟩ (19 + f.fn.toNat % 16)
    let t := t.setW f.d.toNat r.1
    (if f.fn.getLsbD 4 then (t.setAcc k 0 0).setAcc k 1 0 else t, r.2, false)))

/-- ARD: a word of an accumulator in the layout of the context frame (R234). -/
def execArd (e : EngId) (f : T3) (s : State) : Out :=
  .next (s.runTask e.toNat (encT 0x45 f) (noFlags (fun t => t.setW f.d.toNat (t.accWord f.a.toNat (f.fn.toNat % 4)))))

/-- AWR: write a word of an accumulator (R234). -/
def execAwr (e : EngId) (f : T3) (s : State) : Out :=
  .next (s.runTask e.toNat (encT 0x46 f) (noFlags (fun t => t.setAccWord f.d.toNat (f.fn.toNat % 4) (t.getW f.a.toNat))))

end Sys2Proof.Machine
end

