-- ==== Sys2Proof/Machine/Scrub.lean ====
section
/-! DEFINITION. The scrubber, parity and the uptime second (R255 to R257, R323, R384, R438). -/

namespace Sys2Proof.Machine

namespace State

/-! ### The scrubber (R255, R256) -/

/-- Where a scrubbed word lies: its memory, key, size of the memory and owning block. The logbook is kept as records instead. -/
structure ScrubAt where
  sel : MemSel
  key : Nat
  size : Nat
  src : Nat

/-- The word of a memory at an address. -/
def scrubAt (m : MemId) (a : Nat) : Option ScrubAt :=
  match m with
  | .imem e => some ⟨.imem, 8192 * e.toNat + a, 8192, srcEng e.toNat⟩
  | .dmem e => some ⟨.dmem, 16384 * e.toNat + a, 16384, srcEng e.toNat⟩
  | .quay q => some ⟨.quay, 262144 * q.toNat + a, 262144, srcQuay q.toNat⟩
  | .hold => some ⟨.hold, a, 4194304, srcHold⟩
  | .bankA => some ⟨.bankA, a, 2097152, srcBp (a / 16384)⟩
  | .bankB => some ⟨.bankB, a, 2097152, srcBp (a / 16384)⟩
  | .desc => some ⟨.desc, a, 69632, if a / 4096 < 16 then srcQuay (a / 4096) else srcHold⟩
  | .seqMem => some ⟨.seq, a, 16384, srcHold⟩
  | .scan => some ⟨.scan, a, 4096, srcMeas⟩
  | .cls => some ⟨.cls, a, 1024, srcFc⟩
  | .almanac => some ⟨.almanac, a, 160, srcMeas⟩
  | .refs => some ⟨.refs, a, 131072, srcBp (a / 1024)⟩
  | .mgmt => some ⟨.mgmt, a, 1048576, srcMgmt⟩
  | .mask => some ⟨.mask, a, 1048576, srcBp (a / 8192)⟩
  | .routes => some ⟨.routes, a, 336, srcMgmt⟩
  | .logRec | .logKey => none

/-- The scrubber reads a word: repaired by a write-back, or poisoned and reported as MEM_UNCORR. A word already poisoned is passed over. -/
def scrubWord (s : State) (w : ScrubAt) : State :=
  let c := s.cell w.sel w.key
  if c.poison then s
  else match rsDecode c.flips with
    | .clean => s
    | .corrected _ => (s.memRead w.sel w.key w.src).2
    | .bad => (((s.setCell w.sel w.key { c with poison := true }).countUnc w.sel w.key)).report w.src kMemUncorr 1
        (BitVec.ofNat 40 (wordAddr w.sel w.key))

/-- The scrub registers of a quay or of hold memory: the band whose rate the word was read at, and the passes at its last word. -/
def scrubRegs (s : State) (m : MemId) (a : Nat) : State :=
  match m with
  | .quay q =>
    let s := s.wr (F.quayScrubTb q.toNat) s.thermal.tb.toNat
    if a + 1 = 262144 then s.wr (F.quayScrubPassSeq q.toNat) (s.rd (F.quayScrubPassSeq q.toNat) + 1) else s
  | .hold =>
    let s := s.wr F.holdScrubTb s.thermal.tb.toNat
    if a + 1 = 4194304 then s.wr F.holdScrubPassSeq (s.rd F.holdScrubPassSeq + 1) else s
  | _ => s

/-- A logbook word: a corrected one is reported, an uncorrectable one retires its slot (R384). -/
def scrubLog (s : State) (slot w : Nat) : State :=
  if 8192 ≤ slot ∨ (s.logSlot slot).retired then s
  else
    let (bad, s) := s.readLogWord slot w
    if bad then s.retireSlot slot w else s

/-- The slot and word that a place of the record or the key memory belongs to. -/
def logWordAt (m : MemId) (a : Nat) : Option (Nat × Nat) :=
  match m with
  | .logRec => some (a / 4, a % 4)
  | .logKey => some (a, 4)
  | _ => none

/-- The soft errors of a slot's word take a value; a list of five clean words is held as the empty one. -/
def setLogFlips (s : State) (slot w : Nat) (f : BitVec 64 → BitVec 64) : State :=
  let l := s.logSlot slot
  let five := if l.flips = [] then List.replicate 5 0 else l.flips
  let flips := five.set w (f (atD five w 0))
  s.setLogSlot slot { l with flips := if flips = List.replicate 5 0 then [] else flips }

/-- A soft error strikes a protected word (R255): the word holds it until it is rewritten or repaired. A retired slot is read by nothing (R384). -/
def softHit (s : State) (h : SoftHit) : State :=
  let a := h.addr.toNat
  match logWordAt h.mem a with
  | some (k, w) => if 8192 ≤ k ∨ (s.logSlot k).retired then s else s.setLogFlips k w (· ^^^ h.flips)
  | none =>
    match scrubAt h.mem a with
    | none => s
    | some p =>
      let c := s.cell p.sel p.key
      if p.size ≤ a ∨ h.flips = 0 then s else s.setCell p.sel p.key { c with flips := c.flips ^^^ h.flips }

/-- A word of the Guvan buffers found uncorrectable: each port has an eighth of the region, its streams' samples one to a word and then its messages five bytes to a word, oldest first (R249 gives the region and no places in it). What stands there is marked, and the word is free for the next (R255). -/
def bufferPoison (s : State) (a : Nat) : State :=
  if a < 0x40000 ∨ 0x80000 ≤ a ∨ (s.cell .hold a).poison = false then s
  else
    let p := (a - 0x40000) / 32768
    let q := s.port p
    let at_ := q.rx.foldl (fun (r : Nat × Option (Nat × Nat)) x =>
      if r.2.isNone && decide (r.1 < x.2.buf.length) then (0, some (x.1, r.1)) else (r.1 - x.2.buf.length, r.2)) ((a - 0x40000) % 32768, none)
    let s := s.setCell .hold a Cell.zero
    match at_.2 with
    | some k => s.setPort p { q with badRx := q.badRx.filter (· != k) ++ [k] }
    | none =>
      let hit := ((List.range q.inbox.length).zip q.inbox).foldl (fun (r : Nat × Option Nat) x =>
        let w := (x.2.bytes.length + 4) / 5
        if r.2.isNone && decide (r.1 < w) then (0, some x.1) else (r.1 - w, r.2)) (at_.1, none)
      match hit.2 with
      | some i => s.setPort p { q with badIn := q.badIn.filter (· != i) ++ [i] }
      | none => s

/-- The scrubber's next word. -/
def scrubRead (s : State) (m : MemId) (a : Nat) : State :=
  match logWordAt m a with
  | some (k, w) => s.scrubLog k w
  | none =>
    match scrubAt m a with
    | none => s
    | some w =>
      if w.size ≤ a then s
      else
        let s := (s.scrubWord w).scrubRegs m a
        if w.sel = .hold then s.bufferPoison a else s

/-- A corrected word reaches its memory through the scrub port. One dropped by a newer write is no longer queued (R255). -/
def writeBackFx (s : State) (m : MemId) (a : Nat) : State :=
  match logWordAt m a with
  | some (k, w) =>
    let p := logPlace k w
    if s.writeBacks.any (fun x => x.mem == p.1 && x.addr == p.2) then
      let s := s.setLogFlips k w (fun _ => 0)
      { s with writeBacks := s.writeBacks.filter (fun y => !(y.mem == p.1 && y.addr == p.2)) }
    else s
  | none =>
  match scrubAt m a with
  | none => s
  | some w =>
    match s.writeBacks.find? (fun x => x.mem == w.sel.num && x.addr == w.key) with
    | none => s
    | some x =>
      let s := s.setCell w.sel w.key ⟨x.word, 0, false⟩
      { s with writeBacks := s.writeBacks.filter (fun y => !(y.mem == w.sel.num && y.addr == w.key)) }

/-! ### Parity readback (R257, R438) -/

/-- A register the readback finds bad: it stays so until it is rewritten, and is reported. -/
def regParity (s : State) (a : Nat) : State :=
  match layout a with
  | none => s
  | some _ => ({ s with parBad := if s.parBad.contains a then s.parBad else s.parBad ++ [a] } : State).parityFound a

/-! ### The uptime second (R323) -/

/-- What runs once per uptime second: the servo's second, the almanac, the hop delays, the choice of the upstream, the lodestar notice. -/
def uptimeFx (s : State) : State :=
  let s : State := { s with uptime := s.uptime + 1 }
  let s := s.settleTime
  let s := s.almanacFx (if s.boot.image && s.thermal.inUse != 0 then some s.thermal.tjMean else none)
  let s := (List.range 8).foldl (fun s p => s.publishDelay p) s
  let s := s.adoptUpstream
  if s.lodestar then s.notice 1 s.lodestarData else s

end State

/-! ### Meanings -/

/-- SCRUB_READ (R256, R384): the scrubber's next word, and the soft errors that have struck the protected memories since its last one, wherever they struck. -/
def execScrubRead (mem : MemId) (addr : BitVec 22) (hits : List SoftHit) (s : State) : Out :=
  .next (if s.alive then (hits.foldl (fun s h => s.softHit h) s).scrubRead mem addr.toNat else s)
/-- SCRUB_WRITEBACK (R255). -/
def execScrubWriteback (mem : MemId) (addr : BitVec 22) (s : State) : Out := .next (s.writeBackFx mem addr.toNat)
/-- PARITY_READBACK (R257, R438): what the readback finds. -/
def execParityReadback (failed : ParityAt) (s : State) : Out :=
  if s.alive then
    match failed with
    | .reg a => .next (s.regParity a.toNat)
    | p => .next (s.parityFx p)
  else .next s
/-- UPTIME_SECOND (R323, R186, R312, R326, R327, R329). -/
def execUptimeSecond (s : State) : Out := .next (if s.alive ∧ s.cyc % secCyc = 0 ∧ s.uptime < s.cyc / secCyc then s.uptimeFx else s)

end Sys2Proof.Machine
end

