-- ==== Sys2Proof/Machine/Dispatch.lean ====
section
/-! DEFINITION. The meaning of every command, one arm for each row of the operation table. -/

namespace Sys2Proof.Machine

def exec (i : Instr) (s : State) : Host.Outcome State Fault Refusal :=
  match i with
  | .coldStart bootSel testEn vddIoLost primary alternate => Sys2Proof.Machine.execColdStart bootSel testEn vddIoLost primary alternate s
  | .pwrGoodFall => Sys2Proof.Machine.execPwrGoodFall s
  | .pllLock locked lockUs => Sys2Proof.Machine.execPllLock locked lockUs s
  | .sramClearDone => Sys2Proof.Machine.execSramClearDone s
  | .imageLoaded flash readOk img => Sys2Proof.Machine.execImageLoaded flash readOk img s
  | .bringupStepEnd step => Sys2Proof.Machine.execBringupStepEnd step s
  | .bringupStepBound step => Sys2Proof.Machine.execBringupStepBound step s
  | .romLoaderReset => Sys2Proof.Machine.execRomLoaderReset s
  | .trialConfirm => Sys2Proof.Machine.execTrialConfirm s
  | .vddCorePowerCycle => Sys2Proof.Machine.execVddCorePowerCycle s
  | .jrxLockLost ch => Sys2Proof.Machine.execJrxLockLost ch s
  | .jrxLockRegained ch => Sys2Proof.Machine.execJrxLockRegained ch s
  | .sysrefMisalign => Sys2Proof.Machine.execSysrefMisalign s
  | .freqWrite who bp freq => Sys2Proof.Machine.execFreqWrite who bp freq s
  | .bpPathWrite who bp w => Sys2Proof.Machine.execBpPathWrite who bp w s
  | .stepWrite who bp stp => Sys2Proof.Machine.execStepWrite who bp stp s
  | .dcFreezeSet who bp => Sys2Proof.Machine.execDcFreezeSet who bp s
  | .dcFreezeClear who bp => Sys2Proof.Machine.execDcFreezeClear who bp s
  | .meterRestart who bp => Sys2Proof.Machine.execMeterRestart who bp s
  | .rsmpRetry who bp => Sys2Proof.Machine.execRsmpRetry who bp s
  | .resamplerResetDone inst => Sys2Proof.Machine.execResamplerResetDone inst s
  | .fineMeterBlockDone bp egress => Sys2Proof.Machine.execFineMeterBlockDone bp egress s
  | .validClearRunEnd bp => Sys2Proof.Machine.execValidClearRunEnd bp s
  | .swapArm who bp seq => Sys2Proof.Machine.execSwapArm who bp seq s
  | .swapScanDone bp => Sys2Proof.Machine.execSwapScanDone bp s
  | .swapTakeEffect bp => Sys2Proof.Machine.execSwapTakeEffect bp s
  | .probeMeasurementDone bp => Sys2Proof.Machine.execProbeMeasurementDone bp s
  | .bwIntervalEnd => Sys2Proof.Machine.execBwIntervalEnd s
  | .tripSubwindowEnd bp => Sys2Proof.Machine.execTripSubwindowEnd bp s
  | .floorWrite who bp floor => Sys2Proof.Machine.execFloorWrite who bp floor s
  | .gainSetWrite who bp gain => Sys2Proof.Machine.execGainSetWrite who bp gain s
  | .agcHoldSet who bp => Sys2Proof.Machine.execAgcHoldSet who bp s
  | .agcHoldClear who bp => Sys2Proof.Machine.execAgcHoldClear who bp s
  | .nrCapture who bp => Sys2Proof.Machine.execNrCapture who bp s
  | .egMeterRestart who bp => Sys2Proof.Machine.execEgMeterRestart who bp s
  | .maskVerdict who bp verdict => Sys2Proof.Machine.execMaskVerdict who bp verdict s
  | .maskPeriodEnd bp => Sys2Proof.Machine.execMaskPeriodEnd bp s
  | .maskCaptureDone bp => Sys2Proof.Machine.execMaskCaptureDone bp s
  | .softStartBegin bp => Sys2Proof.Machine.execSoftStartBegin bp s
  | .rampStep bp => Sys2Proof.Machine.execRampStep bp s
  | .gateOpenEnergy bp => Sys2Proof.Machine.execGateOpenEnergy bp s
  | .gateRefMatch bp => Sys2Proof.Machine.execGateRefMatch bp s
  | .gateConfirm bp => Sys2Proof.Machine.execGateConfirm bp s
  | .gateVerifyExpiry bp => Sys2Proof.Machine.execGateVerifyExpiry bp s
  | .gateCapture bp => Sys2Proof.Machine.execGateCapture bp s
  | .gateResettleEnd bp => Sys2Proof.Machine.execGateResettleEnd bp s
  | .gateClose bp => Sys2Proof.Machine.execGateClose bp s
  | .floorBlockDone bp => Sys2Proof.Machine.execFloorBlockDone bp s
  | .floorStale bp => Sys2Proof.Machine.execFloorStale bp s
  | .bpEnable who bp => Sys2Proof.Machine.execBpEnable who bp s
  | .bpDisable who bp => Sys2Proof.Machine.execBpDisable who bp s
  | .lockAck who bp => Sys2Proof.Machine.execLockAck who bp s
  | .retryTimerExpiry bp => Sys2Proof.Machine.execRetryTimerExpiry bp s
  | .retryExpReset bp => Sys2Proof.Machine.execRetryExpReset bp s
  | .donorLoss bp => Sys2Proof.Machine.execDonorLoss bp s
  | .donorRestore bp => Sys2Proof.Machine.execDonorRestore bp s
  | .dutyBucketEnd bp => Sys2Proof.Machine.execDutyBucketEnd bp s
  | .protLimDataWrite who value => Sys2Proof.Machine.execProtLimDataWrite who value s
  | .muteNFall => Sys2Proof.Machine.execMuteNFall s
  | .muteNRise => Sys2Proof.Machine.execMuteNRise s
  | .powerUp who ch => Sys2Proof.Machine.execPowerUp who ch s
  | .powerDown who ch => Sys2Proof.Machine.execPowerDown who ch s
  | .receive who ch => Sys2Proof.Machine.execReceive who ch s
  | .transmit who ch => Sys2Proof.Machine.execTransmit who ch s
  | .ready who ch => Sys2Proof.Machine.execReady who ch s
  | .retune who ch k => Sys2Proof.Machine.execRetune who ch k s
  | .cal who ch k => Sys2Proof.Machine.execCal who ch k s
  | .clearFault who ch => Sys2Proof.Machine.execClearFault who ch s
  | .seqEntry ch data => Sys2Proof.Machine.execSeqEntry ch data s
  | .pollTimeout ch => Sys2Proof.Machine.execPollTimeout ch s
  | .seqAbortSafePoint ch => Sys2Proof.Machine.execSeqAbortSafePoint ch s
  | .sequenceComplete ch => Sys2Proof.Machine.execSequenceComplete ch s
  | .synthSettleElapsed ch => Sys2Proof.Machine.execSynthSettleElapsed ch s
  | .lockTimeout ch => Sys2Proof.Machine.execLockTimeout ch s
  | .switchSettleElapsed ch => Sys2Proof.Machine.execSwitchSettleElapsed ch s
  | .tddFrameStart ch => Sys2Proof.Machine.execTddFrameStart ch s
  | .switchPointPreroll ch point => Sys2Proof.Machine.execSwitchPointPreroll ch point s
  | .calGapStart ch => Sys2Proof.Machine.execCalGapStart ch s
  | .calReqTimeout ch k => Sys2Proof.Machine.execCalReqTimeout ch k s
  | .bgIntervalExpiry ch k => Sys2Proof.Machine.execBgIntervalExpiry ch k s
  | .gntFall cx => Sys2Proof.Machine.execGntFall cx s
  | .gntRise cx => Sys2Proof.Machine.execGntRise cx s
  | .reqReleaseTimer cx => Sys2Proof.Machine.execReqReleaseTimer cx s
  | .reqUnanswered cx => Sys2Proof.Machine.execReqUnanswered cx s
  | .grantorReqChange cx req pri => Sys2Proof.Machine.execGrantorReqChange cx req pri s
  | .grantDelayExpiry cx => Sys2Proof.Machine.execGrantDelayExpiry cx s
  | .scanConversionStart adc => Sys2Proof.Machine.execScanConversionStart adc s
  | .conversionComplete adc code => Sys2Proof.Machine.execConversionComplete adc code s
  | .triggerEdge src => Sys2Proof.Machine.execTriggerEdge src s
  | .triggerRequest entry => Sys2Proof.Machine.execTriggerRequest entry s
  | .measReqOrdinary who mc => Sys2Proof.Machine.execMeasReqOrdinary who mc s
  | .measReqUrgent who mc => Sys2Proof.Machine.execMeasReqUrgent who mc s
  | .calZero who mc => Sys2Proof.Machine.execCalZero who mc s
  | .calFull who mc fsRef => Sys2Proof.Machine.execCalFull who mc fsRef s
  | .calOpComplete => Sys2Proof.Machine.execCalOpComplete s
  | .mcCalWrite who mc offset gain => Sys2Proof.Machine.execMcCalWrite who mc offset gain s
  | .trimActWrite who r w => Sys2Proof.Machine.execTrimActWrite who r w s
  | .trimApply => Sys2Proof.Machine.execTrimApply s
  | .uptimeSecond => Sys2Proof.Machine.execUptimeSecond s
  | .loopOutputWrite lp => Sys2Proof.Machine.execLoopOutputWrite lp s
  | .loopModeWrite who lp mode => Sys2Proof.Machine.execLoopModeWrite who lp mode s
  | .loopSpWrite who lp w => Sys2Proof.Machine.execLoopSpWrite who lp w s
  | .loopManWrite who lp w => Sys2Proof.Machine.execLoopManWrite who lp w s
  | .add e f => Sys2Proof.Machine.execAdd e f s
  | .sub e f => Sys2Proof.Machine.execSub e f s
  | .cadd e f => Sys2Proof.Machine.execCadd e f s
  | .csub e f => Sys2Proof.Machine.execCsub e f s
  | .mul e f => Sys2Proof.Machine.execMul e f s
  | .fmul e f => Sys2Proof.Machine.execFmul e f s
  | .min e f => Sys2Proof.Machine.execMin e f s
  | .max e f => Sys2Proof.Machine.execMax e f s
  | .abs e f => Sys2Proof.Machine.execAbs e f s
  | .andW e f => Sys2Proof.Machine.execAndW e f s
  | .orW e f => Sys2Proof.Machine.execOrW e f s
  | .xor e f => Sys2Proof.Machine.execXor e f s
  | .sel e f => Sys2Proof.Machine.execSel e f s
  | .conj e f => Sys2Proof.Machine.execConj e f s
  | .addi e f => Sys2Proof.Machine.execAddi e f s
  | .addis e f => Sys2Proof.Machine.execAddis e f s
  | .andi e f => Sys2Proof.Machine.execAndi e f s
  | .ori e f => Sys2Proof.Machine.execOri e f s
  | .xori e f => Sys2Proof.Machine.execXori e f s
  | .lui e f => Sys2Proof.Machine.execLui e f s
  | .rdcyc e f => Sys2Proof.Machine.execRdcyc e f s
  | .rdtime e f => Sys2Proof.Machine.execRdtime e f s
  | .rdst e f => Sys2Proof.Machine.execRdst e f s
  | .clst e f => Sys2Proof.Machine.execClst e f s
  | .rdp e f => Sys2Proof.Machine.execRdp e f s
  | .shl e f => Sys2Proof.Machine.execShl e f s
  | .shr e f => Sys2Proof.Machine.execShr e f s
  | .sra e f => Sys2Proof.Machine.execSra e f s
  | .shli e f => Sys2Proof.Machine.execShli e f s
  | .shri e f => Sys2Proof.Machine.execShri e f s
  | .srai e f => Sys2Proof.Machine.execSrai e f s
  | .extu e f => Sys2Proof.Machine.execExtu e f s
  | .exts e f => Sys2Proof.Machine.execExts e f s
  | .ins e f => Sys2Proof.Machine.execIns e f s
  | .norm e f => Sys2Proof.Machine.execNorm e f s
  | .popc e f => Sys2Proof.Machine.execPopc e f s
  | .csra e f => Sys2Proof.Machine.execCsra e f s
  | .peq e f => Sys2Proof.Machine.execPeq e f s
  | .pne e f => Sys2Proof.Machine.execPne e f s
  | .plt e f => Sys2Proof.Machine.execPlt e f s
  | .ple e f => Sys2Proof.Machine.execPle e f s
  | .pltu e f => Sys2Proof.Machine.execPltu e f s
  | .pbit e f => Sys2Proof.Machine.execPbit e f s
  | .peqi e f => Sys2Proof.Machine.execPeqi e f s
  | .plti e f => Sys2Proof.Machine.execPlti e f s
  | .pgti e f => Sys2Proof.Machine.execPgti e f s
  | .pand e f => Sys2Proof.Machine.execPand e f s
  | .por e f => Sys2Proof.Machine.execPor e f s
  | .pxor e f => Sys2Proof.Machine.execPxor e f s
  | .pandn e f => Sys2Proof.Machine.execPandn e f s
  | .pnz e f => Sys2Proof.Machine.execPnz e f s
  | .wrp e f => Sys2Proof.Machine.execWrp e f s
  | .cmul e f => Sys2Proof.Machine.execCmul e f s
  | .cmac e f => Sys2Proof.Machine.execCmac e f s
  | .cmsu e f => Sys2Proof.Machine.execCmsu e f s
  | .aclr e f => Sys2Proof.Machine.execAclr e f s
  | .anrw e f => Sys2Proof.Machine.execAnrw e f s
  | .ard e f => Sys2Proof.Machine.execArd e f s
  | .awr e f => Sys2Proof.Machine.execAwr e f s
  | .ld e f => Sys2Proof.Machine.execLd e f s
  | .st e f => Sys2Proof.Machine.execSt e f s
  | .ldr e f => Sys2Proof.Machine.execLdr e f s
  | .str e f => Sys2Proof.Machine.execStr e f s
  | .loadDataReturn e berth reg => Sys2Proof.Machine.execLoadDataReturn e berth reg s
  | .tlbWalk e => Sys2Proof.Machine.execTlbWalk e s
  | .br e f => Sys2Proof.Machine.execBr e f s
  | .call e f => Sys2Proof.Machine.execCall e f s
  | .jr e f => Sys2Proof.Machine.execJr e f s
  | .jrl e f => Sys2Proof.Machine.execJrl e f s
  | .vmac e f => Sys2Proof.Machine.execVmac e f s
  | .firs e f => Sys2Proof.Machine.execFirs e f s
  | .corr e f => Sys2Proof.Machine.execCorr e f s
  | .bfly e f => Sys2Proof.Machine.execBfly e f s
  | .vmul e f => Sys2Proof.Machine.execVmul e f s
  | .vfill e f => Sys2Proof.Machine.execVfill e f s
  | .blockElementEffect e => Sys2Proof.Machine.execBlockElementEffect e s
  | .lque e f => Sys2Proof.Machine.execLque e f s
  | .lstat e f => Sys2Proof.Machine.execLstat e f s
  | .labort e f => Sys2Proof.Machine.execLabort e f s
  | .lres e f => Sys2Proof.Machine.execLres e f s
  | .bend e f => Sys2Proof.Machine.execBend e f s
  | .bwake e f => Sys2Proof.Machine.execBwake e f s
  | .bsleep e f => Sys2Proof.Machine.execBsleep e f s
  | .bstat e f => Sys2Proof.Machine.execBstat e f s
  | .mrecv e f => Sys2Proof.Machine.execMrecv e f s
  | .msend e f => Sys2Proof.Machine.execMsend e f s
  | .mstat e f => Sys2Proof.Machine.execMstat e f s
  | .engMbInWrite who e w => Sys2Proof.Machine.execEngMbInWrite who e w s
  | .mailboxWordVisible e => Sys2Proof.Machine.execMailboxWordVisible e s
  | .outboundWordMove e => Sys2Proof.Machine.execOutboundWordMove e s
  | .halt who e => Sys2Proof.Machine.execHalt who e s
  | .resume who e => Sys2Proof.Machine.execResume who e s
  | .restart who e => Sys2Proof.Machine.execRestart who e s
  | .berthRoundStart e => Sys2Proof.Machine.execBerthRoundStart e s
  | .timedBerthStart e berth => Sys2Proof.Machine.execTimedBerthStart e berth s
  | .timedBerthEnd e => Sys2Proof.Machine.execTimedBerthEnd e s
  | .urgentPreempt e => Sys2Proof.Machine.execUrgentPreempt e s
  | .urgentBudgetEnd e => Sys2Proof.Machine.execUrgentBudgetEnd e s
  | .lighterBurst ch => Sys2Proof.Machine.execLighterBurst ch s
  | .tapRecordComplete bp mask => Sys2Proof.Machine.execTapRecordComplete bp mask s
  | .ltrPosAbort who ch => Sys2Proof.Machine.execLtrPosAbort who ch s
  | .ltrPosResume who ch => Sys2Proof.Machine.execLtrPosResume who ch s
  | .scrubRead mem addr hits => Sys2Proof.Machine.execScrubRead mem addr hits s
  | .scrubWriteback mem addr => Sys2Proof.Machine.execScrubWriteback mem addr s
  | .parityReadback failed => Sys2Proof.Machine.execParityReadback failed s
  | .gvEnable who p => Sys2Proof.Machine.execGvEnable who p s
  | .gvDisable who p => Sys2Proof.Machine.execGvDisable who p s
  | .gvRetrain who p => Sys2Proof.Machine.execGvRetrain who p s
  | .detectSilenceExpiry p => Sys2Proof.Machine.execDetectSilenceExpiry p s
  | .helloTurnReceived p hello delay => Sys2Proof.Machine.execHelloTurnReceived p hello delay s
  | .helloTurnStart p => Sys2Proof.Machine.execHelloTurnStart p s
  | .modesDisjointExpiry p => Sys2Proof.Machine.execModesDisjointExpiry p s
  | .trainTurnReceived p turn snr echo => Sys2Proof.Machine.execTrainTurnReceived p turn snr echo s
  | .trainTurnStart p => Sys2Proof.Machine.execTrainTurnStart p s
  | .trainingTimeout p => Sys2Proof.Machine.execTrainingTimeout p s
  | .huntTimeout p => Sys2Proof.Machine.execHuntTimeout p s
  | .gvFrameSend p => Sys2Proof.Machine.execGvFrameSend p s
  | .gvFrameReceive p f => Sys2Proof.Machine.execGvFrameReceive p f s
  | .msgReceive p => Sys2Proof.Machine.execMsgReceive p s
  | .alarmWordReceive p w => Sys2Proof.Machine.execAlarmWordReceive p w s
  | .refLoss => Sys2Proof.Machine.execRefLoss s
  | .pllUnlock => Sys2Proof.Machine.execPllUnlock s
  | .ppsInEdge eighth => Sys2Proof.Machine.execPpsInEdge eighth s
  | .ppsGapExpiry => Sys2Proof.Machine.execPpsGapExpiry s
  | .ppsOutEdge => Sys2Proof.Machine.execPpsOutEdge s
  | .lodestarNoticeReceive src withdrawn state seconds => Sys2Proof.Machine.execLodestarNoticeReceive src withdrawn state seconds s
  | .lodestarWithdrawEnd => Sys2Proof.Machine.execLodestarWithdrawEnd s
  | .noLodestarTimer => Sys2Proof.Machine.execNoLodestarTimer s
  | .timeSetLoWrite who w => Sys2Proof.Machine.execTimeSetLoWrite who w s
  | .thermalEvaluation => Sys2Proof.Machine.execThermalEvaluation s
  | .thermalGraceExpiry bp => Sys2Proof.Machine.execThermalGraceExpiry bp s
  | .analogueTrip => Sys2Proof.Machine.execAnalogueTrip s
  | .govTransferEnd => Sys2Proof.Machine.execGovTransferEnd s
  | .faultClassify => Sys2Proof.Machine.execFaultClassify s
  | .c2GraceExpiry index => Sys2Proof.Machine.execC2GraceExpiry index s
  | .c3GraceExpiry => Sys2Proof.Machine.execC3GraceExpiry s
  | .fcAckKeep who index source cls => Sys2Proof.Machine.execFcAckKeep who index source cls s
  | .fcAckOut who index source cls => Sys2Proof.Machine.execFcAckOut who index source cls s
  | .logbookTake => Sys2Proof.Machine.execLogbookTake s
  | .logW0Read who => Sys2Proof.Machine.execLogW0Read who s
  | .histW0Read who => Sys2Proof.Machine.execHistW0Read who s
  | .histClr who => Sys2Proof.Machine.execHistClr who s
  | .emrW0Read who => Sys2Proof.Machine.execEmrW0Read who s
  | .emrClr who => Sys2Proof.Machine.execEmrClr who s
  | .fiGo who => Sys2Proof.Machine.execFiGo who s
  | .mgmtRingDrain => Sys2Proof.Machine.execMgmtRingDrain s
  | .logbookMirror => Sys2Proof.Machine.execLogbookMirror s
  | .mgmtWatchdogExpiry => Sys2Proof.Machine.execMgmtWatchdogExpiry s
  | .mgmtRestartDone => Sys2Proof.Machine.execMgmtRestartDone s
  | .sessionIdleClose session => Sys2Proof.Machine.execSessionIdleClose session s
  | .ident o seq => Sys2Proof.Machine.execIdent o seq s
  | .regRead o seq addr count => Sys2Proof.Machine.execRegRead o seq addr count s
  | .regWrite o seq addr w => Sys2Proof.Machine.execRegWrite o seq addr w s
  | .logRead o seq mode at_ count => Sys2Proof.Machine.execLogRead o seq mode at_ count s
  | .faultAck o seq index source cls action => Sys2Proof.Machine.execFaultAck o seq index source cls action s
  | .holdRead o seq addr count => Sys2Proof.Machine.execHoldRead o seq addr count s
  | .holdWrite o seq addr count words => Sys2Proof.Machine.execHoldWrite o seq addr count words s
  | .mbRead o seq count => Sys2Proof.Machine.execMbRead o seq count s
  | .timeOfDay o seq seconds => Sys2Proof.Machine.execTimeOfDay o seq seconds s
  | .addrSet o seq addr => Sys2Proof.Machine.execAddrSet o seq addr s
  | .routeLoad o seq table first count entries => Sys2Proof.Machine.execRouteLoad o seq table first count entries s
  | .imgBegin o seq len hash target => Sys2Proof.Machine.execImgBegin o seq len hash target s
  | .imgData o seq offset bytes => Sys2Proof.Machine.execImgData o seq offset bytes s
  | .imgCommit o seq => Sys2Proof.Machine.execImgCommit o seq s
  | .imgAbort o seq => Sys2Proof.Machine.execImgAbort o seq s
  | .replayFreeze o seq => Sys2Proof.Machine.execReplayFreeze o seq s
  | .replayThaw o seq => Sys2Proof.Machine.execReplayThaw o seq s
  | .replayEnter o seq => Sys2Proof.Machine.execReplayEnter o seq s
  | .replayStart o seq => Sys2Proof.Machine.execReplayStart o seq s
  | .checkpointStart => Sys2Proof.Machine.execCheckpointStart s
  | .checkpointDone => Sys2Proof.Machine.execCheckpointDone s
  | .journalEntryApply => Sys2Proof.Machine.execJournalEntryApply s
  | .replayEnd => Sys2Proof.Machine.execReplayEnd s
  | .limBurn vddIoOk => Sys2Proof.Machine.execLimBurn vddIoOk s
  | .keyBurn vddIoOk => Sys2Proof.Machine.execKeyBurn vddIoOk s
  | .lockBurn vddIoOk => Sys2Proof.Machine.execLockBurn vddIoOk s
  | .idcode => Sys2Proof.Machine.execIdcode s
  | .samplePreload => Sys2Proof.Machine.execSamplePreload s
  | .extest => Sys2Proof.Machine.execExtest s
  | .clamp => Sys2Proof.Machine.execClamp s
  | .highz => Sys2Proof.Machine.execHighz s
  | .regAccess go write addr w => Sys2Proof.Machine.execRegAccess go write addr w s
  | .emrRead index => Sys2Proof.Machine.execEmrRead index s
  | .bypass => Sys2Proof.Machine.execBypass s
  | .uartFrameReceive frame => Sys2Proof.Machine.execUartFrameReceive frame s
  | .twoHalfReadLo who addr => Sys2Proof.Machine.execTwoHalfReadLo who addr s
  | .registerWrite who addr w => Sys2Proof.Machine.execRegisterWrite who addr w s
  | .resetNFall => Sys2Proof.Machine.execResetNFall s
  | .bandSample bp => Sys2Proof.Machine.execBandSample bp s
  | .jtxSample ch => Sys2Proof.Machine.execJtxSample ch s
  | .multiblockCrcFail ch => Sys2Proof.Machine.execMultiblockCrcFail ch s
  | .refclkReturn => Sys2Proof.Machine.execRefclkReturn s
  | .vddIoLoss => Sys2Proof.Machine.execVddIoLoss s
  | .mgmtFirmwareStartDone => Sys2Proof.Machine.execMgmtFirmwareStartDone s
  | .fuseBurnDone verified => Sys2Proof.Machine.execFuseBurnDone verified s
  | .testLogicReset => Sys2Proof.Machine.execTestLogicReset s
  | .imageHeaderRead flash readOk delays header => Sys2Proof.Machine.execImageHeaderRead flash readOk delays header s

end Sys2Proof.Machine
end

