-- ==== Sys2Proof/Machine/Tick.lean ====
section
/-! DEFINITION. One CLK_E cycle: what the clock alone moves (R322, R325, R220, R334, R401, R404). -/

namespace Sys2Proof.Machine

namespace State

/-- CYC advances, and RCYC with it while a replay runs. -/
def countCyc (s : State) : State :=
  { s with cyc := s.cyc + 1, rpl := if s.rpl.st = .replaying then { s.rpl with rcyc := s.rpl.rcyc + 1 } else s.rpl }

/-- An engine has used the cycle that ends: its task issued or stalled in it, past the restore of its context (R227, R269). -/
def countUse (s : State) (e : Nat) : State :=
  let en := s.engine e
  let c := s.engCyc e
  if (en.st = .running ∧ en.runFrom < c) ∨ en.usedAt.any (fun u => u + 1 == c) then s.setEngine e { en with used := en.used + 1 } else s

/-- PPS_OUT falls at the end of its pulse (R334). -/
def ppsFall (s : State) : State :=
  if s.time.ppsOut ∧ s.time.ppsOutUntil ≤ s.cyc then { s with time := { s.time with ppsOut := false } } else s

/-- A held cause is removed at the end of its delay (R137, R165, R166): from the replay set by the replay's own entries alone (R404). -/
def heldOffFx (s : State) (o : HeldOff) : State :=
  let ns := match o.port with
    | none => s.planned.filter (fun n => s.planN n plMuteNBind == 1)
    | some k => s.boundTo k.toNat
  ns.foldl (fun s n =>
    if (s.replayMode && s.selected.contains n) != o.replay then s
    else s.setHeld n (fun h => match o.port with | none => { h with muteN := false } | some _ => { h with cx := false })) s
/-- The removals that are due. -/
def heldOffDue (s : State) : State :=
  (s.heldOff.filter (fun o => decide (o.at_ ≤ s.cyc))).foldl heldOffFx
    { s with heldOff := s.heldOff.filter (fun o => decide (s.cyc < o.at_)) }

/-- A pending request of a grantor is reconsidered as its bound band paths change state (R166). -/
def cxPending (s : State) : State :=
  (List.range 4).foldl (fun s k =>
    let c := s.cxPort k
    if s.rd (F.cxCtrlRole k) = 2 ∧ c.req ∧ !c.yielding then s.cxJudge k else s) s

/-- One CLK_E cycle passes with no command due. Before PLL lock no clock runs. -/
def tick (s : State) : State :=
  if s.alive then
    let s := s.countCyc
    let s := (tblKeys s.engines).foldl (fun s e => s.countUse e) s
    let s := if s.setCyc % 32 = 0 then s.tickTime else s
    let s := ((s.ppsFall.heldOffDue).cxPending).goDue
    let s := if s.cyc % 2 = 0 then s.cpStep else s
    if s.cyc % 8 = 0 then (tblKeys s.chains).foldl paRegFx s else s
  else s

end State

end Sys2Proof.Machine
end

