-- ==== Sys2Proof/Safety.lean ====
section
/-! DEFINITION. What counts as a safe state, in the terms statements use: no energy leaves the device where the manual forbids it. -/

namespace Sys2Proof.Machine

namespace State

/-- No radio-frequency energy leaves the device: every PAn_EN is low and every PA port is driven with code 0 (R19, R372, R470). -/
def egressOff (s : State) : Bool :=
  (List.range 16).all (fun c => !s.paEn c) && (List.range 16).all (fun c => s.paCode c == 0)

/-- The canonical form of every protected memory (R254): keys rising, no cell equal to what an unlisted address reads as. -/
def memWf (s : State) : Bool :=
  [MemSel.imem, .dmem, .quay, .hold, .bankA, .bankB, .desc, .seq, .scan, .cls, .almanac, .refs, .mgmt, .mask, .routes].all
    (fun k => Tbl.wf (fun _ => Cell.zero) (s.mem.tbl k))

/-- The canonical form of the stored registers. -/
def regsWf (s : State) : Bool := Tbl.wf regReset s.regs

/-- The canonical form of a checkpoint's copies of memories and registers. -/
def snapWf (x : Snap) : Bool :=
  [MemSel.imem, .dmem, .quay, .hold, .bankA, .bankB, .desc, .seq, .scan, .cls, .almanac, .refs, .mgmt, .mask, .routes].all
    (fun k => Tbl.wf (fun _ => Cell.zero) (x.mem.tbl k)) && Tbl.wf regReset x.regs

/-- Memories, registers and both checkpoints are in canonical form. -/
def canonical (s : State) : Bool :=
  s.memWf && s.regsWf && (match s.cp0 with | some x => snapWf x | none => true) && (match s.cp1 with | some x => snapWf x | none => true)

/-! ### What a command leaves alone -/

/-- Every register outside a list reads as before. -/
def regsKept (s t : State) (l : List Nat) : Prop := ∀ a, a ∉ l → t.reg a = s.reg a

/-- A message of these four parts, stamped now, has entered the intake queue (R362, R365). -/
def sentNow (s t : State) (src kind hint : Nat) (ctx : Word) : Prop :=
  s.mkMsg src kind hint ctx false ∈ t.fc.queue

/-- The intake queue takes `k` more messages: nothing is held back and there is room (R365). -/
def intakeRoom (s : State) (k : Nat) : Bool := s.fc.heldBack.isEmpty && decide (s.fc.queue.length + k ≤ 64)

/-- The collector has done no more than take messages in: queue, held messages and PEAK (R365). -/
def intakeOnly (s t : State) : Prop :=
  t.fc = { s.fc with queue := t.fc.queue, heldBack := t.fc.heldBack, peak := t.fc.peak }

/-! ### Issue of an engine instruction -/

/-- The engine of instruction `i` stands at it in berth `b` (R210, R213, R230): the task runs, no block instruction, walk or poisoned load is open, the word at PC reads as `i`'s and is legal, and no register it names waits for a load. -/
def standsAt (s : State) (i : Instr) (b : BerthId) : Bool :=
  match encode i with
  | none => false
  | some (e, w) =>
    let en := s.engine e.toNat
    en.running == some b && en.st == .running && en.block.isNone && en.walk.isNone && en.poisoned.isNone &&
    decide (en.live.pc < 8192) && legalWord w &&
    (s.memRead .imem (8192 * e.toNat + en.live.pc) (srcEng e.toNat)).1 == ⟨w, false⟩ &&
    !en.loads.any (fun l => l.berth == b && (regsNamed w).any (fun x => x == l.reg))

/-- The registers an issue may touch: the counts of the fetch's corrected read and of dropped messages, and the sticky flags of ENG_STAT. -/
def issueRegs (e : Nat) : List Nat :=
  [(F.quayMemCorrCnt (e / 16)).addr, F.fcQueueDrop0.addr, (F.engStatSatAny e).addr]

/-- Apart from engine `e` itself, an issue has changed nothing: no other engine, no memory, no register outside `issueRegs`; the fetch of a damaged word may have sent its message and left its write-back (R255). -/
def issueFrame (s t : State) (e : Nat) : Prop :=
  t = { s with engines := t.engines, regs := t.regs, fc := t.fc, writeBacks := t.writeBacks } ∧
  (∀ n, n ≠ e → t.engine n = s.engine n) ∧ s.regsKept t (issueRegs e) ∧ s.intakeOnly t

/-- Engine `e` has issued one instruction that took its task to `x` with these flags: PC is past it, SAT and ACCSAT stick, ENG_STAT's sticky bits with them, and the rest of the engine is as it was (R202, R206, R210). -/
def issuedAs (s t : State) (e : EngId) (x : Task) (sat acc : Bool) : Prop :=
  let n := e.toNat
  let en := s.engine n
  t.engine n = { en with
    live := { x with pc := en.live.pc + 1, sat := x.sat || sat, accsat := x.accsat || acc }
    issuedBerth := (t.engine n).issuedBerth, issuedPc := en.live.pc, issuedProg := en.live.prog, usedAt := some (s.engCyc n) } ∧
  en.running = some (t.engine n).issuedBerth ∧
  t.rdB (F.engStatSatAny n) = (s.rdB (F.engStatSatAny n) || sat) ∧
  t.rdB (F.engStatAccsatAny n) = (s.rdB (F.engStatAccsatAny n) || acc) ∧
  s.issueFrame t n

/-- Engine `e` after an issue from berth `b` is `x`, with the berth, PC and PROG of the issue noted (the last issue). -/
def issuedTo (s t : State) (e : EngId) (b : BerthId) (x : Engine) : Prop :=
  let n := e.toNat
  t.engine n = { x with
    issuedBerth := b, issuedPc := (s.engine n).live.pc, issuedProg := (s.engine n).live.prog, usedAt := some (s.engCyc n) }

/-- The other engines are as before. -/
def otherEngines (s t : State) (e : Nat) : Prop := ∀ n, n ≠ e → t.engine n = s.engine n

/-- Every word of every protected memory reads as before. -/
def wordsKept (s t : State) : Prop := ∀ k a, t.memPeek k a = s.memPeek k a

/-- Every cell of every protected memory but one is as before. -/
def cellsKept (s t : State) (k : MemSel) (a : Nat) : Prop := ∀ j x, ¬(j = k ∧ x = a) → t.cell j x = s.cell j x

/-- The counts of corrected and uncorrectable reads of an engine's memories and of hold memory, and the drop counts of messages. -/
def countRegs (e : Nat) : List Nat := [(F.quayMemCorrCnt (e / 16)).addr, F.holdMemCorrCnt.addr, F.fcQueueDrop0.addr]

/-! ### Band paths and register writes -/

/-- Nothing but band path `n` has changed. -/
def bpOnly (s t : State) (n : Nat) : Prop := t = { s with bps := t.bps } ∧ ∀ m, m ≠ n → t.bp m = s.bp m

/-- The other band paths are as before. -/
def otherBps (s t : State) (n : Nat) : Prop := ∀ m, m ≠ n → t.bp m = s.bp m

/-- The fabric takes this write of a whole register from this requester: its path is open and R436 finds nothing against it. -/
def takesWord (s : State) (who : Requester) (a : Nat) (w : Word) : Bool :=
  s.canReach (reqCode who) && s.writeAns a w == .ok

/-- The word a writer of some fields of a register sends (R436). -/
def wordOf (s : State) (who : Requester) (a : Nat) (l : List (Fld × Nat)) : Word := puts (s.restWord (reqCode who) a) l

/-- The fabric takes this write of fields of a register. -/
def takes (s : State) (who : Requester) (a : Nat) (l : List (Fld × Nat)) : Bool := s.takesWord who a (s.wordOf who a l)

/-- A writer whose stores the replay does not judge: any but an engine of the replay quay (R405). -/
def plainWriter (s : State) (who : Requester) : Prop := reqCode who < 10 ∨ s.inReplayQuay (reqCode who - 10) = false

/-- A cell that reads clean. -/
def clean (s : State) (k : MemSel) (a : Nat) : Bool := !(s.cell k a).poison && (s.cell k a).flips == 0

/-! ### Counts and single units -/

/-- A SAT count has moved on by one event, stopping at all ones (R435, R443). -/
def countsOne (s t : State) (f : Fld) : Prop := t.rd f = Nat.min (s.rd f + 1) (2 ^ (f.hi - f.lo + 1) - 1)

/-- Nothing but chain `c` has changed. -/
def chainOnly (s t : State) (c : Nat) : Prop := t = { s with chains := t.chains } ∧ ∀ d, d ≠ c → t.chain d = s.chain d

/-- A sequence run that starts now at a slot of a chain; an empty slot is at its END (R147). -/
def freshRun (s : State) (c slot : Nat) (point : Option Nat) : SeqRun :=
  s.newRun c slot 0 point

/-- What a register write may touch beside the unit it is meant for: the registers, their parity, and the journal of live writes with the decision of a replay-quay engine, whose words a channel moves (R434, R400, R405, R258). -/
def writeFrame (s t : State) : State :=
  { s with regs := t.regs, parBad := t.parBad, rpl := t.rpl, mem := t.mem, lighters := t.lighters }

/-! ### Commands of the management core -/

/-- A COMMAND of an originator with a SEQ arrives where none of its session waits at the core, and is no repeat of one answered within the last second (R391). -/
def freshCommand (s : State) (o : Origin) (seq : BitVec 16) : Bool :=
  let new := fun (l : List DoneCmd) => !(recentOf l s.cyc).any (fun d => d.seq == seq)
  (s.coreNext o).isNone && match o with
  | .debug => new s.mgmt.debugRecent
  | .addr src _ => (List.range 8).all (fun i => match s.session i with | some x => x.src != src || new x.recent | none => true)

/-- The originator has its session already, so that no other one is evicted for it (R391). -/
def known (s : State) (o : Origin) : Prop := ∀ src p, o = .addr src p → s.sessionOf src ≠ none

/-- The RESPONSE with this payload has been formed: it is among the commands answered, and one for the debug port waits there (R391). -/
def answered (s t : State) (o : Origin) (seq : BitVec 16) (payload : List Byte) : Prop :=
  match o with
  | .debug => ⟨seq, payload, s.cyc⟩ ∈ t.mgmt.debugRecent ∧
      ⟨uartFrame (mkMsgBytes 1 Config.hopLimit.toNat 0 t.ownAddr seq.toNat 0 payload), none, 0⟩ ∈ t.mgmt.debugOut
  | .addr src _ => ∃ i x, i < 8 ∧ t.session i = some x ∧ x.src = src ∧ ⟨seq, payload, s.cyc⟩ ∈ x.recent

/-- Command `i` with operation `op` completes: it is answered with a STATUS and data, and leaves a state of which `P` holds. -/
def commandDone (s : State) (i : Instr) (o : Origin) (seq : BitVec 16) (op status : Nat) (data : List Byte) (P : State → Prop) :
    Prop :=
  ∃ t, exec i s = .next t ∧ s.answered t o seq (beBytes 1 op ++ beBytes 1 status ++ data) ∧ P t

end State

end Sys2Proof.Machine
end

