-- ==== Sys2Proof/WellFormed.lean ====
section
/-! DEFINITION. Which commands are well formed: operands that the manual bounds more tightly than their type does. -/

namespace Sys2Proof

/-- A list of bytes is a SHA-256 hash: 32 bytes (R396). -/
def hashOk (h : List Byte) : Bool := h.length == 32

/-- A frame as the receiver has taken it: at most 256 marker signs (R286), 16 codewords of at most 360 symbols in error (R288), 5 440 payload symbols (R291). -/
def frameOk (f : RxFrame) : Bool :=
  decide (f.markerSigns ≤ 256) && f.errors.length == 16 && f.errors.all (fun e => decide (e ≤ 360)) && f.syms.length == 5440

/-- Slot sectors are of 4 KiB (R413). -/
def slotViewOk (v : SlotView) : Bool :=
  match v with
  | .kept _ => true
  | .sectors s0 s1 _ => decide (s0.length ≤ 4096) && decide (s1.length ≤ 4096)

/-- An engine instruction is well formed when the word it encodes to is legal (R209, R229); the other commands by the bounds of their operands (R413, R441, R392, R150, R423). -/
def wellFormed (i : Instr) : Bool :=
  match encode i with
  | some (_, w) => legalWord w
  | none =>
    match i with
    | .bringupStepBound st => st != 3
    | .coldStart _ _ _ p a => slotViewOk p && slotViewOk a
    | .maskVerdict _ _ v => v.extractLsb' 0 2 != 0
    | .stepWrite _ _ stp => decide (2 ^ 32 ≤ stp.toNat) && decide (stp.toNat ≤ 2 ^ 33)
    | .trimActWrite _ r _ => decide (r.toNat ≤ 6)
    | .lighterBurst ch => decide (ch.toNat < 528)
    | .ltrPosAbort _ ch => decide (ch.toNat < 528)
    | .ltrPosResume _ ch => decide (ch.toNat < 528)
    | .gvFrameReceive _ f => frameOk f
    | .imgBegin _ _ _ h _ => hashOk h
    | .holdWrite _ _ _ c ws => ws.length == c.toNat
    | .routeLoad _ _ _ _ c es => es.length == c.toNat
    | .imageHeaderRead _ _ d h => h.length == 4096 && d.length == 16 && d.all (fun x => x.length == 16)
    | _ => true

end Sys2Proof
end

