-- ==== Sys2Proof/Certificates/Slice0/Obligations.lean ====
section
/-! DEFINITION. What is claimed of the model, for the provers: one statement per group of rules, each with the state it leaves and what it leaves alone. -/

open Sys2Proof Sys2Proof.Machine Sys2Proof.Machine.State

/-- R435 and the block's form: a step of the block takes the oldest waiting command and runs it on the state with the rest of the queue; the commands themselves leave the queue to the step (assumption 4). -/
def Obligations.StepRunsFront : Prop :=
  ∀ (c : Instr) (rest : List Instr) (s : State), s.pending = c :: rest → step s = exec c { s with pending := rest }

/-- R408, R411, R435 and the model's own choice (assumption 4) for an empty queue. In reset every register reads its reset value and every memory word zero, the stored data is canonical, no egress is on, no clock runs and nothing waits. With no command waiting one CLK_E cycle passes: CYC counts, each engine whose task runs past its restore, or issued in the cycle that ends, uses it, the copy of a checkpoint moves on in every second cycle, the PA_EN output registers follow at CLK_S edges, and no memory, register, band path or port changes; a held cause whose removal is due is removed; before the PLL has locked nothing changes. -/
def Obligations.ResetAndIdle : Prop :=
  (∀ a, State.reset.reg a = regReset a) ∧ (∀ k a, State.reset.memPeek k a = 0) ∧ State.reset.canonical = true ∧
  State.reset.egressOff = true ∧ State.reset.fc.c4 = false ∧ State.reset.pending = [] ∧ step State.reset = .next State.reset ∧
  ∀ s : State, s.pending = [] →
    (s.alive = false → step s = .next s) ∧
    (s.alive = true → s.time.setAt = none → s.time.stepTo = none → s.heldOff = [] →
      s.rpl.copying = none → (∀ k, (s.port k).goEnds = none) →
      (∀ k, (s.cxPort k).req = false ∨ (s.cxPort k).yielding = true) → ∃ t, step s = .next t ∧
      t = { s with cyc := s.cyc + 1, rpl := t.rpl, engines := t.engines, time := t.time, chains := t.chains, loops := t.loops } ∧
      ((s.cyc + 1) % 8 ≠ 0 → t.chains = s.chains ∧ t.loops = s.loops) ∧
      ((s.cyc + 1) % 8 = 0 → (tblKeys s.chains).Nodup → ∀ c ∈ tblKeys s.chains, (t.chain c).paReg = s.paEn c ∧
        (s.paEn c = (s.chain c).paReg → t.chain c = s.chain c)) ∧
      t.rpl = { s.rpl with rcyc := if s.rpl.st = .replaying then s.rpl.rcyc + 1 else s.rpl.rcyc } ∧
      (t.setCyc % 32 ≠ 0 → t.time.now = s.time.now) ∧
      (t.setCyc % 32 = 0 → s.time.corrTicks = 0 → s.time.st ≠ .holdover →
        t.time.now = held32 (s.time.now + (if t.setCyc / 32 % 3 = 2 then 546133334 else 546133333))) ∧
      ((tblKeys s.engines).Nodup → ∀ e,
        let en := s.engine e
        let counts := (en.st = .running ∧ en.runFrom < t.engCyc e) ∨ ∃ u, en.usedAt = some u ∧ u + 1 = t.engCyc e
        (counts → t.engine e = { en with used := en.used + 1 }) ∧ (¬ counts → t.engine e = en))) ∧
    (∀ at_, s.alive = true → s.heldOff = [⟨none, at_, false⟩] → at_ ≤ s.cyc + 1 → s.replayMode = false →
      ∃ t, step s = .next t ∧ t.heldOff = [] ∧
        ∀ n ∈ s.planned, s.planN n plMuteNBind = 1 → (t.bp n).prot.held.muteN = false)

/-- R8: convergent rounding gives the nearest integer, an exact half to the even one, and saturation the nearest value of the format. -/
def Obligations.RoundingAndSaturation : Prop :=
  (∀ (x : Int) (k : Nat),
    let r := roundBits x k
    2 * |r * 2 ^ k - x| ≤ 2 ^ k ∧ (2 * |r * 2 ^ k - x| = 2 ^ k → r % 2 = 0)) ∧
  (∀ (x : Int) (w : Nat), 1 ≤ w →
    -(2 ^ (w - 1) : Int) ≤ satS w x ∧ satS w x ≤ 2 ^ (w - 1) - 1 ∧
    (-(2 ^ (w - 1) : Int) ≤ x → x ≤ 2 ^ (w - 1) - 1 → satS w x = x) ∧
    (x < -(2 ^ (w - 1) : Int) → satS w x = -(2 ^ (w - 1) : Int)) ∧ ((2 ^ (w - 1) - 1 : Int) < x → satS w x = 2 ^ (w - 1) - 1))

/-- R251: a table entry that is not valid, has a reserved bit set, or names quay page 256 or above is ENG_XLATE; then a missing permission is ENG_PERM; then a hold page outside the words R249 opens, or in a block instruction, is ENG_PERM; otherwise it leads to the word of its page. -/
def Obligations.TableEntryRule : Prop :=
  ∀ (w : Word) (off : Nat) (acc : Access),
    let v := w.getLsbD 39
    let hold := w.getLsbD 38
    let page := w.toNat % 4096
    let a := page * 1024 + off
    let open' := 0x380000 ≤ a ∧ (a < 0x3FE000 ∨ acc.store = false)
    let bad := v = false ∨ w.toNat / 4096 % 2 ^ 24 ≠ 0 ∨ (hold = false ∧ 256 ≤ page)
    let perm := if acc.store then w.getLsbD 36 else w.getLsbD 37
    (bad → applyEntry w off acc = .fault 3) ∧
    (¬ bad → perm = false → applyEntry w off acc = .fault 4) ∧
    (¬ bad → perm = true → hold = true → (¬ open' ∨ acc.block = true) → applyEntry w off acc = .fault 4) ∧
    (¬ bad → perm = true → hold = true → open' → acc.block = false → applyEntry w off acc = .hold a) ∧
    (¬ bad → perm = true → hold = false → applyEntry w off acc = .quay a)

/-- R202, R231, R204: W0 reads 0 and P0 reads true, and a write of either changes nothing; any other register reads as last written, and a write leaves the others alone. RDCYC reads the cycle count of its engine, RDTIME both halves of the calendar time from one reading, RDST STATUS, RDP the predicates with bit 0 set; CLST clears SAT with fn[3] and ACCSAT with fn[2]. The readings and choices of the model in it are those of assumption 9. -/
def Obligations.TaskStateAndConstants : Prop :=
  (∀ (t : Task) (v : Word) (q : Bool),
    t.getW 0 = 0 ∧ t.setW 0 v = t ∧ t.getP 0 = true ∧ t.setP 0 q = t ∧
    (∀ r m, r ≠ 0 → (t.setW r v).getW m = if m = r then v else t.getW m) ∧
    (∀ r m, 1 ≤ r → r ≤ 7 → m ≤ 7 → (t.setP r q).getP m = if m = r then q else t.getP m) ∧
    (∀ r m, (t.setW r v).getP m = t.getP m) ∧ (∀ r m, (t.setP r q).getW m = t.getW m)) ∧
  (∀ (s : State) (e : EngId) (b : BerthId) (f : T3),
    let t := (s.engine e.toNat).live
    (∀ row ∈ ([(.rdcyc e f, t.setW f.d.toNat (BitVec.ofNat 40 (s.engCyc e.toNat))),
        (.rdtime e f, (t.setW f.d.toNat (timeHi s.time.now)).setW (f.d.toNat + 1) (timeLo s.time.now)),
        (.rdst e f, t.setW f.d.toNat (BitVec.ofNat 40
          ((if t.sat then 8 else 0) + (if t.accsat then 4 else 0) + (if t.urgent then 2 else 0) + (if t.suspended then 1 else 0)))),
        (.rdp e f, t.setW f.d.toNat (BitVec.ofNat 40 (t.p.toNat / 2 * 2 + 1))),
        (.clst e f, { t with
          sat := if f.fn.getLsbD 3 then false else t.sat
          accsat := if f.fn.getLsbD 2 then false else t.accsat })] : List (Instr × Task)),
      s.standsAt row.1 b = true →
      ∃ s', exec row.1 s = .next s' ∧ s.issuedAs s' e row.2 false false))

/-- R231, R206, R208, R232: ADD, SUB, MUL, FMUL, ABS, SHL, ADDI and ADDIS complete where their engine stands at them; the exact result is wrapped modulo 2^40, or saturated to s40.0 with S, and SAT is set exactly when saturation changed it. Nothing but the destination, PC and the flags of the task changes. The readings and choices of the model in it are those of assumption 9. -/
def Obligations.EngineIntegerArithmetic : Prop :=
  ∀ (s : State) (e : EngId) (b : BerthId),
    let t := (s.engine e.toNat).live
    (∀ (f : T3),
      let x := (t.getW f.a.toNat).toInt
      let y := (t.getW f.b.toNat).toInt
      let n := (t.getW f.b.toNat).toNat % 64
      ∀ row ∈ ([(.add e f, x + y), (.sub e f, x - y), (.mul e f, x * y), (.fmul e f, roundBits (x * y) 39),
          (.abs e f, |x|), (.shl e f, x * 2 ^ n)] : List (Instr × Int)),
        s.standsAt row.1 b = true →
        let sat := f.fn.getLsbD 16
        ∃ s', exec row.1 s = .next s' ∧
          s.issuedAs s' e (t.setW f.d.toNat (BitVec.ofInt 40 (if sat then satS 40 row.2 else row.2)))
            (sat && satS 40 row.2 != row.2) false) ∧
    (∀ (f : I2),
      let v := (t.getW f.a.toNat).toInt + f.imm.toInt
      (s.standsAt (.addi e f) b = true →
        ∃ s', exec (.addi e f) s = .next s' ∧ s.issuedAs s' e (t.setW f.d.toNat (BitVec.ofInt 40 v)) false false) ∧
      (s.standsAt (.addis e f) b = true →
        ∃ s', exec (.addis e f) s = .next s' ∧
          s.issuedAs s' e (t.setW f.d.toNat (BitVec.ofInt 40 (satS 40 v))) (satS 40 v != v) false))

/-- R231, R234, R232: CADD, CSUB and CONJ work on each s1.19 component, wrapped modulo 2^20 or saturated with S; CMUL rounds the exact product to 19 fraction bits and saturates; CSRA rounds each component shifted right. The real half stands in [39:20]. The readings and choices of the model in it are those of assumption 9. -/
def Obligations.EngineComplexArithmetic : Prop :=
  ∀ (s : State) (e : EngId) (b : BerthId),
    let t := (s.engine e.toNat).live
    let re := fun (w : Word) => (w.extractLsb' 20 20).toInt
    let im := fun (w : Word) => (w.extractLsb' 0 20).toInt
    let pack := fun (x y : Int) => (BitVec.ofInt 20 x ++ BitVec.ofInt 20 y : Word)
    (∀ (f : T3),
      let x := t.getW f.a.toNat
      let y := t.getW f.b.toNat
      (∀ row ∈ ([(.cadd e f, re x + re y, im x + im y), (.csub e f, re x - re y, im x - im y), (.conj e f, re x, -im x)] :
          List (Instr × Int × Int)),
        s.standsAt row.1 b = true →
        let sat := f.fn.getLsbD 16
        let u := row.2.1
        let v := row.2.2
        ∃ s', exec row.1 s = .next s' ∧
          s.issuedAs s' e (t.setW f.d.toNat (if sat then pack (satS 20 u) (satS 20 v) else pack u v))
            (sat && (satS 20 u != u || satS 20 v != v)) false) ∧
      (s.standsAt (.cmul e f) b = true →
        let yi := if f.fn.getLsbD 0 then -im y else im y
        let u := roundBits (re x * re y - im x * yi) 19
        let v := roundBits (re x * yi + im x * re y) 19
        ∃ s', exec (.cmul e f) s = .next s' ∧
          s.issuedAs s' e (t.setW f.d.toNat (pack (satS 20 u) (satS 20 v))) (satS 20 u != u || satS 20 v != v) false)) ∧
    (∀ (f : I2), s.standsAt (.csra e f) b = true →
      let x := t.getW f.a.toNat
      ∃ s', exec (.csra e f) s = .next s' ∧
        s.issuedAs s' e (t.setW f.d.toNat (pack (roundBits (re x) f.imm.toNat) (roundBits (im x) f.imm.toNat))) false false)

/-- R231: MIN, MAX, AND, OR, XOR, SEL, ANDI, ORI, XORI and LUI write one word and change no flag. The readings and choices of the model in it are those of assumption 9. -/
def Obligations.EngineWordOperations : Prop :=
  ∀ (s : State) (e : EngId) (b : BerthId),
    let t := (s.engine e.toNat).live
    (∀ (f : T3),
      let x := t.getW f.a.toNat
      let y := t.getW f.b.toNat
      ∀ row ∈ ([(.min e f, BitVec.ofInt 40 (Min.min x.toInt y.toInt)), (.max e f, BitVec.ofInt 40 (Max.max x.toInt y.toInt)),
          (.andW e f, x &&& y), (.orW e f, x ||| y), (.xor e f, x ^^^ y),
          (.sel e f, if t.getP (f.fn.toNat % 8) then x else y)] : List (Instr × Word)),
        s.standsAt row.1 b = true →
        ∃ s', exec row.1 s = .next s' ∧ s.issuedAs s' e (t.setW f.d.toNat row.2) false false) ∧
    (∀ (f : I2),
      let x := t.getW f.a.toNat
      let i : Word := BitVec.ofNat 40 f.imm.toNat
      ∀ row ∈ ([(.andi e f, x &&& i), (.ori e f, x ||| i), (.xori e f, x ^^^ i),
          (.lui e f, BitVec.ofNat 40 (f.imm.toNat * 2 ^ 18))] : List (Instr × Word)),
        s.standsAt row.1 b = true →
        ∃ s', exec row.1 s = .next s' ∧ s.issuedAs s' e (t.setW f.d.toNat row.2) false false)

/-- R232: SHR, SRA, SHLI, SHRI, SRAI, EXTU, EXTS, INS, NORM and POPC. A register amount is taken from w[b][5:0]; a bit field has its low bit in imm[11:6] and its width in imm[5:0]. The readings and choices of the model in it are those of assumption 9. -/
def Obligations.EngineShiftsAndFields : Prop :=
  ∀ (s : State) (e : EngId) (b : BerthId),
    let t := (s.engine e.toNat).live
    (∀ (f : T3),
      let x := t.getW f.a.toNat
      let n := (t.getW f.b.toNat).toNat % 64
      (∀ row ∈ ([(.shr e f, BitVec.ofNat 40 (x.toNat / 2 ^ n)), (.sra e f, BitVec.ofInt 40 (x.toInt / 2 ^ n)),
          (.popc e f, BitVec.ofNat 40 ((List.range 40).countP (fun i => x.getLsbD i)))] : List (Instr × Word)),
        s.standsAt row.1 b = true →
        ∃ s', exec row.1 s = .next s' ∧ s.issuedAs s' e (t.setW f.d.toNat row.2) false false) ∧
      (s.standsAt (.norm e f) b = true →
        ∃ s' k, exec (.norm e f) s = .next s' ∧ k ≤ 39 ∧ (∀ i, i < k → x.getLsbD (38 - i) = x.getLsbD 39) ∧
          (k < 39 → x.getLsbD (38 - k) ≠ x.getLsbD 39) ∧
          s.issuedAs s' e (t.setW f.d.toNat (BitVec.ofNat 40 k)) false false)) ∧
    (∀ (f : I2),
      let x := t.getW f.a.toNat
      let n := f.imm.toNat
      let lo := n / 64
      let wd := n % 64
      (∀ row ∈ ([(.shli e f, BitVec.ofNat 40 (x.toNat * 2 ^ n)), (.shri e f, BitVec.ofNat 40 (x.toNat / 2 ^ n)),
          (.srai e f, BitVec.ofInt 40 (x.toInt / 2 ^ n)),
          (.extu e f, BitVec.ofNat 40 (x.toNat / 2 ^ lo % 2 ^ wd)),
          (.exts e f, BitVec.ofInt 40 (sx wd (x.toNat / 2 ^ lo)))] : List (Instr × Word)),
        s.standsAt row.1 b = true →
        ∃ s', exec row.1 s = .next s' ∧ s.issuedAs s' e (t.setW f.d.toNat row.2) false false) ∧
      (s.standsAt (.ins e f) b = true →
        ∃ (s' : State) (r : Word), exec (.ins e f) s = .next s' ∧
          (∀ i, i < 40 → r.getLsbD i =
            if lo ≤ i ∧ i < lo + wd then x.getLsbD (i - lo) else (t.getW f.d.toNat).getLsbD i) ∧
          s.issuedAs s' e (t.setW f.d.toNat r) false false))

/-- R233: the comparisons, tests and logic of predicates write one predicate, and WRP writes P1 to P7. The readings and choices of the model in it are those of assumption 9. -/
def Obligations.EnginePredicates : Prop :=
  ∀ (s : State) (e : EngId) (b : BerthId),
    let t := (s.engine e.toNat).live
    (∀ (f : T3),
      let x := t.getW f.a.toNat
      let y := t.getW f.b.toNat
      let p := t.getP f.a.toNat
      let q := t.getP f.b.toNat
      (∀ row ∈ ([(.peq e f, decide (x = y)), (.pne e f, decide (x ≠ y)), (.plt e f, decide (x.toInt < y.toInt)),
          (.ple e f, decide (x.toInt ≤ y.toInt)), (.pltu e f, decide (x.toNat < y.toNat)),
          (.pbit e f, x.toNat.testBit (y.toNat % 64)), (.pand e f, p && q), (.por e f, p || q), (.pxor e f, p ^^ q),
          (.pandn e f, p && !q), (.pnz e f, decide (x ≠ 0))] : List (Instr × Bool)),
        s.standsAt row.1 b = true →
        ∃ s', exec row.1 s = .next s' ∧ s.issuedAs s' e (t.setP f.d.toNat row.2) false false) ∧
      (s.standsAt (.wrp e f) b = true →
        ∃ (s' : State) (v : BitVec 8), exec (.wrp e f) s = .next s' ∧
          (∀ n, 1 ≤ n → n ≤ 7 → ({ t with p := v } : Task).getP n = x.getLsbD n) ∧
          s.issuedAs s' e { t with p := v } false false)) ∧
    (∀ (f : I2),
      let x := (t.getW f.a.toNat).toInt
      let i := f.imm.toInt
      ∀ row ∈ ([(.peqi e f, decide (x = i)), (.plti e f, decide (x < i)), (.pgti e f, decide (i < x))] : List (Instr × Bool)),
        s.standsAt row.1 b = true →
        ∃ s', exec row.1 s = .next s' ∧ s.issuedAs s' e (t.setP f.d.toNat row.2) false false)

/-- R207, R234, R204: CMAC and CMSU add or subtract the exact product, each half of the accumulator saturating at the bounds of s10.38 with ACCSAT; ACLR clears; ANRW narrows by a shift with rounding, saturation and SAT, and clears the accumulator only with fn[4]; ARD and AWR read and write one word of it in the layout of the context frame. The readings and choices of the model in it are those of assumption 9. -/
def Obligations.EngineAccumulators : Prop :=
  ∀ (s : State) (e : EngId) (b : BerthId) (f : T3),
    let t := (s.engine e.toNat).live
    let re := fun (w : Word) => (w.extractLsb' 20 20).toInt
    let im := fun (w : Word) => (w.extractLsb' 0 20).toInt
    let x := t.getW f.a.toNat
    let y := t.getW f.b.toNat
    let k := f.d.toNat
    let yi := if f.fn.getLsbD 0 then -im y else im y
    let pr := re x * re y - im x * yi
    let pim := re x * yi + im x * re y
    (∀ row ∈ ([(.cmac e f, (t.getAcc k 0).toInt + pr, (t.getAcc k 1).toInt + pim),
        (.cmsu e f, (t.getAcc k 0).toInt - pr, (t.getAcc k 1).toInt - pim)] : List (Instr × Int × Int)),
      s.standsAt row.1 b = true →
      let u := row.2.1
      let v := row.2.2
      ∃ s', exec row.1 s = .next s' ∧
        s.issuedAs s' e ((t.setAcc k 0 (BitVec.ofInt 48 (satS 48 u))).setAcc k 1 (BitVec.ofInt 48 (satS 48 v)))
          false (satS 48 u != u || satS 48 v != v)) ∧
    (s.standsAt (.aclr e f) b = true →
      ∃ s', exec (.aclr e f) s = .next s' ∧ s.issuedAs s' e ((t.setAcc k 0 0).setAcc k 1 0) false false) ∧
    (s.standsAt (.anrw e f) b = true →
      let j := f.a.toNat
      let u := roundBits (t.getAcc j 0).toInt (19 + f.fn.toNat % 16)
      let v := roundBits (t.getAcc j 1).toInt (19 + f.fn.toNat % 16)
      let t' := t.setW f.d.toNat (BitVec.ofInt 20 (satS 20 u) ++ BitVec.ofInt 20 (satS 20 v))
      ∃ s', exec (.anrw e f) s = .next s' ∧
        s.issuedAs s' e (if f.fn.getLsbD 4 then (t'.setAcc j 0 0).setAcc j 1 0 else t') (satS 20 u != u || satS 20 v != v) false) ∧
    (s.standsAt (.ard e f) b = true →
      let j := f.fn.toNat % 4
      let h := (t.getAcc f.a.toNat (j / 2)).toNat
      ∃ s', exec (.ard e f) s = .next s' ∧
        s.issuedAs s' e (t.setW f.d.toNat (BitVec.ofNat 40 (if j % 2 = 0 then h / 256 else h % 256 * 2 ^ 32))) false false) ∧
    (s.standsAt (.awr e f) b = true →
      let j := f.fn.toNat % 4
      let h := (t.getAcc k (j / 2)).toNat
      ∃ s', exec (.awr e f) s = .next s' ∧
        s.issuedAs s' e (t.setAcc k (j / 2)
          (BitVec.ofNat 48 (if j % 2 = 0 then x.toNat * 256 + h % 256 else h / 256 * 256 + x.toNat / 2 ^ 32))) false false)

/-- R211, R248, R237, R213, R252, R250, R251: An engine address below 0x4000 is data memory, one from 0x10_0000 up faults, and any other is decided by the translation buffer's entry of its page, or misses. The data of a load reaches its register while its task runs, and the register's word of the saved frame while it does not; poisoned data of a running task waits for the next issue or element boundary and writes nothing, the first such load giving the fault's PC. A walk that reads a table word without poison and without a fault fills the buffer with it, and the page hits from then on; one that finds the table beyond quay memory, a word it may not use or a poisoned word suspends the waiting task at its instruction with ENG_XLATE, ENG_PERM or ENG_POISON, and for a block instruction is held until the element that needs the page. The readings and choices of the model in it are those of assumption 9. -/
def Obligations.AddressesAndWalks : Prop :=
  (∀ (en : Engine) (a : Nat) (acc : Access),
    (a < 0x4000 → en.target a acc = .data a) ∧
    (0x100000 ≤ a → en.target a acc = .fault 3) ∧
    (0x4000 ≤ a → a < 0x100000 →
      (∀ x, en.tlbFind en.live.table (a / 1024) = some x → en.target a acc = applyEntry x.entry (a % 1024) acc) ∧
      (en.tlbFind en.live.table (a / 1024) = none → en.target a acc = .miss (a / 1024)))) ∧
  (∀ (s : State) (e : EngId) (b : BerthId) (r : BitVec 5) (l : PendLoad),
    let n := e.toNat
    let en := s.engine n
    en.loads.find? (fun x => x.berth == b && x.reg == r) = some l → l.regIn = none →
    let rest := { en with loads := en.loads.erase l }
    (en.running = some b → l.poison = false →
      ∃ s', exec (.loadDataReturn e b r) s = .next s' ∧
        s'.engine n = { rest with live := en.live.setW r.toNat l.word } ∧ s.otherEngines s' n ∧
        s' = { s with engines := s'.engines }) ∧
    (en.running = some b → l.poison = true →
      ∃ s', exec (.loadDataReturn e b r) s = .next s' ∧
        s'.engine n = { rest with poisoned := some (en.poisoned.getD l.pc) } ∧ s.otherEngines s' n ∧ s' = { s with engines := s'.engines }) ∧
    (en.running ≠ some b → l.poison = false → r ≠ 0 →
      ∃ s', exec (.loadDataReturn e b r) s = .next s' ∧
        s'.cell .dmem (16384 * n + 15360 + 64 * b.toNat + r.toNat) = ⟨l.word, 0, false⟩ ∧
        s.cellsKept s' .dmem (16384 * n + 15360 + 64 * b.toNat + r.toNat) ∧ s'.engine n = rest ∧ s.otherEngines s' n)) ∧
  (∀ (s : State) (e : EngId) (b : BerthId) (k : WalkWait) (w : Word),
    let n := e.toNat
    let en := s.engine n
    let a := en.live.table.toNat * 1024 + k.vpage
    let word := (s.memRead .quay (262144 * (n / 16) + a) (srcQuay (n / 16))).1
    let bad := fun (code : Nat) =>
      (k.block = false → s.intakeRoom 2 = true →
        ∃ s', exec (.tlbWalk e) s = .next s' ∧ (s'.engine n).walk = none ∧ (s'.engine n).suspended.getLsbD b.toNat = true ∧
          s.sentNow s' (srcEng n) code (if s.handlerOf n = some b.toNat then 3 else 2) (engCtx n b.toNat en.live.pc en.live.prog.toNat)) ∧
      (k.block = true →
        ∃ s', exec (.tlbWalk e) s = .next s' ∧ s.otherEngines s' n ∧
          s'.engine n = { en with walk := none, blkFailed := en.blkFailed ++ [(k.vpage, BitVec.ofNat 8 code)] })
    en.walk = some k → en.running = some b →
    (a < 262144 → word = ⟨w, false⟩ →
      (∀ c, applyEntry w 0 ⟨k.store, k.block⟩ ≠ .fault c) → en.tlbFind en.live.table k.vpage = none →
      ∃ s', exec (.tlbWalk e) s = .next s' ∧ (s'.engine n).walk = none ∧ (s'.engine n).live = en.live ∧
        (s'.engine n).tlbFind en.live.table k.vpage = some ⟨en.fill, en.live.table, k.vpage, w⟩ ∧
        (s'.engine n).fill = (en.fill + 1) % 32 ∧ s.otherEngines s' n ∧ s'.mem = s.mem ∧ s.regsKept s' (countRegs n)) ∧
    (∀ c, a < 262144 → word = ⟨w, false⟩ → applyEntry w 0 ⟨k.store, k.block⟩ = .fault c → bad c) ∧
    (a < 262144 → word.poison = true → bad 5) ∧
    (262144 ≤ a → bad 3))

/-- R235, R211, R213, R237: LD reads the word its address leads to and PC advances; the word, with its poison, waits to be written to its register. A page that misses starts a walk and the instruction has not issued. No word of memory changes. The readings and choices of the model in it are those of assumption 9. -/
def Obligations.EngineLoadsWord : Prop :=
  ∀ (s : State) (e : EngId) (b : BerthId) (f : I2), s.standsAt (.ld e f) b = true →
    let n := e.toNat
    let en := s.engine n
    let t := en.live
    let a := (t.getW f.a.toNat + f.imm.signExtend 40).toNat
    let loaded := fun (r : ReadWord) (reg : Option Nat) =>
      ∃ s', exec (.ld e f) s = .next s' ∧
        s.issuedTo s' e b { en with
          live := { t with pc := t.pc + 1 }, loads := en.loads ++ [⟨b, f.d, t.pc, r.word, r.poison, reg⟩] } ∧
        s.otherEngines s' n ∧ s.wordsKept s' ∧ s.regsKept s' (countRegs n) ∧ s.intakeOnly s' ∧
        s' = { s with engines := s'.engines, regs := s'.regs, fc := s'.fc, writeBacks := s'.writeBacks, mem := s'.mem }
    (∀ x, en.target a ⟨false, false⟩ = .data x → loaded (s.memRead .dmem (16384 * n + x) (srcEng n)).1 none) ∧
    (∀ x, en.target a ⟨false, false⟩ = .quay x →
      loaded (s.memRead .quay (262144 * (n / 16) + x) (srcQuay (n / 16))).1 none) ∧
    (∀ x, en.target a ⟨false, false⟩ = .hold x → loaded (s.memRead .hold x srcHold).1 (s.holdRegIn n x)) ∧
    (∀ v, en.target a ⟨false, false⟩ = .miss v →
      ∃ s', exec (.ld e f) s = .next s' ∧ s'.engine n = { en with walk := some ⟨v, false, false⟩ } ∧ s.issueFrame s' n)

/-- R235, R211, R253, R255: ST writes its register to the word its address leads to, with poison clear, and PC advances; a store into quay memory drops every translation-buffer entry of that quay read from the word. No other word of memory changes. The readings and choices of the model in it are those of assumptions 9, 10. -/
def Obligations.EngineStoresWord : Prop :=
  ∀ (s : State) (e : EngId) (b : BerthId) (f : I2), s.standsAt (.st e f) b = true →
    let n := e.toNat
    let en := s.engine n
    let t := en.live
    let a := (t.getW f.a.toNat + f.imm.signExtend 40).toNat
    let stored := fun (k : MemSel) (x : Nat) =>
      ∃ s', exec (.st e f) s = .next s' ∧ s'.cell k x = ⟨t.getW f.d.toNat, 0, false⟩ ∧ s.cellsKept s' k x ∧
        s.regsKept s' (issueRegs n) ∧ s.intakeOnly s' ∧
        s' = { s with engines := s'.engines, regs := s'.regs, fc := s'.fc, writeBacks := s'.writeBacks, mem := s'.mem } ∧
        (k ≠ .quay →
          s.issuedTo s' e b { en with live := { t with pc := t.pc + 1 } } ∧ s.otherEngines s' n) ∧
        (k = .quay → (s'.engine n).live = { t with pc := t.pc + 1 } ∧
          ∀ m, m / 16 = n / 16 → (s'.engine m).tlb =
            (s.engine m).tlb.filter (fun y => y.table.toNat * 1024 + y.vpage + 262144 * (n / 16) != x))
    (∀ x, en.target a ⟨true, false⟩ = .data x → x < 0x3C00 → stored .dmem (16384 * n + x)) ∧
    (∀ x, en.target a ⟨true, false⟩ = .quay x → stored .quay (262144 * (n / 16) + x)) ∧
    (∀ x, en.target a ⟨true, false⟩ = .hold x → stored .hold x) ∧
    (∀ v, en.target a ⟨true, false⟩ = .miss v →
      ∃ s', exec (.st e f) s = .next s' ∧ s'.engine n = { en with walk := some ⟨v, true, false⟩ } ∧ s.issueFrame s' n)

/-- R210, R238: BR and CALL go to PC + displacement, JR and JRL to the register plus the displacement formed in 40 bits, when the condition holds; CALL and JRL write PC + 1 to W31; otherwise PC advances. The condition tests a predicate, its complement, or a register against zero. The readings and choices of the model in it are those of assumption 9. -/
def Obligations.EngineBranches : Prop :=
  ∀ (s : State) (e : EngId) (b : BerthId) (f : I2),
    let n := e.toNat
    let en := s.engine n
    let t := en.live
    let c := f.d.toNat
    let x := (t.getW f.a.toNat).toInt
    let taken := if c < 8 then t.getP c else if c < 16 then !t.getP (c - 8)
      else if c = 16 then decide (x = 0) else if c = 17 then decide (x ≠ 0) else if c = 18 then decide (x < 0)
      else if c = 19 then decide (0 ≤ x) else if c = 20 then decide (0 < x) else decide (x ≤ 0)
    let near : Int := t.pc + f.imm.toInt
    let far : Int := (t.getW f.a.toNat + f.imm.signExtend 40).toNat
    ∀ row ∈ ([(.br e f, near, false), (.call e f, near, true), (.jr e f, far, false), (.jrl e f, far, true)] :
        List (Instr × Int × Bool)),
      s.standsAt row.1 b = true →
      (taken = true → 0 ≤ row.2.1 → row.2.1 ≤ 8191 →
        ∃ s', exec row.1 s = .next s' ∧ s.issueFrame s' n ∧
          s.issuedTo s' e b { en with live :=
            { (if row.2.2 then t.setW 31 (BitVec.ofNat 40 (t.pc + 1)) else t) with pc := row.2.1.toNat } }) ∧
      (taken = false →
        ∃ s', exec row.1 s = .next s' ∧ s.issueFrame s' n ∧ s.issuedTo s' e b { en with live := { t with pc := t.pc + 1 } })

/-- R239, R240, R252: a block instruction whose streams are aligned, and whose quay pages all hit, starts at element PROG under its mask predicate, which BFLY does not have. The readings and choices of the model in it are those of assumption 9. -/
def Obligations.BlockInstructionsStart : Prop :=
  ∀ (s : State) (e : EngId) (b : BerthId) (f : K5),
    let n := e.toNat
    let en := s.engine n
    ∀ row ∈ ([(.vmac e f, 0x68), (.firs e f, 0x69), (.corr e f, 0x6A), (.bfly e f, 0x6B), (.vmul e f, 0x6C), (.vfill e f, 0x6D)] :
        List (Instr × BitVec 8)),
      s.standsAt row.1 b = true →
      let ms := blockStreams row.2 f en.live
      blockMisaligned row.2 ms = false → en.blockMiss ms en.live.prog.toNat = none →
      ∃ s', exec row.1 s = .next s' ∧ s.issueFrame s' n ∧
        s.issuedTo s' e b { en with
          block := some ⟨row.2, f, row.2 = 0x6B || en.live.getP (f.mode.toNat / 128)⟩ }

/-- R212, R227, R230, R237, R240, R241, R243: an element of a block instruction, its streams in data or quay memory. VMAC and FIRS add the product to their accumulator, CORR one product to the accumulator of each lag, BFLY writes its two halved results and VMUL its product, both with SAT, and VFILL its word, while the mask holds; PROG steps on, and after the last element PROG is 0 and PC past the instruction, FIRS counting its register up. While the mask is false the element changes nothing but PROG and PC. ENG_PC shows the PROG that was reached. An element whose first stream, or whose written one, faults in translation or permission or is poisoned suspends the task with PROG at it and a message, a page that misses starts a walk, and a fault that poisoned load data left pending is taken at the element boundary instead, with code 5 (R237). The readings and choices of the model in it are those of assumption 9. -/
def Obligations.BlockElementEffects : Prop :=
  ∀ (s : State) (e : EngId) (b : BerthId) (k : BlockRun),
    let n := e.toNat
    let en := s.engine n
    let t := en.live
    let i := t.prog.toNat
    let f := k.fields
    let cnt := if f.count = 0 then 1024 else f.count.toNat
    let ms := blockStreams k.op f t
    let run := exec (.blockElementEffect e) s
    let after := fun (x : Task) =>
      if i + 1 = cnt then
        { (if k.op = 0x69 then x.setW f.b.toNat (x.getW f.b.toNat + 1) else x) with prog := 0, pc := t.pc + 1 }
      else { x with prog := BitVec.ofNat 10 (i + 1) }
    let done := fun (s' : State) (x : Task) =>
      s.otherEngines s' n ∧ (s'.engine n).live = after x ∧ (s'.engine n).issuedProg = (s'.engine n).live.prog ∧
        ((s'.engine n).block = none ↔ i + 1 = cnt)
    let place := fun (m : Strm) (j : Nat) => match en.elemTarget (m.at' j) m.write with
      | .data a => some (MemSel.dmem, 16384 * n + a)
      | .quay a => some (MemSel.quay, 262144 * (n / 16) + a)
      | _ => none
    let holds := fun (m : Strm) (j : Nat) (w : Word) => ∃ p, place m j = some p ∧ s.cell p.1 p.2 = ⟨w, 0, false⟩
    let conj := f.mode.toNat % 2 = 1
    let times := fun (x y : Word) => (cOf x).mul (if conj then (cOf y).conj else cOf y)
    let adds := fun (u : Task) (j : Nat) (c : Cplx) => let r := u.accumulate j c; { r.1 with accsat := r.1.accsat || r.2 }
    let stops := fun (code : Nat) =>
      ∃ s', run = .next s' ∧ (s'.engine n).suspended.getLsbD b.toNat = true ∧ (s'.engine n).block = none ∧
        s.sentNow s' (srcEng n) code (if s.handlerOf n = some b.toNat then 3 else 2) (engCtx n b.toNat t.pc t.prog.toNat)
    en.block = some k → en.running = some b → en.walk = none →
    (∀ pc, en.poisoned = some pc →
      ∃ s', run = .next s' ∧ (s'.engine n).suspended.getLsbD b.toNat = true ∧
        (s.urgentBerth n b.toNat = false → (s'.engine n).lastFault = 5) ∧ (s'.engine n).poisoned = none ∧ (s'.engine n).block = none) ∧
    (en.poisoned = none → i < cnt →
      (∀ A B x y, k.op = 0x68 ∨ k.op = 0x69 → ms = [A, B] → holds A i x → holds B i y →
        ∃ s', run = .next s' ∧ s'.mem = s.mem ∧ done s' (if k.mask then adds t f.acc.toNat (times x y) else t)) ∧
      (∀ A B x (y : Nat → Word), k.op = 0x6A → ms = [A, B] → holds A i x → (∀ j, j ≤ f.acc.toNat → holds B (i + j) (y j)) →
        ∃ s', run = .next s' ∧ s'.mem = s.mem ∧
          done s' (if k.mask then (List.range (f.acc.toNat + 1)).foldl (fun u j => adds u j (times x (y j))) t else t)) ∧
      (∀ A B T x y w, k.op = 0x6B → ms = [A, B, T] → holds A i x → holds B i y → holds T i w → place A i ≠ place B i →
        let p := (cOf y).mul (cOf w)
        let x' : Cplx := ⟨(cOf x).re * 524288, (cOf x).im * 524288⟩
        let ra := narrowC (x'.add p) 20
        let rb := narrowC (x'.sub p) 20
        (∀ v, place A i = some v ∨ place B i = some v → v.1 = .dmem) →
        ∃ s', run = .next s' ∧ done s' (if k.mask then { t with sat := t.sat || ra.2 || rb.2 } else t) ∧
          (∀ v, place A i = some v → s'.cell v.1 v.2 = ⟨if k.mask then ra.1 else x, 0, false⟩) ∧
          (∀ v, place B i = some v → s'.cell v.1 v.2 = ⟨if k.mask then rb.1 else y, 0, false⟩) ∧
          ∀ q a, place A i ≠ some (q, a) → place B i ≠ some (q, a) → s'.cell q a = s.cell q a) ∧
      (∀ A B x y, k.op = 0x6C → ms = [A, B] → holds A i x → holds B i y →
        let r := narrowC (times x y) 19
        ∀ a, place A i = some (.dmem, a) →
        ∃ s', run = .next s' ∧ done s' (if k.mask then { t with sat := t.sat || r.2 } else t) ∧
          s'.cell .dmem a = ⟨if k.mask then r.1 else x, 0, false⟩ ∧ s.cellsKept s' .dmem a) ∧
      (∀ A, k.op = 0x6D → ms = [A] → ∀ v, place A i = some v →
        ∃ s', run = .next s' ∧ s.cellsKept s' v.1 v.2 ∧
          s'.cell v.1 v.2 = (if k.mask then ⟨t.getW f.b.toNat, 0, false⟩ else s.cell v.1 v.2) ∧
          (s'.engine n).live = after t ∧ ((s'.engine n).block = none ↔ i + 1 = cnt)) ∧
      (∀ A rest, ms = A :: rest → s.intakeRoom 2 = true →
        (∀ c, en.elemTarget (A.at' i) A.write = .fault c → stops c) ∧
        (∀ a, en.elemTarget (A.at' i) A.write = .hold a → stops 4) ∧
        (∀ v, en.elemTarget (A.at' i) A.write = .miss v →
          ∃ s', run = .next s' ∧ (s'.engine n).walk = some ⟨v, A.write, true⟩ ∧ (s'.engine n).live = t) ∧
        (∀ v, rest ≠ [] → place A i = some v → (s.cell v.1 v.2).poison = true → stops 5)))

/-- R235, R236, R440, R222, R227: LDR takes the register as it reads and waits for its data, LDR of a _LO register fills the engine's shadow; STR writes it, with PC past the store; a write of ENG_MB_IN appends a word while fewer than 8 wait and otherwise is dropped, counted and noted; HALT saves the running task and stops the engine, RESUME makes a stopped engine idle again unless it stopped on its own fault, RESTART waits for the round start. The readings and choices of the model in it are those of assumptions 9, 10, 12. -/
def Obligations.EngineRegisterAccess : Prop :=
  ∀ (s : State) (who : Requester) (e : EngId) (b : BerthId) (f : I2),
    let n := e.toNat
    let en := s.engine n
    let t := en.live
    let a := (t.getW f.a.toNat + f.imm.signExtend 40).toNat
    let noted := s.setEngine n { en with issuedBerth := b, issuedPc := t.pc, issuedProg := t.prog, usedAt := some (s.engCyc n) }
    let ctrl := (F.engCtrlHalt n).addr
    (s.standsAt (.ldr e f) b = true → s.clean .imem (8192 * n + t.pc) = true → layout a ≠ none → a ∉ s.parBad →
      isHi a = false → a ≠ 270 → a ≠ 276 → a ≠ 292 →
      ∃ s', exec (.ldr e f) s = .next s' ∧ s.otherEngines s' n ∧ s' = { s with engines := s'.engines, shadows := s'.shadows } ∧
        s.issuedTo s' e b { en with
          loads := en.loads ++ [⟨b, f.d, t.pc, noted.regView (10 + n) a, false, s.ldrRegIn n a⟩], live := { t with pc := t.pc + 1 } } ∧
        (hiOf a = none → s'.shadows = s.shadows) ∧
        (∀ h, hiOf a = some h →
          Tbl.get (fun _ => none) s'.shadows ((10 + n) * 2 ^ 24 + h) = some (noted.regView (10 + n) h))) ∧
    (∀ row ∈ ([(10, 0x7F07), (16, 0x1000000), (263, 0x1FF), (267, 0x3F)] : List (Nat × Nat)),
      s.standsAt (.str e f) b = true → a = row.1 → s.writeAns a (t.getW f.d.toNat) = .ok → s.alive = true →
      s.inReplayQuay n = false → s.journals s.cycW = false →
      ∃ s', exec (.str e f) s = .next s' ∧ s.issuedTo s' e b { en with live := { t with pc := t.pc + 1 } } ∧ s.otherEngines s' n ∧
        (∀ i, i < 40 → (s'.reg a).getLsbD i = if row.2.testBit i then (t.getW f.d.toNat).getLsbD i else (s.reg a).getLsbD i) ∧
        s.regsKept s' (a :: issueRegs n)) ∧
    (∀ w : Word, s.takesWord who (8195 + 8 * n) w = true →
      (en.inbox.length < 8 →
        ∃ s', exec (.engMbInWrite who e w) s = .next s' ∧ s.otherEngines s' n ∧
          s'.engine n = { en with inbox := en.inbox ++ [⟨w, s.engCyc n, false⟩], lastIn := w }) ∧
      (8 ≤ en.inbox.length → s.plainWriter who → s.intakeRoom 1 = true →
        ∃ s', exec (.engMbInWrite who e w) s = .next s' ∧ s'.engines = s.engines ∧ s.countsOne s' (F.engMbStatInDrop n) ∧
          s.sentNow s' (srcEng n) 56 0 (s.engNoteCtx n))) ∧
    (s.takes who ctrl [(F.engCtrlHalt n, 1)] = true → en.running = some b → s.engLive n = true → en.poisoned = none →
      ∃ s', exec (.halt who e) s = .next s' ∧ s.otherEngines s' n ∧ (s'.engine n).st = .haltedReq ∧ (s'.engine n).running = none ∧
        (s'.engine n).lastBerth = b ∧ (s'.engine n).live = t ∧
        (s'.engine n).ready.getLsbD b.toNat = (en.ready.getLsbD b.toNat || (s.urgentBerth n b.toNat && !en.suspended.getLsbD b.toNat)) ∧
        ∀ j, j < 64 → s'.memPeek .dmem (16384 * n + 15360 + 64 * b.toNat + j) = (t.frame b.toNat)[j]?.getD 0) ∧
    (s.takes who ctrl [(F.engCtrlResume n, 1)] = true →
      (en.st = .haltedReq ∨ en.st = .haltedColl → s.latched = false → en.ready = 0 → s.timedAt n ((s.engCyc n + 12) % 1024) = none →
        ∃ s', exec (.resume who e) s = .next s' ∧ s.otherEngines s' n ∧ s'.engine n = { en with st := .idle, running := none }) ∧
      (en.st = .haltedFault → s.plainWriter who → s.intakeRoom 1 = true →
        ∃ s', exec (.resume who e) s = .next s' ∧ s'.engines = s.engines ∧ s.sentNow s' (srcEng n) 56 0 (s.engNoteCtx n))) ∧
    (s.takes who ctrl [(F.engCtrlRestart n, 1)] = true →
      ∃ s', exec (.restart who e) s = .next s' ∧ s.otherEngines s' n ∧ s'.engine n = { en with restart := true })

/-- R211, R225, R230, R237, R238, R251, R255, R273: an engine fault: an illegal word, a PC past the last instruction, poisoned code, poisoned load data, a branch or jump out of range, a register that is unmapped or refuses the store, or an LD or ST whose address faults in translation or permission or names the context area. The task is suspended with its context saved and PC at the faulting instruction, and the fault is sent with hint C2, from the handler C3; that of a timed task is noted, makes the handler ready, and leaves the engine idle. The readings and choices of the model in it are those of assumptions 9, 10, 14. -/
def Obligations.EngineFaults : Prop :=
  ∀ (s : State) (e : EngId) (b : BerthId) (i : Instr) (w : Word),
    let n := e.toNat
    let en := s.engine n
    let t := en.live
    let fetch := s.memRead .imem (8192 * n + t.pc) (srcEng n)
    let faults := fun (code pc : Nat) =>
      ∃ s', exec i s = .next s' ∧ (s'.engine n).suspended.getLsbD b.toNat = true ∧
        s.sentNow s' (srcEng n) code (if s.handlerOf n = some b.toNat then 3 else 2) (engCtx n b.toNat pc t.prog.toNat) ∧
        (∀ j, j < 64 → s'.memPeek .dmem (16384 * n + 15360 + 64 * b.toNat + j) =
          (({ t with suspended := true } : Task).frame b.toNat)[j]?.getD 0) ∧
        (s.urgentBerth n b.toNat = false → s.handlerOf n ≠ some b.toNat →
          s.otherEngines s' n ∧ (s'.engine n).running = none ∧ (s'.engine n).st = .idle ∧
          (s'.engine n).lastBerth = b ∧ (s'.engine n).lastFault = BitVec.ofNat 8 code ∧
          (s'.engine n).suspended = en.suspended ||| (1#16 <<< b.toNat) ∧
          (∀ h, s.handlerOf n = some h → h < 16 → (s'.engine n).ready.getLsbD h = true) ∧
          (s'.engine n).ended = en.ended ||| (1#16 <<< b.toNat) ∧
          ∀ k a, k ≠ .imem → ¬(k = .dmem ∧ 16384 * n + 15360 + 64 * b.toNat ≤ a ∧ a < 16384 * n + 15424 + 64 * b.toNat) →
          s'.cell k a = s.cell k a)
    let address := fun (f : I2) => (t.getW f.a.toNat + f.imm.signExtend 40).toNat
    encode i = some (e, w) → en.running = some b → en.st = .running → en.block = none → en.walk = none →
    s.intakeRoom 2 = true →
    (∀ pc, en.poisoned = some pc → faults 5 pc) ∧
    (en.poisoned = none → 8192 ≤ t.pc → faults 2 t.pc) ∧
    (en.poisoned = none → t.pc < 8192 → fetch.1.poison = true → faults 5 t.pc) ∧
    (en.poisoned = none → t.pc < 8192 → fetch.1.poison = false → legalWord fetch.1.word = false → faults 1 t.pc) ∧
    (∀ f, s.standsAt i b = true → i = .ldr e f → layout (address f) = none → faults 3 t.pc) ∧
    (∀ f, s.standsAt i b = true → i = .str e f → s.writeAns (address f) (t.getW f.d.toNat) = .unmapped → faults 3 t.pc) ∧
    (∀ f, s.standsAt i b = true → i = .str e f →
      s.writeAns (address f) (t.getW f.d.toNat) = .noField ∨ s.writeAns (address f) (t.getW f.d.toNat) = .reservedBit →
      faults 4 t.pc) ∧
    (∀ f, s.standsAt i b = true → i = .br e f ∨ i = .call e f → t.cond f.d.toNat f.a.toNat = true →
      (t.pc + f.imm.toInt < 0 ∨ 8191 < t.pc + f.imm.toInt) → faults 2 t.pc) ∧
    (∀ f, s.standsAt i b = true → i = .jr e f ∨ i = .jrl e f → t.cond f.d.toNat f.a.toNat = true → 8191 < address f → faults 2 t.pc) ∧
    (∀ f c, s.standsAt i b = true → i = .ld e f → en.target (address f) ⟨false, false⟩ = .fault c → faults c t.pc) ∧
    (∀ f c, s.standsAt i b = true → i = .st e f → en.target (address f) ⟨true, false⟩ = .fault c → faults c t.pc) ∧
    (∀ f x, s.standsAt i b = true → i = .st e f → en.target (address f) ⟨true, false⟩ = .data x → 0x3C00 ≤ x → faults 4 t.pc)

/-- R27, R244, R262, R266, R267, R399: LSTAT reads the status word of an owned channel as it stands; LABORT empties its queue and leaves it idle, every slot on its way back to the store, its predicate saying that it held a descriptor or copied a checkpoint, and where a captured group waits for it that group's descriptor comes forward; LRES restarts a stopped channel, its predicate saying that it was stopped. LQUE takes a well-formed descriptor of four clean words into a channel that holds fewer than 32: predicate true, the descriptor last in the queue with the task's XBASE and engine, its words in a slot of the descriptor store, which moves to the queue. A full channel or a malformed descriptor is refused with the predicate false and nothing queued. The readings and choices of the model in it are those of assumptions 9, 67. -/
def Obligations.LighterInstructions : Prop :=
  (∀ (s : State) (e : EngId) (b : BerthId) (f : T3) (m : Nat),
    let n := e.toNat
    let t := (s.engine n).live
    let l := s.lighter m
    let p := f.fn.toNat % 8
    let only := fun (s' : State) => (∀ j, j ≠ m → s'.lighter j = s.lighter j) ∧ s.otherEngines s' n ∧ s.regsKept s' (issueRegs n) ∧
      s' = { s with engines := s'.engines, lighters := s'.lighters, descMoves := s'.descMoves, regs := s'.regs, fc := s'.fc, writeBacks := s'.writeBacks, rpl := s'.rpl }
    let copying := m == 516 && s.rpl.copying.isSome
    let waits := s.rpl.capWait.find? (fun g => s.capChannel g.bp.toNat == m)
    s.ltrOf n (t.getW f.a.toNat) = some m →
    (s.standsAt (.lstat e f) b = true →
      ∃ s', exec (.lstat e f) s = .next s' ∧ s.issuedAs s' e (t.setW f.d.toNat (s.ltrStat m)) false false) ∧
    (s.standsAt (.labort e f) b = true → (∀ d ∈ l.queue, d.srcSpace ≠ 6) → waits = none →
      ∃ s', exec (.labort e f) s = .next s' ∧ only s' ∧
        s.issuedTo s' e b { s.engine n with live := { t.setP p (copying || !l.queue.isEmpty) with pc := t.pc + 1 } } ∧
        (∀ d ∈ l.queue, ∃ v ∈ s'.descMoves, v.store = descStore m ∧ v.slot = d.slot.toNat ∧ v.back = true ∧ s.cyc < v.until_) ∧
        s'.rpl = { s.rpl with copying := if copying then none else s.rpl.copying } ∧
        (s'.lighter m).queue = [] ∧ (s'.lighter m).st = .idle ∧ (s'.lighter m).fault = 0 ∧ (s'.lighter m).done = l.done) ∧
    (∀ g, s.standsAt (.labort e f) b = true → waits = some g → l.queue ≠ [] →
      ∃ s' slot, exec (.labort e f) s = .next s' ∧ (s'.lighter m).st = .running ∧
        (s'.lighter m).queue = [{ devDesc 6 g.bp.toNat 0 4 0 g.addr 19 0 1 with slot := slot }]) ∧
    (s.standsAt (.lres e f) b = true →
      ∃ s', exec (.lres e f) s = .next s' ∧ only s' ∧ s'.rpl = s.rpl ∧ s'.descMoves = s.descMoves ∧
        s.issuedTo s' e b { s.engine n with live := { t.setP p (l.st = .stopped) with pc := t.pc + 1 } } ∧
        s'.lighter m = (if l.st = .stopped then { l with st := if l.queue.isEmpty then .idle else .running, fault := 0 } else l))) ∧
  (∀ (s : State) (e : EngId) (b : BerthId) (f : T3) (m : Nat) (w0 w1 w2 w3 : Word),
    let n := e.toNat
    let t := (s.engine n).live
    let x := (t.getW f.a.toNat).toNat
    let l := s.lighter m
    let d : Desc := ⟨w0, w1, w2, w3, t.xbase, e, 0, false⟩
    s.standsAt (.lque e f) b = true → s.ltrOf n (t.getW f.b.toNat) = some m → x < 3840 →
    s.cell .dmem (16384 * n + 4 * x) = ⟨w0, 0, false⟩ → s.cell .dmem (16384 * n + 4 * x + 1) = ⟨w1, 0, false⟩ →
    s.cell .dmem (16384 * n + 4 * x + 2) = ⟨w2, 0, false⟩ → s.cell .dmem (16384 * n + 4 * x + 3) = ⟨w3, 0, false⟩ →
    (l.queue.length < 32 → s.descOk m d = true →
      ∃ s' slot, exec (.lque e f) s = .next s' ∧ (s'.lighter m).queue = l.queue ++ [{ d with slot := slot }] ∧
        (s'.lighter m).st = (if l.st = .idle then .running else l.st) ∧
        (∀ i, i < 4 → s'.memPeek .desc (4096 * descStore m + 4 * slot.toNat + i) = [w0, w1, w2, w3][i]?.getD 0) ∧
        (∃ v ∈ s'.descMoves, v.store = descStore m ∧ v.slot = slot.toNat ∧ v.back = false ∧ s.cyc < v.until_) ∧
        (s'.engine n).live = { t.setP (f.fn.toNat % 8) true with pc := t.pc + 1 } ∧ s.otherEngines s' n ∧
        (∀ j, j ≠ m → s'.lighter j = s.lighter j) ∧ (∀ k a, k ≠ .desc → s'.cell k a = s.cell k a)) ∧
    (32 ≤ l.queue.length ∨ s.descOk m d = false →
      ∃ s', exec (.lque e f) s = .next s' ∧ (∀ j, s'.lighter j = s.lighter j) ∧ s'.mem = s.mem ∧
        (s'.engine n).live = { t.setP (f.fn.toNat % 8) false with pc := t.pc + 1 } ∧ s.otherEngines s' n))

/-- R245, R270: BWAKE marks an urgent berth ready from this cycle on, its predicate false where the berth holds no urgent task or its task is ready or runs; BSTAT reads the own berth and the suspended and ready masks. The readings and choices of the model in it are those of assumption 9. -/
def Obligations.BerthWakeAndStatus : Prop :=
  ∀ (s : State) (e : EngId) (b : BerthId) (f : T3),
    let n := e.toNat
    let en := s.engine n
    let t := en.live
    let k := (t.getW f.a.toNat).toNat % 16
    (s.standsAt (.bwake e f) b = true →
      let woken := s.urgentBerth n k && !en.ready.getLsbD k && k != b.toNat
      ∃ s', exec (.bwake e f) s = .next s' ∧ s.issueFrame s' n ∧
        s.issuedTo s' e b { en with
          ready := if woken then en.ready ||| (1#16 <<< k) else en.ready
          readyAt := if woken then Tbl.set (fun _ => 0) en.readyAt k (s.engCyc n) else en.readyAt
          live := { t.setP (f.fn.toNat % 8) woken with pc := t.pc + 1 } }) ∧
    (s.standsAt (.bstat e f) b = true →
      ∃ s', exec (.bstat e f) s = .next s' ∧
        s.issuedAs s' e (t.setW f.d.toNat
          (BitVec.ofNat 40 (b.toNat * 2 ^ 32 + en.suspended.toNat * 65536 + en.ready.toNat))) false false)

/-- R245, R269, R271, R204: BEND and BSLEEP end the run of a task in a timed berth: its context, with PC past the instruction, is in the berth's frame, no task runs, and the berth is ended for this round. In an urgent berth with no other task to run at the switch, in the cycle after it, the engine is idle, and the context is saved alike. The readings and choices of the model in it are those of assumption 9. -/
def Obligations.TaskEndsItsRun : Prop :=
  ∀ (s : State) (e : EngId) (b : BerthId) (f : T3),
    let n := e.toNat
    let en := s.engine n
    let t := { en.live with pc := en.live.pc + 1 }
    let urgent := s.urgentBerth n b.toNat
    ∀ i ∈ ([.bend e f, .bsleep e f] : List Instr), s.standsAt i b = true →
      (urgent = true → s.nextUrgent n (s.engCyc n + 1) = none ∧ s.timedAt n ((s.engCyc n + 13) % 1024) = none) →
      ∃ s', exec i s = .next s' ∧ (s'.engine n).running = none ∧ (s'.engine n).st = .idle ∧
        (s'.engine n).lastBerth = b ∧ s.otherEngines s' n ∧
        (urgent = false → (s'.engine n).ended = en.ended ||| (1#16 <<< b.toNat)) ∧
        (∀ j, j < 64 → s'.memPeek .dmem (16384 * n + 15360 + 64 * b.toNat + j) = (t.frame b.toNat)[j]?.getD 0) ∧
        (∀ k a, ¬(k = .dmem ∧ 16384 * n + 15360 + 64 * b.toNat ≤ a ∧ a < 16384 * n + 15424 + 64 * b.toNat) →
          s'.cell k a = s.cell k a)

/-- R222, R223, R246: MRECV takes the oldest visible word, or writes 0 with its predicate false; MSEND appends while fewer than 8 words wait, and otherwise counts FULL_CNT; MSTAT reads both levels. A due inbound word becomes visible, the words before it as they were; the device moves the oldest outbound word into the management ring with its engine and cycle, or counts RING_DROP when the ring is full, in the one cycle of every 256 that is the engine's, and in no other. Stated outside the replay quay, whose journal entries are part of R400. The readings and choices of the model in it are those of assumptions 9, 12. -/
def Obligations.Mailboxes : Prop :=
  (∀ (s : State) (e : EngId) (b : BerthId) (f : T3),
    let n := e.toNat
    let en := s.engine n
    let t := en.live
    let p := f.fn.toNat % 8
    (s.standsAt (.mrecv e f) b = true →
      (∀ w pre post, en.inbox = pre ++ w :: post → w.visible = true → (∀ x ∈ pre, x.visible = false) →
        ∃ s', exec (.mrecv e f) s = .next s' ∧ s.issueFrame s' n ∧
          s.issuedTo s' e b { en with
            inbox := pre ++ post, live := { (t.setW f.d.toNat w.word).setP p true with pc := t.pc + 1 } }) ∧
      ((∀ x ∈ en.inbox, x.visible = false) →
        ∃ s', exec (.mrecv e f) s = .next s' ∧ s.issuedAs s' e ((t.setW f.d.toNat 0).setP p false) false false)) ∧
    (s.standsAt (.msend e f) b = true →
      (en.outbox.length < 8 →
        ∃ s', exec (.msend e f) s = .next s' ∧ s.issueFrame s' n ∧
          s.issuedTo s' e b { en with
            outbox := en.outbox ++ [t.getW f.a.toNat], live := { t.setP p true with pc := t.pc + 1 } }) ∧
      (8 ≤ en.outbox.length →
        ∃ s', exec (.msend e f) s = .next s' ∧ s.otherEngines s' n ∧
          s.issuedTo s' e b { en with live := { t.setP p false with pc := t.pc + 1 } } ∧
          s'.rd (F.engMbStatFullCnt n) = Nat.min (s.rd (F.engMbStatFullCnt n) + 1)
            (2 ^ ((F.engMbStatFullCnt n).hi - (F.engMbStatFullCnt n).lo + 1) - 1))) ∧
    (s.standsAt (.mstat e f) b = true →
      ∃ s', exec (.mstat e f) s = .next s' ∧
        s.issuedAs s' e (t.setW f.d.toNat
          (BitVec.ofNat 40 (en.outbox.length * 16 + (en.inbox.filter (fun w => w.visible)).length))) false false)) ∧
  (∀ (s : State) (e : EngId),
    let n := e.toNat
    let en := s.engine n
    s.inReplayQuay n = false → s.journals s.cycW = false →
    (∀ w pre post, en.inbox = pre ++ w :: post → w.visible = false → (∀ x ∈ pre, x.visible = true) →
      (w.at_ + 64 + 63) / 64 * 64 ≤ s.cyc →
      ∃ s', exec (.mailboxWordVisible e) s = .next s' ∧ s.otherEngines s' n ∧
        s'.engine n = { en with inbox := pre ++ { w with visible := true } :: post } ∧ s' = { s with engines := s'.engines }) ∧
    (s.cyc % 256 ≠ (n + 128) % 256 → exec (.outboundWordMove e) s = .next s) ∧
    (∀ w rest, s.cyc % 256 = (n + 128) % 256 → en.outbox = w :: rest →
      ∃ s', exec (.outboundWordMove e) s = .next s' ∧ s'.engine n = { en with outbox := rest } ∧ s.otherEngines s' n ∧
        (s.mgmt.ring.length < 4096 →
          s' = { s with engines := s'.engines, mgmt := { s.mgmt with ring :=
            s.mgmt.ring ++ [(w, BitVec.ofNat 40 (n * 2 ^ 32 + s.cyc % 2 ^ 32))] } }) ∧
        (4096 ≤ s.mgmt.ring.length → s'.mgmt = s.mgmt ∧
          s'.rd (F.engMbStatRingDrop n) = Nat.min (s.rd (F.engMbStatRingDrop n) + 1)
            (2 ^ ((F.engMbStatRingDrop n).hi - (F.engMbStatRingDrop n).lo + 1) - 1))))

/-- R220, R227, R237, R269, R270, R271, R351: 12 cycles before its offset a timed berth's start runs its task from its saved frame; at its end it interrupts and counts the task still running, which a poisoned load suspends first; an urgent task takes the engine at a quantum boundary from a timed one and is counted; the end of an urgent budget counts and ends the run; a round start keeps the use of the last round, interrupts a timed task whose berth comes to be shed, and a RESTART taken there puts every task at its entry with nothing running. At any other cycle these events change nothing. The readings and choices of the model in it are those of assumptions 5, 9. -/
def Obligations.RoundsAndSwitches : Prop :=
  ∀ (s : State) (e : EngId),
    let n := e.toNat
    let en := s.engine n
    let top := fun (f : Fld) => 2 ^ (f.hi - f.lo + 1) - 1
    (∀ (b : BerthId), (∀ k, s.berthCfg n b.toNat = some k → k.kind = .timed → (s.engCyc n + 12) % 1024 ≠ k.start) →
      exec (.timedBerthStart e b) s = .next s) ∧
    (∀ (b : BerthId) k, s.engLive n = true → s.berthCfg n b.toNat = some k → k.kind = .timed →
      (s.engCyc n + 12) % 1024 = k.start → en.running = none → en.suspended.getLsbD b.toNat = false →
      s.shedAtStart n k = false →
      (∀ j, j < 64 → (s.cell .dmem (16384 * n + 15360 + 64 * b.toNat + j)).poison = false ∧
        (s.cell .dmem (16384 * n + 15360 + 64 * b.toNat + j)).flips = 0) →
      ∃ s', exec (.timedBerthStart e b) s = .next s' ∧ (s'.engine n).running = some b ∧ (s'.engine n).st = .running ∧
        s.otherEngines s' n ∧ s'.mem = s.mem ∧ s'.regs = s.regs ∧
        (s'.engine n).live = { Task.ofFrame ((List.range 64).map (fun j =>
          s.memPeek .dmem (16384 * n + 15360 + 64 * b.toNat + j))) with urgent := false }) ∧
    (∀ b k, en.running = some b → s.berthCfg n b.toNat = some k → k.kind = .timed →
      s.engCyc n % 1024 ≠ (k.start + k.len) % 1024 → exec (.timedBerthEnd e) s = .next s) ∧
    (∀ b k, en.running = some b → s.engLive n = true → s.berthCfg n b.toNat = some k → k.kind = .timed →
      s.engCyc n % 1024 = (k.start + k.len) % 1024 →
      ∃ s', exec (.timedBerthEnd e) s = .next s' ∧ (s'.engine n).running = none ∧ (s'.engine n).st = .idle ∧
        (s'.engine n).lastBerth = b ∧ s.otherEngines s' n ∧
        (en.poisoned ≠ none → (s'.engine n).suspended.getLsbD b.toNat = true ∧ (s'.engine n).lastFault = 5) ∧
        s'.rd (F.quaySchedOverrunCnt (n / 16)) =
          Nat.min (s.rd (F.quaySchedOverrunCnt (n / 16)) + 1) (top (F.quaySchedOverrunCnt (n / 16)))) ∧
    (s.engCyc n % 64 ≠ 0 → exec (.urgentPreempt e) s = .next s) ∧
    (∀ b u, s.engCyc n % 64 = 0 → en.poisoned = none → en.running = some b → s.engLive n = true → s.urgentBerth n b.toNat = false → s.nextUrgent n (s.engCyc n) = some u →
      u ≠ b.toNat → u < 16 → s.urgentBerth n u = true →
      (∀ j, j < 64 → (s.cell .dmem (16384 * n + 15360 + 64 * u + j)).poison = false ∧
        (s.cell .dmem (16384 * n + 15360 + 64 * u + j)).flips = 0) →
      ∃ s', exec (.urgentPreempt e) s = .next s' ∧ (s'.engine n).running = some (BitVec.ofNat 4 u) ∧
        (s'.engine n).live.urgent = true ∧ (s'.engine n).ready = en.ready &&& ~~~(1#16 <<< u) ∧ s.otherEngines s' n ∧
        s'.rd (F.quaySchedPreemptCnt (n / 16)) =
          Nat.min (s.rd (F.quaySchedPreemptCnt (n / 16)) + 1) (top (F.quaySchedPreemptCnt (n / 16)))) ∧
    (∀ b q, en.running = some b → en.budgetEnd = some q → q ≤ s.engCyc n → s.engLive n = true → en.poisoned = none →
      s.nextUrgent n (s.engCyc n) = none → s.timedAt n ((s.engCyc n + 12) % 1024) = none →
      ∃ s', exec (.urgentBudgetEnd e) s = .next s' ∧ (s'.engine n).running = none ∧ (s'.engine n).st = .idle ∧
        (s'.engine n).lastBerth = b ∧ s.otherEngines s' n ∧
        s'.rd (F.quaySchedOverrunCnt (n / 16)) =
          Nat.min (s.rd (F.quaySchedOverrunCnt (n / 16)) + 1) (top (F.quaySchedOverrunCnt (n / 16)))) ∧
    (s.engCyc n % 1024 ≠ 0 → exec (.berthRoundStart e) s = .next s) ∧
    (s.engCyc n % 1024 = 0 →
      ∃ s', exec (.berthRoundStart e) s = .next s' ∧ s.otherEngines s' n ∧ (s'.engine n).shed = s.thermal.shed ∧
      (s'.engine n).lastUsed = Nat.min en.used 1024 ∧ (s'.engine n).used = 0 ∧
      (s'.engine n).peakUsed = Nat.max en.peakUsed (Nat.min en.used 1024) ∧ (s'.engine n).restart = false ∧
      (en.restart = false → (∀ b k, en.running = some b → s.berthCfg n b.toNat = some k → (k.shed && s.thermal.shed) = false) →
        s' = { s with engines := s'.engines } ∧ (s'.engine n).live = en.live ∧ (s'.engine n).running = en.running) ∧
      (∀ b k, en.restart = false → en.running = some b → s.berthCfg n b.toNat = some k → k.kind = .timed →
        (k.shed && s.thermal.shed) = true → s.engLive n = true →
        (s'.engine n).running = none ∧ (s'.engine n).st = .idle ∧ (s'.engine n).lastBerth = b) ∧
      (en.restart = true → (s'.engine n).running = none ∧ (s'.engine n).suspended = 0 ∧ (s'.engine n).tlb = [] ∧
        (∀ c, s.engImage n = some c → ∀ x ∈ c.berths, (∀ y ∈ c.berths, y.berth = x.berth → y = x) →
          s'.memPeek .dmem (16384 * n + 15360 + 64 * x.berth.toNat) = BitVec.ofNat 40 (x.berth.toNat * 2 ^ 36 + x.entry % 8192))))

/-- R258, R260, R261, R263, R264, R265, R266: a burst in a slot the channel owns moves up to 16 words of a descriptor between data memories, in order, and the last word completes it: it leaves the queue, its slot goes back, and it is counted; in a slot it does not own nothing moves. A DL channel collects words from the side open to it, the CAPTURE tap's and those of memory in its hold window, and commits them in it. A source address out of range stops the channel with its code and a message. A latch stops every channel. ABORT and RESUME of the position register act as LABORT and LRES, and while the journal records them its own channel moves too; a store by an engine of the replay quay is a decision besides (R405) and is not stated here. A completed tap record is held if fewer than two are. The readings and choices of the model in it are those of assumptions 5, 11, 67. -/
def Obligations.LightersAtWork : Prop :=
  ∀ (s : State) (ch : BitVec 10) (who : Requester),
    let m := ch.toNat
    let l := s.lighter m
    let only := fun (t : State) => ∀ j, j ≠ m → t.lighter j = s.lighter j
    let unset := s.plainWriter who
    (s.latched = true → exec (.lighterBurst ch) s = .next s) ∧
    (m < 512 → s.ownsSlot m (m / 32) = false → exec (.lighterBurst ch) s = .next s) ∧
    (∀ d rest, m < 512 → s.latched = false → s.ownsSlot m (m / 32) = true → l.st = .running → l.started = true →
      l.queue = d :: rest → d.srcSpace = 0 → d.dstSpace = 0 →
      let e := d.eng.toNat
      let k := Nat.min 16 (d.count - l.moved)
      let now := fun (i : Nat) => l.moved ≤ i ∧ i < l.moved + k
      (∀ i, now i → 0 ≤ d.src i ∧ d.src i < 16384 ∧ 0 ≤ d.dst i ∧ d.dst i < 15360 ∧
        s.clean .dmem (16384 * e + (d.src i).toNat) = true) →
      (∀ i j, now i → now j → d.src i ≠ d.dst j ∧ (i ≠ j → d.dst i ≠ d.dst j)) →
      d.notify = false → d.release = false → l.moved < d.count →
      ∃ t, exec (.lighterBurst ch) s = .next t ∧ only t ∧ t = { s with lighters := t.lighters, mem := t.mem, writeBacks := t.writeBacks, descMoves := t.descMoves } ∧
        (∀ i, now i → t.cell .dmem (16384 * e + (d.dst i).toNat) = ⟨s.memPeek .dmem (16384 * e + (d.src i).toNat), 0, false⟩) ∧
        (∀ q a, (q ≠ .dmem ∨ ∀ i, now i → a ≠ 16384 * e + (d.dst i).toNat) → t.cell q a = s.cell q a) ∧
        (l.moved + k < d.count → (t.lighter m).moved = l.moved + k ∧ (t.lighter m).queue = l.queue ∧ (t.lighter m).st = .running) ∧
        (l.moved + k = d.count → (t.lighter m).queue = rest ∧ (t.lighter m).done = l.done + 1 ∧ (t.lighter m).moved = 0 ∧
          (t.lighter m).started = false ∧ ((t.lighter m).st = if rest = [] then .idle else .running) ∧
          ∃ v ∈ t.descMoves, v.store = m / 32 ∧ v.slot = d.slot.toNat ∧ v.back = true ∧ s.cyc < v.until_)) ∧
    (∀ d rest, 512 ≤ m → m < 528 → s.latched = false → l.st = .running → l.started = true → l.queue = d :: rest →
      d.dstSpace = 4 → l.buf = [] → l.moved < d.count →
      let k := Nat.min 16 (d.count - l.moved)
      let here := s.opens m d
      (d.srcSpace = 5 → here.slot = true ∨ here.window = true →
        ∃ t, exec (.lighterBurst ch) s = .next t ∧ only t ∧ t = { s with lighters := t.lighters } ∧
          t.lighter m = { l with buf := List.replicate k 0 }) ∧
      (d.srcSpace = 6 → here.window = true → l.moved + k ≤ (s.capWords d.srcUnit).length →
        ∃ t, exec (.lighterBurst ch) s = .next t ∧ only t ∧ t = { s with lighters := t.lighters } ∧
          t.lighter m = { l with buf := ((s.capWords d.srcUnit).drop l.moved).take k }) ∧
      (d.srcSpace = 6 → here.window = false → exec (.lighterBurst ch) s = .next s)) ∧
    (∀ d rest, 512 ≤ m → m < 528 → s.latched = false → l.st = .running → l.started = true → l.queue = d :: rest →
      d.srcSpace = 5 ∨ d.srcSpace = 6 → d.dstSpace = 4 → l.buf ≠ [] → l.buf.length ≤ 16 → l.moved + l.buf.length < d.count →
      let now := fun (i : Nat) => l.moved ≤ i ∧ i < l.moved + l.buf.length
      (∀ i, now i → 0 ≤ d.dst i ∧ d.dst i < 0x400000) → (∀ i j, now i → now j → i ≠ j → d.dst i ≠ d.dst j) →
      ((s.opens m d).window = false → exec (.lighterBurst ch) s = .next s) ∧
      ((s.opens m d).window = true →
        ∃ t, exec (.lighterBurst ch) s = .next t ∧ only t ∧ t = { s with lighters := t.lighters, mem := t.mem, writeBacks := t.writeBacks } ∧
          (t.lighter m).moved = l.moved + l.buf.length ∧ (t.lighter m).buf = [] ∧ (t.lighter m).queue = l.queue ∧
          (∀ i, now i → t.cell .hold (d.dst i).toNat = ⟨l.buf[i - l.moved]?.getD 0, 0, false⟩) ∧
          (∀ q a, (q ≠ .hold ∨ ∀ i, now i → a ≠ (d.dst i).toNat) → t.cell q a = s.cell q a))) ∧
    (∀ d rest, m < 512 → s.latched = false → s.ownsSlot m (m / 32) = true → l.st = .running → l.started = true → l.queue = d :: rest → d.srcSpace = 0 →
      l.moved < d.count → d.src l.moved < 0 ∨ 0x100000 ≤ d.src l.moved → d.dstSpace ≠ 0 → s.intakeRoom 1 = true →
      ∃ t, exec (.lighterBurst ch) s = .next t ∧ only t ∧ (t.lighter m).st = .stopped ∧ (t.lighter m).fault = 1 ∧
        (t.lighter m).queue = l.queue ∧ t.mem = s.mem ∧
        s.sentNow t (srcLtr m) 1 1 (ltrCtx m false (BitVec.ofInt 24 (d.src l.moved)))) ∧
    (m < 528 → s.takesWord who (ltrPosAddr m) (maskOf 14 14) = true → (∀ d ∈ l.queue, d.srcSpace ≠ 6) →
      (∀ g ∈ s.rpl.capWait, s.capChannel g.bp.toNat ≠ m) → unset →
      ∃ t, exec (.ltrPosAbort who ch) s = .next t ∧ (t.lighter m).queue = [] ∧ (t.lighter m).st = .idle ∧
        (t.lighter m).fault = 0 ∧ (s.journals s.cycW = false → only t ∧ (t.lighter m).done = l.done)) ∧
    (m < 528 → s.takesWord who (ltrPosAddr m) (maskOf 13 13) = true → s.latched = false → unset →
      ∃ t, exec (.ltrPosResume who ch) s = .next t ∧ (t.lighter m).queue = l.queue ∧
        (t.lighter m).st = (if l.st = .stopped then (if l.queue.isEmpty then .idle else .running) else l.st) ∧
        (s.journals s.cycW = false → only t ∧
          t.lighter m = if l.st = .stopped then { l with st := if l.queue.isEmpty then .idle else .running, fault := 0 } else l)) ∧
    (∀ (bp : BpId) r rest,
      let p := s.tap bp.toNat
      (p.aWhole = r :: rest →
        ∃ t, exec (.tapRecordComplete bp false) s = .next t ∧ t = { s with taps := t.taps } ∧
          (∀ j, j ≠ bp.toNat → t.tap j = s.tap j) ∧
          t.tap bp.toNat = { p with aWhole := rest, adapt := if p.adapt.length < 2 then p.adapt ++ [r] else p.adapt }) ∧
      (p.mWhole = r :: rest →
        ∃ t, exec (.tapRecordComplete bp true) s = .next t ∧ t = { s with taps := t.taps } ∧
          (∀ j, j ≠ bp.toNat → t.tap j = s.tap j) ∧
          t.tap bp.toNat = { p with mWhole := rest, mask := if p.mask.length < 2 then p.mask ++ [r] else p.mask }))

/-- R255, R256, R257, R438: the scrubber reads a word with the soft errors that have reached it; a repairable one is counted, reported and queued for a write-back, which puts the corrected word into its memory; an uncorrectable one is poisoned, counted and reported; a clean one is left alone. A failed parity makes a register unreadable and is counted, and each block reacts as its chapter says. The readings and choices of the model in it are those of assumptions 8, 13, 38, 39. -/
def Obligations.ScrubAndParity : Prop :=
  ∀ (s : State) (q : QuayId) (addr : BitVec 22) (flips : BitVec 64),
    let a := addr.toNat
    let key := 262144 * q.toNat + a
    let c := s.cell .quay key
    let read := Instr.scrubRead (.quay q) addr [⟨.quay q, addr, flips⟩]
    (s.alive = true → a < 262144 → c.poison = false → s.intakeRoom 1 = true →
      (∀ fix, rsDecode (c.flips ^^^ flips) = .corrected fix →
        ∃ t, exec read s = .next t ∧ s.countsOne t (F.quayMemCorrCnt q.toNat) ∧
          t.writeBacks = s.writeBacks ++ [⟨MemSel.quay.num, key, c.word ^^^ ((c.flips ^^^ flips ^^^ fix) >>> 24).setWidth 40, s.cyc⟩] ∧
          s.sentNow t (srcQuay q.toNat) 57 1 (BitVec.ofNat 40 a) ∧ s.cellsKept t .quay key) ∧
      (rsDecode (c.flips ^^^ flips) = .bad →
        ∃ t, exec read s = .next t ∧ s.countsOne t (F.quayMemUncCnt q.toNat) ∧
          t.cell .quay key = ⟨c.word, c.flips ^^^ flips, true⟩ ∧ s.sentNow t (srcQuay q.toNat) 58 1 (BitVec.ofNat 40 a) ∧
          s.cellsKept t .quay key) ∧
      (flips = 0 → c.flips = 0 →
        ∃ t, exec read s = .next t ∧ t.mem = s.mem ∧ t.fc = s.fc ∧ t.rd (F.quayScrubTb q.toNat) = s.thermal.tb.toNat % 8)) ∧
    (∀ x, a < 262144 → s.writeBacks.find? (fun y => y.mem == MemSel.quay.num && y.addr == key) = some x →
      ∃ t, exec (.scrubWriteback (.quay q) addr) s = .next t ∧ t.cell .quay key = ⟨x.word, 0, false⟩ ∧ s.cellsKept t .quay key ∧
        t.writeBacks = s.writeBacks.filter (fun y => !(y.mem == MemSel.quay.num && y.addr == key)) ∧
        t = { s with mem := t.mem, writeBacks := t.writeBacks }) ∧
    (s.alive = true → s.intakeRoom 1 = true →
      (∀ r : BitVec 24, layout r.toNat ≠ none → r.toNat ∉ s.parBad → parityOwner r.toNat = .none →
        ∃ t, exec (.parityReadback (.reg r)) s = .next t ∧ t.parBad = s.parBad ++ [r.toNat] ∧ s.countsOne t F.regStatParCnt ∧
          t.rd F.regStatParAddr = r.toNat ∧ s.sentNow t (ownerSrc r.toNat) 56 0 (Config.msgContext (ownerSrc r.toNat) 56 r.toNat)) ∧
      (∃ t, exec (.parityReadback .timeBase) s = .next t ∧ t.time.st = .free ∧ t.time.corr = 0 ∧ t.regs = s.regs ∧
        s.sentNow t srcTime 9 2 t.timeCtx) ∧
      (∃ t, exec (.parityReadback .books) s = .next t ∧ t.thermal = { s.thermal with booksBad := true } ∧
        s.sentNow t srcTherm 10 3 (s.thermCtx 0 0)) ∧
      (∃ t, exec (.parityReadback .collector) s = .next t ∧ t.fc.parityBad = true ∧
        s.sentNow t srcFc 2 3 (Config.msgContext srcFc 2 0)) ∧
      (∀ (e : EngId) (b : BerthId), (s.engine e.toNat).running = some b → (s.engine e.toNat).poisoned = none → s.handlerOf e.toNat ≠ some b.toNat →
        ∃ t, exec (.parityReadback (.engine e false)) s = .next t ∧ (t.engine e.toNat).st = .haltedFault ∧
          (t.engine e.toNat).running = none ∧ (t.engine e.toNat).lastFault = 7 ∧ s.otherEngines t e.toNat ∧
          s.sentNow t (srcEng e.toNat) 7 2
            (engCtx e.toNat b.toNat (s.engine e.toNat).live.pc (s.engine e.toNat).live.prog.toNat)) ∧
      (∀ lp : LoopId, ∃ t, exec (.parityReadback (.loop lp)) s = .next t ∧ t.loopMode lp.toNat = 0 ∧
        (∀ k, k ≠ lp.toNat → t.loop k = s.loop k) ∧
        s.sentNow t (srcLp lp.toNat) 1 2 (s.loopCtx lp.toNat)))

/-- R432, R436, R439: the fabric judges a write of a whole register in this order, whose first two places are the model's (assumption 3): an address that maps no register, the time before the configuration lock, a register without a writable field, a reserved bit set, a LIVE value out of its range. A write judged so changes nothing, but for the C0 note of a value out of range and, of a replay-quay engine, its decision entry. The readings and choices of the model in it are those of assumptions 3, 13, 43. -/
def Obligations.WriteRefusals : Prop :=
  ∀ (s : State) (who : Requester) (a : BitVec 24) (w : Word),
    let n := a.toNat
    s.canReach (reqCode who) = true →
    (s.rowsNow n = none → s.writeAns n w = .unmapped ∧ exec (.registerWrite who a w) s = .next s) ∧
    (∀ rows, s.rowsNow n = some rows →
      let fixed := ∀ r ∈ rows, r.acc ≠ .rw ∧ r.acc ≠ .live ∧ r.acc ≠ .w1c
      let reserved := ∃ i, i < 40 ∧ w.getLsbD i = true ∧ ∀ r ∈ rows, r.name = true → ¬ (r.lo ≤ i ∧ i ≤ r.hi)
      (s.boot.locked = false → s.writeAns n w = .preLock ∧ exec (.registerWrite who a w) s = .next s) ∧
      (s.boot.locked = true → fixed → s.writeAns n w = .noField ∧ exec (.registerWrite who a w) s = .next s) ∧
      ((∀ r ∈ rows, r.lo ≤ r.hi ∧ r.hi < 40) → s.boot.locked = true → ¬ fixed → reserved →
        s.writeAns n w = .reservedBit ∧ exec (.registerWrite who a w) s = .next s)) ∧
    (s.writeAns n w = .range → s.plainWriter who →
      exec (.registerWrite who a w) s = .next (s.note (ownerSrc n) (Config.msgContext (ownerSrc n) 56 n)))

/-- R435, R436, R438, R440: A write the fabric takes replaces the writable bits of a plain register (PROT_LIM_SEL, FROM_SLOT of RPL_CFG, CLS_SEL, OPEN_SEL, the manual word of a loop) and leaves its other bits and every other register as they were. A read of the _LO register of a pair puts the _HI register, as it stands, into the requester's shadow, and answers the _LO register, or no word where its parity fails; the shadows of the others are as before, and so is everything else. An LDR of the _HI register reads the engine's shadow, and where it has none the register as it stands, and takes no other shadow. The readings and choices of the model in it are those of assumption 3. -/
def Obligations.PlainWritesAndTwoHalfReads : Prop :=
  (∀ (s : State) (who : Requester) (w : Word),
    (∀ row ∈ ([(10, 0x7F07), (16, 0x1000000), (263, 0x1FF), (267, 0x3F)] : List (Nat × Nat)),
      s.takesWord who row.1 w = true → s.journals s.cycW = false →
      s.plainWriter who →
      ∃ t, exec (.registerWrite who (BitVec.ofNat 24 row.1) w) s = .next t ∧
        (∀ i, i < 40 → (t.reg row.1).getLsbD i = if row.2.testBit i then w.getLsbD i else (s.reg row.1).getLsbD i) ∧
        s.regsKept t [row.1] ∧ t = { s with regs := t.regs, parBad := t.parBad } ∧ row.1 ∉ t.parBad) ∧
    (∀ (j : LoopId), s.takesWord who (554 + 4 * j.toNat) w = true → s.journals s.cycW = false →
      s.plainWriter who →
      ∃ t, exec (.loopManWrite who j w) s = .next t ∧ t.reg (554 + 4 * j.toNat) = w ∧ s.regsKept t [554 + 4 * j.toNat] ∧
        t = { s with regs := t.regs, parBad := t.parBad })) ∧
  (∀ (s : State) (who : Requester) (a : BitVec 24) (h : Nat),
    let k := reqCode who
    (hiOf a.toNat = some h → s.canReach k = true → a.toNat ∉ s.parBad →
      ∃ t, exec (.twoHalfReadLo who a) s = .next t ∧
        Tbl.get (fun _ => none) t.shadows (k * 2 ^ 24 + h) = some (s.regView k h) ∧
        (∀ i, i ≠ k * 2 ^ 24 + h → Tbl.get (fun _ => none) t.shadows i = Tbl.get (fun _ => none) s.shadows i) ∧
        Tbl.get (fun _ => []) t.reads k = [s.regView k a.toNat] ∧ t = { s with shadows := t.shadows, reads := t.reads }) ∧
    (hiOf a.toNat = some h → s.canReach k = true → a.toNat ∈ s.parBad →
      ∃ t, exec (.twoHalfReadLo who a) s = .next t ∧ Tbl.get (fun _ => []) t.reads k = []) ∧
    (∀ (e : EngId) (b : BerthId) (f : I2),
      let n := e.toNat
      let en := s.engine n
      let t := en.live
      let x := (t.getW f.a.toNat + f.imm.signExtend 40).toNat
      let noted := s.setEngine n { en with issuedBerth := b, issuedPc := t.pc, issuedProg := t.prog, usedAt := some (s.engCyc n) }
      s.standsAt (.ldr e f) b = true → s.clean .imem (8192 * n + t.pc) = true → isHi x = true → layout x ≠ none → x ∉ s.parBad →
      ∃ s', exec (.ldr e f) s = .next s' ∧ s' = { s with engines := s'.engines } ∧ s.otherEngines s' n ∧
        s.issuedTo s' e b { en with
          live := { t with pc := t.pc + 1 }
          loads := en.loads ++ [⟨b, f.d, t.pc,
            (Tbl.get (fun _ => none) s.shadows ((10 + n) * 2 ^ 24 + x)).getD (noted.regView (10 + n) x), false, s.ldrRegIn n x⟩] }))

/-- R39, R44, R47, R53, R55, R62, R72, R74, R84, R112: the accepted writes of a band path's datapath. FREQ and STEP take their value, FREQ clearing the floor history, DC_FREEZE holds or releases the estimate, METER_RESTART empties the ingress meters, RSMP_RETRY takes the lowest free resampler of a fallback path, SWAP_ARM arms, or answers off, late or busy, FLOOR takes its value; BP_PATH and STEP are ignored on a preset. The readings and choices of the model in it are those of assumptions 24, 43, 63. -/
def Obligations.DatapathWrites : Prop :=
  ∀ (s : State) (who : Requester) (bp : BpId),
    let n := bp.toNat
    let b := s.bp n
    let ctrl := (F.bpCtrlDcFreeze n).addr
    let bwc := (F.bpBwCtrlSwapArm n).addr
    (∀ f : BitVec 32, s.takes who (F.bpNcoFreq n).addr [(F.bpNcoFreq n, f.toNat)] = true →
      ∃ t, exec (.freqWrite who bp f) s = .next t ∧ t.rd (F.bpNcoFreq n) = f.toNat ∧ s.otherBps t n ∧
        b.flow.clearLeft ≤ (t.bp n).flow.clearLeft ∧ (t.bp n).floor.blocks = []) ∧
    (∀ w, s.takesWord who (F.bpPathMode n).addr w = true → s.pathMode n ≠ 0 →
      ∃ t, exec (.bpPathWrite who bp w) s = .next t ∧ t.bps = s.bps ∧ t.rd (F.bpPathCf n) = s.rd (F.bpPathCf n)) ∧
    (∀ w, s.takesWord who (F.bpPathMode n).addr w = true → s.pathMode n = 0 →
      ∃ t, exec (.bpPathWrite who bp w) s = .next t ∧ t.rd (F.bpPathCf n) = bitsOf w 20 17 ∧ s.otherBps t n) ∧
    (∀ v : BitVec 34, s.takes who (F.bpRsmpStepStep n).addr [(F.bpRsmpStepStep n, v.toNat)] = true →
      ∃ t, exec (.stepWrite who bp v) s = .next t ∧ s.otherBps t n ∧
        (s.pathMode n = 0 → t.rd (F.bpRsmpStepStep n) = v.toNat) ∧
        (s.pathMode n ≠ 0 → t.bps = s.bps) ∧
        (s.pathMode n = 0 → s.rd (F.bpRsmpStepStep n) ≠ v.toNat → s.passing n = true →
          (t.bp n).gain.gate = .closed ∧ (t.bp n).bw.isoSrc = 3 ∧ (t.bp n).bw.armed = false)) ∧
    (s.takes who ctrl [(F.bpCtrlDcFreeze n, 1)] = true →
      ∃ t, exec (.dcFreezeSet who bp) s = .next t ∧ t.rdB (F.bpCtrlDcFreeze n) = true ∧ t.bps = s.bps) ∧
    (s.takes who ctrl [(F.bpCtrlDcFreeze n, 0)] = true → s.rdB (F.bpCtrlDcFreeze n) = true → s.passing n = true →
      ∃ t, exec (.dcFreezeClear who bp) s = .next t ∧ t.rdB (F.bpCtrlDcFreeze n) = false ∧ s.otherBps t n ∧
        b.flow.clearLeft ≤ (t.bp n).flow.clearLeft ∧ 2 ^ s.planN n plDcK + 3 ≤ (t.bp n).flow.clearLeft) ∧
    (s.takes who ctrl [(F.bpCtrlMeterRestart n, 1)] = true →
      ∃ t, exec (.meterRestart who bp) s = .next t ∧ s.otherBps t n ∧ (t.bp n).flow.meterIn.window = [] ∧
        (t.bp n).flow.meterIn.blocks = [] ∧ (t.bp n).flow.meterIn.fineReady = false ∧ (t.bp n).flow.meterOut = b.flow.meterOut) ∧
    (s.takes who ctrl [(F.bpCtrlRsmpRetry n, 1)] = true →
      (∀ k, s.pathMode n = 2 → s.freeResampler = some k →
        ∃ t, exec (.rsmpRetry who bp) s = .next t ∧ (t.bp n).flow.inst = some (BitVec.ofNat 6 k) ∧
          (t.bp n).flow.fallback = false ∧ t.resampler k = .held (BitVec.ofNat 7 n) ∧ s.otherBps t n) ∧
      (s.pathMode n = 2 → s.freeResampler = none →
        ∃ t, exec (.rsmpRetry who bp) s = .next t ∧ (t.bp n).flow.inst = b.flow.inst ∧ t.rsmp = s.rsmp ∧ s.otherBps t n)) ∧
    (∀ q : BitVec 24, s.takes who bwc [(F.bpBwCtrlSwapArm n, 1), (F.bpBwCtrlSwapSeq n, q.toNat)] = true →
      let lead := (q - (b.flow.seq - 1)).toNat
      ∃ t, exec (.swapArm who bp q) s = .next t ∧ s.otherBps t n ∧ (t.bp n).flow = b.flow ∧ (t.bp n).gain = b.gain ∧
        (b.bw.armed = true → (t.bp n).bw = { b.bw with swapResult := 3 }) ∧
        (b.bw.armed = false → s.passing n = false → (t.bp n).bw = { b.bw with swapResult := 7 }) ∧
        (b.bw.armed = false → s.passing n = true → 1 ≤ lead → lead < 2 ^ 23 →
          (t.bp n).bw = { b.bw with armed := true, scan := none } ∧ t.rd (F.bpBwCtrlSwapSeq n) = q.toNat) ∧
        (b.bw.armed = false → s.passing n = true → (lead = 0 ∨ 2 ^ 23 ≤ lead) →
          (t.bp n).bw = { b.bw with swapResult := 2 })) ∧
    (∀ v : BitVec 11, s.takes who (F.bpBwCtrlFloor n).addr [(F.bpBwCtrlFloor n, v.toNat)] = true →
      ∃ t, exec (.floorWrite who bp v) s = .next t ∧ t.rd (F.bpBwCtrlFloor n) = v.toNat ∧ t.bps = s.bps)

/-- R100, R114, R115, R120, R121, R124: the accepted writes of a band path's gain register. GAIN_SET takes its value, AGC_HOLD holds and releases and ends a re-settle, NR_CAPTURE takes FLOOR_DBM as NR_REF only from a measured floor, EG_METER_RESTART empties the egress meters, and a verdict counts once, for the period whose tag it carries, the third fail in a row muting with its message. The readings and choices of the model in it are those of assumptions 13, 22, 62. -/
def Obligations.GainWrites : Prop :=
  ∀ (s : State) (who : Requester) (bp : BpId),
    let n := bp.toNat
    let b := s.bp n
    let a := (F.bpGainGainSet n).addr
    (∀ v : BitVec 16, s.takes who a [(F.bpGainGainSet n, v.toNat)] = true →
      ∃ t, exec (.gainSetWrite who bp v) s = .next t ∧ t.rd (F.bpGainGainSet n) = v.toNat ∧ s.otherBps t n ∧
        (b.gain.frozen = false → (t.bp n).gain = b.gain)) ∧
    (s.takes who a [(F.bpGainAgcHold n, 1)] = true →
      ∃ t, exec (.agcHoldSet who bp) s = .next t ∧ t.rdB (F.bpGainAgcHold n) = true ∧ s.otherBps t n ∧
        (b.gain.gate = .resettle → s.rdB (F.bpGainAgcHold n) = false → (t.bp n).gain.gate = .confirmed) ∧
        (b.gain.gate ≠ .resettle → (t.bp n).gain.gate = b.gain.gate)) ∧
    (s.takes who a [(F.bpGainAgcHold n, 0)] = true →
      ∃ t, exec (.agcHoldClear who bp) s = .next t ∧ t.rdB (F.bpGainAgcHold n) = false ∧ s.otherBps t n ∧
        (t.bp n).gain.gate = b.gain.gate) ∧
    (s.takes who a [(F.bpGainNrCapture n, 1)] = true → b.idle.2 = 1 →
      ∃ t, exec (.nrCapture who bp) s = .next t ∧ (t.bp n).gain.nrRef = s.floorDbm n ∧ (t.bp n).gain.nrValid = true ∧
        s.otherBps t n) ∧
    (s.takes who a [(F.bpGainNrCapture n, 1)] = true → b.idle.2 ≠ 1 → s.plainWriter who → s.intakeRoom 1 = true →
      ∃ t, exec (.nrCapture who bp) s = .next t ∧ (t.bp n).gain.nrRef = b.gain.nrRef ∧ s.otherBps t n ∧
        s.sentNow t n 56 0 (Config.msgContext n 56 2)) ∧
    (s.takes who a [(F.bpGainEgMeterRestart n, 1)] = true →
      ∃ t, exec (.egMeterRestart who bp) s = .next t ∧ s.otherBps t n ∧ (t.bp n).flow.meterOut.window = [] ∧
        (t.bp n).flow.meterOut.blocks = [] ∧ (t.bp n).flow.meterOut.fineReady = false ∧ (t.bp n).flow.meterIn = b.flow.meterIn) ∧
    (∀ v : BitVec 5, s.takes who a [(F.bpGainMaskVerdict n, v.toNat)] = true → b.mask.done = true → b.mask.judged = false →
      v.toNat / 4 = b.mask.period % 8 →
      (v.toNat % 4 = 1 →
        ∃ t, exec (.maskVerdict who bp v) s = .next t ∧ (t.bp n).mask.judged = true ∧ (t.bp n).mask.maskSeq = b.mask.maskSeq + 1 ∧
          (t.bp n).mask.consec = 0 ∧ (t.bp n).mask.violCnt = b.mask.violCnt ∧ s.otherBps t n) ∧
      (v.toNat % 4 = 2 → b.mask.consec < 2 →
        ∃ t, exec (.maskVerdict who bp v) s = .next t ∧ (t.bp n).mask.judged = true ∧ (t.bp n).mask.maskSeq = b.mask.maskSeq + 1 ∧
          (t.bp n).mask.consec = b.mask.consec + 1 ∧ (t.bp n).mask.backoff = Nat.min (b.mask.backoff + 1) 30 ∧
          (t.bp n).mask.violCnt = b.mask.violCnt.inc 19 ∧ s.otherBps t n) ∧
      (v.toNat % 4 = 2 → 2 ≤ b.mask.consec → s.serving n = true ∨ b.prot.st = .muted → s.plainWriter who → s.intakeRoom 2 = true →
        ∃ t, exec (.maskVerdict who bp v) s = .next t ∧ (t.bp n).mask.consec = 0 ∧
          ((t.bp n).prot.st = .muted ∨ (t.bp n).prot.st = .lockedOut) ∧
          s.sentNow t n 9 1 (Config.msgContext n 9 0) ∧ s.otherBps t n))

/-- R29, R133, R136, R140, R352, R353, R354: ENABLE 1 in OFF asks the governor for the band path's credits, which it takes whole when they are free beyond HEADROOM; while a transfer of the band path's own waits or is in flight nothing more is asked; in BARRED it is ignored; ENABLE 0 leads to OFF with reason 1, and in OFF gives back what is held; LOCK_ACK moves LOCKED_OUT to MUTED with its history and exponent cleared and a timer of 1 s, and is ignored elsewhere; a limits value is taken only within its item's range and stricter than the latest one accepted, an equal one is not, and becomes pending. The readings and choices of the model in it are those of assumption 44. -/
def Obligations.ProtectionWrites : Prop :=
  ∀ (s : State) (who : Requester) (bp : BpId),
    let n := bp.toNat
    let b := s.bp n
    let p := b.prot
    let en := F.bpProtEnable n
    (s.takes who en.addr [(en, 1)] = true → p.st = .off → s.present n = true → s.rdB en = false → s.held4Service n = false →
      s.credits (1 + n) = 0 → s.thermal.xfer = none → s.thermal.waiting = [] → s.thermal.booksBad = false →
      s.creditCost n + s.headroom ≤ s.thermal.free →
      ∃ t, exec (.bpEnable who bp) s = .next t ∧ t.rdB en = true ∧ t.bps = s.bps ∧
        t.thermal.xfer = some ⟨BitVec.ofNat 8 (1 + n), s.creditCost n, false⟩ ∧
        t.thermal.free = s.thermal.free - s.creditCost n) ∧
    (s.takes who en.addr [(en, 1)] = true → p.st = .off → s.rdB en = false → s.govBusy (1 + n) = true →
      ∃ t, exec (.bpEnable who bp) s = .next t ∧ t.rdB en = true ∧ t.bps = s.bps ∧ t.thermal = s.thermal) ∧
    (s.takes who en.addr [(en, 0)] = true → p.st = .off → s.clearing n = false →
      ∃ t, exec (.bpDisable who bp) s = .next t ∧ (t.bp n).prot.st = .off ∧ t.rdB en = false ∧ s.otherBps t n ∧
        (t.bp n).flow = { b.flow with inst := none, fallback := false, tapUnits := 0, delayWords := 0 } ∧
        (s.govBusy (1 + n) = false → s.credits (1 + n) ≠ 0 →
          ⟨BitVec.ofNat 8 (1 + n), s.credits (1 + n), true⟩ ∈ t.thermal.waiting ∨
          t.thermal.xfer = some ⟨BitVec.ofNat 8 (1 + n), s.credits (1 + n), true⟩)) ∧
    (s.takes who en.addr [(en, 1)] = true → p.st = .barred →
      ∃ t, exec (.bpEnable who bp) s = .next t ∧ t.bps = s.bps ∧ t.thermal = s.thermal) ∧
    (s.takes who en.addr [(en, 0)] = true → p.st ≠ .off → p.st ≠ .barred →
      ∃ t, exec (.bpDisable who bp) s = .next t ∧ (t.bp n).prot.st = .off ∧ (t.bp n).prot.offReason = 1 ∧ t.rdB en = false ∧
        (t.bp n).mask.backoff = 0 ∧ (t.bp n).prot.buckets = [] ∧ (t.bp n).flow.tapUnits = 0 ∧ (t.bp n).flow.inst = none) ∧
    (s.takes who en.addr [(F.bpProtLockAck n, 1)] = true → s.rdB en = true →
      ∃ t, exec (.lockAck who bp) s = .next t ∧ s.otherBps t n ∧
        (p.st = .lockedOut →
          t.bp n = { b with prot := { p with
            st := .muted, history := [], retryExp := 0, retryAt := some (s.setCyc + secCyc), left := .starting } }) ∧
        (p.st ≠ .lockedOut → p.st ≠ .off ∨ s.govBusy (1 + n) = true → t.bp n = b)) ∧
    (∀ v : Word, s.takesWord who 11 v = true →
      let e := s.limIdx (s.rd F.protLimSelBp)
      let item := s.rd F.protLimSelItem
      let cur := s.limLatest e item
      (if item = 4 then cur < v.toInt else v.toInt < cur) ∧ (limRange item).1 ≤ v.toInt ∧ v.toInt ≤ (limRange item).2 ∧
      ∃ t, exec (.protLimDataWrite who v) s = .next t ∧ t.limits = s.limits ∧ t.bps = s.bps ∧
        t.limPend = s.limPend ++ [⟨e, item, v.toInt⟩]) ∧
    (∀ v : Word, v.toInt = s.limLatest (s.limIdx (s.rd F.protLimSelBp)) (s.rd F.protLimSelItem) → s.writeAns 11 v ≠ .ok)

/-- R17, R59, R60, R72, R78, R126, R132, R404: outside replay mode a band sample of a band path in service or muted advances SAMPLE_SEQ and the duty bucket by one, counting it as emitting only in service with the gate open. It is VALID where its source was, outside the runs of R60, of which one sample is over; a gain step of more than 0.5 dB opens one of 5. A muted path, once its 40 cycles are over, and a closed uplink gate put out zero, and the gate lets the probe through. No other band path's canceller, gain or mask state changes. In OFF or BARRED no sample passes, nor in replay mode where none was injected. The readings and choices of the model in it are those of assumptions 5, 20, 61, 65. -/
def Obligations.BandSampleAdvances : Prop :=
  ∀ (s : State) (bp : BpId),
    let n := bp.toNat
    let b := s.bp n
    (s.present n = true → s.replayMode = false → b.prot.st ≠ .off → b.prot.st ≠ .barred →
      ∃ t, exec (.bandSample bp) s = .next t ∧ (t.bp n).flow.seq = b.flow.seq + 1 ∧
        (let x := s.source n
         let left := (x.2.bp n).flow.clearLeft
         let k := (t.bp n).gain.step
         let far := b.gain.lastStep + 10 < k ∨ k + 10 < b.gain.lastStep
         ((t.bp n).flow.validOut = true ↔ x.1.valid = true ∧ left = 0 ∧ ¬ far) ∧
         (t.bp n).flow.clearLeft = (if far then Nat.max left 5 else left) - 1 ∧
         ((t.bp n).flow.gatedOut = true ↔ s.uplink n = true ∧ b.gain.gate = .closed) ∧
         (b.prot.st = .muted ∨ b.prot.st = .lockedOut → b.prot.mutedAt + 40 ≤ s.setCyc → (t.bp n).flow.outWord = 0) ∧
         (s.uplink n = true → b.gain.gate = .closed →
           (s.probing n = false → (t.bp n).flow.outWord = 0) ∧
           (∀ p, s.probing n = true → b.bw.probe = some p →
             (t.bp n).flow.outWord = wOfC (outSample (chip n p.count p.amp))))) ∧
        (b.prot.st ≠ .starting ∨ b.gain.ramp = none → (t.bp n).prot.st = b.prot.st) ∧ t.serving n = s.serving n ∧
        (t.bp n).prot.bucket.total = b.prot.bucket.total + 1 ∧
        (t.bp n).prot.bucket.emit =
          b.prot.bucket.emit + (if s.serving n && !(s.uplink n && b.gain.gate = .closed) then 1 else 0) ∧
        (∀ m, m ≠ n → (t.bp m).flow = (s.bp m).flow ∧ (t.bp m).gain = (s.bp m).gain ∧ (t.bp m).bw = (s.bp m).bw ∧
          (t.bp m).mask = (s.bp m).mask ∧ (t.bp m).prot.st = (s.bp m).prot.st)) ∧
    (b.prot.st = .off ∨ b.prot.st = .barred → exec (.bandSample bp) s = .next s) ∧
    (s.replayMode = true → s.rpl.st ≠ .replaying ∨ n ∉ s.selected ∨ s.injReady n = false → exec (.bandSample bp) s = .next s)

/-- R103 to R106, R108, R110: the gate opens on energy or on the lowest matching reference sequence, is confirmed by its window with the AGC frozen on uplink, falls back as a false open, re-settles on a capture, refreezes, and closes on a quiet hang time unless a capture comes at the same sample. Nothing else changes but, on a capture, VALID. The readings and choices of the model in it are those of assumptions 5, 20. -/
def Obligations.GateTransitions : Prop :=
  ∀ (s : State) (bp : BpId),
    let n := bp.toNat
    let b := s.bp n
    let g := b.gain
    let energy := s.planN n plDetectN ≤ g.run ∧ 0 < g.run
    let window := g.recent.take (s.countOf n plConfirm)
    let confirmed := mostOf (s.countOf n plConfirm) ≤
      (window.filter (fun x => if 4 ≤ g.openSrc.toNat then x.aboveRef else x.above)).length
    let quiet := ((g.recent.take (s.countOf n plHang)).filter (fun x => x.quiet)).length
    (g.gate = .closed → s.serving n = true → energy →
      ∃ t, exec (.gateOpenEnergy bp) s = .next t ∧ s.bpOnly t n ∧
        t.bp n = { b with gain := { g with gate := .opened, openSrc := 1, openCnt := g.openCnt.inc 19, verifyN := 0, run := 0 } }) ∧
    (∀ m a, g.gate = .closed → s.serving n = true → ¬ energy → m < 4 → (∀ j, j < m → ∃ x, s.readRef n j = (x, s) ∧ ∀ c, x = some c → s.refMatches n c = false) →
      s.readRef n m = (some a, s) → s.refMatches n a = true →
      ∃ t, exec (.gateRefMatch bp) s = .next t ∧ s.bpOnly t n ∧
        t.bp n = { b with gain := { g with
          gate := .opened, openSrc := BitVec.ofNat 3 (4 + m), openCnt := g.openCnt.inc 19, verifyN := 0, run := 0 } }) ∧
    (g.gate = .opened → confirmed →
      ∃ t, exec (.gateConfirm bp) s = .next t ∧ s.bpOnly t n ∧
        t.bp n = { b with gain := { g with
          gate := .confirmed, capRun := 0, frozen := s.uplink n || g.frozen
          pFrz := powerDb (window.foldl (fun p x => p + x.pow) 0) (window.length * 2 ^ 38) } }) ∧
    (g.gate = .opened → ¬ confirmed → s.countOf n plVerify ≤ g.verifyN →
      ∃ t, exec (.gateVerifyExpiry bp) s = .next t ∧ s.bpOnly t n ∧
        t.bp n = { b with gain := { g with gate := .closed, run := 0, falseCnt := g.falseCnt.inc 19 } }) ∧
    (s.uplink n = true → g.gate = .confirmed → s.agcHold n = false → 16 ≤ g.capRun →
      let rs := (s.rate n).ofNs 1000
      ∃ t, exec (.gateCapture bp) s = .next t ∧ s.bpOnly t n ∧
        (t.bp n).gain = { g with
          gate := .resettle, frozen := false, capCnt := g.capCnt.inc 19, rsLeft := rs, rsSum := 0, rsN := 0, capRun := 0 } ∧
        (t.bp n).flow = { b.flow with clearLeft := Nat.max b.flow.clearLeft (rs + 1) }) ∧
    (g.gate = .resettle → g.rsLeft = 0 → g.rsN ≠ 0 →
      ∃ t, exec (.gateResettleEnd bp) s = .next t ∧ s.bpOnly t n ∧
        t.bp n = { b with gain := { g with
          gate := .confirmed, capRun := 0, rsLeft := 0, frozen := s.uplink n || g.frozen
          pFrz := powerDb g.rsSum (g.rsN * 2 ^ 38) } }) ∧
    (g.gate = .confirmed → ¬ (s.uplink n = true ∧ s.agcHold n = false ∧ 16 ≤ g.capRun) → mostOf (s.countOf n plHang) ≤ quiet →
      ∃ t, exec (.gateClose bp) s = .next t ∧ s.bpOnly t n ∧
        t.bp n = { b with gain := { g with gate := .closed, run := 0, frozen := if s.uplink n then false else g.frozen } })

/-- R111, R113, R118, R120, R121, R26, R101, R97, R98, R54, R55, R60, R46: A qualifying floor block joins the newest 64 and clears FLOOR_STALE; an old floor sets it with a C0 message; a capture of MASK_AVG blocks is complete; a period's end starts the next, and a complete capture without a verdict is counted and fails by 1 dB of back-off, the third fail in a row being reported and muting, in MUTED as in service. The soft start begins at the lower of the wanted gain and the start level; a ramp step whose time has come raises g_ramp by 0.05 dB until it meets the other bounds, and does nothing before; a fine meter block replaces the fine value; the end of a VALID-clear run restarts both meters; a resampler's reset frees it, and the one released first among those that wait begins its own. The readings and choices of the model in it are those of assumptions 5, 22, 62, 66. -/
def Obligations.GainPathEvents : Prop :=
  (∀ (s : State) (bp : BpId),
    let n := bp.toNat
    let b := s.bp n
    let m := b.mask
    let up := b.prot.st ≠ .off ∧ b.prot.st ≠ .barred
    let ended : BpMask := { m with
      period := m.period + 1, periodStart := m.periodStart + 10 * msCyc, captured := 0, block := 0, done := false, judged := false }
    (∀ v ok rest, b.floor.whole = (v, ok) :: rest →
      ∃ t, exec (.floorBlockDone bp) s = .next t ∧ s.bpOnly t n ∧
        t.bp n = { b with floor := { b.floor with
          whole := rest
          blocks := if ok then (v :: b.floor.blocks).take 64 else b.floor.blocks
          since := if ok then s.setCyc else b.floor.since
          stale := if ok then false else b.floor.stale } }) ∧
    (s.present n = true → b.floor.begun = true → b.floor.stale = false → b.floor.since + s.planN n plFloorAgeMax * msCyc < s.setCyc → s.intakeRoom 1 = true →
      ∃ t, exec (.floorStale bp) s = .next t ∧ t.bp n = { b with floor := { b.floor with stale := true } } ∧ s.otherBps t n ∧
        s.sentNow t n 11 0 (Config.msgContext n 11 0) ∧ s.intakeOnly t ∧ t = { s with bps := t.bps, fc := t.fc }) ∧
    (s.maskOn n = true → m.done = false → 0 < m.captured → s.planN n plMaskAvg ≤ m.captured →
      ∃ t, exec (.maskCaptureDone bp) s = .next t ∧ s.bpOnly t n ∧ t.bp n = { b with mask := { m with done := true } }) ∧
    (up → m.periodStart + 10 * msCyc ≤ s.setCyc → ¬ (m.done = true ∧ m.judged = false) →
      ∃ t, exec (.maskPeriodEnd bp) s = .next t ∧ t.bp n = { b with mask := ended } ∧ s.otherBps t n ∧
        t = { s with bps := t.bps, taps := t.taps } ∧
        t.tap n = { s.tap n with mOut := [], mTags := [] } ∧ (∀ j, j ≠ n → t.tap j = s.tap j)) ∧
    (up → m.periodStart + 10 * msCyc ≤ s.setCyc → m.done = true → m.judged = false → m.consec < 2 → s.intakeRoom 1 = true →
      ∃ t, exec (.maskPeriodEnd bp) s = .next t ∧ s.otherBps t n ∧
        s.sentNow t n 10 1 (Config.msgContext n 10 0) ∧
        (t.bp n).mask = { ended with
          staleCnt := m.staleCnt.inc 15, violCnt := m.violCnt.inc 19, passRun := 0, consec := m.consec + 1
          backoff := Nat.min (m.backoff + 1) 30 }) ∧
    (m.periodStart + 10 * msCyc ≤ s.setCyc → m.done = true → m.judged = false → 2 ≤ m.consec → s.intakeRoom 3 = true →
      s.serving n = true ∨ b.prot.st = .muted →
      ∃ t, exec (.maskPeriodEnd bp) s = .next t ∧ s.otherBps t n ∧ s.sentNow t n 10 1 (Config.msgContext n 10 0) ∧
        s.sentNow t n 9 1 (Config.msgContext n 9 0) ∧ (t.bp n).mask.consec = 0 ∧
        ((t.bp n).prot.st = .muted ∨ (t.bp n).prot.st = .lockedOut))) ∧
  (∀ (s : State) (bp : BpId),
    let n := bp.toNat
    let b := s.bp n
    (b.prot.st = .starting → b.gain.softStarted = false → 64 ≤ b.flow.meterIn.window.length →
      let g := Max.max (-30 * dB1) (Min.min (s.gWant n) (s.planDb n plStartLevel - b.flow.meterIn.coarse))
      ∃ t, exec (.softStartBegin bp) s = .next t ∧ (t.bp n).gain.softStarted = true ∧ (t.bp n).gain.g = g ∧
        (t.bp n).gain.step = stepFor g (s.cFifths n) ∧ s.otherBps t n ∧
        t = { s with bps := t.bps, cx := t.cx, regs := t.regs }) ∧
    (∀ r, b.prot.st = .starting → b.gain.ramp = some r → s.rampDue n (b.gain.rampN + 1) ≤ s.setCyc →
      ∃ t, exec (.rampStep bp) s = .next t ∧ s.otherBps t n ∧ t = { s with bps := t.bps, cx := t.cx, regs := t.regs } ∧
        (s.wantOther n ≤ r + db005 b.gain.rampN → (t.bp n).gain.ramp = none ∧ (t.bp n).gain.rampDone = true) ∧
        (r + db005 b.gain.rampN < s.wantOther n →
          (t.bp n).gain = { b.gain with ramp := some (r + db005 b.gain.rampN), rampN := b.gain.rampN + 1 })) ∧
    (b.prot.st = .starting → s.setCyc < s.rampDue n (b.gain.rampN + 1) → exec (.rampStep bp) s = .next s) ∧
    (∀ x rest, b.flow.meterIn.blocks = x :: rest →
      ∃ t, exec (.fineMeterBlockDone bp false) s = .next t ∧ s.bpOnly t n ∧ (t.bp n).flow.meterIn.blocks = rest ∧
        (t.bp n).flow.meterIn.fineReady = true ∧ (t.bp n).flow.meterIn.coarse = b.flow.meterIn.coarse ∧
        (t.bp n).flow.meterOut = b.flow.meterOut ∧ (x = 0 → (t.bp n).flow.meterIn.fine = -200 * dB1)) ∧
    (∀ x rest, b.flow.meterOut.blocks = x :: rest →
      ∃ t, exec (.fineMeterBlockDone bp true) s = .next t ∧ s.bpOnly t n ∧ (t.bp n).flow.meterOut.blocks = rest ∧
        (t.bp n).flow.meterOut.fineReady = true ∧ (t.bp n).flow.meterIn = b.flow.meterIn) ∧
    (b.flow.clearLeft = 0 → b.flow.validOut = false →
      ∃ t, exec (.validClearRunEnd bp) s = .next t ∧ s.bpOnly t n ∧
        (∀ m ∈ [(t.bp n).flow.meterIn, (t.bp n).flow.meterOut], m.window = [] ∧ m.blocks = [] ∧ m.fineN = 0 ∧ m.fineReady = false) ∧
        (t.bp n).gain = b.gain ∧ (t.bp n).bw = b.bw ∧ (t.bp n).prot = b.prot) ∧
    (∀ (i : BitVec 6) at', s.resampler i.toNat = .resetting at' → at' ≤ s.cyc →
      ∃ t, exec (.resamplerResetDone i) s = .next t ∧ t.resampler i.toNat = .free ∧
        t = { s with rsmp := t.rsmp } ∧
        (∀ j, j ≠ i.toNat → (∀ c a, s.resampler j ≠ .released c a) → t.resampler j = s.resampler j) ∧
        (∀ j c a, j < 64 → s.resampler j = .released c a → (∀ k, k < 64 → k ≠ i.toNat → ∀ d, s.resampler k ≠ .resetting d) →
          (∀ k d x, k < 64 → k ≠ j → s.resampler k = .released d x → a < x) →
          t.resampler j = .resetting (s.cyc + 64))))

/-- R72, R73, R74: the scan reads the inactive bank; at the named sample the swap takes effect with result 1 and three VALID-clear samples, or is refused: late without a scan (2), poisoned (6), or above the energy limit (4). In every case the bank is unlocked. The readings and choices of the model in it are those of assumptions 5, 24. -/
def Obligations.CoefficientSwap : Prop :=
  ∀ (s : State) (bp : BpId),
    let n := bp.toNat
    let b := s.bp n
    let w := b.bw
    let words := (List.range (s.planN n plTaps)).map (fun k => s.memPeek (bankSel (!w.bankB)) (16384 * n + k))
    (w.armed = true → w.scan = none →
      (∀ k, k < s.planN n plTaps → s.clean (bankSel (!w.bankB)) (16384 * n + k) = true) →
      ∃ t, exec (.swapScanDone bp) s = .next t ∧ s.bpOnly t n ∧
        t.bp n = { b with bw := { w with scan := some (scanOf (words.map (fun x => (cOf x, false)))) } }) ∧
    (w.armed = true → s.swapDue n = true →
      let refused := fun (code : BitVec 3) =>
        ∃ t, exec (.swapTakeEffect bp) s = .next t ∧ s.bpOnly t n ∧
          t.bp n = { b with bw := { w with armed := false, scan := none, swapResult := code } }
      (w.scan = none → refused 2) ∧
      (∀ sc, w.scan = some sc →
        let high := sc.energy ≠ 0 ∧ s.planDb n plEnergyMax < ratioDb sc.energy (2 ^ 38)
        (sc.poison = true → refused 6) ∧
        (sc.poison = false → high → refused 4) ∧
        (sc.poison = false → ¬ high →
          ∃ t, exec (.swapTakeEffect bp) s = .next t ∧ s.bpOnly t n ∧ (t.bp n).bw.bankB = !w.bankB ∧
            (t.bp n).bw.armed = false ∧ (t.bp n).bw.swapResult = 1 ∧
            (t.bp n).flow = { b.flow with clearLeft := Nat.max b.flow.clearLeft 3 } ∧
            (t.bp n).gain = b.gain ∧ (t.bp n).mask = b.mask ∧ (t.bp n).prot = b.prot)))

/-- R81, R83, R82, R136, R85, R86, R87, R130, R133, R89, R90: After 2^20 samples a probe measurement writes both isolation results, counts itself, stamps the time, and moves I_p: to a resolved result, or to the larger of a bound and I_p. The end of an evaluation interval counts it and brings the accepted limits into force, the last of each item, leaving none pending. What the end of an evaluation interval judges of a band path, the only one through which samples pass: egress power more than 1 dB over P_OUT_MAX bars it; in service the ceiling backs off by the deficit and 1 dB where the margin is below F, or the path is muted where that lies below the gain range; it rises by 0.1 dB where the margin allows and no back-off is recent; an uplink path over N_MAX at its donor is muted. The oldest whole sub-window is taken; a tainted one is passed over; one whose output and loop power both rose by more than 3 dB over a sub-window of the last 4 µs trips: OSC_TRIP is set, the trip is counted, and the ceiling falls to 6 dB below the gain, but not below the range. The readings and choices of the model in it are those of assumptions 5, 21, 23, 58, 63. -/
def Obligations.BreakwaterEvents : Prop :=
  (∀ (s : State) (bp : BpId) (p : Probe),
    let n := bp.toNat
    let b := s.bp n
    let u := isolation probeBits p.corrIn p.refPow p.powIn p.nValid (some p.level) p.spread (s.gChain n)
    let r := isolation probeBits p.corrOut p.refPow p.powOut p.nValid (some p.level) p.spread (s.gChain n)
    b.bw.probe = some p → 2 ^ 20 ≤ p.count → u.open_ = false → r.open_ = false →
    ∃ t, exec (.probeMeasurementDone bp) s = .next t ∧ s.bpOnly t n ∧
      (t.bp n).bw.probe = none ∧ (t.bp n).bw.measSeq = b.bw.measSeq + 1 ∧ (t.bp n).bw.isoUnc = u.iso ∧
      (t.bp n).bw.isoRes = r.iso ∧ (t.bp n).bw.uncBound = !u.resolved ∧ (t.bp n).bw.resBound = !r.resolved ∧
      (t.bp n).bw.probeHi = timeHi s.time.now ∧ (t.bp n).bw.probeLo = timeLo s.time.now ∧
      (t.bp n).bw.isoP = (if r.resolved then r.iso else Max.max r.iso b.bw.isoP) ∧
      (t.bp n).flow = b.flow ∧ (t.bp n).gain = b.gain ∧ (t.bp n).prot = b.prot) ∧
  (∀ (s : State), (s.cyc % intervalCyc ≠ 0 → exec .bwIntervalEnd s = .next s) ∧
    ((∀ p ∈ s.limPend, p.item < 8) → s.cyc % intervalCyc = 0 →
    ∃ t, exec .bwIntervalEnd s = .next t ∧ t.evalSeq = s.evalSeq + 1 ∧ t.limPend = [] ∧
      (∀ e item, item < 8 → t.limVal e item = s.limLatest e item))) ∧
  (∀ (s : State) (bp : BpId),
    let n := bp.toNat
    let u := s.limitsNow
    let b := s.bp n
    let w := b.bw
    let cm := u.cMax n
    let c := if w.ceiling < cm then w.ceiling else cm
    let k := if w.ceiling < cm then w.ceilFifths else 0
    let f := u.floorEff n w.floorUse
    let high := b.flow.meterOut.window.length = 64 ∧ u.limPower n + dB1 < u.pOut n
    let noise := u.nDonorNow n (u.bandGain n)
    let out := fun (t : State) => (t.bp n).prot.st = .muted ∨ (t.bp n).prot.st = .lockedOut
    s.cyc % intervalCyc = 0 → s.present n = true → (∀ m ∈ s.planned, m ≠ n → s.passing m = false) → s.intakeRoom 3 = true →
    (high → s.passing n = true → s.thermal.waiting = [] →
      ∃ t, exec .bwIntervalEnd s = .next t ∧ (t.bp n).prot.st = .barred ∧ (t.bp n).prot.cause = 8 ∧
        s.sentNow t n 13 2 (Config.msgContext n 13 8)) ∧
    (¬ high → s.serving n = true →
      ∃ t, exec .bwIntervalEnd s = .next t ∧ (t.bp n).prot.nDonor = noise ∧
        (let v := (t.bp n).bw
         let m := v.isoBw - c - (if k = 0 then 0 else 1)
         let back := v.isoBw - f - dB1
         v.margin = m ∧
         (w.fast.usable = 0 → v.isoBw = w.isoP ∧ v.isoSrc = w.pSrc) ∧
         (m < f → u.gBottom n ≤ back → v.ceiling = back ∧ v.ceilFifths = 0 ∧ v.holdOff = 1 ∧
           v.backoffCnt = w.backoffCnt.inc 39 ∧ s.sentNow t n 3 0 (Config.msgContext n 3 0)) ∧
         (m < f → back < u.gBottom n → v.ceiling = u.gBottom n ∧ v.ceilFifths = 0 ∧ v.tripCnt = w.tripCnt.inc 39 ∧
           t.rdB (F.bpBwStatMarginMute n) = true ∧ (t.bp n).prot.cause = 2 ∧ out t ∧
           s.sentNow t n 2 1 (Config.msgContext n 2 0)) ∧
         (f ≤ m → w.holdOff = 0 → c < cm → (k : Int) + 2 ^ 23 ≤ 5 * (v.isoBw - c - f - dB1) →
           (v.ceiling, v.ceilFifths) = ceilRise c k cm) ∧
         (f ≤ m → 0 < w.holdOff → v.ceiling = c ∧ v.holdOff = w.holdOff - 1) ∧
         (f ≤ m → s.uplink n = true → u.nMax n < noise →
           (t.bp n).prot.cause = 4 ∧ out t ∧ s.sentNow t n 12 1 (Config.msgContext n 12 0))))) ∧
  (∀ (s : State) (bp : BpId) (w : TripWin) (rest : List TripWin),
    let n := bp.toNat
    let b := s.bp n
    let out := powerDb w.outSum (w.n * 2 ^ 38)
    let l := out - w.endGain - powerDb w.inSum (w.n * 2 ^ 38)
    let near := b.bw.tripHist.filter (fun p => decide ((w.endAt - p.at_) * (s.rate n).num * 10 ≤ 24576 * (s.rate n).den))
    b.bw.tripDone = w :: rest →
    (w.tainted = true →
      ∃ t, exec (.tripSubwindowEnd bp) s = .next t ∧ s.bpOnly t n ∧ t.bp n = { b with bw := { b.bw with tripDone := rest } }) ∧
    (w.tainted = false → (∀ p ∈ near, ¬ (p.out + 3 * dB1 < out ∧ p.loop + 3 * dB1 < l)) →
      ∃ t, exec (.tripSubwindowEnd bp) s = .next t ∧ s.bpOnly t n ∧
        t.bp n = { b with bw := { b.bw with tripDone := rest, tripHist := ⟨w.endAt, out, l⟩ :: near } }) ∧
    (w.tainted = false → (∃ p ∈ near, p.out + 3 * dB1 < out ∧ p.loop + 3 * dB1 < l) → s.serving n = true → s.intakeRoom 2 = true →
      ∃ t, exec (.tripSubwindowEnd bp) s = .next t ∧ s.sentNow t n 1 1 (Config.msgContext n 1 0) ∧
        t.rdB (F.bpBwStatOscTrip n) = true ∧ (t.bp n).bw.tripCnt = b.bw.tripCnt.inc 39 ∧
        (t.bp n).bw.ceiling = Max.max (s.gBottom n) (w.endGain - 6 * dB1) ∧ (t.bp n).bw.ceilFifths = 0 ∧ s.otherBps t n))

/-- R139, R131, R132, R137: a due retry timer stops and, without a held cause, the band path restarts; an hour of service clears the retry exponent; a donor low for LOSS_T is lost and held, and restored after 100 ms; a duty bucket ends when its time has passed, and then sets the duty; MUTE_N falling is counted and its cause follows on every bound band path, and its rise has the cause removed 2 CLK_S cycles later. The readings and choices of the model in it are those of assumptions 5, 26, 69. -/
def Obligations.ProtectionEvents : Prop :=
  ∀ (s : State) (bp : BpId),
    let n := bp.toNat
    let b := s.bp n
    let p := b.prot
    (∀ at', p.retryAt = some at' → at' ≤ s.setCyc →
      ∃ t, exec (.retryTimerExpiry bp) s = .next t ∧ (t.bp n).prot.retryAt = none ∧ s.otherBps t n ∧
        (p.st ≠ .muted ∨ anyHeld p.held = true → t.bp n = { b with prot := { p with retryAt := none } }) ∧
        (p.st = .muted → anyHeld p.held = false → p.tripped = true → s.held4Service n = false →
          (t.bp n).prot.st = .starting ∧ (t.bp n).gain.softStarted = false ∧ (t.bp n).gain.gate = .closed)) ∧
    (∀ at', p.serviceFrom = some at' → at' + 3600 * secCyc ≤ s.setCyc → s.serving n = true →
      ∃ t, exec (.retryExpReset bp) s = .next t ∧ s.bpOnly t n ∧ t.bp n = { b with prot := { p with retryExp := 0 } }) ∧
    (∀ at', p.donorLow = some at' → s.planHas n plDonorBp = true → p.donorLost = false →
      at' + s.planN n plLossT * msCyc ≤ s.setCyc →
      ∃ t, exec (.donorLoss bp) s = .next t ∧ (t.bp n).prot.donorLost = true ∧ (t.bp n).prot.held.donor = true ∧
        (s.serving n = true → p.held.donor = false → (t.bp n).prot.st = .muted) ∧ s.otherBps t n) ∧
    (∀ at', p.donorOk = some at' → s.planHas n plDonorBp = true → p.donorLost = true → at' + 100 * msCyc ≤ s.setCyc →
      s.donorLane (s.planN n plDonorBp) = true → s.passing (s.planN n plDonorBp) = true →
      ∃ t, exec (.donorRestore bp) s = .next t ∧ (t.bp n).prot.donorLost = false ∧ (t.bp n).prot.held.donor = false ∧
        s.otherBps t n) ∧
    (s.setCyc < s.bucketDue n (p.bucketN + 1) → exec (.dutyBucketEnd bp) s = .next s) ∧
    (let bs := (p.bucket :: p.buckets).take 64
     s.passing n = true → s.bucketDue n (p.bucketN + 1) ≤ s.setCyc → bs.length = 64 → 0 < bs.foldl (fun k x => k + x.total) 0 → s.limDuty n = 100 * dB1 →
      ∃ t, exec (.dutyBucketEnd bp) s = .next t ∧ (t.bp n).prot.buckets = bs ∧ (t.bp n).prot.held.duty = false ∧
        (t.bp n).prot.duty =
          roundEven (100 * dB1 * ((bs.foldl (fun k x => k + x.emit) 0 : Nat) : Int)) (bs.foldl (fun k x => k + x.total) 0)) ∧
    (s.pins.muteN = true → s.replayMode = false →
      ∃ t, exec .muteNFall s = .next t ∧ t.pins.muteN = false ∧
        (∀ m ∈ s.planned, s.planN m plMuteNBind = 1 → (t.bp m).prot.held.muteN = true) ∧
        (∀ m, (m ∉ s.planned ∨ s.planN m plMuteNBind ≠ 1) → t.bp m = s.bp m)) ∧
    (s.pins.muteN = false → s.replayMode = false →
      ∃ t, exec .muteNRise s = .next t ∧ t.pins.muteN = true ∧
        t.bps = s.bps ∧ ⟨none, s.cyc + 16, false⟩ ∈ t.heldOff)

/-- R150, R151, R155, R158, R159, R168: the commands of CH_FE_CMD. POWER_UP, POWER_DOWN, CLEAR_FAULT, RECEIVE, TRANSMIT, READY, RETUNE and CAL each start their state's sequence from a state that admits them; a chain that follows the schedule joins it with RECEIVE and refuses TRANSMIT with RESULT 4; TO_RX begins PA_LEAD later; in BIASING and SYNTH_LOCKING a command is held. While the C4 latch holds no sequence starts. The readings and choices of the model in it are those of assumptions 28, 68. -/
def Obligations.FrontEndCommands : Prop :=
  ∀ (s : State) (who : Requester) (ch : ChainId),
    let c := ch.toNat
    let k := s.chain c
    let ok := fun (cmd arg : Nat) => s.takes who (F.chFeCmdCmd c).addr [(F.chFeCmdCmd c, cmd), (F.chFeCmdArg c, arg)] = true
    let goes := fun (i : Instr) (x : Chain) =>
      ∃ t, exec i s = .next t ∧ t.chain c = x ∧ (∀ d, d ≠ c → t.chain d = s.chain d) ∧
        t = { s.writeFrame t with chains := t.chains }
    let lead := fun (to' : ChSt) => if to' = .receive then s.leadOf c else 0
    let switching := fun (to' : ChSt) (slot : Nat) (joined : Bool) =>
      { k with st := .switching, target := to', calBusy := false, seq := some (s.newRun c slot (lead to') none), settleAt := none,
               joined := joined, result := 1 }
    let quiet := k.st = .ready ∨ k.st = .transmit ∨ (k.st = .receive ∧ k.seq = none)
    (s.latched = true → ok 8 0 → k.st = .feFault →
      goes (.clearFault who ch) { k with st := .poweredDown, seq := none, settleAt := none, result := 1 }) ∧
    (s.latched = false →
    (ok 1 0 → k.st = .poweredDown →
      goes (.powerUp who ch) { k with
        st := .biasing, failConsec := [0, 0, 0, 0, 0, 0, 0, 0], done := 0, startup := (s.chainCfg c).startup
        pending := k.pending ||| (s.chainCfg c).startup, faultKind := 0, seq := some (s.freshRun c 0 none), settleAt := none
        result := 1 }) ∧
    (ok 2 0 → (∀ r, k.seq = some r → r.ended = true) →
      goes (.powerDown who ch) { k with
        st := .poweredDown, held := none, settleAt := none, calBusy := false, scratch := [], startup := 0
        seq := some (s.freshRun c 5 none), result := if k.held.isSome then 6 else 1 }) ∧
    (∀ r, ok 2 0 → k.seq = some r → r.ended = false →
      goes (.powerDown who ch) { k with
        st := .poweredDown, held := none, settleAt := none, calBusy := false, scratch := [], startup := 0
        seq := some { r with abort := some .powerDown }, result := if k.held.isSome then 6 else 1 }) ∧
    (ok 8 0 → k.st = .feFault →
      goes (.clearFault who ch) { k with
        st := .poweredDown, seq := some (s.freshRun c 5 none), settleAt := none, result := 1 }) ∧
    (ok 3 0 → s.onSchedule c = false → k.st = .ready ∨ k.st = .transmit →
      goes (.receive who ch) (switching .receive 2 k.joined)) ∧
    (ok 3 0 → s.onSchedule c = true → k.st = .ready → k.joined = false →
      goes (.receive who ch) { switching (s.inForce c) (toSlot (s.inForce c)) true with joinedAt := s.cyc }) ∧
    (ok 4 0 → s.onSchedule c = false → k.st = .ready ∨ (k.st = .receive ∧ k.seq = none) →
      goes (.transmit who ch) (switching .transmit 3 k.joined)) ∧
    (ok 4 0 → s.onSchedule c = true → quiet → s.plainWriter who → s.intakeRoom 1 = true →
      ∃ t, exec (.transmit who ch) s = .next t ∧ t.chain c = { k with result := 4 } ∧
        s.sentNow t (srcCh c) 56 0 (Config.msgContext (srcCh c) 56 4)) ∧
    (ok 5 0 → k.st = .transmit ∨ (k.st = .receive ∧ k.seq = none) →
      goes (.ready who ch) (switching .ready 4 false)) ∧
    (∀ a : BitVec 4, ok 6 a.toNat → a.toNat ≤ 1 → quiet →
      goes (.retune who ch a) { k with
        st := .synthLocking, lockFrom := s.cyc, lockLeft := k.st, seq := some (s.freshRun c (6 + a.toNat) none), settleAt := none
        result := 1 }) ∧
    (∀ a : BitVec 4, ok 7 a.toNat → a.toNat ≤ 7 → (s.seqStart c (8 + a.toNat)).isSome = true → s.onSchedule c = false →
      k.st = .ready → k.seq = none →
      goes (.cal who ch a) { k with
        pending := k.pending ||| (1#8 <<< a.toNat)
        reqDue := if s.rdB (F.chFeCfgCalMode c) then k.reqDue
          else assocSet k.reqDue a.toNat (s.cyc + nsCyc (s.chainCfg c).calReqTimeout)
        st := .calibrating, calBusy := true, calRun := BitVec.ofNat 3 a.toNat, scratch := []
        seq := some (s.freshRun c (8 + a.toNat) none), settleAt := none, result := 1 }) ∧
    (k.st = .biasing ∨ k.st = .synthLocking → k.held = none →
      ∀ row ∈ ([(.receive who ch, 3), (.transmit who ch, 4), (.ready who ch, 5)] : List (Instr × Nat)), ok row.2 0 →
        goes row.1 { k with held := some ⟨BitVec.ofNat 4 row.2, 0, false⟩, result := 2 }))

/-- R145, R146, R148, R149, R158, R159, R163, R169: the entries END, WRITE, READ, POLL, CAPTURE, WAIT and EVENT of a running sequence, each at its cycle, with the bits and length of its transfer: the next follows it by b + 4 SCLK cycles and its DELAY. Nothing happens before an entry is due, or while an abort waits. An illegal operation is a sequence failure, as are a POLL past its timeout, which in a LOCK or RETUNE sequence counts as one of lock, and a lock past LOCK_TIMEOUT: FE_FAULT with its kind and entry, and a message of hint C2. A calibration aborted for TRANSMIT keeps nothing and is counted, at a point outside a transfer. The readings and choices of the model in it are those of assumptions 13, 28, 55, 68. -/
def Obligations.SequenceEntries : Prop :=
  ∀ (s : State) (ch : ChainId) (r : SeqRun),
    let c := ch.toNat
    let k := s.chain c
    let goes := fun (i : Instr) (x : Chain) => ∃ t, exec i s = .next t ∧ s.chainOnly t c ∧ t.chain c = x
    let a := s.entryAt c r
    let next := fun (from' done' : Nat) => { r with entry := r.entry + 1, pollFrom := none, nextAt := from', doneAt := done' }
    let after := fun (y : FeXfer) => next (y.start + 16 * (y.len + 4)) (y.start + 16 * (y.len + 2))
    let fails := fun (i : Instr) (kind : Nat) =>
      ∃ t, exec i s = .next t ∧ (t.chain c).st = .feFault ∧ (t.chain c).faultKind = BitVec.ofNat 3 kind ∧
        (t.chain c).faultEntry = BitVec.ofNat 12 r.entry ∧ (t.chain c).seq = none ∧ (∀ d, d ≠ c → t.chain d = s.chain d) ∧
        s.sentNow t (srcCh c) kind 2 (feCtx c r.slot.toNat r.entry)
    let plain := r.slot.toNat < 8 ∧ k.st ≠ .poweredDown ∧ s.intakeRoom 1 = true
    k.seq = some r →
    (∀ data, s.cyc < a ∨ r.abort.isSome = true → exec (.seqEntry ch data) s = .next s) ∧
    (∀ (data : BitVec 32) (w0 w1 w2 : Word), r.ended = false → r.abort = none → a ≤ s.cyc → s.cell .seq (3 * r.entry) = ⟨w0, 0, false⟩ →
      s.cell .seq (3 * r.entry + 1) = ⟨w1, 0, false⟩ → s.cell .seq (3 * r.entry + 2) = ⟨w2, 0, false⟩ →
      bitsOf w0 32 30 = 0 →
      let op := bitsOf w0 39 36
      let dev := bitsOf w0 35 33
      let v := data.toNat % 2 ^ s.feDataBits c dev
      let mask := w2.toNat % 2 ^ 32
      let delay := 16 * bitsOf w0 14 0
      let sent := fun (d : Nat) => feTransfer (s.feDevice c dev) false (bitsOf w0 29 15) d a
      let got := feTransfer (s.feDevice c dev) true (bitsOf w0 29 15) v a
      let hit := Nat.land (Nat.xor v (w1.toNat % 2 ^ 32)) mask = 0
      let e := Instr.seqEntry ch data
      (op = 0 → goes e { k with seq := some { r with ended := true, pollFrom := none, doneAt := a } }) ∧
      (op = 1 → goes e { k with xfer := some (sent (w1.toNat % 2 ^ 32)), seq := some (after (sent (w1.toNat % 2 ^ 32))) }) ∧
      (op = 2 → hit → goes e { k with xfer := some got, seq := some (after got) }) ∧
      (op = 2 → ¬ hit → plain → fails e 1) ∧
      (op = 3 → hit → goes e { k with xfer := some got, seq := some (after got) }) ∧
      (op = 3 → ¬ hit → goes e { k with
        xfer := some got, seq := some { r with pollFrom := some (r.pollFrom.getD a), nextAt := a + Nat.max delay (16 * (got.len + 4)) } }) ∧
      (op = 4 → goes e { k with
        xfer := some got, scratch := assocSet k.scratch (bitsOf w1 39 32 % 8) (BitVec.ofNat 32 (Nat.land v mask)), seq := some (after got) }) ∧
      (op = 5 → goes e { k with seq := some (next (a + delay) (a + delay)) }) ∧
      (op = 6 → goes e { k with raised := k.raised ||| (1#4 <<< (bitsOf w1 39 32 % 4)), seq := some (next a a) }) ∧
      (op = 7 →
        let y := sent (s.rd (F.chFeResultValue c (bitsOf w1 39 32 % 8)))
        goes e { k with xfer := some y, seq := some (after y) }) ∧
      (8 ≤ op → plain → fails e 4) ∧
      (8 ≤ op → 8 ≤ r.slot.toNat → s.intakeRoom 1 = true →
        ∃ t, exec e s = .next t ∧ s.sentNow t (srcCh c) 4 2 (feCtx c r.slot.toNat r.entry) ∧ (t.chain c).faultKind = 6 ∧
          (t.chain c).faultEntry = BitVec.ofNat 12 r.entry)) ∧
    (∀ t0, r.pollFrom = some t0 → plain →
      let tmo := bitsOf (s.memPeek .seq (3 * r.entry + 2)) 39 32
      let lock := r.slot = 1 ∨ r.slot = 6 ∨ r.slot = 7
      let code := if lock then 3 else 2
      (tmo ≠ 0 → t0 + usCyc (8 * tmo) ≤ s.cyc → fails (.pollTimeout ch) code) ∧
      (tmo = 0 → (if lock then k.lockFrom else r.startedAt) + usCyc (s.rd (F.chFeCfgLockTimeout c)) ≤ s.cyc →
        fails (.pollTimeout ch) code) ∧
      (tmo ≠ 0 → s.cyc < t0 + usCyc (8 * tmo) → exec (.pollTimeout ch) s = .next s)) ∧
    (plain → k.st = .synthLocking → r.ended = false → k.lockFrom + usCyc (s.rd (F.chFeCfgLockTimeout c)) ≤ s.cyc →
      fails (.lockTimeout ch) 3) ∧
    (s.inTransfer c = true → exec (.seqAbortSafePoint ch) s = .next s) ∧
    (r.abort = some .transmit → r.ended = false → s.inTransfer c = false → s.latched = false → 8 ≤ r.slot.toNat → assoc k.reqDue (r.slot.toNat - 8) = none →
      ∃ t, exec (.seqAbortSafePoint ch) s = .next t ∧ (∀ d, d ≠ c → t.chain d = s.chain d) ∧ s.countsOne t (F.chFeCnt1AbortCnt c) ∧
        t = { s with chains := t.chains, regs := t.regs } ∧
        t.chain c = { k with
          scratch := [], calBusy := false, startup := k.startup &&& ~~~(1#8 <<< (r.slot.toNat - 8)), st := .switching
          target := .transmit, seq := some (s.freshRun c 3 none), settleAt := none })

/-- R151, R152, R155, R156, R157, R161, R162: what follows a sequence's END once it is due, a settle, the TDD schedule and the calibration timers: a switch settles from its point on, to the next CLK_S edge, and enters its target, counted; the synthesiser settle leads back without a start-up calibration; a frame begins at the CLK_T edge that reaches its instant, or after a step at the end of the old one; a switch point toward TRANSMIT starts TO_TX when its preroll begins, or is skipped in harbour mode; the lowest pending calibration that fits starts; an expired request is refused; an interval makes its calibration pending. The readings and choices of the model in it are those of assumptions 5, 28, 68. -/
def Obligations.ChainTransitions : Prop :=
  ∀ (s : State) (ch : ChainId),
    let c := ch.toNat
    let k := s.chain c
    let goes := fun (i : Instr) (x : Chain) => ∃ t, exec i s = .next t ∧ s.chainOnly t c ∧ t.chain c = x
    (∀ r, k.seq = some r → r.ended = true → s.cyc < r.doneAt → exec (.sequenceComplete ch) s = .next s) ∧
    (∀ r, k.seq = some r → r.ended = true → r.doneAt ≤ s.cyc →
      (r.slot.toNat < 8 → k.st = .switching →
        goes (.sequenceComplete ch) { k with
          seq := none
          settleAt := some (8 * ceilDiv (r.point.getD r.doneAt +
            nsCyc (if k.target = .transmit then (s.chainCfg c).settleTx else (s.chainCfg c).settleRx)) 8) }) ∧
      (r.slot.toNat < 8 → k.st = .synthLocking →
        goes (.sequenceComplete ch) { k with seq := none, settleAt := some (r.doneAt + usCyc (s.rd (F.chFeCfgSynthSettle c))) }) ∧
      (r.slot.toNat < 8 → k.st = .biasing → s.latched = false →
        goes (.sequenceComplete ch) { k with
          st := .synthLocking, lockFrom := s.cyc, lockLeft := .poweredDown, seq := some (s.freshRun c 1 none), settleAt := none }) ∧
      (8 ≤ r.slot.toNat →
        ∃ t, exec (.sequenceComplete ch) s = .next t ∧ (t.chain c).done.getLsbD (r.slot.toNat - 8) = true ∧
          (t.chain c).pending.getLsbD (r.slot.toNat - 8) = false ∧ atD (t.chain c).failConsec (r.slot.toNat - 8) 0 = 0 ∧
          t.rd (F.chFeCalTimeHiTime c) = s.nowHi.toNat ∧ t.rd (F.chFeCalTimeLoTime c) = s.nowLo.toNat ∧
          ∀ d, d ≠ c → t.chain d = s.chain d)) ∧
    (∀ t0, k.settleAt = some t0 → t0 ≤ s.cyc → k.st = .synthLocking → k.startup = 0 → k.held = none → s.latched = false →
      goes (.synthSettleElapsed ch) { k with
        settleAt := none, calFromLock := false, st := .switching, target := s.lockReturn c, calBusy := false
        seq := some (s.newRun c (toSlot (s.lockReturn c)) (if s.lockReturn c = .receive then s.leadOf c else 0) none) }) ∧
    (∀ t0, k.settleAt = some t0 → t0 ≤ s.cyc → k.st = .switching → k.held = none → c ∉ s.boot.feAwait →
      ∃ t, exec (.switchSettleElapsed ch) s = .next t ∧ t.chain c = { k with st := k.target, settleAt := none, calFromLock := false, enteredAt := t0 } ∧
        (∀ d, d ≠ c → t.chain d = s.chain d) ∧ s.countsOne t (F.chFeCnt0SwitchCnt c) ∧
        t = { s with chains := t.chains, regs := t.regs }) ∧
    (s.onSchedule c = true →
      (∀ e, k.frameEnd = some e → e ≤ s.cyc → goes (.tddFrameStart ch) { k with frameStart := e, frameEnd := none }) ∧
      (∀ e, k.frameEnd = some e → s.cyc < e → exec (.tddFrameStart ch) s = .next s) ∧
      (k.frameEnd = none → s.frameCrossed c = true → goes (.tddFrameStart ch) { k with frameStart := 32 * (s.cyc / 32) }) ∧
      (k.frameEnd = none → s.frameCrossed c = false → exec (.tddFrameStart ch) s = .next s)) ∧
    (∀ (point : BitVec 4) p, (s.chainCfg c).points[point.toNat]? = some p → p.toTx = true → s.onSchedule c = true → k.joined = true →
      let f := s.pointAt c p
      let begins := s.prerollAt c p f
      (s.cyc < begins ∨ begins < k.joinedAt ∨ f = k.lastPoint → exec (.switchPointPreroll ch point) s = .next s) ∧
      (begins ≤ s.cyc → k.joinedAt ≤ begins → f ≠ k.lastPoint →
        (s.boot.harbour = true →
          ∃ t, exec (.switchPointPreroll ch point) s = .next t ∧ t.chain c = { k with lastPoint := f } ∧
            (∀ d, d ≠ c → t.chain d = s.chain d) ∧ s.countsOne t (F.chFeCnt0SkipCnt c)) ∧
        (s.boot.harbour = false → k.st = .receive → k.seq = none → k.enteredAt ≤ begins → s.latched = false →
          goes (.switchPointPreroll ch point) { k with
            lastPoint := f, st := .switching, target := .transmit, calBusy := false, settleAt := none
            seq := some (s.newRun c 3 0 (some f)) }))) ∧
    (∀ j, k.seq = none → s.latched = false → k.st = .receive ∨ k.st = .ready → j < 8 → k.pending.getLsbD j = true → s.calFits c j = true →
      (∀ i, i < j → k.pending.getLsbD i = false ∨ s.calFits c i = false) →
      goes (.calGapStart ch) { k with
        st := if k.st = .receive then .receive else .calibrating, calBusy := true, calRun := BitVec.ofNat 3 j, scratch := [], seq := some (s.freshRun c (8 + j) none), settleAt := none }) ∧
    (∀ (j : BitVec 3) d, assoc k.reqDue j.toNat = some d → d ≤ s.cyc → ¬(k.calBusy = true ∧ k.calRun = j) → s.intakeRoom 1 = true →
      ∃ t, exec (.calReqTimeout ch j) s = .next t ∧ (∀ d', d' ≠ c → t.chain d' = s.chain d') ∧
        t.chain c = { k with
          pending := k.pending &&& ~~~(1#8 <<< j.toNat), reqDue := k.reqDue.filter (fun p => p.1 != j.toNat), result := 4 } ∧
        s.sentNow t (srcCh c) 56 0 (Config.msgContext (srcCh c) 56 (16 + j.toNat))) ∧
    (∀ (j : BitVec 3) t0 n, assoc k.committedAt j.toNat = some t0 → assoc (s.chainCfg c).bgInt j.toNat = some n →
      s.rdB (F.chFeCfgCalMode c) = true → (s.chainCfg c).background.getLsbD j.toNat = true → t0 + nsCyc n ≤ s.cyc →
      goes (.bgIntervalExpiry ch j) { k with pending := k.pending ||| (1#8 <<< j.toNat) })

/-- R165, R166, R33, R34, R37, R57, R154: the coexistence ports as requester and grantor, with the held cause of every band path bound, set at once and removed 2 CLK_S cycles after the release; a lane's loss and return of lock, SYSREF misalignment and CRC errors in its registers; a JTX stream is zero while blanked or off and never leaves the 16-bit range. The readings and choices of the model in it are those of assumptions 29, 55, 65, 66, 69. -/
def Obligations.CoexistenceAndLanes : Prop :=
  ∀ (s : State) (cx : CxId) (ch : ChainId),
    let k := cx.toNat
    let p := s.cxPort k
    let c := ch.toNat
    let l := s.chain c
    let held := fun (t : State) (on : Bool) =>
      (∀ n ∈ s.boundTo k, (t.bp n).prot.held.cx = on) ∧ (∀ n, n ∉ s.boundTo k → t.bp n = s.bp n) ∧
      (∀ j, j ≠ k → t.cxPort j = s.cxPort j)
    let cxOnly := fun (t : State) => (∀ j, j ≠ k → t.cxPort j = s.cxPort j)
    (s.rd (F.cxCtrlRole k) = 1 → p.gnt = true → s.replayMode = false →
      ∃ t, exec (.gntFall cx) s = .next t ∧ (t.cxPort k).gnt = false ∧
        held t true ∧ s.countsOne t (F.cxStatWdCnt k)) ∧
    (s.rd (F.cxCtrlRole k) = 1 → p.gnt = false → s.replayMode = false →
      ∃ t, exec (.gntRise cx) s = .next t ∧ (t.cxPort k).gnt = true ∧ t.bps = s.bps ∧ cxOnly t ∧
        ⟨some cx, s.cyc + 16, false⟩ ∈ t.heldOff) ∧
    (∀ t0, p.relAt = some t0 → t0 ≤ s.cyc →
      ∃ t, exec (.reqReleaseTimer cx) s = .next t ∧ cxOnly t ∧ t = { s with cx := t.cx } ∧
        t.cxPort k = { p with req := false, pri := false, relAt := none, reqFrom := none }) ∧
    (∀ t0, p.reqFrom = some t0 → p.noted = false → t0 + secCyc ≤ s.cyc → s.intakeRoom 1 = true →
      ∃ t, exec (.reqUnanswered cx) s = .next t ∧ cxOnly t ∧ t.cxPort k = { p with noted := true } ∧
        s.sentNow t srcProt 56 0 (Config.msgContext srcProt 56 k)) ∧
    (s.rd (F.cxCtrlRole k) = 2 → p.req = false → p.yielding = false → s.replayMode = false →
      ∃ t, exec (.grantorReqChange cx true true) s = .next t ∧ s.countsOne t (F.cxStatGrantCnt k) ∧ held t true ∧
        t.cxPort k = { p with
          req := true, pri := true, yielding := true, grantAt := some (s.cyc + 8 * s.rd (F.cxCtrlGrantDelay k)) }) ∧
    (s.rd (F.cxCtrlRole k) = 2 → p.yielding = true ∨ p.gnt = true → s.replayMode = false →
      ∃ t, exec (.grantorReqChange cx false false) s = .next t ∧ t.bps = s.bps ∧ cxOnly t ∧
        ⟨some cx, s.cyc + 16, false⟩ ∈ t.heldOff ∧
        t.cxPort k = { p with req := false, pri := false, yielding := false, grantAt := none, gnt := false }) ∧
    (∀ t0, p.grantAt = some t0 → t0 ≤ s.cyc →
      ∃ t, exec (.grantDelayExpiry cx) s = .next t ∧ cxOnly t ∧ t.cxPort k = { p with gnt := true, grantAt := none } ∧
        s.countsOne t (F.cxStatWdCnt k) ∧ t.bps = s.bps) ∧
    (l.jrxLock = true → s.intakeRoom 1 = true →
      ∃ t, exec (.jrxLockLost ch) s = .next t ∧ (t.chain c).jrxLock = false ∧ (∀ d, d ≠ c → t.chain d = s.chain d) ∧
        t.rdB (F.chJrxStatLost c) = true ∧ s.sentNow t (srcCh c) 7 1 (Config.msgContext (srcCh c) 7 0)) ∧
    (l.jrxLock = false → s.intakeRoom 1 = true →
      ∃ t, exec (.jrxLockRegained ch) s = .next t ∧ t.chain c = { l with jrxLock := true, shLock := true } ∧ (∀ d, d ≠ c → t.chain d = s.chain d) ∧
        s.sentNow t (srcCh c) 7 0 (Config.msgContext (srcCh c) 7 1) ∧
        (∀ n, s.chSource n ≠ some c → t.bp n = s.bp n)) ∧
    (∃ t, exec .sysrefMisalign s = .next t ∧ t = { s with regs := t.regs } ∧
      (l.jrxLock = true → t.rdB (F.chJrxStatSysrefMisalign c) = true) ∧
      (l.jtxRunning = true → t.rdB (F.chJtxStatSysrefMisalign c) = true)) ∧
    (∃ t, exec (.multiblockCrcFail ch) s = .next t ∧ s.countsOne t (F.chJrxCrcerrCount c) ∧ t = { s with regs := t.regs }) ∧
    (∃ t, exec (.jtxSample ch) s = .next t ∧ (∀ d, d ≠ c → t.chain d = s.chain d) ∧
      (t.chain c = { l with jtxOut := (t.chain c).jtxOut }) ∧
      (s.rfOff = true ∨ l.jtxRunning = false ∨ l.st ≠ .transmit → (t.chain c).jtxOut = Cplx.zero) ∧
      -32768 ≤ (t.chain c).jtxOut.re ∧ (t.chain c).jtxOut.re < 32768 ∧ -32768 ≤ (t.chain c).jtxOut.im ∧ (t.chain c).jtxOut.im < 32768)

/-- R176 to R181, R183, R191, R196, R199: at the start of its slot a free converter starts the conversion its scan list names, whose loops take the set point that stands then, a busy one makes it late, and a free entry leaves the slot to the oldest ordinary request; a finished conversion gives the channel its code, counts it and writes its fast value into the record, then urgent work comes before an aborted conversion and that before a late one; requests queue, are dropped and counted, or abort, one that meets a conversion started at its own edge putting it back; a trigger edge that was really there makes its request after its delay. The readings and choices of the model in it are those of assumptions 30, 55, 70. -/
def Obligations.ConversionsAndRequests : Prop :=
  ∀ (s : State) (ad : AdcId),
    let a := ad.toNat
    let d := s.adc a
    let slot := s.slotNow
    let adcsOnly := fun (t : State) => t = { s with adcs := t.adcs } ∧ ∀ b, b ≠ a → t.adc b = s.adc b
    (s.cyc % 960 ≠ 0 → exec (.scanConversionStart ad) s = .next s) ∧
    (∀ w : Word, s.cyc % 960 = 0 → slot ≠ 1023 → s.cell .scan (1024 * a + slot) = ⟨w, 0, false⟩ →
      let m : McId := BitVec.ofNat 5 (bitsOf w 4 0)
      (w.getLsbD 5 = true → d.conv = none →
        ∃ t v, exec (.scanConversionStart ad) s = .next t ∧ t = { s with adcs := t.adcs, loops := t.loops } ∧
          (∀ b, b ≠ a → t.adc b = s.adc b) ∧ t.adc a = { d with conv := some v } ∧
          (∀ j, j < 32 → t.loop j = if s.rd (F.loopCtrlMc j) = m.toNat ∧ s.loopCfg j ≠ none then
            { s.loop j with spIn := ((s.cyc, s.rdS (F.loopSpSp j)) :: (s.loop j).spIn).take 3 } else s.loop j) ∧
          v.kind = .scheduled ∧ v.mc = m ∧ v.at_ = s.cyc ∧ v.late = false ∧ v.sched = true ∧ v.timeHi = s.nowHi ∧ v.timeLo = s.nowLo) ∧
      (w.getLsbD 5 = true → d.conv ≠ none →
        ∃ t, exec (.scanConversionStart ad) s = .next t ∧ adcsOnly t ∧ t.adc a = { d with late := d.late ++ [m] }) ∧
      (∀ x rest, w.getLsbD 5 = false → d.conv = none → d.late = [] → d.ordinary = x :: rest →
        ∃ t v, exec (.scanConversionStart ad) s = .next t ∧ adcsOnly t ∧ t.adc a = { d with conv := some v, ordinary := rest } ∧
          v.kind = .requested ∧ v.mc = x ∧ v.at_ = s.cyc)) ∧
    (∀ v code g, d.conv = some v → v.at_ + 960 ≤ s.cyc → s.replayMode = false → s.mcCfg v.mc.toNat = some g →
      ∃ t, exec (.conversionComplete ad code) s = .next t ∧
        (t.mc v.mc.toNat).raw = code ∧ (t.mc v.mc.toNat).seq = (s.mc v.mc.toNat).seq + 1 ∧
        (t.mc v.mc.toNat).since = (s.mc v.mc.toNat).since + 1 ∧ (t.mc v.mc.toNat).late = v.late ∧
        t.memPeek .hold (0x3FE700 + 8 * v.mc.toNat + 1) = voltWord (spanOf g.input) (s.calibrated v.mc.toNat code.toNat) 1 ∧
        t.memPeek .hold (0x3FE700 + 8 * v.mc.toNat + 3) = BitVec.ofNat 40 v.at_ ∧
        (∀ m, m ≠ v.mc.toNat → t.mc m = s.mc m) ∧ (∀ b, b ≠ a → t.adc b = s.adc b) ∧
        (d.urgent = [] → d.aborted = none → d.late = [] → (t.adc a).conv = none) ∧
        (∀ x rest, d.urgent = x :: rest → (t.adc a).urgent = rest ∧ ∃ u, (t.adc a).conv = some u ∧ u.kind = .urgent ∧ u.mc = x) ∧
        (∀ x sc, d.urgent = [] → d.aborted = some (x, sc) →
          (t.adc a).aborted = none ∧ ∃ u, (t.adc a).conv = some u ∧ u.kind = .restarted ∧ u.mc = x ∧ u.sched = sc) ∧
        (∀ x rest, d.urgent = [] → d.aborted = none → d.late = x :: rest →
          (t.adc a).late = rest ∧ ∃ u, (t.adc a).conv = some u ∧ u.kind = .scheduled ∧ u.mc = x ∧ u.late = true)) ∧
    (∀ (who : Requester) (m : McId) g, s.mcCfg m.toNat = some g → g.adc = ad → (∀ x ∈ s.meas.trigs, s.cyc < x.due) →
      (s.takes who 385 [(F.measReqUrgent, 0), (F.measReqGo, 1), (F.measReqMc, m.toNat)] = true →
        (d.ordinary.length < 8 →
          ∃ t, exec (.measReqOrdinary who m) s = .next t ∧ t.adc a = { d with ordinary := d.ordinary ++ [m] } ∧
            (∀ b, b ≠ a → t.adc b = s.adc b)) ∧
        (8 ≤ d.ordinary.length → s.plainWriter who → s.intakeRoom 1 = true →
          ∃ t, exec (.measReqOrdinary who m) s = .next t ∧ t.adcs = s.adcs ∧ s.countsOne t (F.adcStatDropCnt a) ∧
            s.sentNow t srcMeas 5 0 (measCtx a m.toNat 0))) ∧
      (s.takes who 385 [(F.measReqUrgent, 1), (F.measReqGo, 1), (F.measReqMc, m.toNat)] = true →
        (d.conv = none →
          ∃ t u, exec (.measReqUrgent who m) s = .next t ∧ t.adc a = { d with conv := some u } ∧ u.kind = .urgent ∧ u.mc = m ∧
            s.countsOne t (F.adcStatUrgCnt a)) ∧
        (∀ v, d.conv = some v → v.kind ≠ .urgent →
          ∃ t u, exec (.measReqUrgent who m) s = .next t ∧ u.kind = .urgent ∧ u.mc = m ∧ s.countsOne t (F.adcStatUrgCnt a) ∧
            t.adc a =
              (if v.at_ = s.cyc ∧ v.kind = .scheduled then
                { d with conv := some u, late := if v.late then v.mc :: d.late else d.late ++ [v.mc] }
               else if v.at_ = s.cyc ∧ v.kind = .requested then { d with conv := some u, ordinary := v.mc :: d.ordinary }
               else { d with conv := some u, aborted := some (v.mc, v.sched) })) ∧
        (∀ v, d.conv = some v → v.kind = .urgent → d.urgent.length < 4 →
          ∃ t, exec (.measReqUrgent who m) s = .next t ∧ t.adc a = { d with urgent := d.urgent ++ [m] }))) ∧
    (∀ (c : ChainId) (r : Bool), (s.chain c.toNat).paEdges.getLsbD (if r then 0 else 1) = false →
      exec (.triggerEdge (.paEn c r)) s = .next s) ∧
    (∀ src : TrigSrc, (match src with
        | .trig _ _ => True
        | .fe c e => (s.chain c.toNat).raised.getLsbD e.toNat = true
        | .paEn c r => (s.chain c.toNat).paEdges.getLsbD (if r then 0 else 1) = true) →
      ∃ t hits, exec (.triggerEdge src) s = .next t ∧ t.meas = { s.meas with trigs := s.meas.trigs ++ hits } ∧ t.adcs = s.adcs ∧
        ∀ w : TrigWait, w ∈ hits ↔ ∃ e ∈ s.img.trigs[w.entry]?, src ∈ e.sources ∧ w.due = s.cyc + 8 * e.delay) ∧
    (∀ (entry : BitVec 5) e g w pre post, s.img.trigs[entry.toNat]? = some e → s.meas.trigs = pre ++ w :: post →
      w.entry = entry.toNat → w.due ≤ s.cyc → (∀ x ∈ pre, x.entry ≠ entry.toNat) → (∀ x ∈ s.meas.trigs, trigBefore x w = false) → s.mcCfg e.mc.toNat = some g → g.adc = ad →
      e.urgent = false → d.ordinary.length < 8 →
      ∃ t, exec (.triggerRequest entry) s = .next t ∧ t.adc a = { d with ordinary := d.ordinary ++ [e.mc] } ∧
        t.meas = { s.meas with trigs := pre ++ post } ∧ t = { s with adcs := t.adcs, meas := t.meas })

/-- R183, R184, R187: CAL_CMD starts one operation and restarts its channel's filter; after 16 fine values CAL_ZERO takes the mean as OFFSET within 1/16 of the span, and CAL_FULL takes FS_REF over the mean less OFFSET as GAIN, where that lies from 1/2 to 2 and its divisor is no less than 1/64 of the span; otherwise nothing changes and the operation fails; a write of MC_CAL takes its value and aborts an operation on the channel; TRIM_ACT changes four codes of the pending set, which goes into force at the start of a quiet slot with no conversion in flight: counted, time-stamped, filters restarted, AUTO loops held through the first sample after it. The readings and choices of the model in it are those of assumptions 30, 55, 70. -/
def Obligations.CalibrationAndTrims : Prop :=
  ∀ (s : State) (who : Requester) (m : McId),
    let n := m.toNat
    (∀ (fs : BitVec 20), ∀ row ∈ ([(.calZero who m, false, [(F.calCmdOp, 1), (F.calCmdMc, n)]),
        (.calFull who m fs, true, [(F.calCmdOp, 2), (F.calCmdMc, n), (F.calCmdFsRef, fs.toNat)])] :
          List (Instr × Bool × List (Fld × Nat))),
      s.takes who 390 row.2.2 = true →
      (∀ g, s.mcCfg n = some g → s.meas.calOp = none →
        ∃ t o, exec row.1 s = .next t ∧ t.meas = { s.meas with calOp := some o } ∧ o.full = row.2.1 ∧ o.mc = m ∧ (o.full = true → o.fsRef = fs) ∧
          o.taken = 0 ∧ o.sumNum = 0 ∧ t.rd F.calStatResult = 1 ∧ t.rd F.calStatMc = n ∧
          t.mc n = { s.mc n with hist := [], ovrs := [], since := 0, outputs := 0, settled := false } ∧
          ∀ k, k ≠ n → t.mc k = s.mc k) ∧
      (s.meas.calOp ≠ none → s.plainWriter who → s.intakeRoom 1 = true →
        ∃ t, exec row.1 s = .next t ∧ t.meas = s.meas ∧ t.mcs = s.mcs ∧ s.sentNow t srcMeas 56 0 (s.mcCtx n))) ∧
    (∀ o g, s.meas.calOp = some o → s.mcCfg o.mc.toNat = some g →
      let c := o.mc.toNat
      let den : Nat := 2 ^ 41 * Nat.max 1 (s.filterN g ^ g.k)
      (o.taken < 16 → exec .calOpComplete s = .next s) ∧
      (16 ≤ o.taken → o.full = false →
        (-(den : Int) ≤ 16 * o.sumNum → 16 * o.sumNum ≤ den →
          ∃ t, exec .calOpComplete s = .next t ∧ t.meas.calOp = none ∧
            t.rdS (F.mcCalOffset c) = roundEven (o.sumNum * 2 ^ 19) den ∧ t.rd (F.mcCalGain c) = s.rd (F.mcCalGain c) ∧
            t.rd F.calStatResult = 2 ∧ s.countsOne t F.calStatCalCnt ∧ t.rd F.calTimeHiTime = s.nowHi.toNat ∧
            t.rd F.calTimeLoTime = s.nowLo.toNat) ∧
        (16 * o.sumNum < -(den : Int) ∨ (den : Int) < 16 * o.sumNum → s.intakeRoom 1 = true →
          ∃ t, exec .calOpComplete s = .next t ∧ t.meas.calOp = none ∧ t.reg (F.mcCalOffset c).addr = s.reg (F.mcCalOffset c).addr ∧
            t.rd F.calStatResult = 3 ∧ s.sentNow t srcMeas 56 0 (s.mcCtx c))) ∧
      (16 ≤ o.taken → o.full = true →
        let d := o.sumNum * 2 ^ 19 - s.rdS (F.mcCalOffset c) * den
        let fs := sx 20 o.fsRef.toNat * (den : Int)
        let top := if d < 0 then -fs else fs
        let bot := d.natAbs
        let fits := 2 ^ 13 * den ≤ bot ∧ (bot : Int) ≤ 2 * top ∧ top ≤ 2 * (bot : Int)
        (fits → ∃ t, exec .calOpComplete s = .next t ∧ t.meas.calOp = none ∧
          t.rd (F.mcCalGain c) = (roundEven (top * 2 ^ 18) bot).toNat ∧ t.rd (F.mcCalOffset c) = s.rd (F.mcCalOffset c) ∧
          t.rd F.calStatResult = 2 ∧ s.countsOne t F.calStatCalCnt ∧ t.rd F.calTimeHiTime = s.nowHi.toNat ∧
          t.rd F.calTimeLoTime = s.nowLo.toNat) ∧
        (¬ fits → s.intakeRoom 1 = true →
          ∃ t, exec .calOpComplete s = .next t ∧ t.meas.calOp = none ∧ t.reg (F.mcCalOffset c).addr = s.reg (F.mcCalOffset c).addr ∧
            t.rd F.calStatResult = 3 ∧ s.sentNow t srcMeas 56 0 (s.mcCtx c)))) ∧
    (∀ offset gain : BitVec 20, s.takesWord who (448 + n) (offset ++ gain) = true →
      ∃ t, exec (.mcCalWrite who m offset gain) s = .next t ∧ t.reg (448 + n) = offset ++ gain ∧
        t.mc n = { s.mc n with hist := [], ovrs := [], since := 0, outputs := 0, settled := false } ∧ (∀ k, k ≠ n → t.mc k = s.mc k) ∧
        (∀ o, s.meas.calOp = some o → o.mc = m → t.meas.calOp = none ∧ t.rd F.calStatResult = 4) ∧
        (∀ o, s.meas.calOp = some o → o.mc ≠ m → t.meas = s.meas)) ∧
    (∀ (r : BitVec 3) (w : Word), r.toNat < 7 → s.takesWord who (398 + r.toNat) w = true →
      let base := s.meas.trimNext.getD s.meas.trims
      let base := if base.length = 26 then base else List.replicate 26 0
      ∃ t l, exec (.trimActWrite who r w) s = .next t ∧ t.meas.trimNext = some l ∧ t.meas.trims = s.meas.trims ∧ l.length = 26 ∧
        ∀ k, k < 26 → l[k]? = if k / 4 = r.toNat then some (bitsOf w (39 - 10 * (k % 4)) (30 - 10 * (k % 4))) else base[k]?) ∧
    (∀ l, s.meas.trimNext = some l →
      (s.slotNow = 1023 → s.cyc % 960 = 0 → (∀ a, a < 4 → (s.adc a).conv = none) →
        ∃ t, exec .trimApply s = .next t ∧ t.meas.trims = l ∧ t.meas.trimNext = none ∧
          t.rd F.trimStatTrimCnt = Nat.min (s.rd F.trimStatTrimCnt + s.meas.trimExtra + 1) (2 ^ 23 - 1) ∧
          t.rd F.trimTimeHiTime = s.nowHi.toNat ∧ t.rd F.trimTimeLoTime = s.nowLo.toNat ∧
          (∀ k, k < 32 → t.mc k = { s.mc k with hist := [], ovrs := [], since := 0, outputs := 0, settled := false }) ∧
          (∀ j, j < 32 → (t.loop j).trimHold = if s.loopMode j = 2 then some s.cyc else (s.loop j).trimHold) ∧ t.adcs = s.adcs) ∧
      (s.slotNow ≠ 1023 ∨ s.cyc % 960 ≠ 0 → exec .trimApply s = .next s) ∧
      ((∃ a, a < 4 ∧ (s.adc a).conv ≠ none) → exec .trimApply s = .next s))

/-- R187, R191 to R195: a loop in MANUAL drives the manual word clamped to its range; in AUTO its set point moves by at most RAMP toward the one that stood at its sample, and the integral and the output follow the error exactly, the integral standing still while the output is clamped outward; a loop that targets another writes its set point; OFF changes nothing, nor does a loop held by IDLE_HOLD, by its quiet slot or by a trim update. MODE changes without a step of the output; a set point is taken within its bounds. The readings and choices of the model in it are those of assumptions 30, 70. -/
def Obligations.LoopControl : Prop :=
  ∀ (s : State) (who : Requester) (lp : LoopId) (g : LoopCfg),
    let j := lp.toNat
    let l := s.loop j
    s.loopCfg j = some g →
    (∀ t0, l.sampleAt = some t0 → t0 + 1472 ≤ s.setCyc → s.loopMode j = 1 ∨ s.loopMode j = 2 →
      (s.rd (F.loopCtrlTkind j) = 1 → s.latched = false ∧ s.boot.harbour = false) →
      let run := Instr.loopOutputWrite lp
      let passed := { l with sampleAt := none, trimHold := l.trimHold.filter (fun t => decide (t0 < t)) }
      let stays := fun (x : LoopSt) => ∃ t, exec run s = .next t ∧ t = { s with loops := t.loops } ∧ t.loop j = x ∧ ∀ k, k ≠ j → t.loop k = s.loop k
      (s.idleHolds j g t0 = true → stays { passed with idleHeld := true }) ∧
      (s.idleHolds j g t0 = false → s.quietHold j ((t0 + 1472) / 960 % 1024) = true → stays passed)) ∧
    (∀ t0, l.sampleAt = some t0 → t0 + 1472 ≤ s.setCyc → s.idleHolds j g t0 = false → l.idleHeld = false →
      s.quietHold j ((t0 + 1472) / 960 % 1024) = false →
      (s.rd (F.loopCtrlTkind j) = 1 → s.latched = false ∧ s.boot.harbour = false) →
      let run := Instr.loopOutputWrite lp
      let inner := s.rd (F.loopCtrlTindex j)
      let feeds := fun (t : State) => ∀ gi, s.rd (F.loopCtrlTkind j) = 2 → s.loopCfg inner = some gi → gi.spMin ≤ (t.loop j).u →
        (t.loop j).u ≤ gi.spMax → t.rd (F.loopSpSp inner) = ux 40 (t.loop j).u
      (s.loopMode j = 0 → ∃ t, exec run s = .next t ∧ t = { s with loops := t.loops } ∧ t.loop j = { l with sampleAt := none }) ∧
      (s.loopMode j = 1 → l.trimHold = none →
        let u := clampI g.outMin g.outMax (s.rdS (F.loopManMan j))
        ∃ t, exec run s = .next t ∧ (∀ k, k ≠ j → t.loop k = s.loop k) ∧ (t.loop j).u = satS 40 u ∧
          (t.loop j).code = BitVec.ofNat 14 (clampI 0 16383 (roundEven u (2 ^ 18))).toNat ∧ (t.loop j).seq = l.seq + 1 ∧
          (t.loop j).sampleAt = none ∧ t.rd (F.loopOutOut j) = ux 40 (satS 40 u) ∧ feeds t) ∧
      (∀ at', s.loopMode j = 2 → l.trimHold = some at' →
        ∃ t, exec run s = .next t ∧ t = { s with loops := t.loops } ∧
          t.loop j = { l with sampleAt := none, trimHold := if t0 < at' then some at' else none }) ∧
      (s.loopMode j = 2 → l.trimHold = none → l.preset = false →
        let x := s.ffInput g.ffSrc
        let d : Int := x.2
        let sp := l.spEff + clampI (-g.ramp) g.ramp (spAt l - l.spEff)
        let sg : Int := if g.reverse then -1 else 1
        let e := sg * (sp * 32 - l.sampleV)
        let integ := l.i * 2 ^ 29 + g.ki * e
        let raw := (g.kp * e + integ + g.kd * (sg * (l.yPrev * 32 - l.sampleV))) * d + g.kff * (x.1 - g.ffX0 * 32 * d)
        let lo := g.outMin * 2 ^ 29 * d
        let hi := g.outMax * 2 ^ 29 * d
        let u := clampI lo hi raw
        ∃ t, exec run s = .next t ∧ (∀ k, k ≠ j → t.loop k = s.loop k) ∧ (t.loop j).spEff = sp ∧
          (t.loop j).u = satS 40 (roundEven u (2 ^ 29 * x.2)) ∧ (t.loop j).clamped = !decide (u = raw) ∧
          (t.loop j).i = (if u = raw ∨ (hi < raw ∧ e < 0) ∨ (raw < lo ∧ 0 < e) then satS 40 (roundBits integ 29) else l.i) ∧
          (t.loop j).seq = l.seq + 1 ∧ t.rd (F.loopOutOut j) = ux 40 (t.loop j).u ∧ feeds t)) ∧
    (∀ mode : BitVec 2, s.takes who (552 + 4 * j) [(F.loopCtrlMode j, mode.toNat)] = true →
      ∃ t, exec (.loopModeWrite who lp mode) s = .next t ∧ (∀ k, k ≠ j → t.loop k = s.loop k) ∧ t.loopMode j = mode.toNat ∧
        (s.loopMode j = mode.toNat → t.loops = s.loops) ∧
        (s.loopMode j = 2 → mode = 1 → t.rd (F.loopManMan j) = ux 40 l.u ∧ (t.loop j).u = l.u) ∧
        (s.loopMode j = 1 → mode = 2 → (t.loop j).preset = true ∧ (t.loop j).u = l.u) ∧
        (s.loopMode j = 0 → mode ≠ 0 → (t.loop j).u = s.outputNow j)) ∧
    (∀ w : Word, s.takesWord who (553 + 4 * j) w = true →
      ∃ t, exec (.loopSpWrite who lp w) s = .next t ∧ t.rd (F.loopSpSp j) = w.toNat ∧ t.loops = s.loops)

/-- R281, R285, R296 to R299, R352, R354: ENABLE asks the governor for the port's credits, or moves a granted port to DETECT, and waits while a transfer of the port's own is to end; ENABLE 0 makes it silent; RETRAIN is carried in 8 frames. Silence, HELLO, TRAIN and HUNT follow one another by their turns, each 256 CLK_T cycles after its partner's, and end in their time limits; a READY side sends GO and hunts from its end; RX_LOCK and EC_DONE follow the mode's SNR and the echo; the first frame follows GO by 256 CLK_T cycles; DETECT begins with a silence of 1 ms or 10 ms and up to 1 ms more. The readings and choices of the model in it are those of assumptions 5, 52, 53. -/
def Obligations.GuvanHandshake : Prop :=
  ∀ (s : State) (who : Requester) (pt : PortId),
    let k := pt.toNat
    let q := s.port k
    let others := fun (t : State) => ∀ j, j ≠ k → t.port j = s.port j
    let goes := fun (i : Instr) (x : Port) => ∃ t, exec i s = .next t ∧ t = { s with ports := t.ports } ∧ others t ∧ t.port k = x
    let base := if s.rdB (F.gvCfgLead k) then msCyc else 10 * msCyc
    let detects := fun (t : State) (fast : Nat) =>
      (t.port k).st = .detect ∧ (t.port k).framesOn = false ∧ (t.port k).fast = BitVec.ofNat 3 fast ∧ (t.port k).chosen = 7 ∧
        (t.port k).credits = 0 ∧ (t.port k).outQ = [] ∧ others t ∧
        ∃ x, (t.port k).silenceAt = some x ∧ s.cyc + base ≤ x ∧ x < s.cyc + base + msCyc
    let modeFast := s.rd (F.gvCfgModeFast k)
    let modeSlow := s.rd (F.gvCfgModeSlow k)
    let en := F.gvCtrlEnable k
    (s.takes who en.addr [(en, 1)] = true → q.st = .disabled → s.latched = false →
      (s.govBusy (145 + k) = true →
        ∃ t, exec (.gvEnable who pt) s = .next t ∧ t.rdB en = true ∧ t.ports = s.ports ∧ t.thermal = s.thermal) ∧
      (s.credits (145 + k) ≠ 0 → s.govBusy (145 + k) = false →
        ∃ t, exec (.gvEnable who pt) s = .next t ∧ t.rdB en = true ∧ detects t modeFast) ∧
      (s.credits (145 + k) = 0 → s.thermal.xfer = none → s.thermal.waiting = [] → s.thermal.booksBad = false →
        s.portCost k + s.headroom ≤ s.thermal.free →
        ∃ t, exec (.gvEnable who pt) s = .next t ∧ t.rdB en = true ∧ t.ports = s.ports ∧
          t.thermal.xfer = some ⟨BitVec.ofNat 8 (145 + k), s.portCost k, false⟩ ∧ t.thermal.free = s.thermal.free - s.portCost k)) ∧
    (s.takes who en.addr [(en, 0)] = true → q.st ≠ .disabled →
      ∃ t, exec (.gvDisable who pt) s = .next t ∧ (t.port k).st = .disabled ∧ (t.port k).framesOn = false ∧ (t.port k).outQ = [] ∧
        (t.port k).credits = 0 ∧ t.rdB en = false) ∧
    (s.takes who en.addr [(F.gvCtrlRetrain k, 1)] = true → s.rdB en = true → q.st = .up →
      ∃ t, exec (.gvRetrain who pt) s = .next t ∧ others t ∧
        t.port k = { q with retrainReq := true, retrainLeft := if q.retrainLeft = 0 then 8 else q.retrainLeft }) ∧
    (∀ x, q.silenceAt = some x → q.st = .detect → x ≤ s.cyc →
      goes (.detectSilenceExpiry pt) { q with st := .hello, leader := true, leftDetect := s.cyc, silenceAt := none, turnDue := true }) ∧
    (∀ (h : BitVec 64) (d : BitVec 16), helloOk h = true →
      let fast := Nat.max q.fast.toNat (helloFld h 59 57)
      let meets := fast ≤ modeSlow ∧ fast ≤ helloFld h 56 54
      let run := Instr.helloTurnReceived pt h d
      (q.st = .detect → meets →
        goes run { q with
          st := .hello, leader := false, leftDetect := s.cyc, silenceAt := none, heard := some h, turnDue := true, heardAt := s.cyc
          chosen := BitVec.ofNat 3 (helloFld h 53 51) }) ∧
      (q.st = .hello → q.leader = true → q.turns = 0 → meets → q.chosen = 7 →
        goes run { q with heard := some h, turnDue := true, heardAt := s.cyc, chosen := BitVec.ofNat 3 fast }) ∧
      (q.st = .hello → q.leader = true → 0 < q.turns → meets → q.chosen = 7 ∨ helloFld h 53 51 ≠ q.chosen.toNat →
        goes run { q with
          heard := some h, turnDue := true, heardAt := s.cyc, helloDelay := BitVec.ofNat 16 ((d.toNat - helloFld h 39 24) / 2)
          chosen := BitVec.ofNat 3 fast }) ∧
      (q.st = .hello → q.leader = true → 0 < q.turns → meets → q.chosen ≠ 7 → helloFld h 53 51 = q.chosen.toNat →
        goes run { q with
          heard := some h, turnDue := true, heardAt := s.cyc, helloDelay := BitVec.ofNat 16 ((d.toNat - helloFld h 39 24) / 2), st := .train
          mode := q.chosen, turns := 0, trainTurns := 0 }) ∧
      (q.st = .hello → q.leader = false → ¬ meets → q.disjointAt = none →
        goes run { q with heard := some h, turnDue := true, heardAt := s.cyc, disjointAt := some (s.cyc + secCyc) }) ∧
      (q.st = .train ∨ q.st = .hunt ∨ q.st = .up ∨ q.st = .disabled → exec run s = .next s)) ∧
    (s.turnOpen k = false → exec (.helloTurnStart pt) s = .next s ∧ exec (.trainTurnStart pt) s = .next s) ∧
    (q.st = .hello → q.turnDue = true → s.turnOpen k = true →
      let w := mkHello q.fast.toNat modeSlow q.chosen.toNat (s.rd (F.gvCfgLead k)) (s.gapNs k) true
      (q.leader = true ∨ q.chosen = 7 → goes (.helloTurnStart pt) { q with
        turnDue := false, turns := q.turns + 1, lastHello := w, launch := BitVec.ofNat 4 (s.launchCode k) }) ∧
      (q.leader = false → q.chosen ≠ 7 →
        goes (.helloTurnStart pt) { q with
          turnDue := false, turns := 0, lastHello := w, st := .train, mode := q.chosen, trainTurns := 0, launch := BitVec.ofNat 4 (s.launchCode k) })) ∧
    (∀ x, q.disjointAt = some x → x ≤ s.cyc → q.st = .hello → s.intakeRoom 1 = true →
      ∃ t, exec (.modesDisjointExpiry pt) s = .next t ∧ detects t modeFast ∧ s.sentNow t (srcGv k) 9 0 (s.gvCtx k 0)) ∧
    (q.st = .train → ∀ (turn : TrainTurn) (snr echo : BitVec 16),
      let need := 256 * atD ([24, 17, 17, 14, 11, 8] : List Int) q.mode.toNat 8
      let lock := need ≤ snr.toInt
      let quiet := echo.toInt ≤ -(need + 1536)
      (turn.info.toNat / 4096 % 8 ≠ 4 →
        goes (.trainTurnReceived pt turn snr echo) { q with
          partnerSt := BitVec.ofNat 3 (turn.info.toNat / 4096 % 8), turnDue := true, heardAt := s.cyc, trainTurns := q.trainTurns + 1
          agcFrozen := q.agcFrozen || decide (4 ≤ turn.markers.toNat)
          trainSt := if lock ∧ quiet then 3 else if quiet then 2 else if lock then 1 else 0 }) ∧
      (turn.info.toNat / 4096 % 8 = 4 →
        ∃ t, exec (.trainTurnReceived pt turn snr echo) s = .next t ∧ others t ∧ (t.port k).st = .hunt ∧
          (t.port k).framesOn = true ∧ (t.port k).huntFrom = s.cyc ∧ (t.port k).nextFrame = 32 * ceilDiv (s.cyc + 8192) 32)) ∧
    (q.st = .train → q.turnDue = true ∨ (q.leader = true ∧ q.trainTurns = 0) → s.turnOpen k = true →
      let ready := q.trainSt = 3 ∧ (q.partnerSt = 3 ∨ q.partnerSt = 4)
      let word := fun (st : Nat) => BitVec.ofNat 16 (2 ^ 15 + st * 2 ^ 12 + q.mode.toNat * 2 ^ 9 + (q.trainTurns + 1).toNat % 512)
      (ready → goes (.trainTurnStart pt) { q with
        turnDue := false, goSent := true, trainTurns := q.trainTurns + 1, lastTrain := word 4
        launch := BitVec.ofNat 4 (s.launchCode k), goEnds := some (s.cyc + turnCyc q.mode.toNat) }) ∧
      (¬ ready → goes (.trainTurnStart pt) { q with
        turnDue := false, goSent := false, trainTurns := q.trainTurns + 1, lastTrain := word q.trainSt.toNat
        launch := BitVec.ofNat 4 (s.launchCode k) })) ∧
    (∀ x, s.pending = [] → s.alive = true → s.time.setAt = none → s.time.stepTo = none → s.heldOff = [] → s.rpl.copying = none →
      (∀ j, (s.cxPort j).req = false) → q.goEnds = some x → x ≤ s.cyc + 1 →
      ∃ t, step s = .next t ∧ (t.port k).st = .hunt ∧ (t.port k).framesOn = true ∧ (t.port k).huntFrom = x ∧
        (t.port k).goEnds = none ∧ (t.port k).nextFrame = 32 * ceilDiv (x + 8192) 32 ∧ (t.port k).turnsDone = q.trainTurns) ∧
    (q.st = .hello ∨ q.st = .train → q.disjointAt = none → q.leftDetect + 150 * msCyc ≤ s.cyc →
      ∃ t, exec (.trainingTimeout pt) s = .next t ∧ s.countsOne t (F.gvLinkcntTrainFail k) ∧
        detects t (if q.st = .train ∧ s.rdB (F.gvCfgAutoDown k) = true ∧ q.fast.toNat < modeSlow then q.fast.toNat + 1 else modeFast)) ∧
    (q.st = .hunt → q.huntFrom + 100 * msCyc ≤ s.cyc → s.intakeRoom 1 = true →
      ∃ t, exec (.huntTimeout pt) s = .next t ∧ detects t modeFast ∧
        (q.wasUp = true → s.sentNow t (srcGv k) 4 1 (s.gvCtx k 0)) ∧ (q.wasUp = false → t.fc = s.fc))

/-- R284, R285, R290, R291, R295, R300, R304, R306, R308 to R310, R313, R327, R330: a frame sent has 5 440 symbols, begins with H0, carries the four oldest alarm words and the launch code of the band, and takes the next FRAME_SEQ, one frame period after the frame before, and an alarm word that leaves under the C4 latch takes the port down; a marker that continues a run of three declares alignment, with SNR the median of the newest 64, and eight misses lose it; a whole frame in UP gives the partner's fields, its credits and its books, puts the samples of a container group into their stream and the message it carries into the buffer, with the blocks counted, and moves the servo when it comes from the upstream; the upstream is dropped when it stops meeting its conditions, and chosen each uptime second by the lowest stratum and port; a message with a poisoned word is discarded and reported, a bad one is dropped and counted, one for another device goes on with one hop fewer or is dropped without hops; an alarm word is reported and spread with one hop fewer. The readings and choices of the model in it are those of assumptions 15, 16, 17, 51, 61, 71. -/
def Obligations.GuvanTraffic : Prop :=
  ∀ (s : State) (pt : PortId),
    let k := pt.toNat
    let q := s.port k
    (q.framesOn = false ∨ s.cyc + 512 < q.nextFrame → exec (.gvFrameSend pt) s = .next s) ∧
    (q.framesOn = true → q.nextFrame ≤ s.cyc + 512 → s.latched = false → q.retrainLeft ≠ 1 →
      ∃ t, exec (.gvFrameSend pt) s = .next t ∧ (t.port k).txFrame.length = 5440 ∧
        (t.port k).txFrame.take 4 = wordSyms (s.frameH0 k) ∧
        ((t.port k).txFrame.drop 16).take 16 = ((List.range 4).map (fun j => atD q.alarmQ j 0)).flatMap wordSyms ∧
        (t.port k).nextFrame = 32 * ceilDiv (s.cyc + 512) 32 + 32 * frameTicks q.mode.toNat ∧
        (t.port k).txPrev = (if q.nextFrame = 32 * ceilDiv (s.cyc + 512) 32 then q.txFrame else []) ∧
        (t.port k).txSeq = q.txSeq + 1 ∧ (t.port k).alarmQ = q.alarmQ.drop 4 ∧ (t.port k).retrainLeft = q.retrainLeft - 1 ∧
        (t.port k).launch = BitVec.ofNat 4 (s.launchCode k) ∧ (t.port k).st = q.st) ∧
    (q.framesOn = true → q.nextFrame ≤ s.cyc + 512 → s.latched = true →
      (∀ w ∈ q.alarmQ.drop 4, classFour w = false ∨ bitsOf w 39 22 ≠ s.ownAddr) →
      ∃ t, exec (.gvFrameSend pt) s = .next t ∧ (t.port k).st = .disabled ∧ (t.port k).framesOn = false) ∧
    (∀ f : RxFrame,
      let run := Instr.gvFrameReceive pt f
      (q.st = .disabled ∨ q.st = .detect ∨ q.st = .hello ∨ q.st = .train → exec run s = .next s) ∧
      (q.st = .hunt → q.candidates = [] →
        ∃ t, exec run s = .next t ∧ t = { s with ports := t.ports } ∧ (∀ j, j ≠ k → t.port j = s.port j) ∧
          t.port k = { q with candidates := if 60 ≤ f.markerSigns then [(f.arrival, 1)] else [] }) ∧
      (∀ a, q.st = .hunt → q.candidates = [(a, 3)] → 60 ≤ f.markerSigns → f.arrival = a + framePeriodNs (frameTicks q.mode.toNat) →
        (hdr f 8).getLsbD 21 = false →
        ∃ t, exec run s = .next t ∧ (t.port k).st = .up ∧ (t.port k).wasUp = true ∧ (t.port k).snr = medianOf ((f.snr :: q.snrs).take 64)) ∧
      (q.st = .up → f.markerSigns < 60 → 7 ≤ q.misses → q.retrainReq = false → s.intakeRoom 1 = true →
        ∃ t, exec run s = .next t ∧ (t.port k).st = .hunt ∧ (t.port k).huntFrom = s.cyc ∧ (t.port k).credits = 0 ∧
          (t.port k).outQ = [] ∧ s.countsOne t (F.gvLinkcntAlignLoss k) ∧ s.sentNow t (srcGv k) 2 1 (s.gvCtx k 0)) ∧
      (q.st = .up → 60 ≤ f.markerSigns → (∀ i, atD f.errors i 0 = 0) → (hdr f 8).getLsbD 21 = false →
        let counted := match q.pRxBlk with | some x => (BitVec.ofNat 16 (bitsOf (hdr f 3) 32 17) - x).toNat | none => 0
        let ticks := frameTicks q.mode.toNat
        (∃ t, exec run s = .next t ∧ (∀ j, j ≠ k → t.port j = s.port j) ∧ (t.port k).st = .up ∧ (t.port k).misses = 0 ∧
          (t.port k).pHarbour = (hdr f 0).getLsbD 5 ∧ (t.port k).pAddrValid = (hdr f 0).getLsbD 4 ∧
          (t.port k).pAddr = BitVec.ofNat 18 (bitsOf (hdr f 8) 39 22) ∧
          (t.port k).pRxBlk = some (BitVec.ofNat 16 (bitsOf (hdr f 3) 32 17)) ∧
          (t.port k).credits = Nat.min 64 (q.credits + bitsOf (hdr f 3) 39 33) ∧ (t.port k).inFlight = q.inFlight - counted ∧
          (t.port k).rxSeq = some (BitVec.ofNat 8 (bitsOf (hdr f 0) 23 16), f.arrival) ∧
          (s.replayMode = false → (t.port k).pTimeLock = (hdr f 0).getLsbD 12 ∧ (t.port k).pStratum = BitVec.ofNat 6 (bitsOf (hdr f 0) 11 6))) ∧
        (∀ b : List Byte, 20 ≤ b.length → b.length ≤ 85 → msgOk b = true → q.rxOpen = false →
          q.occupied + q.owed + blocksOf b ≤ 64 →
          (∀ i, i < 85 → atD f.syms (51 + i) 0 = (if i = 0 then mgmtSym 2 (atD b 0 0) else if i + 1 = b.length then mgmtSym 3 (atD b i 0)
            else if i < b.length then mgmtSym 1 (atD b i 0) else 0)) →
          ∃ t, exec run s = .next t ∧ (t.port k).inbox = q.inbox ++ [⟨b, some pt, blocksOf b⟩] ∧
            (t.port k).rxBlk = q.rxBlk + BitVec.ofNat 16 (blocksOf b) ∧ (t.port k).occupied = q.occupied + blocksOf b) ∧
        (∀ (mp : GvMap) (g src n : Nat), s.gvMap k true = some mp → mp.groups = [(g, src)] → g < 78 → s.streamTo k src = some n →
          s.ltrStopped 518 = false → bitsOf (hdr f 0) 39 24 = mp.mapId.toNat →
          let base := 136 + 68 * g
          let tag := symsWord f.syms base
          let buf := fun (t : State) => (Tbl.get (fun _ => RxStream.empty) (t.port k).rx src).buf
          bitsOf tag 36 32 ≤ 16 → (buf s).length + bitsOf tag 36 32 ≤ 40 * (s.rate n).den * ticks / (s.rate n).num + 32 →
          ∃ t, exec run s = .next t ∧ buf t = buf s ++ (List.range (bitsOf tag 36 32)).map (fun j =>
            ⟨symsWord f.syms (base + 4 + 4 * j), tag.getLsbD (2 * j + 1), tag.getLsbD (2 * j), false⟩)) ∧
        (s.time.upstream = some pt → s.lodestar = false → s.replayMode = false → s.time.st = .locked → s.portRole k = 1 ∨ s.portRole k = 2 →
          let b := s.time
          let d := if q.delayOk then q.delay else (q.helloDelay.toNat : Int) * ns1
          let sec := fullSeconds (bitsOf (hdr f 1) 39 34) (b.now / sec1)
          let theta := f.arrival - (sec * sec1 + (bitsOf (hdr f 1) 33 0 : Nat) * 2 ^ 20 + d)
          let wT := omegaT s.loopBw ticks
          (bitsOf (hdr f 0) 11 6 ≤ 61 → bitsOf (hdr f 0) 11 6 < b.sentStratum.toNat → b.far < 15 →
            ∃ t, exec run s = .next t ∧ t.time.upstream = some pt ∧ t.time.st = .locked ∧ t.time.now = b.now ∧ t.time.theta = theta ∧
              t.time.acc = b.acc + wT * wT * theta / 2 ^ 96 ∧ t.time.corrTicks = ticks ∧
              t.time.corr = clampI (-corrLim ticks) (corrLim ticks) (2 * wT * theta / 2 ^ 32 + t.time.acc) + b.corr % 2 ^ 32) ∧
          (b.sentStratum.toNat ≤ bitsOf (hdr f 0) 11 6 →
            ∃ t, exec run s = .next t ∧ t.time.upstream = none ∧ t.time.st = .holdover)))) ∧
    (s.alive = true → s.cyc % secCyc = 0 → s.uptime < s.cyc / secCyc → s.lodestar = false → s.boot.romLoader = false →
      let st := fun (j : Nat) => (s.port j).pStratum.toNat
      let best := fun (p : Nat) => p < 8 ∧ s.eligible p = true ∧
        ∀ j, j < 8 → s.eligible j = true → st p < st j ∨ (st p = st j ∧ p ≤ j)
      ∃ t, exec .uptimeSecond s = .next t ∧
        ((∀ j, j < 8 → s.eligible j = false) → t.time.upstream = s.time.upstream) ∧
        (∀ p, best p → s.time.upstream = none → t.time.upstream = some (BitVec.ofNat 3 p)) ∧
        (∀ p (u : BitVec 3), best p → s.time.upstream = some u →
          t.time.upstream = some (if st p + 2 ≤ st u.toNat then BitVec.ofNat 3 p else u))) ∧
    (q.inbox = [] → exec (.msgReceive pt) s = .next s) ∧
    (∀ m rest, q.inbox = m :: rest → 0 ∈ q.badIn → m.port = some pt → s.intakeRoom 1 = true →
      ∃ t, exec (.msgReceive pt) s = .next t ∧ (t.port k).inbox = rest ∧ (t.port k).outQ = q.outQ ∧
        s.sentNow t (srcGv k) 7 1 (s.gvCtx k (msgSrc m.bytes))) ∧
    (∀ m rest, q.inbox = m :: rest → 0 ∉ q.badIn → m.port = some pt →
      (msgOk m.bytes = false →
        ∃ t, exec (.msgReceive pt) s = .next t ∧ (t.port k).inbox = rest ∧ (∀ j, j ≠ k → t.port j = s.port j) ∧
          s.countsOne t (F.gvMsgcntDropMsg k)) ∧
      (msgOk m.bytes = true → s.addressed = true → msgDst m.bytes ≠ 0 → msgDst m.bytes ≠ s.ownAddr → msgDst m.bytes ≠ allAddr →
        (msgHops m.bytes = 0 → s.intakeRoom 1 = true →
          ∃ t, exec (.msgReceive pt) s = .next t ∧ (t.port k).inbox = rest ∧ (∀ j, j ≠ k → t.port j = s.port j) ∧
            s.countsOne t (F.gvMsgcntDropMsg k) ∧ s.sentNow t (srcGv k) 10 0 (s.gvCtx k (msgSrc m.bytes))) ∧
        (∀ j, msgHops m.bytes ≠ 0 → s.routePort (msgDst m.bytes) = some j → s.clean .routes (s.routeKey (msgDst m.bytes)) = true →
          ((s.port j).outQ.length < 16 →
            ∃ t, exec (.msgReceive pt) s = .next t ∧ t = { s with ports := t.ports } ∧ (t.port k).inbox = rest ∧
              (t.port j).outQ = (s.port j).outQ ++ [{ m with bytes := withHops m.bytes (msgHops m.bytes - 1) }]) ∧
          (16 ≤ (s.port j).outQ.length → exec (.msgReceive pt) s = .next s)))) ∧
    (∀ w : Word,
      (bitsOf w 39 22 = 0 → exec (.alarmWordReceive pt w) s = .next s) ∧
      (bitsOf w 39 22 ≠ 0 → s.intakeRoom 1 = true →
        ∃ t, exec (.alarmWordReceive pt w) s = .next t ∧ s.sentNow t (srcGv k) 12 0 w ∧
          (∀ j, j < 8 → j ≠ k → (t.port j).alarmQ =
            if s.portUp j = true ∧ 0 < bitsOf w 18 12 ∧ s.portRole k ≠ 3 ∧ (s.port j).alarmQ.length < 16 ∧
                (∀ i, i < 8 → ∀ a ∈ (s.port i).heardAlarms, sameAlarm a.word w = true → a.at_ + msCyc < s.cyc)
              then alarmIn s.ownAddr (s.port j).alarmQ (putBits w 18 12 (bitsOf w 18 12 - 1))
              else if s.portUp j = true ∧ 0 < bitsOf w 18 12 ∧ s.portRole k ≠ 3 ∧
                (∀ i, i < 8 → ∀ a ∈ (s.port i).heardAlarms, sameAlarm a.word w = true → a.at_ + msCyc < s.cyc)
              then alarmIn s.ownAddr ((s.port j).alarmQ.drop 1) (putBits w 18 12 (bitsOf w 18 12 - 1))
              else (s.port j).alarmQ)))

/-- R318 to R320, R323 to R325, R328, R329, R331, R332, R334, R337: loss of the reference, loss of lock and their registers; a write of TIME_SET_LO waits for the next CLK_T edge in FREE and is noted otherwise, and that edge sets the time asked for, by it or by a step; an edge of PPS_IN is stamped, changes nothing of the time base in replay mode, steps the time when it is the third far one in a row, and one with a pending time of day starts ACQUIRE from FREE; a gap of two seconds leaves LOCKED for HOLDOVER; PPS_OUT pulses once for a second, in the cycle of its instant and to an eighth of it; another lodestar withdraws this one, and the end of the withdrawal; the timer without a lodestar; the uptime second, at the multiples of 983 040 000 cycles, which takes ACQUIRE to LOCKED after a second of good updates. The readings and choices of the model in it are those of assumptions 5, 31, 32. -/
def Obligations.TimeEvents : Prop :=
  ∀ (s : State) (who : Requester),
    let b := s.time
    let tOnly := fun (t : State) => t = { s with time := t.time }
    (s.rdB F.clkStatRefOk = true → s.intakeRoom 1 = true →
      ∃ t, exec .refLoss s = .next t ∧ t.rdB F.clkStatRefOk = false ∧ t.rdB F.clkStatRefLoss = true ∧ t.time = b ∧
        s.sentNow t srcTime 1 3 s.timeCtx) ∧
    (∃ t, exec .refclkReturn s = .next t ∧ t.rdB F.clkStatRefOk = true ∧ t.rd F.clkStatRefLoss = s.rd F.clkStatRefLoss ∧
      s.regsKept t [F.clkStatRefOk.addr] ∧ t = { s with regs := t.regs }) ∧
    (s.rdB F.clkStatPllLock = true → ∃ t, exec .pllUnlock s = .next t ∧ t.rdB F.clkStatPllLock = false) ∧
    (∀ w : Word, s.takesWord who 140 w = true →
      (b.st = .free →
        ∃ t, exec (.timeSetLoWrite who w) s = .next t ∧ t.time = { b with setAt := some (timeOf (s.reg F.timeSetHiSet.addr) w) }) ∧
      (b.st ≠ .free → s.lodestar = false → s.intakeRoom 1 = true →
        ∃ t, exec (.timeSetLoWrite who w) s = .next t ∧ t.time = b ∧ s.sentNow t srcTime 56 0 s.timeCtx)) ∧
    (∀ eighth : BitVec 3,
      let a := s.instant eighth.toNat
      let run := Instr.ppsInEdge eighth
      (s.lodestar = false ∨ s.rdB F.ppsCfgPpsInEn = false → exec run s = .next s) ∧
      (s.replayMode = true → ∃ t, exec run s = .next t ∧ t.time = b) ∧
      (s.lodestar = true → s.rdB F.ppsCfgPpsInEn = true → s.replayMode = false → b.st ≠ .free → b.tod = none →
        let sec := nearSec (a - s.ppsComp)
        1000 * 2 ^ 24 < (a - (sec * sec1 + s.ppsComp)).natAbs →
        ∃ t, exec run s = .next t ∧ t.time.ppsGood = false ∧ t.time.now = b.now ∧
          (b.badEdges < 2 → t.time.badEdges = b.badEdges + 1 ∧ t.time.stepTo = b.stepTo ∧ t.time.st = b.st) ∧
          (b.badEdges = 2 → t.time.badEdges = 0 ∧ t.time.stepTo = some (sec * sec1 + s.ppsComp + (s.nextEdge - a)) ∧
            t.time.st = (if b.st = .locked then .holdover else b.st))) ∧
      (s.lodestar = true → s.rdB F.ppsCfgPpsInEn = true → s.replayMode = false →
        ∃ t, exec run s = .next t ∧ t.time.stampHi = timeHi a ∧ t.time.stampLo = timeLo a ∧ t.time.lastEdge = some s.cyc ∧
          (b.st = .free → b.tod = none → t.time.st = .free ∧ t.time.now = b.now ∧ t.time.ppsGood = true) ∧
          (∀ sec at', b.st = .free → b.tod = some (sec, at') → at' + 10 * msCyc ≤ s.cyc →
            t.time.st = .acquire ∧ t.time.tod = none ∧ t.time.todOk = true ∧
            t.time.now = b.now ∧ t.time.stepTo = some ((sec : Int) * sec1 + s.ppsComp + (s.nextEdge - a))))) ∧
    (∀ v, s.pending = [] → s.alive = true → (s.setCyc + 1) % 32 = 0 → b.setAt = some v ∨ (b.setAt = none ∧ b.stepTo = some v) →
      ∃ t, step s = .next t ∧ t.time.now = v % (2 ^ 32 * sec1) ∧ t.time.setAt = none ∧ t.time.stepTo = none) ∧
    (∀ t0, b.lastEdge = some t0 → s.lodestar = true → s.replayMode = false → t0 + 2 * secCyc < s.cyc →
      ∃ t, exec .ppsGapExpiry s = .next t ∧ t.time.ppsGood = false ∧ t.time.lastEdge = none ∧
        t.time.st = (if b.st = .locked then .holdover else b.st) ∧ (b.st = .locked → s.countsOne t F.timeCntHoldCnt)) ∧
    (let comp := s.rdS F.ppsCfgPpsOutComp * ns1
     let sec := (s.instant 0 + comp + sec1 - 1) / sec1
     let due := sec * sec1 - comp
     s.rdB F.ppsCfgPpsOutEn = true → s.rdB F.ppsCfgPpsOutGate = false ∨ s.timeLock = true →
      (due < s.instant 8 → b.lastPpsSecond ≠ sec.toNat →
        ∃ t, ∃ k : BitVec 3, exec .ppsOutEdge s = .next t ∧ tOnly t ∧
          (∀ j, j < k.toNat → s.instant j < due) ∧ (due ≤ s.instant k.toNat ∨ k = 7) ∧
          t.time = { b with
            ppsOut := true, ppsEighth := k, ppsOutUntil := s.cyc + s.rd F.ppsCfgPpsWidth * msCyc, lastPpsSecond := sec.toNat }) ∧
      (s.instant 8 ≤ due ∨ b.lastPpsSecond = sec.toNat → exec .ppsOutEdge s = .next s)) ∧
    (∀ (src : DevAddr) (wd : Bool) (st : BitVec 2) (sec : BitVec 48),
      (s.addressed = true → src.toNat = s.ownAddr → exec (.lodestarNoticeReceive src wd st sec) s = .next s) ∧
      (s.addressed = false ∨ src.toNat ≠ s.ownAddr →
        ∃ t, exec (.lodestarNoticeReceive src wd st sec) s = .next t ∧
          t.time.notice = some ⟨src, sec.toNat % 2 ^ 32, s.cyc⟩ ∧
          (s.lodestar = true → t.time.withdrawnUntil = some (s.cyc + 3 * secCyc)) ∧
          (s.lodestar = false → t.time.withdrawnUntil = b.withdrawnUntil) ∧ t.time.now = b.now ∧ t.time.st = b.st)) ∧
    (∀ t0, b.withdrawnUntil = some t0 → t0 ≤ s.cyc →
      ∃ t, exec .lodestarWithdrawEnd s = .next t ∧ tOnly t ∧ t.time = { b with withdrawnUntil := none }) ∧
    (s.lodestar = false → b.upstream = none → b.noLodestarAt ≤ s.cyc → s.intakeRoom 1 = true →
      ∃ t, exec .noLodestarTimer s = .next t ∧ t.time = { b with noLodestarAt := s.cyc + 3600 * secCyc } ∧
        s.sentNow t srcTime 5 0 s.timeCtx) ∧
    (s.cyc % secCyc ≠ 0 ∨ s.cyc / secCyc ≤ s.uptime → exec .uptimeSecond s = .next s) ∧
    (s.alive = true → s.cyc % secCyc = 0 → s.uptime < s.cyc / secCyc →
      ∃ t, exec .uptimeSecond s = .next t ∧ t.uptime = s.uptime + 1 ∧ t.time.secondOk = true ∧ t.time.secondUpdates = 0 ∧
        t.time.st = (if b.st = .acquire ∧ b.secondOk = true ∧ 0 < b.secondUpdates then .locked else b.st) ∧ t.bps = s.bps ∧
        t.engines = s.engines)

/-- R343, R346, R348 to R351, R354, R360, R201: an evaluation, at the multiples of 983 040 cycles, sets the band with its hysteresis of 3 °C, sheds at 110 °C, enters harbour mode at 125 °C, moves T_RED of every band path it throttles by half-dB steps and holds or frees it; a privileged one begins an episode with its grace, during which T_RED stands, follows the sensor after it, and ends the episode below its threshold; the end of a grace lets T_RED follow; the analogue trip latches C4; the end of a transfer changes the ledger, counts, writes its word, names its grantee, clocks a granted quay, starts a granted band path and takes a granted Guvan port to DETECT; a band path enabled again while its credits were returning asks for them anew at the end of the release. The readings and choices of the model in it are those of assumptions 13, 40, 41, 66. -/
def Obligations.ThermalAndCredits : Prop :=
  ∀ (s : State),
    let th := s.thermal
    (s.alive = false ∨ s.setCyc % msCyc ≠ 0 → exec .thermalEvaluation s = .next s) ∧
    (s.alive = true → s.setCyc % msCyc = 0 → s.boot.image = true →
      ∃ t, exec .thermalEvaluation s = .next t ∧ t.thermal.evaluated = true ∧
        (t.thermal.tb = BitVec.ofNat 3 (if th.evaluated then bandNext th.tb.toNat t.thermal.tjHot else bandOf t.thermal.tjHot)) ∧
        (110 * degC ≤ t.thermal.tjHot → t.thermal.shed = true) ∧ (t.thermal.tjHot < 107 * degC → t.thermal.shed = false) ∧
        (125 * degC ≤ t.thermal.tjHot → t.boot.harbour = true) ∧
        (t.thermal.thermN = (s.planned.any (fun n => (t.bpTherm n).episode) || decide (110 * degC ≤ t.thermal.tjHot) || th.trip)) ∧
        (∀ n ∈ s.planned,
          let d := t.tOf n - s.tTh n
          ((t.bpTherm n).hot = decide (21 * degC ≤ d)) ∧
          (s.privileged n = false → s.throttles n = true → (s.bpTherm n).kept = none →
            (t.bpTherm n).tRed = tRedNext (s.bpTherm n).tRed d ∧ (21 * degC ≤ d → (t.bp n).prot.held.therm = true) ∧
            (d < 18 * degC → (t.bp n).prot.held.therm = false)) ∧
          (s.privileged n = true → s.throttles n = true → (s.bpTherm n).kept = none →
            let b := s.bpTherm n
            let early := match b.endedAt with | some e => decide (s.setCyc < e + 60 * secCyc) | none => false
            (b.episode = false → degC ≤ d →
              (t.bpTherm n).episode = true ∧ (t.bpTherm n).tRed = b.tRed ∧
                (t.bpTherm n).graceEnd = some (s.setCyc + if early then b.leftGrace else s.rd F.thermCfgGrace * secCyc)) ∧
            (b.episode = true → 0 ≤ d → b.graceEnd ≠ none →
              (t.bpTherm n).tRed = b.tRed ∧ (t.bpTherm n).graceEnd = b.graceEnd ∧ (t.bpTherm n).episode = true) ∧
            (b.episode = true → 0 ≤ d → b.graceEnd = none →
              (t.bpTherm n).tRed = tRedNext b.tRed d ∧ (t.bpTherm n).episode = true) ∧
            (b.episode = true → d < 0 →
              (t.bpTherm n).episode = false ∧ (t.bpTherm n).graceEnd = none ∧ (t.bpTherm n).tRed = tRedNext b.tRed d ∧
                (t.bpTherm n).endedAt = some s.setCyc ∧
                (t.bpTherm n).leftGrace = (match b.graceEnd with | some g => g - s.setCyc | none => 0))))) ∧
    (∀ (bp : BpId) g,
      let n := bp.toNat
      let b := s.bpTherm n
      b.episode = true → b.graceEnd = some g →
        (s.setCyc < g → exec (.thermalGraceExpiry bp) s = .next s) ∧
        (g ≤ s.setCyc → s.throttles n = true →
          ∃ t, exec (.thermalGraceExpiry bp) s = .next t ∧ (t.bpTherm n).graceEnd = none ∧ (t.bpTherm n).episode = true ∧
            (t.bpTherm n).tRed = tRedNext b.tRed (s.tOf n - s.tTh n) ∧ ∀ m, m ≠ n → t.bpTherm m = s.bpTherm m)) ∧
    (s.alive = true →
      ∃ t, exec .analogueTrip s = .next t ∧ t.thermal.trip = true ∧ t.thermal.thermN = true ∧ t.fc.c4 = true ∧ t.rfOff = true) ∧
    (∀ w, th.xfer = some w → th.waiting = [] →
      let g := w.grantee.toNat
      let now := if w.release then s.credits g - w.amount else s.credits g + w.amount
      let path := decide (1 ≤ g) && decide (g ≤ 128) && s.rdB (F.bpProtEnable (g - 1))
      (w.release = true → path = false → (145 ≤ g → s.rdB (F.gvCtrlEnable (g - 145)) = false) →
        ∃ t, exec .govTransferEnd s = .next t ∧ t.thermal.xfer = none ∧ t.credits g = now ∧ t.thermal.free = th.free + w.amount ∧
          t.thermal.count = th.count + 1 ∧ t.thermal.lastGrantee = w.grantee ∧ t.thermal.lastDir = true ∧ (∀ h, h ≠ g → t.credits h = s.credits h) ∧
          t.cell .hold (0x3FE000 + g) = ⟨BitVec.ofNat 40 (now * 2 ^ 30 + (th.count + 1).toNat), 0, false⟩ ∧
          s.cellsKept t .hold (0x3FE000 + g)) ∧
      (w.release = true → path = true → (s.bp (g - 1)).prot.st = .off → s.present (g - 1) = true → s.held4Service (g - 1) = false →
        now = 0 → th.booksBad = false → s.creditCost (g - 1) + s.headroom ≤ th.free + w.amount →
        ∃ t, exec .govTransferEnd s = .next t ∧ t.thermal.xfer = some ⟨w.grantee, s.creditCost (g - 1), false⟩ ∧
          t.thermal.free + s.creditCost (g - 1) = th.free + w.amount ∧ (t.bp (g - 1)).prot.st = .off) ∧
      (w.release = false → 129 ≤ g → g ≤ 144 →
        ∃ t, exec .govTransferEnd s = .next t ∧ t.thermal.xfer = none ∧ t.credits g = now ∧ t.thermal.free = th.free ∧
          t.rdB (F.quayStatClkGranted (g - 129)) = true ∧ t.thermal.lastGrantee = w.grantee ∧ t.thermal.lastDir = false ∧
          ∀ e, (t.engine e).st =
            if e / 16 = g - 129 ∧ (s.engine e).st = .gated then .idle else (s.engine e).st) ∧
      (w.release = false → 1 ≤ g → g ≤ 128 →
        let n := g - 1
        let b := s.bp n
        b.prot.st = .off → s.rdB (F.bpProtEnable n) = true → s.held4Service n = false → s.clearing n = false →
        b.flow.delayWords ≠ 0 ∨ s.delayCost n = 0 → s.tapsOwed + s.tapCost n ≤ 16384 → s.wantsResampler n = false →
        s.rangesOk n = true → anyHeld b.prot.held = false → (s.bpTherm n).hot = false →
        ∃ t, exec .govTransferEnd s = .next t ∧ t.thermal.xfer = none ∧ t.credits g = now ∧ (t.bp n).prot.st = .starting ∧
          (t.bp n).flow.tapUnits = s.tapCost n ∧ (t.bp n).prot.serviceFrom = some s.setCyc) ∧
      (w.release = false → 145 ≤ g → g < 153 → s.rdB (F.gvCtrlEnable (g - 145)) = true →
        ∃ t, exec .govTransferEnd s = .next t ∧ t.thermal.xfer = none ∧ t.credits g = now ∧
          (t.port (g - 145)).st = .detect ∧ ∀ j, j ≠ g - 145 → t.port j = s.port j))

/-- R365 to R372, R374: the oldest message is classified: a match raises its hint, a match that fills its bucket raises it by one more, and a second open fault of its source and class, or a full table, raises C2 and C3 by one; C2 and C3 take the lowest free open entry, C2 with its grace, C3 with its source out of service at once, the frozen history and the end of the C3 grace one millisecond on; the core acknowledges a C2 of the keep list; below C4 a message enters the history and the intake; C4 latches. The end of a C2 grace takes the source out of service: a band path is muted with cause 7, an engine halted, a lighter channel emptied, a chain in FE_FAULT, a port and a loop disabled; the end of the C3 grace enters harbour mode with its source and kind. The readings and choices of the model in it are those of assumptions 5, 14, 42. -/
def Obligations.FaultReactions : Prop :=
  ∀ (s : State),
    let outOf := fun (v t : State) (src : Nat) =>
      (src < 0x80 → v.serving src = true → ((t.bp src).prot.st = .muted ∨ (t.bp src).prot.st = .lockedOut) ∧ (t.bp src).prot.cause = 7) ∧
      (0x100 ≤ src → src < 0x200 → (v.engine (src - 0x100)).st = .idle ∨ (v.engine (src - 0x100)).st = .running →
        (t.engine (src - 0x100)).st = .haltedColl) ∧
      (0x200 ≤ src → src < 0x410 → (∀ d ∈ (v.lighter (src - 0x200)).queue, d.srcSpace ≠ 6) →
        (∀ g ∈ v.rpl.capWait, v.capChannel g.bp.toNat ≠ src - 0x200) →
        (t.lighter (src - 0x200)).queue = [] ∧ (t.lighter (src - 0x200)).st = .idle) ∧
      (0x500 ≤ src → src < 0x510 → (t.chain (src - 0x500)).st = .feFault) ∧
      (0x600 ≤ src → src < 0x608 → (t.port (src - 0x600)).st = .disabled ∧ t.rdB (F.gvCtrlEnable (src - 0x600)) = false) ∧
      (0x700 ≤ src → src < 0x720 → t.loopMode (src - 0x700) = 0)
    (s.fc.queue = [] → s.fc.heldBack = [] → exec .faultClassify s = .next s) ∧
    (∀ m rest, s.fc.queue = m :: rest → s.fc.heldBack = [] → s.fc.c4 = false → s.fc.testLatch = false → m.inj = false →
      m.hint.toNat ≤ 4 →
      let u : State := { s with fc := { s.fc with queue := rest } }
      let done := fun (c : Nat) (p : Bool) (m' : FMsg) =>
        ∃ t, exec .faultClassify s = .next t ∧ m' = { m with cls := BitVec.ofNat 3 c, promo := p, esc := false } ∧
          t.fc.queue = rest ∧ t.fc.rolling = (m' :: s.fc.rolling).take 16 ∧ t.fc.c4 = false ∧
          (s.fc.intake.length < 32 → t.fc.intake = s.fc.intake ++ [m'])
      let two :=
        (∀ i, u.openHas false m.src.toNat 2 = false → u.openFree false = some i → s.mgmt.core ≠ .running →
          ∃ t, exec .faultClassify s = .next t ∧ t.openEnt false i = some ⟨m.src, m.kind, 2, false, some (s.cyc + s.graceC2)⟩ ∧
            (∀ j, j ≠ i → t.openEnt false j = s.openEnt false j) ∧ t.fc.queue = rest ∧ t.fc.c3At = s.fc.c3At) ∧
        (∀ i, u.openHas false m.src.toNat 2 = false → u.openFree false = some i → s.mgmt.core = .running → s.kept m = true →
          s.fc.parityBad = false →
          ∃ t, exec .faultClassify s = .next t ∧ t.openEnt false i = none ∧ t.fc.c3At = s.fc.c3At)
      let three := fun (p e : Bool) =>
        ∀ i, u.openFree false = some i → s.mgmt.core ≠ .running →
          let m' : FMsg := { m with cls := 3, promo := p, esc := e }
          ∃ t, exec .faultClassify s = .next t ∧ t.openEnt false i = some ⟨m.src, m.kind, 3, true, none⟩ ∧
            (∀ j, j ≠ i → t.openEnt false j = s.openEnt false j) ∧ outOf u t m.src.toNat ∧ t.fc.c4 = false ∧
            (s.fc.snapFrozen = false → t.fc.snapFrozen = true ∧ t.fc.frozen = (m' :: s.fc.rolling).take 16) ∧
            (s.fc.c3At = none → s.boot.harbour = false →
              t.fc.c3At = some (s.cyc + msCyc) ∧ t.fc.c3Src = m.src ∧ t.fc.c3Kind = m.kind)
      let four := ∃ t, exec .faultClassify s = .next t ∧ t.fc.c4 = true
      (u.clsFind m 256 0 = (none, u) →
        (m.hint.toNat ≤ 1 → ∃ m', done m.hint.toNat false m') ∧
        (m.hint = 2 → two ∧ (u.openHas false m.src.toNat 2 = true → three false true)) ∧
        (m.hint = 3 → u.openHas false m.src.toNat 3 = false → three false false) ∧
        (m.hint = 3 → u.openHas false m.src.toNat 3 = true ∨ u.openFree false = none → four) ∧
        (m.hint = 4 → four)) ∧
      (∀ e w0 w1, u.clsFind m 256 0 = (some (e, w0, w1), u) → 1 ≤ bitsOf w1 39 32 →
        let c := Nat.max m.hint.toNat (bitsOf w0 4 2)
        let p := (u.countBucket false e w1).1
        (c ≤ 1 → p = false → ∃ m', done c false m') ∧ (c = 0 → p = true → ∃ m', done 1 true m') ∧
        (c = 2 → p = false → two) ∧ (c = 1 → p = true → two) ∧ (c = 3 → p = false → u.openHas false m.src.toNat 3 = false → three false false) ∧
        (c = 2 → p = true → u.openHas false m.src.toNat 3 = false → three true false) ∧
        (c = 3 → p = true → four) ∧ (c = 4 → four))) ∧
    (∀ (index : BitVec 5) x at', s.openEnt false index.toNat = some x → x.graceEnd = some at' → at' ≤ s.cyc → s.fc.c4 = false →
      s.bpIsOut x.src.toNat = false →
      ∃ t, exec (.c2GraceExpiry index) s = .next t ∧ t.openEnt false index.toNat = some { x with out := true, graceEnd := none } ∧
        (∀ j, j ≠ index.toNat → t.openEnt false j = s.openEnt false j) ∧ outOf s t x.src.toNat) ∧
    (∀ at', s.fc.c3At = some at' →
      (s.cyc < at' → exec .c3GraceExpiry s = .next s) ∧
      (at' ≤ s.cyc → s.fc.c4 = false → s.boot.harbour = false →
        ∃ t, exec .c3GraceExpiry s = .next t ∧ t.fc.c3At = none ∧ t.boot.harbour = true ∧ t.boot.cause = some .c3End ∧
          t.rd F.fcStatHarbSrc = s.fc.c3Src.toNat ∧ t.rd F.fcStatHarbKind = s.fc.c3Kind.toNat))

/-- R370, R374, R375, R377 to R379, R382, R384, R385: an acknowledge of a matching entry frees it with RESULT 1, KEEP leaving its source in service and OUT taking it out while its grace runs, and one that matches nothing, or comes from an engine, has RESULT 2; the logbook writes an entry to its lowest free slot with the next sequence number, or counts a repetition of the head; reads of LOG_W0, HIST_W0 and EMR_W0 snapshot what is selected, and a slot found uncorrectable reads DAMAGED and is retired; HIST_CLR and EMR_CLR empty; FI_GO queues an injected message in factory test only. The readings and choices of the model in it are those of assumptions 3, 56. -/
def Obligations.FaultRecords : Prop :=
  ∀ (s : State) (who : Requester),
    let k := reqCode who
    (∀ (index : BitVec 5) (src : BitVec 14) (cls : BitVec 3),
      ∀ row ∈ ([(.fcAckKeep who index src cls, 1), (.fcAckOut who index src cls, 2)] : List (Instr × Nat)),
      s.takesWord who 258 (ackWord index src cls row.2) = true →
      (∀ x, s.openEnt false index.toNat = some x → x.src = src → x.cls = cls → s.fc.parityBad = false → k < 10 → s.journals s.cycW = false →
        ∃ t, exec row.1 s = .next t ∧ t.openEnt false index.toNat = none ∧
          (∀ j, j ≠ index.toNat → t.openEnt false j = s.openEnt false j) ∧ t.rd F.fcAckResult = 1 ∧
          (row.2 = 1 → t.lighters = s.lighters ∧ t.bps = s.bps ∧ t.chains = s.chains) ∧
          (row.2 = 2 → x.graceEnd ≠ none → s.fc.c4 = false → 0x200 ≤ src.toNat → src.toNat < 0x410 →
            (∀ d ∈ (s.lighter (src.toNat - 0x200)).queue, d.srcSpace ≠ 6) →
            (∀ g ∈ s.rpl.capWait, s.capChannel g.bp.toNat ≠ src.toNat - 0x200) →
            (t.lighter (src.toNat - 0x200)).queue = [] ∧ (t.lighter (src.toNat - 0x200)).st = .idle)) ∧
      (s.openEnt false index.toNat = none ∨ 10 ≤ k → s.plainWriter who →
        ∃ t, exec row.1 s = .next t ∧ t.fc = s.fc ∧ t.rd F.fcAckResult = 2)) ∧
    (∀ m rest, s.fc.logReady = true → s.fc.intake = m :: rest →
      (∀ n, s.coalesces m = false → lowFree s.fc.slots 0 = some n →
        ∃ t, exec .logbookTake s = .next t ∧ t.fc.intake = rest ∧ t.fc.headSeq = s.fc.headSeq + 1 ∧
          t.fc.head = some (BitVec.ofNat 13 n) ∧
          t.logSlot n = ⟨some ⟨s.fc.headSeq + 1, 0, m.timeHi, m.timeLo, m.ctx, m.word0⟩, false, []⟩ ∧
          (∀ j, j ≠ n → t.logSlot j = s.logSlot j) ∧ t = { s with fc := t.fc, writeBacks := t.writeBacks }) ∧
      (∀ n r, s.coalesces m = true → s.fc.head = some n → s.logSlot n.toNat = ⟨some r, false, []⟩ →
        ∃ t, exec .logbookTake s = .next t ∧ t.fc.intake = rest ∧ t.fc.headSeq = s.fc.headSeq ∧
          t.logSlot n.toNat = ⟨some { r with rep := r.rep + 1 }, false, []⟩ ∧ (∀ j, j ≠ n.toNat → t.logSlot j = s.logSlot j))) ∧
    (∀ r, (s.cursor k).next = false → s.logSlot (s.cursor k).slot.toNat = ⟨some r, false, []⟩ →
      ∃ t, exec (.logW0Read who) s = .next t ∧ t.lastRead k = [r.word0] ∧
        (t.cursor k).snap = [r.word0, r.timeHi, r.timeLo, r.ctx, (r.key &&& maskOf 39 11) ||| BitVec.ofNat 40 1024] ∧
        t = { s with reads := t.reads, fc := { s.fc with cursors := t.fc.cursors } }) ∧
    ((s.cursor k).next = false → rsDecode (atD (s.logSlot (s.cursor k).slot.toNat).flips 0 0) = .bad →
      ∃ t, exec (.logW0Read who) s = .next t ∧ t.lastRead k = [0] ∧ (t.cursor k).snap = [0, 0, 0, 0, 256] ∧
        t.logSlot (s.cursor k).slot.toNat = ⟨none, true, []⟩) ∧
    (∀ m, (if s.rdB F.histSelFrozen then s.fc.frozen else s.fc.rolling)[s.rd F.histSelEntry]? = some m →
      ∃ t, exec (.histW0Read who) s = .next t ∧ t.lastRead k = [m.word0] ∧ Tbl.get (fun _ => []) t.fc.histSnap k = m.words ∧
        t = { s with reads := t.reads, fc := { s.fc with histSnap := t.fc.histSnap } }) ∧
    (∀ r, s.fc.c4 = false ∨ k = 9 → s.fc.emr[s.rd F.emrSelEntry]? = some r →
      ∃ t, exec (.emrW0Read who) s = .next t ∧ t.lastRead k = [r.word0] ∧ Tbl.get (fun _ => []) t.fc.emrSnap k = r.words ∧
        t = { s with reads := t.reads, fc := { s.fc with emrSnap := t.fc.emrSnap } }) ∧
    (s.takes who 269 [(F.histSelHistClr, 1)] = true → s.plainWriter who →
      ∃ t, exec (.histClr who) s = .next t ∧ t.fc = { s.fc with frozen := [], snapFrozen := false } ∧ t.bps = s.bps) ∧
    (s.takes who 291 [(F.emrSelEmrClr, 1)] = true → s.plainWriter who →
      ∃ t, exec (.emrClr who) s = .next t ∧ t.fc = { s.fc with emr := [], flushed := 0, damages := [], flushDone := false } ∧
        t.bps = s.bps) ∧
    (s.takes who 298 [(F.fiCtrlFiGo, 1)] = true → s.plainWriter who →
      (s.factoryTest = false → ∃ t, exec (.fiGo who) s = .next t ∧ t.fc = s.fc) ∧
      (s.factoryTest = true → (∀ m ∈ s.fc.queue, m.inj = false) → s.fc.queue.length ≤ 56 →
        ∃ t m, exec (.fiGo who) s = .next t ∧ t.fc.queue = queued m s.fc.queue ∧ m.inj = true ∧
          m.src.toNat = bitsOf (s.reg 299) 39 26 ∧ m.kind.toNat = bitsOf (s.reg 299) 25 20 ∧ m.hint.toNat = bitsOf (s.reg 299) 19 17 ∧
          m.ctx = s.reg 300 ∧ t.rd F.fiCtrlResult = 1))

/-- R391, R392, R394, R328, R370, R382, R404, R432, R436, R441: the commands that read, write and acknowledge. A COMMAND that repeats none of the last second is worked and answered once, with OP, STATUS and data: IDENT with IDREV, the image stamp, the address and the flags; REG_READ with the register, BAD_ARG for an unmapped one or a bad count, VERIFY for one with bad parity; REG_WRITE with the fabric's judgement; LOG_READ with the record of a slot; FAULT_ACK with its effect; HOLD_READ and HOLD_WRITE within their ranges; MB_READ with pairs that leave the store; TIME_OF_DAY only at the lodestar. A repeated command gets its earlier response with no effect, one whose row comes before its turn has no effect, one that waited at the core leaves it as it is answered, and one that finds the core not answering is dropped and counted. The readings and choices of the model in it are those of assumptions 3, 46, 47. -/
def Obligations.ManagementCommands : Prop :=
  ∀ (s : State) (o : Origin) (seq : BitVec 16),
    (s.coreAnswers = true → s.boot.romLoader = false → s.freshCommand o seq = true →
      s.commandDone (.ident o seq) o seq 1 0 (wordBytes (s.reg 0) ++ beBytes 8 s.img.stamp.toNat ++ beBytes 3 s.ownAddr ++
        beBytes 1 (bit s.boot.harbour * 8 + bit s.replayMode * 4 + bit s.addressed)) (fun _ => True) ∧
      (∀ (a : BitVec 24) (count : Byte),
        (count = 0 ∨ 128 < count.toNat ∨ (∃ i, i < count.toNat ∧ layout (a.toNat + i) = none) →
          s.commandDone (.regRead o seq a count) o seq 2 2 [] (fun _ => True)) ∧
        (count = 1 → a.toNat ∈ [10, 16, 263, 267] → a.toNat ∉ s.parBad →
          s.commandDone (.regRead o seq a count) o seq 2 0 (wordBytes (s.reg a.toNat)) (fun _ => True)) ∧
        (count = 1 → layout a.toNat ≠ none → a.toNat ∈ s.parBad →
          s.commandDone (.regRead o seq a count) o seq 2 7 [] (fun t => t.rd F.regStatParAddr = a.toNat))) ∧
      (∀ (a : BitVec 24) (w : Word), s.alive = true →
        s.commandDone (.regWrite o seq a w) o seq 3 (s.writeAns a.toNat w).status [] (fun t =>
          ∀ row ∈ ([(10, 0x7F07), (16, 0x1000000), (263, 0x1FF), (267, 0x3F)] : List (Nat × Nat)), a.toNat = row.1 →
            s.writeAns row.1 w = .ok → ∀ i, i < 40 → (t.reg row.1).getLsbD i =
              if row.2.testBit i then w.getLsbD i else (s.reg row.1).getLsbD i)) ∧
      (∀ (mode count : Byte) (at_ : BitVec 24),
        (1 < mode.toNat ∨ count = 0 ∨ 32 < count.toNat ∨ (mode = 0 ∧ 8192 ≤ at_.toNat) →
          s.commandDone (.logRead o seq mode at_ count) o seq 4 2 [] (fun _ => True)) ∧
        (∀ r, mode = 0 → count = 1 → at_.toNat < 8192 → s.logSlot at_.toNat = ⟨some r, false, []⟩ →
          s.commandDone (.logRead o seq mode at_ count) o seq 4 0
            ([r.word0, r.timeHi, r.timeLo, r.ctx, (r.key &&& maskOf 39 11) ||| BitVec.ofNat 40 1024].flatMap wordBytes)
            (fun t => t.logSlot at_.toNat = s.logSlot at_.toNat))) ∧
      (∀ (index cls action : Byte) (src : BitVec 16),
        (action ≠ 1 → action ≠ 2 → s.commandDone (.faultAck o seq index src cls action) o seq 5 2 [] (fun _ => True)) ∧
        (action = 1 ∨ action = 2 → s.openEnt false index.toNat = none →
          s.commandDone (.faultAck o seq index src cls action) o seq 5 6 [] (fun t => t.fc.open_ = s.fc.open_)) ∧
        (∀ x, action = 1 ∨ action = 2 → s.openEnt false index.toNat = some x → x.src.toNat = src.toNat → x.cls.toNat = cls.toNat →
          s.fc.parityBad = false →
          s.commandDone (.faultAck o seq index src cls action) o seq 5 0 [] (fun t => t.openEnt false index.toNat = none ∧
            ∀ j, j ≠ index.toNat → t.openEnt false j = s.openEnt false j))) ∧
      (∀ (a : BitVec 24) (count : Byte),
        (count = 0 ∨ 192 < count.toNat → s.commandDone (.holdRead o seq a count) o seq 6 2 [] (fun _ => True)) ∧
        (1 ≤ count.toNat → count.toNat ≤ 192 → a.toNat < 0x80000 ∨ 0x400000 < a.toNat + count.toNat →
          s.commandDone (.holdRead o seq a count) o seq 6 3 [] (fun _ => True)) ∧
        (1 ≤ count.toNat → count.toNat ≤ 192 → 0x80000 ≤ a.toNat → a.toNat + count.toNat ≤ 0x400000 →
          (s.ltrStopped 519 = true → s.commandDone (.holdRead o seq a count) o seq 6 6 [] (fun _ => True)) ∧
          (s.ltrStopped 519 = false → (∀ i, i < count.toNat → s.clean .hold (a.toNat + i) = true) →
            s.commandDone (.holdRead o seq a count) o seq 6 0
              ((List.range count.toNat).flatMap (fun i => wordBytes (s.memPeek .hold (a.toNat + i)))) (fun _ => True)) ∧
          ((s.cell .hold a.toNat).poison = true → count = 1 → s.ltrStopped 519 = false → s.intakeRoom 2 = true →
            ∃ t, exec (.holdRead o seq a count) s = .next t ∧ t.mgmt.core = .restarting ∧ t.mgmt.debugOut = s.mgmt.debugOut ∧
              s.sentNow t srcMgmt 1 2 (Config.msgContext srcMgmt 1 0))) ∧
        (∀ ws : List Word,
          (s.replayMode = false → s.commandDone (.holdWrite o seq a count ws) o seq 7 6 [] (fun _ => True)) ∧
          (s.replayMode = true → 1 ≤ count.toNat → count.toNat ≤ 192 → ws.length = count.toNat →
            (a.toNat < 0x80000 ∨ 0x380000 < a.toNat + count.toNat →
              s.commandDone (.holdWrite o seq a count ws) o seq 7 3 [] (fun _ => True)) ∧
            (0x80000 ≤ a.toNat → a.toNat + count.toNat ≤ 0x380000 → s.ltrStopped 519 = false →
              s.commandDone (.holdWrite o seq a count ws) o seq 7 0 [] (fun t =>
                (∀ i, i < count.toNat → t.cell .hold (a.toNat + i) = ⟨ws[i]?.getD 0, 0, false⟩) ∧
                ∀ x, x < a.toNat ∨ a.toNat + count.toNat ≤ x → t.cell .hold x = s.cell .hold x))))) ∧
      (∀ count : Byte,
        (count = 0 ∨ 96 < count.toNat → s.commandDone (.mbRead o seq count) o seq 8 2 [] (fun _ => True)) ∧
        (1 ≤ count.toNat → count.toNat ≤ 96 →
          s.commandDone (.mbRead o seq count) o seq 8 0
            ((s.mgmt.store.take count.toNat).flatMap (fun p => wordBytes p.1 ++ wordBytes p.2))
            (fun t => t.mgmt.store = s.mgmt.store.drop count.toNat))) ∧
      (∀ sec : BitVec 48,
        (s.lodestar = true → s.commandDone (.timeOfDay o seq sec) o seq 9 0 [] (fun t => t.time = { s.time with tod := some (sec.toNat % 2 ^ 32, s.cyc) })) ∧
        (s.lodestar = false → s.commandDone (.timeOfDay o seq sec) o seq 9 6 [] (fun t => t.time = s.time)))) ∧
    (∀ (count : Byte) (sec : BitVec 48), ∀ c ∈ [Instr.ident o seq, .mbRead o seq count, .timeOfDay o seq sec],
      (∀ d, s.coreAnswers = true → o = .debug → s.coreNext o = none → (recentOf s.mgmt.debugRecent s.cyc).find? (fun d => d.seq == seq) = some d →
        ∃ t, exec c s = .next t ∧ t = { s with mgmt := { s.mgmt with
          debugOut := s.mgmt.debugOut ++ [⟨uartFrame (mkMsgBytes 1 Config.hopLimit.toNat 0 s.ownAddr seq.toNat 0 d.payload), none, 0⟩] } }) ∧
      (∀ m, s.coreNext o = some m → msgSeq m.bytes ≠ seq.toNat → exec c s = .next s) ∧
      (s.coreAnswers = false → s.mgmt.toCore = [] →
        (o = .debug → exec c s = .next s) ∧
        (∀ src p, o = .addr src p → ∃ t, exec c s = .next t ∧ t = { s with regs := t.regs } ∧
          s.countsOne t (F.gvMsgcntDropMsg p.toNat)))) ∧
    (∀ m, s.mgmt.toCore = [m] → m.port = none → carries m seq 1 [] = true → s.coreAnswers = true → s.boot.romLoader = false →
      (recentOf s.mgmt.debugRecent s.cyc).find? (fun d => d.seq == seq) = none →
      ∃ t, exec (.ident .debug seq) s = .next t ∧ t.mgmt.toCore = [] ∧
        s.answered t .debug seq ([1, 0] ++ wordBytes (s.reg 0) ++ beBytes 8 s.img.stamp.toNat ++ beBytes 3 s.ownAddr ++
          beBytes 1 (bit s.boot.harbour * 8 + bit s.replayMode * 4 + bit s.addressed)))

/-- R309, R390, R392, R396, R397, R398, R413: ADDR_SET gives an unaddressed image its address; ROUTE_LOAD writes entries of a route table; IMG_BEGIN takes the staging and puts the target in STAGING; IMG_DATA extends it in order, and answers a wrong offset with the one it awaits; IMG_COMMIT leaves the target PENDING where the hash and every check agree, EMPTY with a message where not; IMG_ABORT gives the staging up; where the flash fails the operation is abandoned, FLASH_ERR is sent and the command answers VERIFY. The readings and choices of the model in it are those of assumptions 19, 46, 47, 48. -/
def Obligations.ImageUpdate : Prop :=
  ∀ (s : State) (o : Origin) (seq : BitVec 16),
    let target := !s.boot.flash
    s.coreAnswers = true → s.boot.romLoader = false → s.freshCommand o seq = true → s.known o →
    (∀ a : BitVec 24,
      (s.img.hasAddress ≠ none → s.commandDone (.addrSet o seq a) o seq 10 3 [] (fun t => t.ownAddr = s.ownAddr)) ∧
      (s.img.hasAddress = none → a = 0 ∨ 2 ^ 18 - 1 ≤ a.toNat →
        s.commandDone (.addrSet o seq a) o seq 10 2 [] (fun t => t.ownAddr = s.ownAddr)) ∧
      (s.img.hasAddress = none → a ≠ 0 → a.toNat < 2 ^ 18 - 1 →
        s.commandDone (.addrSet o seq a) o seq 10 0 [] (fun t => t.addressed = true ∧ t.ownAddr = a.toNat))) ∧
    (∀ (table first count : Byte) (es : List Byte),
      (2 < table.toNat ∨ [256, 64, 16].getD table.toNat 0 < first.toNat + count.toNat ∨ es.length ≠ count.toNat →
        s.commandDone (.routeLoad o seq table first count es) o seq 11 2 [] (fun t => t.mem.routes = s.mem.routes)) ∧
      (table.toNat ≤ 2 → first.toNat + count.toNat ≤ [256, 64, 16].getD table.toNat 0 → es.length = count.toNat →
        let base := [0, 256, 320].getD table.toNat 0 + first.toNat
        s.commandDone (.routeLoad o seq table first count es) o seq 11 0 [] (fun t => ∀ i, t.cell .routes i =
          if base ≤ i ∧ i < base + count.toNat then ⟨(es.getD (i - base) 0).zeroExtend 40, 0, false⟩ else s.cell .routes i))) ∧
    (∀ (len : BitVec 32) (hash : List Byte) (tgt : Byte),
      let c := Instr.imgBegin o seq len hash tgt
      (s.mgmt.staging ≠ none → s.commandDone c o seq 12 5 [] (fun t => t.flash0 = s.flash0 ∧ t.flash1 = s.flash1)) ∧
      (s.mgmt.staging = none → s.ownSlot.inSt 3 = true → s.commandDone c o seq 12 6 [] (fun t => t.mgmt.staging = none)) ∧
      (s.mgmt.staging = none → s.ownSlot.inSt 3 = false → tgt ≠ 0 ∨ 50331648 < len.toNat ∨ hash.length ≠ 32 →
        s.commandDone c o seq 12 2 [] (fun t => t.mgmt.staging = none)) ∧
      (s.mgmt.staging = none → s.ownSlot.inSt 3 = false → tgt = 0 → len.toNat ≤ 50331648 → hash.length = 32 →
        (s.flashOf target).fails = true → s.intakeRoom 1 = true → s.commandDone c o seq 12 7 [] (fun t => t.mgmt.staging = none ∧
          t.flash0 = s.flash0 ∧ t.flash1 = s.flash1 ∧ s.sentNow t srcMgmt 4 1 (Config.msgContext srcMgmt 4 0))) ∧
      (s.mgmt.staging = none → s.ownSlot.inSt 3 = false → tgt = 0 → len.toNat ≤ 50331648 → hash.length = 32 →
        (s.flashOf target).fails = false → s.commandDone c o seq 12 0 [] (fun t => t.mgmt.staging = some ⟨stager o, target, len.toNat, hash⟩ ∧
          t.flashOf target = { Flash.withSlot (s.flashOf target) 1 0 ((readGen (s.flashOf target).slot).getD 0) with image := [] } ∧
          t.flashOf s.boot.flash = s.flashOf s.boot.flash))) ∧
    (∀ (off : BitVec 32) (bytes : List Byte), s.ownStaging o = none →
      s.commandDone (.imgData o seq off bytes) o seq 13 6 [] (fun t => t.flash0 = s.flash0 ∧ t.flash1 = s.flash1) ∧
      s.commandDone (.imgCommit o seq) o seq 14 6 [] (fun t => t.flash0 = s.flash0 ∧ t.flash1 = s.flash1) ∧
      s.commandDone (.imgAbort o seq) o seq 15 6 [] (fun t => t.mgmt.staging = s.mgmt.staging)) ∧
    (∀ g, s.ownStaging o = some g →
      let f := s.flashOf g.flash
      (∀ (off : BitVec 32) (bytes : List Byte),
        (off.toNat ≠ f.image.length →
          s.commandDone (.imgData o seq off bytes) o seq 13 2 (beBytes 4 f.image.length) (fun t => t.flashOf g.flash = f)) ∧
        (off.toNat = f.image.length → bytes ≠ [] → bytes.length ≤ 992 → f.image.length + bytes.length ≤ g.len →
          f.fails = false →
          s.commandDone (.imgData o seq off bytes) o seq 13 0 [] (fun t =>
            t.flashOf g.flash = { f with image := f.image ++ bytes } ∧ t.mgmt.staging = some g))) ∧
      (f.image.length < g.len → s.commandDone (.imgCommit o seq) o seq 14 2 [] (fun t => t.mgmt.staging = some g)) ∧
      (g.len ≤ f.image.length →
        let good := Config.sha256 f.image = g.hash ∧ bytesCheck f.image (s.reg 0) s.fuses = none
        (good → f.fails = false → s.commandDone (.imgCommit o seq) o seq 14 0 [] (fun t => t.mgmt.staging = none ∧
          t.flashOf g.flash = Flash.withSlot f 2 0 (s.ownSlot.gen + 1))) ∧
        (good → f.fails = true → s.intakeRoom 1 = true → s.commandDone (.imgCommit o seq) o seq 14 7 [] (fun t => t.mgmt.staging = none ∧
          t.flashOf g.flash = f ∧ s.sentNow t srcMgmt 4 1 (Config.msgContext srcMgmt 4 0))) ∧
        (¬ good → f.fails = false → s.intakeRoom 1 = true → s.commandDone (.imgCommit o seq) o seq 14 7 [] (fun t => t.mgmt.staging = none ∧
          t.flashOf g.flash = Flash.withSlot f 0 0 f.slot.gen ∧
          s.sentNow t srcMgmt 6 0 (Config.msgContext srcMgmt 6 0)))) ∧
      s.commandDone (.imgAbort o seq) o seq 15 0 [] (fun t => t.mgmt.staging = none ∧ t.flashOf g.flash = f))

/-- R389, R390, R391, R223, R371, R385, R422: the core's standing duties. The management ring is emptied, DATA to the store and NOTE and REPORT to the collector; new records of the logbook are mirrored into the log area of the booted flash, in a C3 grace after the frozen snapshot and the newest records have gone to its reserve; a watchdog expiry restarts the firmware with a message and a count, and the restart ends; the first start stores and clears the emergency register file and erases the reserve; a session idle for 60 s closes. While the core does not work it performs none. The readings and choices of the model in it are those of assumptions 5, 13, 47. -/
def Obligations.CoreDuties : Prop :=
  ∀ (s : State),
    (s.coreWorks = false → exec .mgmtRingDrain s = .next s ∧ exec .logbookMirror s = .next s) ∧
    (∀ p, s.coreWorks = true → s.mgmt.ring = [p] → s.mgmt.store.length < 4096 → s.intakeRoom 1 = true →
      let ty := bitsOf p.1 39 36
      let e := bitsOf p.2 39 32
      let pay := BitVec.ofNat 40 (bitsOf p.1 35 0)
      ∃ t, exec .mgmtRingDrain s = .next t ∧ t.mgmt.ring = [] ∧ t.engines = s.engines ∧
        t.mgmt.store = (if ty = 0 then s.mgmt.store ++ [p] else s.mgmt.store) ∧
        (ty = 1 → s.sentNow t (srcEng e) 56 0 pay) ∧ (ty = 2 → s.sentNow t (srcEng e) 9 1 pay)) ∧
    (∀ k r, s.coreWorks = true → s.fc.c3At = none → s.nextRec s.mgmt.mirrorSeq.toNat = some (k, r) →
      s.logSlot k = ⟨some r, false, []⟩ → (s.flashOf s.boot.flash).fails = false →
      ∃ t, exec .logbookMirror s = .next t ∧ r ∈ (t.flashOf s.boot.flash).log ∧
        t.flashOf (!s.boot.flash) = s.flashOf (!s.boot.flash) ∧
        t = { s with mgmt := t.mgmt, fc := t.fc, flash0 := t.flash0, flash1 := t.flash1, regs := t.regs, writeBacks := t.writeBacks }) ∧
    (let f := s.flashOf s.boot.flash
     s.coreWorks = true → s.fc.c3At ≠ none → f.reserve = [] → f.reserveLog = [] → f.fails = false → (∀ k, (s.logSlot k).flips = []) →
      ∃ t, exec .logbookMirror s = .next t ∧ (t.flashOf s.boot.flash).reserve = s.fc.frozen ∧
        (t.flashOf s.boot.flash).reserveLog =
          ((s.newestRecs.filter (fun p => follows 24 p.2.seq.toNat s.mgmt.mirrorSeq.toNat)).take 64).map (·.2)) ∧
    (s.coreWorks = true → s.fc.c3At = none → s.nextRec s.mgmt.mirrorSeq.toNat = none →
      ∃ t, exec .logbookMirror s = .next t ∧ t.flash0 = s.flash0 ∧ t.flash1 = s.flash1 ∧ t.mgmt = s.mgmt) ∧
    (s.coreAnswers = true → s.intakeRoom 1 = true →
      ∃ t, exec .mgmtWatchdogExpiry s = .next t ∧
        t.mgmt = { s.mgmt with core := .restarting, restartDone := some (s.cyc + 200 * msCyc) } ∧
        s.countsOne t F.mgmtStatRestartCnt ∧ s.sentNow t srcMgmt 2 2 (Config.msgContext srcMgmt 2 0)) ∧
    (s.mgmt.core = .restarting → ∃ t, exec .mgmtRestartDone s = .next t ∧
      t = { s with mgmt := { s.mgmt with core := .running, restartDone := none } }) ∧
    (s.mgmt.core = .starting → s.boot.locked = true → s.fc.c4 = false → s.writeAns 291 (s.wordOf .mgmt 291 [(F.emrSelEmrClr, 1)]) = .ok →
      let f := s.flashOf s.boot.flash
      ∃ t, exec .mgmtFirmwareStartDone s = .next t ∧ t.mgmt.core = .running ∧ t.fc.emr = [] ∧ t.fc.flushed = 0 ∧
        (f.fails = false → (t.flashOf s.boot.flash).emrStore = f.emrStore ++ s.fc.emr ∧ (t.flashOf s.boot.flash).reserve = [] ∧
          (t.flashOf s.boot.flash).reserveLog = []) ∧
        (f.fails = true → t.flashOf s.boot.flash = f ∧
          (s.fc.emr ≠ [] → s.intakeRoom 2 = true → s.sentNow t srcMgmt 4 1 (Config.msgContext srcMgmt 4 0)))) ∧
    (∀ (k : BitVec 3) x, s.session k.toNat = some x →
      (x.lastAt + 60 * secCyc ≤ s.cyc →
        ∃ t, exec (.sessionIdleClose k) s = .next t ∧ t.session k.toNat = none ∧
          (∀ j, j ≠ k.toNat → t.session j = s.session j) ∧ (∀ p ∈ t.shadows, p.1 / 2 ^ 24 ≠ 1 + k.toNat)) ∧
      (s.cyc < x.lastAt + 60 * secCyc → exec (.sessionIdleClose k) s = .next s))

/-- R400, R401, R402, R404, R405: FREEZE freezes a running recording with its cause and CYC; THAW empties it and records again; ENTER is refused with a chain in TRANSMIT, and otherwise leaves only the selected band paths in service; START needs replay mode and a checkpoint whose header words give the running device and image, and restores it with RCYC at its CYC. A checkpoint is taken into the older slot at a multiple of CP_PERIOD; its copy moves one word in each CLK_F cycle, header first, and the slot is valid, with its mark in the journal, when the last word is there; a poisoned word stops DL4 with a message. THAW empties the journal and the regions. Journal entries are applied once RCYC has reached them; a poisoned one is lost with a message; a decision that has been passed is a divergence. The replay is done at the freeze CYC. The readings and choices of the model in it are those of assumptions 49, 50, 67. -/
def Obligations.RecordingAndReplay : Prop :=
  ∀ (s : State) (o : Origin) (seq : BitVec 16),
    (s.coreAnswers = true → s.boot.romLoader = false → s.freshCommand o seq = true →
      (s.rpl.st = .recording → s.commandDone (.replayFreeze o seq) o seq 16 0 [] (fun t =>
        t.rpl.st = .frozen ∧ t.rpl.freezeCyc = s.cycW ∧ t.rpl.causeCmd = true ∧ t.rpl.copying = none)) ∧
      (s.rpl.st ≠ .recording → s.commandDone (.replayFreeze o seq) o seq 16 0 [] (fun t => t.rpl = s.rpl)) ∧
      (s.rpl.st = .frozen → s.commandDone (.replayThaw o seq) o seq 16 0 [] (fun t =>
        t.rpl.st = .recording ∧ t.rpl.rplOk = false ∧ t.rpl.cpValid = 0 ∧ t.rpl.jCount = 0 ∧ t.cp0 = none ∧ t.cp1 = none ∧
        ∀ a, 0x80000 ≤ a → a < 0x200000 → t.cell .hold a = Cell.zero)) ∧
      (s.rpl.st ≠ .frozen → s.commandDone (.replayThaw o seq) o seq 16 0 [] (fun t => t.rpl = s.rpl)) ∧
      (s.replayMode = true ∨ (∃ c, (s.chain c).st = .transmit) →
        s.commandDone (.replayEnter o seq) o seq 16 6 [] (fun t => t.rpl = s.rpl ∧ t.bps = s.bps)) ∧
      (s.replayMode = false → (∀ c, (s.chain c).st ≠ .transmit) →
        s.commandDone (.replayEnter o seq) o seq 16 0 [] (fun t => t.rpl.st = .replayMode ∧
          ∀ n ∈ s.planned, s.selected.contains n = false → (t.bp n).prot.st = .off ∨ (t.bp n).prot.st = .barred)) ∧
      (s.rpl.st ≠ .replayMode → s.commandDone (.replayStart o seq) o seq 16 6 [] (fun t => t.rpl = s.rpl)) ∧
      (let slot := s.rdB F.rplCfgFromSlot
       let b := cpBase slot
       let ids := (List.range 9).map (fun i => s.memPeek .hold (b + 1 + i))
       s.rpl.st = .replayMode → (∀ i, i < 20 → s.clean .hold (b + i) = true) →
        (ids ≠ cpIdent (s.reg 0) s.img.stamp s.img.digest →
          s.commandDone (.replayStart o seq) o seq 16 7 [] (fun t => t.rpl = s.rpl ∧ t.bps = s.bps)) ∧
        (∀ x, ids = cpIdent (s.reg 0) s.img.stamp s.img.digest → s.snap slot = some x →
          (∀ i, i < 0xC0000 → s.clean .hold (b + i) = true) → (∀ i, i < 0x30000 → s.clean .hold (0x80000 + i) = true) →
          BitVec.ofNat 40 x.cyc = s.memPeek .hold b →
          s.commandDone (.replayStart o seq) o seq 16 0 [] (fun t => t.rpl.st = .replaying ∧ t.rpl.rcyc = x.cyc ∧
            t.rpl.diverged = false ∧ t.time = x.time ∧ t.loops = x.loops ∧ t.thermal = x.thermal ∧ t.mcs = x.mcs)))) ∧
    (s.recording = true → s.rpl.copying = none → s.ltrStopped 516 = false → s.cyc % s.cpCycles = 0 →
      ∃ t, exec .checkpointStart s = .next t ∧ t.snap s.olderSlot = some s.takeSnap ∧ t.snap (!s.olderSlot) = s.snap (!s.olderSlot) ∧
        t.rpl.copying = some (s.olderSlot, 0) ∧ t.rpl.cpValid.getLsbD (bit s.olderSlot) = false ∧
        t.rpl.cpValid.getLsbD (bit (!s.olderSlot)) = s.rpl.cpValid.getLsbD (bit (!s.olderSlot)) ∧ t.mem = s.mem) ∧
    (s.recording = false → exec .checkpointStart s = .next s ∧ exec .checkpointDone s = .next s) ∧
    (∀ slot k x, s.pending = [] → s.alive = true → (s.cyc + 1) % 2 = 0 → s.time.setAt = none → s.time.stepTo = none → s.heldOff = [] →
      (∀ j, (s.cxPort j).req = false) → (∀ j, (s.port j).goEnds = none) →
      s.rpl.copying = some (slot, k) → s.snap slot = some x → s.ltrStopped 516 = false → k < s.cpWords x →
      let f := s.cpFrom x k
      let c := Tbl.get (fun _ => Cell.zero) (x.mem.tbl f.1) f.2.1
      (k < 20 → ∃ t, step s = .next t ∧ t.rpl.copying = some (slot, k + 1) ∧
        t.cell .hold (cpBase slot + k) = ⟨atD (s.cpHeader x) k 0, 0, false⟩ ∧ s.cellsKept t .hold (cpBase slot + k)) ∧
      (0x15000 ≤ k → c.poison = false → c.flips = 0 →
        ∃ t, step s = .next t ∧ t.rpl.copying = some (slot, k + 1) ∧ t.cell .hold (cpBase slot + k) = ⟨c.word, 0, false⟩ ∧
          s.cellsKept t .hold (cpBase slot + k)) ∧
      (0x15000 ≤ k → c.poison = true → s.intakeRoom 1 = true →
        ∃ t, step s = .next t ∧ t.rpl.copying = some (slot, k) ∧ t.ltrStopped 516 = true ∧
          ∃ m ∈ t.fc.queue, m.src.toNat = srcLtr 516 ∧ m.kind = 3 ∧ m.hint = 2 ∧
            m.ctx = ltrCtx 516 false (BitVec.ofNat 24 (cpBase slot + k)))) ∧
    (∀ slot k, s.recording = true → s.rpl.copying = some (slot, k) →
      (k < s.cpTotal slot → exec .checkpointDone s = .next s) ∧
      (s.cpTotal slot ≤ k → s.jChannel ≠ none →
        ∃ t, exec .checkpointDone s = .next t ∧ t.rpl.copying = none ∧ t.rpl.cpValid.getLsbD (bit slot) = true ∧
          let mark := (BitVec.ofNat 40 (10 * 2 ^ 34 + bit slot), BitVec.ofNat 40 (atD s.rpl.cpCyc (bit slot) 0), (0 : Word), (0 : Word))
          (s.rpl.jCount = 0 → t.jWords s.rpl.jHead = mark) ∧ ∃ i, i < 49152 ∧ t.jWords i = mark)) ∧
    (s.rpl.st ≠ .replaying → exec .journalEntryApply s = .next s ∧ exec .replayEnd s = .next s) ∧
    (s.rpl.st = .replaying →
      let now := BitVec.ofNat 40 s.rpl.rcyc
      let j := s.jNow
      let ty := bitsOf j.1 39 34
      let e := bitsOf j.1 33 0 % 256
      (ty = 0 ∨ notEarlier now j.2.1 = false → exec .journalEntryApply s = .next s) ∧
      let base := 524288 + 4 * (s.rpl.jNext % 49152)
      let taken := { s.rpl with jNext := s.rpl.jNext + 1, jLeft := s.rpl.jLeft - 1 }
      let readable := s.jChannel ≠ none ∧ (List.range 4).all (fun i => s.clean .hold (base + i)) = true
      ((s.cell .hold base).poison = false → (s.cell .hold (base + 2)).poison = true → 1 ≤ ty → ty ≤ 8 →
        (∀ i, i < 4 → i ≠ 2 → s.clean .hold (base + i) = true) → notEarlier now j.2.1 = true → s.intakeRoom 1 = true →
        ∀ n, s.jChannel = some n →
        ∃ t, exec .journalEntryApply s = .next t ∧ t.rpl = taken ∧ t.engines = s.engines ∧ t.ltrStopped n = true ∧
          s.sentNow t (srcLtr n) 3 2 (ltrCtx n false (BitVec.ofNat 24 (base + 2)))) ∧
      (ty = 7 → notEarlier now j.2.1 = true → readable → (∀ x ∈ (s.engine e).inbox, x.visible = true) →
        ∃ t, exec .journalEntryApply s = .next t ∧ t.rpl = taken ∧ s.otherEngines t e ∧
          t.engine e = { s.engine e with inbox := (s.engine e).inbox ++ [⟨j.2.2.1, s.rpl.rcyc, true⟩] }) ∧
      (ty = 9 → j.2.1 = now → exec .journalEntryApply s = .next s) ∧
      (ty = 9 → j.2.1 ≠ now → notEarlier now j.2.1 = true → readable →
        ∃ t, exec .journalEntryApply s = .next t ∧ s.countsOne t F.rplStatDivCnt ∧ t.rpl.diverged = true ∧
          t.rpl.jNext = s.rpl.jNext + 1 ∧ t.rpl.jLeft = s.rpl.jLeft - 1 ∧ t.engines = s.engines ∧ (s.rpl.diverged = false → t.rpl.divCyc = now)) ∧
      (notEarlier now s.rpl.freezeCyc = false → exec .replayEnd s = .next s) ∧
      (notEarlier now s.rpl.freezeCyc = true → ty = 0 →
        ∃ t, exec .replayEnd s = .next t ∧ t = { s with rpl := { s.rpl with st := .done } }))

/-- R385, R427, R468, R469, R470: the debug port. The instructions of the test access port take force; the three boundary instructions act as BYPASS unless harbour mode or the ROM loader runs with no chain in TRANSMIT; REG_ACCESS reads and writes as the debug-port requester and captures done, refused and address; EMR_READ captures the entry named; a message in a UART frame is read back as it was; EXTEST and SAMPLE/PRELOAD capture every ball's level and PRELOAD sets the latches; a whole COMMAND from the UART goes to the core unless two wait; a fuse burn starts only where every condition holds, and its group takes force in the shadow only after a good readback. The readings and choices of the model in it are those of assumptions 36, 37. -/
def Obligations.DebugPortAndFuses : Prop :=
  ∀ (s : State),
    (∀ row ∈ [(Instr.idcode, JtagIr.idcode), (.bypass, .bypass), (.testLogicReset, .idcode)],
      ∃ t, exec row.1 s = .next t ∧ t = { s with pins := { s.pins with jtag := row.2, irCapture := 1 } }) ∧
    (∀ row ∈ [(Instr.samplePreload, JtagIr.samplePreload), (.extest, .extest)],
      row.2 = .samplePreload ∨ ((s.boot.harbour = true ∨ s.boot.romLoader = true) ∧ ∀ c, (s.chain c).st ≠ .transmit) →
      let u : State := { s with pins := { s.pins with jtag := row.2, irCapture := 1, boundary := s.pins.boundary || row.2 == .extest } }
      ∃ t, exec row.1 s = .next t ∧
        t = { u with freeCtr := t.freeCtr, pins := { u.pins with bndDr := t.pins.bndDr, bndOut := t.pins.bndOut } } ∧
        t.pins.bndDr.length = pads.length ∧ (row.2 = .extest → t.pins.bndOut = s.pins.bndOut) ∧
        ∀ (i : Nat) (p : Pad) (b : Bool), pads[i]? = some p → u.padLevel p = some b → t.pins.bndDr[i]? = some b) ∧
    (∀ row ∈ [(Instr.clamp, JtagIr.clamp), (.highz, .highz)],
      ((s.boot.harbour = true ∨ s.boot.romLoader = true) → (∀ c, (s.chain c).st ≠ .transmit) →
        ∃ t, exec row.1 s = .next t ∧ t = { s with pins := { s.pins with jtag := row.2, irCapture := 1, boundary := true } }) ∧
      ((s.boot.harbour = false ∧ s.boot.romLoader = false) ∨ (∃ c, (s.chain c).st = .transmit) →
        ∀ i ∈ [row.1, .extest], ∃ t, exec i s = .next t ∧ t = { s with pins := { s.pins with jtag := .bypass, irCapture := 5 } })) ∧
    (∀ (write : Bool) (a : BitVec 24) (w : Word),
      (∃ t, exec (.regAccess false write a w) s = .next t ∧ t = { s with pins := { s.pins with jtag := .regAccess, irCapture := 1 } }) ∧
      (s.alive = true → a.toNat ∈ [10, 16, 263, 267] → a.toNat ∉ s.parBad →
        ∃ t, exec (.regAccess true false a w) s = .next t ∧ t.pins.regDr = regDrOf false a (s.reg a.toNat) ∧ t.regs = s.regs ∧
          t.pins.jtag = .regAccess) ∧
      (s.fc.c4 = true → ∃ t x, exec (.regAccess true true a w) s = .next t ∧ t.pins.regDr = regDrOf true a x ∧ t.regs = s.regs) ∧
      (∀ row ∈ ([(10, 0x7F07), (16, 0x1000000), (263, 0x1FF), (267, 0x3F)] : List (Nat × Nat)), a.toNat = row.1 →
        s.takesWord .debug row.1 w = true →
        ∃ t x, exec (.regAccess true true a w) s = .next t ∧ t.pins.regDr = regDrOf false a x ∧ s.regsKept t [row.1] ∧
          ∀ i, i < 40 → (t.reg row.1).getLsbD i = if row.2.testBit i then w.getLsbD i else (s.reg row.1).getLsbD i)) ∧
    (∀ (k : BitVec 4) r, s.fc.emr[k.toNat]? = some r →
      ∃ t, exec (.emrRead k) s = .next t ∧ t.pins.jtag = .emrRead ∧ t.pins.emrDr.setWidth 4 = k ∧
        (∀ i, i < 5 → t.pins.emrDr.extractLsb' (164 - 40 * i) 40 = r.words[i]?.getD 0) ∧ t = { s with pins := t.pins }) ∧
    (∀ b, uartMsg (uartFrame b) = some b) ∧
    (∀ f, uartMsg f = none → exec (.uartFrameReceive f) s = .next s) ∧
    (∀ f b, uartMsg f = some b → msgOk b = true →
      let p := msgPayload b
      (s.coreAnswers = false → exec (.uartFrameReceive f) s = .next s) ∧
      (msgDst b = 0 → s.coreAnswers = true → msgClass b = 0 →
        (s.debugWaiting < 2 → 1 ≤ msgNat p 0 1 → msgNat p 0 1 ≤ 16 → msgNat p 1 1 = 0 → argsOk (msgNat p 0 1) p = true →
          ∃ t, exec (.uartFrameReceive f) s = .next t ∧
            t = { s with mgmt := { s.mgmt with toCore := s.mgmt.toCore ++ [⟨b, none, 0⟩] } }) ∧
        (2 ≤ s.debugWaiting → exec (.uartFrameReceive f) s = .next s))) ∧
    (∀ vddIoOk : Bool,
      ∀ row ∈ [(Instr.limBurn vddIoOk, JtagIr.limBurn, 1#2, s.burned.limFused), (.keyBurn vddIoOk, .keyBurn, 2#2, s.burned.keyFused),
        (.lockBurn vddIoOk, .lockBurn, 3#2, s.burned.factoryLock)],
      let may := s.boot.image = true ∧ s.boot.locked = true ∧ s.boot.harbour = false ∧ vddIoOk = true ∧ row.2.2.2 = false ∧
        0 ≤ s.thermal.tjHot ∧ s.thermal.tjHot ≤ 85 * 2 ^ 24
      (may → ∃ t, exec row.1 s = .next t ∧ t = { s with
        pins := { s.pins with jtag := row.2.1, irCapture := 1, burnDr := true }, burn := s.burn ++ [⟨row.2.2.1, s.cyc + 50 * msCyc⟩] }) ∧
      (¬ may → ∃ t, exec row.1 s = .next t ∧ t = { s with
        pins := { s.pins with jtag := row.2.1, irCapture := 1, burnDr := false } })) ∧
    (s.burn = [] → ∀ v : Bool, exec (.fuseBurnDone v) s = .next s) ∧
    (∀ b rest, s.burn = b :: rest → s.intakeRoom 1 = true →
      (∃ t, exec (.fuseBurnDone true) s = .next t ∧ t.burn = rest ∧ t.fuses = s.fuses ∧ t.rdB F.fuseStatBurnOk = true ∧
        t.rd F.fuseStatBurnGroup = b.group.toNat ∧ s.sentNow t srcBoot 12 0 (s.bootCtx 0 (b.group.toNat + 4)) ∧
        (b.group = 1 → t.burned = { s.burned with
          limHash := limHash (sectBytes s.img.bytes 8), limRegion := BitVec.ofNat 16 (bitsOf (s.limWord 0) 39 24), limFused := true }) ∧
        (b.group = 2 → t.burned = { s.burned with keyHash := Config.sha256 (signerKey s.img.bytes), keyFused := true }) ∧
        (b.group = 3 → t.burned = { s.burned with factoryLock := true })) ∧
      (∃ t, exec (.fuseBurnDone false) s = .next t ∧ t.burn = rest ∧ t.burned = s.burned ∧ t.rdB F.fuseStatBurnOk = false ∧
        s.sentNow t srcBoot 12 0 (s.bootCtx 0 b.group.toNat)))

/-- R372, R385, R398, R408, R409, R413, R455, R471: resets and the start. RESET_N, VDD_CORE, PWR_GOOD and the ROM loader's own restart put the device in reset, with registers at their reset values, flashes and emergency register file kept, and burned fuses in force; the C4 latch ignores all but a VDD_CORE power cycle; the loss of VDD_IO clears the file. A start picks the flash: a PENDING record first, in BOOT_SEL order, and makes it TRIAL; then a TRIAL record with tries left; an exhausted one is REJECTED and rolled back; else the VALID record of the later generation. A record programmed into the sectors is the one a scan of them finds. A flash that fails keeps its record. A trial is confirmed 60 s after a clean soft start. The readings and choices of the model in it are those of assumptions 1, 33, 34. -/
def Obligations.ResetsAndStart : Prop :=
  ∀ (s : State),
    let inReset := fun (t : State) => t.boot.st = .inReset ∧ t.regs = [] ∧ t.cyc = 0 ∧ t.flash0 = s.flash0 ∧ t.flash1 = s.flash1 ∧
      t.fuses = s.burned ∧ t.fc.emr = s.fc.emr ∧ t.bps = [] ∧ t.chains = [] ∧ t.pending = s.pending
    (s.fc.c4 = false → ∃ t, exec .resetNFall s = .next t ∧ inReset t) ∧
    (s.fc.c4 = true → exec .resetNFall s = .next s) ∧
    (∃ t, exec .vddCorePowerCycle s = .next t ∧ inReset t ∧ t.fc.c4 = false) ∧
    (∃ t, exec .pwrGoodFall s = .next t ∧ inReset t ∧ t.fc.c4 = s.fc.c4) ∧
    (∀ c, s.mgmt.resetAt = some c → s.boot.romLoader = true → s.fc.c4 = false →
      (c ≤ s.cyc → ∃ t, exec .romLoaderReset s = .next t ∧ inReset t) ∧ (s.cyc < c → exec .romLoaderReset s = .next s)) ∧
    (s.boot.st = .inReset → ∃ t, exec .vddIoLoss s = .next t ∧ t.fc.emr = [] ∧ t.boot.st = .inReset ∧ t.flash0 = s.flash0 ∧
      t.flash1 = s.flash1) ∧
    (∀ (sel test lost : Bool) (v0 v1 : SlotView),
      let r := fun (k : Bool) => if k then (slotSeen v1 s.flash1).slot else (slotSeen v0 s.flash0).slot
      let fails := fun (k : Bool) => if k then (slotSeen v1 s.flash1).fails else (slotSeen v0 s.flash0).fails
      let start := Instr.coldStart sel test lost v0 v1
      (s.boot.st ≠ .inReset ∨ s.fc.c4 = true → exec start s = .next s) ∧
      (s.boot.st = .inReset → s.fc.c4 = false →
        ∃ t, exec start s = .next t ∧ t.boot.st = .pllLocking ∧ t.boot.bootSel = sel ∧ t.boot.testEn = test ∧
          t.rdB F.bootStatBootSelLvl = sel ∧ t.rdB F.bootStatTestEnLvl = test ∧
          t.fc.emr = (if lost then [] else s.fc.emr) ∧
          (∀ k, (r k).inSt 2 = true → k = sel ∨ (r sel).inSt 2 = false →
            t.boot.flash = k ∧ t.boot.trial = true ∧ (t.flashOf k).slot = (if fails k then r k else ⟨true, true, 3, 1, (r k).gen⟩) ∧
            (t.flashOf (!k)).slot = r (!k)) ∧
          (∀ k, (r k).inSt 3 = true → k = sel ∨ (r sel).inSt 3 = false → (r k).inSt 2 = false → (r (!k)).inSt 2 = false →
            ((r k).tries < 3 → t.boot.flash = k ∧ t.boot.trial = true ∧
              (t.flashOf k).slot = (if fails k then r k else ⟨true, true, 3, (r k).tries + 1, (r k).gen⟩)) ∧
            (3 ≤ (r k).tries → (t.flashOf k).slot = (if fails k then r k else ⟨true, true, 5, (r k).tries, (r k).gen⟩) ∧
              ((r (!k)).valid = true → t.boot.flash = !k ∧ t.boot.rolledBack = true ∧ t.boot.trial = false))) ∧
          (∀ k, (r k).inSt 4 = true → (r (!k)).inSt 4 = true → follows 16 (r k).gen.toNat (r (!k)).gen.toNat = true →
            follows 16 (r (!k)).gen.toNat (r k).gen.toNat = false → t.boot.flash = k ∧ t.boot.trial = false))) ∧
    (∀ (f : Flash) (st : BitVec 3) (tries : Nat) (gen : BitVec 16), tries < 256 → blankSector f.sect0 = true ∨ blankSector f.sect1 = true →
      let g := Flash.withSlot f st tries gen
      slotScan g.sect0 g.sect1 = ⟨true, true, st, tries, gen⟩ ∧ g.slot = slotScan g.sect0 g.sect1) ∧
    (∀ c, s.boot.softEnd = some c → s.fc.c4 = false →
      (c + 60 * secCyc ≤ s.cyc → s.boot.harbour = false → s.ownSlot.inSt 3 = true → (s.flashOf s.boot.flash).fails = false →
        ∃ t, exec .trialConfirm s = .next t ∧ (t.flashOf s.boot.flash).slot = ⟨true, true, 4, s.ownSlot.tries, s.ownSlot.gen⟩ ∧
          t.flashOf (!s.boot.flash) = s.flashOf (!s.boot.flash)) ∧
      (s.cyc < c + 60 * secCyc → exec .trialConfirm s = .next s))

/-- R317, R411, R419, R420, R421, R422, R423, R425, R429: the start of the clocks, the checks and the load. The PLL lock releases the dividers with CYC at 0; the memories are cleared and the unburned groups noted; a header or an image that a check refuses is recorded and reported, and the other flash or the ROM loader follows; in quad mode the sampling point is the middle of the delays that read as in single mode, and none of them rejects; an image that passes is locked, and the bring-up steps run in order, each ended by its units or at its bound with a message. The readings and choices of the model in it are those of assumptions 13, 18, 33, 35. -/
def Obligations.BootChecksAndBringUp : Prop :=
  ∀ (s : State),
    (∀ us : BitVec 16, s.boot.st = .pllLocking →
      (∃ t, exec (.pllLock true us) s = .next t ∧ t.cyc = 0 ∧ t.uptime = 0 ∧ t.boot.st = .clearing ∧ t.time = TimeBase.init ∧
        t.rd F.clkStatPllLock = 1 ∧ t.rd F.clkStatRefOk = 1 ∧ t.mem = s.mem) ∧
      (∃ t, exec (.pllLock false us) s = .next t ∧ t = { s with pins := { s.pins with noLock := true } })) ∧
    (s.boot.st = .clearing → s.fc.c4 = false → s.boot.noSource = false → s.intakeRoom 2 = true →
      ∃ t, exec .sramClearDone s = .next t ∧ t.mem = Mem.cleared ∧ t.boot.st = .reading ∧ t.fc.logReady = true ∧
        (s.fuses.limFused = false → s.sentNow t srcBoot 10 0 (s.bootCtx 0 0)) ∧
        (s.fuses.keyFused = false → s.sentNow t srcBoot 11 0 (s.bootCtx 0 0))) ∧
    (s.boot.st = .clearing → s.fc.c4 = false → s.boot.noSource = true →
      ∃ t, exec .sramClearDone s = .next t ∧ t.boot.romLoader = true ∧ t.boot.harbour = true ∧ t.boot.st = .romLoader ∧
        t.mgmt.core = .running ∧ t.boot.locked = true) ∧
    (∀ (want : List Byte) (delays : List (List Byte)) (lo hi : Nat), delays.length = 16 → lo ≤ hi → hi < 16 →
      (∀ i, i < 16 → (delays[i]? = some want ↔ lo ≤ i ∧ i ≤ hi)) → samplingPoint want delays = some ((lo + hi) / 2)) ∧
    (∀ (delays : List (List Byte)) (given : List Byte) (g : Image), s.fc.c4 = false →
      let alt := s.boot.flash
      let h := if (s.flashOf alt).image = [] then given else (imageBytes (s.flashOf alt).image).take 4096
      let point := if hNat h 21 1 % 4 = 0 then none else samplingPoint (h.take 16) delays
      let rejected := fun (i : Instr) (check kind : Nat) => s.intakeRoom 1 = true →
        ∃ t, exec i s = .next t ∧ t.rd (F.bootRejRejected (bit alt)) = 1 ∧ t.rd (F.bootRejCheck (bit alt)) = check ∧
          t.rd (F.bootRejKind (bit alt)) = kind ∧ s.sentNow t srcBoot kind 1 (s.bootCtx check 0) ∧
          ((s.flashOf alt).slot.inSt 3 = true → (s.flashOf alt).fails = false → (t.flashOf alt).slot =
            ⟨true, true, 5, (s.flashOf alt).slot.tries, (s.flashOf alt).slot.gen⟩) ∧
          ((s.flashOf (!alt)).slot.valid = true → (!alt) ∉ s.boot.tried → t.boot.flash = !alt ∧ t.boot.st = .reading ∧ t.boot.locked = s.boot.locked) ∧
          ((!alt) ∈ s.boot.tried → t.boot.romLoader = true ∧ t.boot.harbour = true ∧ t.boot.st = .romLoader ∧ t.boot.locked = true)
      (s.boot.st = .reading →
        rejected (.imageHeaderRead alt false delays given) 1 1 ∧
        (hNat h 21 1 % 4 ≠ 0 → point = none → rejected (.imageHeaderRead alt true delays given) 1 1) ∧
        (hNat h 21 1 % 4 = 0 ∨ point ≠ none →
          (∀ check kind, headerCheck h (s.reg 0) s.fuses = some (check, kind) →
            rejected (.imageHeaderRead alt true delays given) check kind) ∧
          (headerCheck h (s.reg 0) s.fuses = none →
            ∃ t, exec (.imageHeaderRead alt true delays given) s = .next t ∧ t.boot.st = .loading ∧ t.boot.header = h ∧ t.boot.sampling = point ∧
              t.rd F.bootStatQspiMode = hNat h 21 1 % 4 ∧ t.mem = s.mem)) ∧
        exec (.imageHeaderRead (!alt) true delays given) s = .next s) ∧
      (s.boot.st = .loading →
        let b := imageBytes (if (s.flashOf alt).image = [] then s.boot.header ++ g.bytes.drop 4096 else (s.flashOf alt).image)
        rejected (.imageLoaded alt false g) 1 1 ∧
        (∀ check kind, bodyCheck b (s.reg 0) s.fuses = some (check, kind) → rejected (.imageLoaded alt true g) check kind) ∧
        (bodyCheck b (s.reg 0) s.fuses = none →
          ∃ t, exec (.imageLoaded alt true g) s = .next t ∧ t.img = s.streamed g ∧ t.img.bytes = b ∧ t.img.plan = sectWords b 4 ∧
            t.img.limits = sectWords b 8 ∧ t.boot.st = .running ∧ t.boot.locked = true ∧
            t.boot.image = true ∧ t.mgmt.core = .starting ∧ t.boot.step = some 0 ∧ t.rd F.bootStatAccepted = 1 ∧
            t.rd F.bootStepsJesd = 1 ∧
              ∀ a, g.hasAddress = some a → a ≠ 0 → a.toNat ≠ allAddr → t.addressed = true ∧ t.ownAddr = a.toNat))) ∧
    (∀ k : BitVec 2, s.boot.step = some k → s.fc.c4 = false →
      let n := k.toNat
      let nextStep := fun (t : State) => if k = 3 then t.boot.step = none ∧ (s.boot.harbour = false → t.boot.softEnd = some s.cyc)
        else t.boot.step = some (k + 1) ∧ t.boot.stepAt = s.cyc
      (k ≠ 0 → (∀ u ∈ s.stepUnits n, s.unitUp n u = true) →
        ∃ t, exec (.bringupStepEnd k) s = .next t ∧ t.rd (stepFld n) = 2 ∧ nextStep t) ∧
      (k = 0 → (∀ u ∈ s.stepUnits n, (s.chain u).jtxRunning = true) →
        ∃ t, exec (.bringupStepEnd k) s = .next t ∧ t.rd (stepFld n) = 2 ∧ nextStep t) ∧
      (k ≠ 0 → (∃ u ∈ s.stepUnits n, s.unitUp n u = false) → exec (.bringupStepEnd k) s = .next s) ∧
      (k ≠ 3 → s.boot.stepAt + stepBound n ≤ s.cyc → s.intakeRoom 1 = true →
        ∃ t, exec (.bringupStepBound k) s = .next t ∧ t.rd (stepFld n) = 3 ∧ t.rd F.bootStepsNotUp = (s.notUp n).toNat ∧
          s.sentNow t srcBoot 13 0 (s.bootCtx 0 (n * 2 ^ 32 + (s.notUp n).toNat)) ∧ nextStep t) ∧
      (k = 3 ∨ s.cyc < s.boot.stepAt + stepBound n → exec (.bringupStepBound k) s = .next s))

/-- R208, R209, R229: the words of engine instructions and their decoding agree. Decoding the word of a well-formed instruction gives that instruction back; every word the legality rules admit is the word of exactly the well-formed instruction it decodes to; every other word is refused. -/
def Obligations.EngineWordsRoundTrip : Prop :=
  ∀ (e : EngId) (w : Word),
    (∀ i, wellFormed i = true → encode i = some (e, w) → decodeEngine e w = some i) ∧
    (legalWord w = true → ∃ i, decodeEngine e w = some i ∧ encode i = some (e, w) ∧ wellFormed i = true) ∧
    (legalWord w = false → decodeEngine e w = none)

/-- R372: the C4 latch. From every state in which it is set, whatever command comes, or none, it is set after the step and no radio-frequency energy leaves the device; only a power cycle, VDD_CORE_POWER_CYCLE or the loss of VDD_IO that is one, may clear it. -/
def Obligations.LatchStaysSet : Prop :=
  ∀ (s t : State),
    s.fc.c4 = true → s.pending.head? ≠ some .vddCorePowerCycle → s.pending.head? ≠ some .vddIoLoss → step s = .next t →
    t.fc.c4 = true ∧ t.egressOff = true

/-- The stored data of the device is in its canonical form: every protected memory and the registers, in the state and in both checkpoints. The readings and choices of the model in it are those of assumptions 3, 8. -/
def Obligations.CanonicalStorage : Prop :=
  ∀ (s t : State), s.canonical = true → step s = .next t → t.canonical = true
end

