-- ==== Sys2Proof/Laws/Bits.lean ====
section
/-! SUPPORT. Bit fields of a word: a field just written reads as written, and the other fields as before. -/

namespace Sys2Proof.Machine

theorem testBit_mask (n lo i : Nat) : ((2 ^ n - 1) * 2 ^ lo).testBit i = (decide (lo ≤ i) && decide (i < lo + n)) := by
  rw [Nat.testBit_mul_two_pow, Nat.testBit_two_pow_sub_one]
  by_cases h : lo ≤ i
  · simp only [h, decide_true, Bool.true_and]; congr 1; apply propext; omega
  · simp [h]

theorem testBit_bitsOf (w : Word) (hi lo i : Nat) :
    (bitsOf w hi lo).testBit i = (decide (i < hi - lo + 1) && w.getLsbD (lo + i)) := by
  simp only [bitsOf, Nat.testBit_mod_two_pow, Nat.testBit_div_two_pow, BitVec.getLsbD, Nat.add_comm lo i]

theorem getLsbD_putBits (w : Word) (hi lo v i : Nat) (h : i < 40) :
    (putBits w hi lo v).getLsbD i =
      if lo ≤ i ∧ i < lo + (hi - lo + 1) then v.testBit (i - lo) else w.getLsbD i := by
  have e1 : decide (i - lo < hi - lo + 1) = decide (i < lo + (hi - lo + 1)) ∨ ¬ lo ≤ i := by
    by_cases h1 : lo ≤ i
    · left; congr 1; apply propext; omega
    · exact .inr h1
  simp only [putBits, BitVec.getLsbD_or, BitVec.getLsbD_and, BitVec.getLsbD_not, maskOf, BitVec.getLsbD_ofNat, testBit_mask,
    Nat.testBit_mul_two_pow (x := _ % _), Nat.testBit_mod_two_pow, h, decide_true, Bool.true_and]
  rcases e1 with e1 | h1
  · rw [e1]
    by_cases h1 : lo ≤ i <;> by_cases h2 : i < lo + (hi - lo + 1) <;> simp only [h1, h2] <;> simp
  · simp [h1]

/-- A field just written reads as the value written, modulo its width. -/
theorem bitsOf_putBits_same (w : Word) {hi lo : Nat} (v : Nat) (h : lo ≤ hi) (h' : hi < 40) :
    bitsOf (putBits w hi lo v) hi lo = v % 2 ^ (hi - lo + 1) := by
  apply Nat.eq_of_testBit_eq
  intro i
  rw [testBit_bitsOf, Nat.testBit_mod_two_pow]
  by_cases hi' : i < hi - lo + 1
  · rw [getLsbD_putBits _ _ _ _ _ (by omega), if_pos (by omega)]
    simp [hi']
  · simp [hi']

/-- A field written leaves a field of other bits alone. -/
theorem bitsOf_putBits_ne (w : Word) {hi lo hi' lo' : Nat} (v : Nat) (h : hi < lo' ∨ hi' < lo) (hl : lo ≤ hi)
    (hl' : lo' ≤ hi') (hh : hi' < 40) : bitsOf (putBits w hi lo v) hi' lo' = bitsOf w hi' lo' := by
  apply Nat.eq_of_testBit_eq
  intro i
  rw [testBit_bitsOf, testBit_bitsOf]
  by_cases hi2 : i < hi' - lo' + 1
  · rw [getLsbD_putBits _ _ _ _ _ (by omega), if_neg (by omega)]
  · simp [hi2]

end Sys2Proof.Machine
end

