-- ==== Sys2Proof/Laws/Tbl.lean ====
section
/-! SUPPORT. Laws of the sparse tables: a read after a write, and the canonical form. -/

namespace Sys2Proof.Tbl

variable {α : Type}

theorem get_put_same (d : Nat → α) (t : Tbl α) (k : Nat) (v : α) : get d (put t k v) k = v := by
  induction t with
  | nil => simp [put, get]
  | cons p t ih =>
    simp only [put]
    split
    · simp [get]
    · split <;> rename_i h1 h2
      · simp [get]
      · simp [get, h2, ih]

theorem get_put_ne (d : Nat → α) (t : Tbl α) {k j : Nat} (v : α) (h : j ≠ k) : get d (put t k v) j = get d t j := by
  induction t with
  | nil => simp [put, get, h]
  | cons p t ih =>
    simp only [put]
    split
    · simp [get, h]
    · split <;> rename_i h1 h2
      · subst h2; simp [get, h]
      · simp only [get, ih]

theorem get_del_same (d : Nat → α) (t : Tbl α) (k : Nat) : get d (del t k) k = d k := by
  induction t with
  | nil => rfl
  | cons p t ih =>
    simp only [del]
    split
    · exact ih
    · rename_i h; simp [get, h, ih]

theorem get_del_ne (d : Nat → α) (t : Tbl α) {k j : Nat} (h : j ≠ k) : get d (del t k) j = get d t j := by
  induction t with
  | nil => rfl
  | cons p t ih =>
    simp only [del]
    split
    · rename_i h2; subst h2; simp [get, h, ih]
    · simp only [get, ih]

theorem above_trans {i j : Nat} {t : Tbl α} (h : i ≤ j) (ht : above j t = true) : above i t = true := by
  cases t with
  | nil => rfl
  | cons p t => simp only [above, decide_eq_true_eq] at *; omega

theorem above_put {i k : Nat} {t : Tbl α} {v : α} (hi : i < k) (ht : above i t = true) : above i (put t k v) = true := by
  cases t with
  | nil => simpa [put, above] using hi
  | cons p t =>
    simp only [put]
    split
    · simpa [above] using hi
    · split
      · simpa [above] using hi
      · simpa [above] using ht

variable [DecidableEq α]

/-- A read of the key just written gives the value written. -/
@[simp] theorem get_set_same (d : Nat → α) (t : Tbl α) (k : Nat) (v : α) : get d (set d t k v) k = v := by
  unfold set
  split
  · rename_i h; rw [get_del_same, h]
  · exact get_put_same d t k v

/-- A write leaves every other key alone. -/
theorem get_set_ne (d : Nat → α) (t : Tbl α) {k j : Nat} (v : α) (h : j ≠ k) : get d (set d t k v) j = get d t j := by
  unfold set
  split
  · exact get_del_ne d t h
  · exact get_put_ne d t v h

/-- A read after a write, at any key. -/
theorem get_set (d : Nat → α) (t : Tbl α) (k j : Nat) (v : α) :
    get d (set d t k v) j = if j = k then v else get d t j := by
  split
  · rename_i h; subst h; exact get_set_same d t j v
  · rename_i h; exact get_set_ne d t v h

theorem above_del {d : Nat → α} {i k : Nat} {t : Tbl α} (hw : wf d t = true) (ht : above i t = true) :
    above i (del t k) = true := by
  induction t generalizing i with
  | nil => rfl
  | cons p t ih =>
    simp only [wf, Bool.and_eq_true] at hw
    simp only [above, decide_eq_true_eq] at ht
    simp only [del]
    split
    · exact ih hw.2 (above_trans (Nat.le_of_lt ht) hw.1.2)
    · simpa [above] using ht

theorem wf_del {d : Nat → α} {t : Tbl α} (k : Nat) (hw : wf d t = true) : wf d (del t k) = true := by
  induction t with
  | nil => rfl
  | cons p t ih =>
    have hw' := hw
    simp only [wf, Bool.and_eq_true] at hw
    simp only [del]
    split
    · exact ih hw.2
    · simp only [wf, Bool.and_eq_true]
      exact ⟨⟨hw.1.1, above_del hw.2 hw.1.2⟩, ih hw.2⟩

theorem wf_put {d : Nat → α} {t : Tbl α} {k : Nat} {v : α} (hv : v ≠ d k) (hw : wf d t = true) :
    wf d (put t k v) = true := by
  induction t with
  | nil => simp [put, wf, above, hv]
  | cons p t ih =>
    have hw' := hw
    simp only [wf, Bool.and_eq_true] at hw
    simp only [put]
    split
    · rename_i h
      simp only [wf, Bool.and_eq_true]
      exact ⟨⟨by simp [hv], by simp [above, h]⟩, by simpa [wf] using hw⟩
    · split
      · rename_i h1 h2; subst h2
        simp only [wf, Bool.and_eq_true]
        exact ⟨⟨by simp [hv], hw.1.2⟩, hw.2⟩
      · rename_i h1 h2
        simp only [wf, Bool.and_eq_true]
        exact ⟨⟨hw.1.1, above_put (by omega) hw.1.2⟩, ih hw.2⟩

/-- A write keeps the canonical form. -/
theorem wf_set {d : Nat → α} {t : Tbl α} (k : Nat) (v : α) (hw : wf d t = true) : wf d (set d t k v) = true := by
  unfold set
  split
  · exact wf_del k hw
  · rename_i h; exact wf_put h hw

end Sys2Proof.Tbl
end

