-- ==== Sys2Proof/Laws/State.lean ====
section
/-! SUPPORT. What each record update of the state leaves and changes: one lemma for each field and update. -/

namespace Sys2Proof.Machine.State

/-! `setBp` changes `bps`. -/
@[simp] theorem setBp_pending (s : State) (n : Nat) (x : Bp) : (s.setBp n x).pending = s.pending := rfl
@[simp] theorem setBp_cyc (s : State) (n : Nat) (x : Bp) : (s.setBp n x).cyc = s.cyc := rfl
@[simp] theorem setBp_uptime (s : State) (n : Nat) (x : Bp) : (s.setBp n x).uptime = s.uptime := rfl
@[simp] theorem setBp_regs (s : State) (n : Nat) (x : Bp) : (s.setBp n x).regs = s.regs := rfl
@[simp] theorem setBp_shadows (s : State) (n : Nat) (x : Bp) : (s.setBp n x).shadows = s.shadows := rfl
@[simp] theorem setBp_reads (s : State) (n : Nat) (x : Bp) : (s.setBp n x).reads = s.reads := rfl
@[simp] theorem setBp_mem (s : State) (n : Nat) (x : Bp) : (s.setBp n x).mem = s.mem := rfl
@[simp] theorem setBp_parBad (s : State) (n : Nat) (x : Bp) : (s.setBp n x).parBad = s.parBad := rfl
@[simp] theorem setBp_img (s : State) (n : Nat) (x : Bp) : (s.setBp n x).img = s.img := rfl
@[simp] theorem setBp_limits (s : State) (n : Nat) (x : Bp) : (s.setBp n x).limits = s.limits := rfl
@[simp] theorem setBp_limPend (s : State) (n : Nat) (x : Bp) : (s.setBp n x).limPend = s.limPend := rfl
@[simp] theorem setBp_evalSeq (s : State) (n : Nat) (x : Bp) : (s.setBp n x).evalSeq = s.evalSeq := rfl
@[simp] theorem setBp_tapFlight (s : State) (n : Nat) (x : Bp) : (s.setBp n x).tapFlight = s.tapFlight := rfl
@[simp] theorem setBp_heldOff (s : State) (n : Nat) (x : Bp) : (s.setBp n x).heldOff = s.heldOff := rfl
@[simp] theorem setBp_descMoves (s : State) (n : Nat) (x : Bp) : (s.setBp n x).descMoves = s.descMoves := rfl
@[simp] theorem setBp_delayFlight (s : State) (n : Nat) (x : Bp) : (s.setBp n x).delayFlight = s.delayFlight := rfl
@[simp] theorem setBp_rsmp (s : State) (n : Nat) (x : Bp) : (s.setBp n x).rsmp = s.rsmp := rfl
@[simp] theorem setBp_chains (s : State) (n : Nat) (x : Bp) : (s.setBp n x).chains = s.chains := rfl
@[simp] theorem setBp_cx (s : State) (n : Nat) (x : Bp) : (s.setBp n x).cx = s.cx := rfl
@[simp] theorem setBp_adcs (s : State) (n : Nat) (x : Bp) : (s.setBp n x).adcs = s.adcs := rfl
@[simp] theorem setBp_mcs (s : State) (n : Nat) (x : Bp) : (s.setBp n x).mcs = s.mcs := rfl
@[simp] theorem setBp_meas (s : State) (n : Nat) (x : Bp) : (s.setBp n x).meas = s.meas := rfl
@[simp] theorem setBp_loops (s : State) (n : Nat) (x : Bp) : (s.setBp n x).loops = s.loops := rfl
@[simp] theorem setBp_engines (s : State) (n : Nat) (x : Bp) : (s.setBp n x).engines = s.engines := rfl
@[simp] theorem setBp_lighters (s : State) (n : Nat) (x : Bp) : (s.setBp n x).lighters = s.lighters := rfl
@[simp] theorem setBp_taps (s : State) (n : Nat) (x : Bp) : (s.setBp n x).taps = s.taps := rfl
@[simp] theorem setBp_writeBacks (s : State) (n : Nat) (x : Bp) : (s.setBp n x).writeBacks = s.writeBacks := rfl
@[simp] theorem setBp_ports (s : State) (n : Nat) (x : Bp) : (s.setBp n x).ports = s.ports := rfl
@[simp] theorem setBp_time (s : State) (n : Nat) (x : Bp) : (s.setBp n x).time = s.time := rfl
@[simp] theorem setBp_thermal (s : State) (n : Nat) (x : Bp) : (s.setBp n x).thermal = s.thermal := rfl
@[simp] theorem setBp_fc (s : State) (n : Nat) (x : Bp) : (s.setBp n x).fc = s.fc := rfl
@[simp] theorem setBp_mgmt (s : State) (n : Nat) (x : Bp) : (s.setBp n x).mgmt = s.mgmt := rfl
@[simp] theorem setBp_flash0 (s : State) (n : Nat) (x : Bp) : (s.setBp n x).flash0 = s.flash0 := rfl
@[simp] theorem setBp_flash1 (s : State) (n : Nat) (x : Bp) : (s.setBp n x).flash1 = s.flash1 := rfl
@[simp] theorem setBp_rpl (s : State) (n : Nat) (x : Bp) : (s.setBp n x).rpl = s.rpl := rfl
@[simp] theorem setBp_cp0 (s : State) (n : Nat) (x : Bp) : (s.setBp n x).cp0 = s.cp0 := rfl
@[simp] theorem setBp_cp1 (s : State) (n : Nat) (x : Bp) : (s.setBp n x).cp1 = s.cp1 := rfl
@[simp] theorem setBp_boot (s : State) (n : Nat) (x : Bp) : (s.setBp n x).boot = s.boot := rfl
@[simp] theorem setBp_fuses (s : State) (n : Nat) (x : Bp) : (s.setBp n x).fuses = s.fuses := rfl
@[simp] theorem setBp_burned (s : State) (n : Nat) (x : Bp) : (s.setBp n x).burned = s.burned := rfl
@[simp] theorem setBp_burn (s : State) (n : Nat) (x : Bp) : (s.setBp n x).burn = s.burn := rfl
@[simp] theorem setBp_pins (s : State) (n : Nat) (x : Bp) : (s.setBp n x).pins = s.pins := rfl
@[simp] theorem setBp_freeCtr (s : State) (n : Nat) (x : Bp) : (s.setBp n x).freeCtr = s.freeCtr := rfl

/-! `setChain` changes `chains`. -/
@[simp] theorem setChain_pending (s : State) (n : Nat) (x : Chain) : (s.setChain n x).pending = s.pending := rfl
@[simp] theorem setChain_cyc (s : State) (n : Nat) (x : Chain) : (s.setChain n x).cyc = s.cyc := rfl
@[simp] theorem setChain_uptime (s : State) (n : Nat) (x : Chain) : (s.setChain n x).uptime = s.uptime := rfl
@[simp] theorem setChain_regs (s : State) (n : Nat) (x : Chain) : (s.setChain n x).regs = s.regs := rfl
@[simp] theorem setChain_shadows (s : State) (n : Nat) (x : Chain) : (s.setChain n x).shadows = s.shadows := rfl
@[simp] theorem setChain_reads (s : State) (n : Nat) (x : Chain) : (s.setChain n x).reads = s.reads := rfl
@[simp] theorem setChain_mem (s : State) (n : Nat) (x : Chain) : (s.setChain n x).mem = s.mem := rfl
@[simp] theorem setChain_parBad (s : State) (n : Nat) (x : Chain) : (s.setChain n x).parBad = s.parBad := rfl
@[simp] theorem setChain_img (s : State) (n : Nat) (x : Chain) : (s.setChain n x).img = s.img := rfl
@[simp] theorem setChain_limits (s : State) (n : Nat) (x : Chain) : (s.setChain n x).limits = s.limits := rfl
@[simp] theorem setChain_limPend (s : State) (n : Nat) (x : Chain) : (s.setChain n x).limPend = s.limPend := rfl
@[simp] theorem setChain_evalSeq (s : State) (n : Nat) (x : Chain) : (s.setChain n x).evalSeq = s.evalSeq := rfl
@[simp] theorem setChain_tapFlight (s : State) (n : Nat) (x : Chain) : (s.setChain n x).tapFlight = s.tapFlight := rfl
@[simp] theorem setChain_heldOff (s : State) (n : Nat) (x : Chain) : (s.setChain n x).heldOff = s.heldOff := rfl
@[simp] theorem setChain_descMoves (s : State) (n : Nat) (x : Chain) : (s.setChain n x).descMoves = s.descMoves := rfl
@[simp] theorem setChain_delayFlight (s : State) (n : Nat) (x : Chain) : (s.setChain n x).delayFlight = s.delayFlight := rfl
@[simp] theorem setChain_bps (s : State) (n : Nat) (x : Chain) : (s.setChain n x).bps = s.bps := rfl
@[simp] theorem setChain_rsmp (s : State) (n : Nat) (x : Chain) : (s.setChain n x).rsmp = s.rsmp := rfl
@[simp] theorem setChain_cx (s : State) (n : Nat) (x : Chain) : (s.setChain n x).cx = s.cx := rfl
@[simp] theorem setChain_adcs (s : State) (n : Nat) (x : Chain) : (s.setChain n x).adcs = s.adcs := rfl
@[simp] theorem setChain_mcs (s : State) (n : Nat) (x : Chain) : (s.setChain n x).mcs = s.mcs := rfl
@[simp] theorem setChain_meas (s : State) (n : Nat) (x : Chain) : (s.setChain n x).meas = s.meas := rfl
@[simp] theorem setChain_loops (s : State) (n : Nat) (x : Chain) : (s.setChain n x).loops = s.loops := rfl
@[simp] theorem setChain_engines (s : State) (n : Nat) (x : Chain) : (s.setChain n x).engines = s.engines := rfl
@[simp] theorem setChain_lighters (s : State) (n : Nat) (x : Chain) : (s.setChain n x).lighters = s.lighters := rfl
@[simp] theorem setChain_taps (s : State) (n : Nat) (x : Chain) : (s.setChain n x).taps = s.taps := rfl
@[simp] theorem setChain_writeBacks (s : State) (n : Nat) (x : Chain) : (s.setChain n x).writeBacks = s.writeBacks := rfl
@[simp] theorem setChain_ports (s : State) (n : Nat) (x : Chain) : (s.setChain n x).ports = s.ports := rfl
@[simp] theorem setChain_time (s : State) (n : Nat) (x : Chain) : (s.setChain n x).time = s.time := rfl
@[simp] theorem setChain_thermal (s : State) (n : Nat) (x : Chain) : (s.setChain n x).thermal = s.thermal := rfl
@[simp] theorem setChain_fc (s : State) (n : Nat) (x : Chain) : (s.setChain n x).fc = s.fc := rfl
@[simp] theorem setChain_mgmt (s : State) (n : Nat) (x : Chain) : (s.setChain n x).mgmt = s.mgmt := rfl
@[simp] theorem setChain_flash0 (s : State) (n : Nat) (x : Chain) : (s.setChain n x).flash0 = s.flash0 := rfl
@[simp] theorem setChain_flash1 (s : State) (n : Nat) (x : Chain) : (s.setChain n x).flash1 = s.flash1 := rfl
@[simp] theorem setChain_rpl (s : State) (n : Nat) (x : Chain) : (s.setChain n x).rpl = s.rpl := rfl
@[simp] theorem setChain_cp0 (s : State) (n : Nat) (x : Chain) : (s.setChain n x).cp0 = s.cp0 := rfl
@[simp] theorem setChain_cp1 (s : State) (n : Nat) (x : Chain) : (s.setChain n x).cp1 = s.cp1 := rfl
@[simp] theorem setChain_boot (s : State) (n : Nat) (x : Chain) : (s.setChain n x).boot = s.boot := rfl
@[simp] theorem setChain_fuses (s : State) (n : Nat) (x : Chain) : (s.setChain n x).fuses = s.fuses := rfl
@[simp] theorem setChain_burned (s : State) (n : Nat) (x : Chain) : (s.setChain n x).burned = s.burned := rfl
@[simp] theorem setChain_burn (s : State) (n : Nat) (x : Chain) : (s.setChain n x).burn = s.burn := rfl
@[simp] theorem setChain_pins (s : State) (n : Nat) (x : Chain) : (s.setChain n x).pins = s.pins := rfl
@[simp] theorem setChain_freeCtr (s : State) (n : Nat) (x : Chain) : (s.setChain n x).freeCtr = s.freeCtr := rfl

/-! `setCx` changes `cx`. -/
@[simp] theorem setCx_pending (s : State) (n : Nat) (x : CxPort) : (s.setCx n x).pending = s.pending := rfl
@[simp] theorem setCx_cyc (s : State) (n : Nat) (x : CxPort) : (s.setCx n x).cyc = s.cyc := rfl
@[simp] theorem setCx_uptime (s : State) (n : Nat) (x : CxPort) : (s.setCx n x).uptime = s.uptime := rfl
@[simp] theorem setCx_regs (s : State) (n : Nat) (x : CxPort) : (s.setCx n x).regs = s.regs := rfl
@[simp] theorem setCx_shadows (s : State) (n : Nat) (x : CxPort) : (s.setCx n x).shadows = s.shadows := rfl
@[simp] theorem setCx_reads (s : State) (n : Nat) (x : CxPort) : (s.setCx n x).reads = s.reads := rfl
@[simp] theorem setCx_mem (s : State) (n : Nat) (x : CxPort) : (s.setCx n x).mem = s.mem := rfl
@[simp] theorem setCx_parBad (s : State) (n : Nat) (x : CxPort) : (s.setCx n x).parBad = s.parBad := rfl
@[simp] theorem setCx_img (s : State) (n : Nat) (x : CxPort) : (s.setCx n x).img = s.img := rfl
@[simp] theorem setCx_limits (s : State) (n : Nat) (x : CxPort) : (s.setCx n x).limits = s.limits := rfl
@[simp] theorem setCx_limPend (s : State) (n : Nat) (x : CxPort) : (s.setCx n x).limPend = s.limPend := rfl
@[simp] theorem setCx_evalSeq (s : State) (n : Nat) (x : CxPort) : (s.setCx n x).evalSeq = s.evalSeq := rfl
@[simp] theorem setCx_tapFlight (s : State) (n : Nat) (x : CxPort) : (s.setCx n x).tapFlight = s.tapFlight := rfl
@[simp] theorem setCx_heldOff (s : State) (n : Nat) (x : CxPort) : (s.setCx n x).heldOff = s.heldOff := rfl
@[simp] theorem setCx_descMoves (s : State) (n : Nat) (x : CxPort) : (s.setCx n x).descMoves = s.descMoves := rfl
@[simp] theorem setCx_delayFlight (s : State) (n : Nat) (x : CxPort) : (s.setCx n x).delayFlight = s.delayFlight := rfl
@[simp] theorem setCx_bps (s : State) (n : Nat) (x : CxPort) : (s.setCx n x).bps = s.bps := rfl
@[simp] theorem setCx_rsmp (s : State) (n : Nat) (x : CxPort) : (s.setCx n x).rsmp = s.rsmp := rfl
@[simp] theorem setCx_chains (s : State) (n : Nat) (x : CxPort) : (s.setCx n x).chains = s.chains := rfl
@[simp] theorem setCx_adcs (s : State) (n : Nat) (x : CxPort) : (s.setCx n x).adcs = s.adcs := rfl
@[simp] theorem setCx_mcs (s : State) (n : Nat) (x : CxPort) : (s.setCx n x).mcs = s.mcs := rfl
@[simp] theorem setCx_meas (s : State) (n : Nat) (x : CxPort) : (s.setCx n x).meas = s.meas := rfl
@[simp] theorem setCx_loops (s : State) (n : Nat) (x : CxPort) : (s.setCx n x).loops = s.loops := rfl
@[simp] theorem setCx_engines (s : State) (n : Nat) (x : CxPort) : (s.setCx n x).engines = s.engines := rfl
@[simp] theorem setCx_lighters (s : State) (n : Nat) (x : CxPort) : (s.setCx n x).lighters = s.lighters := rfl
@[simp] theorem setCx_taps (s : State) (n : Nat) (x : CxPort) : (s.setCx n x).taps = s.taps := rfl
@[simp] theorem setCx_writeBacks (s : State) (n : Nat) (x : CxPort) : (s.setCx n x).writeBacks = s.writeBacks := rfl
@[simp] theorem setCx_ports (s : State) (n : Nat) (x : CxPort) : (s.setCx n x).ports = s.ports := rfl
@[simp] theorem setCx_time (s : State) (n : Nat) (x : CxPort) : (s.setCx n x).time = s.time := rfl
@[simp] theorem setCx_thermal (s : State) (n : Nat) (x : CxPort) : (s.setCx n x).thermal = s.thermal := rfl
@[simp] theorem setCx_fc (s : State) (n : Nat) (x : CxPort) : (s.setCx n x).fc = s.fc := rfl
@[simp] theorem setCx_mgmt (s : State) (n : Nat) (x : CxPort) : (s.setCx n x).mgmt = s.mgmt := rfl
@[simp] theorem setCx_flash0 (s : State) (n : Nat) (x : CxPort) : (s.setCx n x).flash0 = s.flash0 := rfl
@[simp] theorem setCx_flash1 (s : State) (n : Nat) (x : CxPort) : (s.setCx n x).flash1 = s.flash1 := rfl
@[simp] theorem setCx_rpl (s : State) (n : Nat) (x : CxPort) : (s.setCx n x).rpl = s.rpl := rfl
@[simp] theorem setCx_cp0 (s : State) (n : Nat) (x : CxPort) : (s.setCx n x).cp0 = s.cp0 := rfl
@[simp] theorem setCx_cp1 (s : State) (n : Nat) (x : CxPort) : (s.setCx n x).cp1 = s.cp1 := rfl
@[simp] theorem setCx_boot (s : State) (n : Nat) (x : CxPort) : (s.setCx n x).boot = s.boot := rfl
@[simp] theorem setCx_fuses (s : State) (n : Nat) (x : CxPort) : (s.setCx n x).fuses = s.fuses := rfl
@[simp] theorem setCx_burned (s : State) (n : Nat) (x : CxPort) : (s.setCx n x).burned = s.burned := rfl
@[simp] theorem setCx_burn (s : State) (n : Nat) (x : CxPort) : (s.setCx n x).burn = s.burn := rfl
@[simp] theorem setCx_pins (s : State) (n : Nat) (x : CxPort) : (s.setCx n x).pins = s.pins := rfl
@[simp] theorem setCx_freeCtr (s : State) (n : Nat) (x : CxPort) : (s.setCx n x).freeCtr = s.freeCtr := rfl

/-! `setAdc` changes `adcs`. -/
@[simp] theorem setAdc_pending (s : State) (n : Nat) (x : Adc) : (s.setAdc n x).pending = s.pending := rfl
@[simp] theorem setAdc_cyc (s : State) (n : Nat) (x : Adc) : (s.setAdc n x).cyc = s.cyc := rfl
@[simp] theorem setAdc_uptime (s : State) (n : Nat) (x : Adc) : (s.setAdc n x).uptime = s.uptime := rfl
@[simp] theorem setAdc_regs (s : State) (n : Nat) (x : Adc) : (s.setAdc n x).regs = s.regs := rfl
@[simp] theorem setAdc_shadows (s : State) (n : Nat) (x : Adc) : (s.setAdc n x).shadows = s.shadows := rfl
@[simp] theorem setAdc_reads (s : State) (n : Nat) (x : Adc) : (s.setAdc n x).reads = s.reads := rfl
@[simp] theorem setAdc_mem (s : State) (n : Nat) (x : Adc) : (s.setAdc n x).mem = s.mem := rfl
@[simp] theorem setAdc_parBad (s : State) (n : Nat) (x : Adc) : (s.setAdc n x).parBad = s.parBad := rfl
@[simp] theorem setAdc_img (s : State) (n : Nat) (x : Adc) : (s.setAdc n x).img = s.img := rfl
@[simp] theorem setAdc_limits (s : State) (n : Nat) (x : Adc) : (s.setAdc n x).limits = s.limits := rfl
@[simp] theorem setAdc_limPend (s : State) (n : Nat) (x : Adc) : (s.setAdc n x).limPend = s.limPend := rfl
@[simp] theorem setAdc_evalSeq (s : State) (n : Nat) (x : Adc) : (s.setAdc n x).evalSeq = s.evalSeq := rfl
@[simp] theorem setAdc_tapFlight (s : State) (n : Nat) (x : Adc) : (s.setAdc n x).tapFlight = s.tapFlight := rfl
@[simp] theorem setAdc_heldOff (s : State) (n : Nat) (x : Adc) : (s.setAdc n x).heldOff = s.heldOff := rfl
@[simp] theorem setAdc_descMoves (s : State) (n : Nat) (x : Adc) : (s.setAdc n x).descMoves = s.descMoves := rfl
@[simp] theorem setAdc_delayFlight (s : State) (n : Nat) (x : Adc) : (s.setAdc n x).delayFlight = s.delayFlight := rfl
@[simp] theorem setAdc_bps (s : State) (n : Nat) (x : Adc) : (s.setAdc n x).bps = s.bps := rfl
@[simp] theorem setAdc_rsmp (s : State) (n : Nat) (x : Adc) : (s.setAdc n x).rsmp = s.rsmp := rfl
@[simp] theorem setAdc_chains (s : State) (n : Nat) (x : Adc) : (s.setAdc n x).chains = s.chains := rfl
@[simp] theorem setAdc_cx (s : State) (n : Nat) (x : Adc) : (s.setAdc n x).cx = s.cx := rfl
@[simp] theorem setAdc_mcs (s : State) (n : Nat) (x : Adc) : (s.setAdc n x).mcs = s.mcs := rfl
@[simp] theorem setAdc_meas (s : State) (n : Nat) (x : Adc) : (s.setAdc n x).meas = s.meas := rfl
@[simp] theorem setAdc_loops (s : State) (n : Nat) (x : Adc) : (s.setAdc n x).loops = s.loops := rfl
@[simp] theorem setAdc_engines (s : State) (n : Nat) (x : Adc) : (s.setAdc n x).engines = s.engines := rfl
@[simp] theorem setAdc_lighters (s : State) (n : Nat) (x : Adc) : (s.setAdc n x).lighters = s.lighters := rfl
@[simp] theorem setAdc_taps (s : State) (n : Nat) (x : Adc) : (s.setAdc n x).taps = s.taps := rfl
@[simp] theorem setAdc_writeBacks (s : State) (n : Nat) (x : Adc) : (s.setAdc n x).writeBacks = s.writeBacks := rfl
@[simp] theorem setAdc_ports (s : State) (n : Nat) (x : Adc) : (s.setAdc n x).ports = s.ports := rfl
@[simp] theorem setAdc_time (s : State) (n : Nat) (x : Adc) : (s.setAdc n x).time = s.time := rfl
@[simp] theorem setAdc_thermal (s : State) (n : Nat) (x : Adc) : (s.setAdc n x).thermal = s.thermal := rfl
@[simp] theorem setAdc_fc (s : State) (n : Nat) (x : Adc) : (s.setAdc n x).fc = s.fc := rfl
@[simp] theorem setAdc_mgmt (s : State) (n : Nat) (x : Adc) : (s.setAdc n x).mgmt = s.mgmt := rfl
@[simp] theorem setAdc_flash0 (s : State) (n : Nat) (x : Adc) : (s.setAdc n x).flash0 = s.flash0 := rfl
@[simp] theorem setAdc_flash1 (s : State) (n : Nat) (x : Adc) : (s.setAdc n x).flash1 = s.flash1 := rfl
@[simp] theorem setAdc_rpl (s : State) (n : Nat) (x : Adc) : (s.setAdc n x).rpl = s.rpl := rfl
@[simp] theorem setAdc_cp0 (s : State) (n : Nat) (x : Adc) : (s.setAdc n x).cp0 = s.cp0 := rfl
@[simp] theorem setAdc_cp1 (s : State) (n : Nat) (x : Adc) : (s.setAdc n x).cp1 = s.cp1 := rfl
@[simp] theorem setAdc_boot (s : State) (n : Nat) (x : Adc) : (s.setAdc n x).boot = s.boot := rfl
@[simp] theorem setAdc_fuses (s : State) (n : Nat) (x : Adc) : (s.setAdc n x).fuses = s.fuses := rfl
@[simp] theorem setAdc_burned (s : State) (n : Nat) (x : Adc) : (s.setAdc n x).burned = s.burned := rfl
@[simp] theorem setAdc_burn (s : State) (n : Nat) (x : Adc) : (s.setAdc n x).burn = s.burn := rfl
@[simp] theorem setAdc_pins (s : State) (n : Nat) (x : Adc) : (s.setAdc n x).pins = s.pins := rfl
@[simp] theorem setAdc_freeCtr (s : State) (n : Nat) (x : Adc) : (s.setAdc n x).freeCtr = s.freeCtr := rfl

/-! `setMc` changes `mcs`. -/
@[simp] theorem setMc_pending (s : State) (n : Nat) (x : Mc) : (s.setMc n x).pending = s.pending := rfl
@[simp] theorem setMc_cyc (s : State) (n : Nat) (x : Mc) : (s.setMc n x).cyc = s.cyc := rfl
@[simp] theorem setMc_uptime (s : State) (n : Nat) (x : Mc) : (s.setMc n x).uptime = s.uptime := rfl
@[simp] theorem setMc_regs (s : State) (n : Nat) (x : Mc) : (s.setMc n x).regs = s.regs := rfl
@[simp] theorem setMc_shadows (s : State) (n : Nat) (x : Mc) : (s.setMc n x).shadows = s.shadows := rfl
@[simp] theorem setMc_reads (s : State) (n : Nat) (x : Mc) : (s.setMc n x).reads = s.reads := rfl
@[simp] theorem setMc_mem (s : State) (n : Nat) (x : Mc) : (s.setMc n x).mem = s.mem := rfl
@[simp] theorem setMc_parBad (s : State) (n : Nat) (x : Mc) : (s.setMc n x).parBad = s.parBad := rfl
@[simp] theorem setMc_img (s : State) (n : Nat) (x : Mc) : (s.setMc n x).img = s.img := rfl
@[simp] theorem setMc_limits (s : State) (n : Nat) (x : Mc) : (s.setMc n x).limits = s.limits := rfl
@[simp] theorem setMc_limPend (s : State) (n : Nat) (x : Mc) : (s.setMc n x).limPend = s.limPend := rfl
@[simp] theorem setMc_evalSeq (s : State) (n : Nat) (x : Mc) : (s.setMc n x).evalSeq = s.evalSeq := rfl
@[simp] theorem setMc_tapFlight (s : State) (n : Nat) (x : Mc) : (s.setMc n x).tapFlight = s.tapFlight := rfl
@[simp] theorem setMc_heldOff (s : State) (n : Nat) (x : Mc) : (s.setMc n x).heldOff = s.heldOff := rfl
@[simp] theorem setMc_descMoves (s : State) (n : Nat) (x : Mc) : (s.setMc n x).descMoves = s.descMoves := rfl
@[simp] theorem setMc_delayFlight (s : State) (n : Nat) (x : Mc) : (s.setMc n x).delayFlight = s.delayFlight := rfl
@[simp] theorem setMc_bps (s : State) (n : Nat) (x : Mc) : (s.setMc n x).bps = s.bps := rfl
@[simp] theorem setMc_rsmp (s : State) (n : Nat) (x : Mc) : (s.setMc n x).rsmp = s.rsmp := rfl
@[simp] theorem setMc_chains (s : State) (n : Nat) (x : Mc) : (s.setMc n x).chains = s.chains := rfl
@[simp] theorem setMc_cx (s : State) (n : Nat) (x : Mc) : (s.setMc n x).cx = s.cx := rfl
@[simp] theorem setMc_adcs (s : State) (n : Nat) (x : Mc) : (s.setMc n x).adcs = s.adcs := rfl
@[simp] theorem setMc_meas (s : State) (n : Nat) (x : Mc) : (s.setMc n x).meas = s.meas := rfl
@[simp] theorem setMc_loops (s : State) (n : Nat) (x : Mc) : (s.setMc n x).loops = s.loops := rfl
@[simp] theorem setMc_engines (s : State) (n : Nat) (x : Mc) : (s.setMc n x).engines = s.engines := rfl
@[simp] theorem setMc_lighters (s : State) (n : Nat) (x : Mc) : (s.setMc n x).lighters = s.lighters := rfl
@[simp] theorem setMc_taps (s : State) (n : Nat) (x : Mc) : (s.setMc n x).taps = s.taps := rfl
@[simp] theorem setMc_writeBacks (s : State) (n : Nat) (x : Mc) : (s.setMc n x).writeBacks = s.writeBacks := rfl
@[simp] theorem setMc_ports (s : State) (n : Nat) (x : Mc) : (s.setMc n x).ports = s.ports := rfl
@[simp] theorem setMc_time (s : State) (n : Nat) (x : Mc) : (s.setMc n x).time = s.time := rfl
@[simp] theorem setMc_thermal (s : State) (n : Nat) (x : Mc) : (s.setMc n x).thermal = s.thermal := rfl
@[simp] theorem setMc_fc (s : State) (n : Nat) (x : Mc) : (s.setMc n x).fc = s.fc := rfl
@[simp] theorem setMc_mgmt (s : State) (n : Nat) (x : Mc) : (s.setMc n x).mgmt = s.mgmt := rfl
@[simp] theorem setMc_flash0 (s : State) (n : Nat) (x : Mc) : (s.setMc n x).flash0 = s.flash0 := rfl
@[simp] theorem setMc_flash1 (s : State) (n : Nat) (x : Mc) : (s.setMc n x).flash1 = s.flash1 := rfl
@[simp] theorem setMc_rpl (s : State) (n : Nat) (x : Mc) : (s.setMc n x).rpl = s.rpl := rfl
@[simp] theorem setMc_cp0 (s : State) (n : Nat) (x : Mc) : (s.setMc n x).cp0 = s.cp0 := rfl
@[simp] theorem setMc_cp1 (s : State) (n : Nat) (x : Mc) : (s.setMc n x).cp1 = s.cp1 := rfl
@[simp] theorem setMc_boot (s : State) (n : Nat) (x : Mc) : (s.setMc n x).boot = s.boot := rfl
@[simp] theorem setMc_fuses (s : State) (n : Nat) (x : Mc) : (s.setMc n x).fuses = s.fuses := rfl
@[simp] theorem setMc_burned (s : State) (n : Nat) (x : Mc) : (s.setMc n x).burned = s.burned := rfl
@[simp] theorem setMc_burn (s : State) (n : Nat) (x : Mc) : (s.setMc n x).burn = s.burn := rfl
@[simp] theorem setMc_pins (s : State) (n : Nat) (x : Mc) : (s.setMc n x).pins = s.pins := rfl
@[simp] theorem setMc_freeCtr (s : State) (n : Nat) (x : Mc) : (s.setMc n x).freeCtr = s.freeCtr := rfl

/-! `setLoop` changes `loops`. -/
@[simp] theorem setLoop_pending (s : State) (n : Nat) (x : LoopSt) : (s.setLoop n x).pending = s.pending := rfl
@[simp] theorem setLoop_cyc (s : State) (n : Nat) (x : LoopSt) : (s.setLoop n x).cyc = s.cyc := rfl
@[simp] theorem setLoop_uptime (s : State) (n : Nat) (x : LoopSt) : (s.setLoop n x).uptime = s.uptime := rfl
@[simp] theorem setLoop_regs (s : State) (n : Nat) (x : LoopSt) : (s.setLoop n x).regs = s.regs := rfl
@[simp] theorem setLoop_shadows (s : State) (n : Nat) (x : LoopSt) : (s.setLoop n x).shadows = s.shadows := rfl
@[simp] theorem setLoop_reads (s : State) (n : Nat) (x : LoopSt) : (s.setLoop n x).reads = s.reads := rfl
@[simp] theorem setLoop_mem (s : State) (n : Nat) (x : LoopSt) : (s.setLoop n x).mem = s.mem := rfl
@[simp] theorem setLoop_parBad (s : State) (n : Nat) (x : LoopSt) : (s.setLoop n x).parBad = s.parBad := rfl
@[simp] theorem setLoop_img (s : State) (n : Nat) (x : LoopSt) : (s.setLoop n x).img = s.img := rfl
@[simp] theorem setLoop_limits (s : State) (n : Nat) (x : LoopSt) : (s.setLoop n x).limits = s.limits := rfl
@[simp] theorem setLoop_limPend (s : State) (n : Nat) (x : LoopSt) : (s.setLoop n x).limPend = s.limPend := rfl
@[simp] theorem setLoop_evalSeq (s : State) (n : Nat) (x : LoopSt) : (s.setLoop n x).evalSeq = s.evalSeq := rfl
@[simp] theorem setLoop_tapFlight (s : State) (n : Nat) (x : LoopSt) : (s.setLoop n x).tapFlight = s.tapFlight := rfl
@[simp] theorem setLoop_heldOff (s : State) (n : Nat) (x : LoopSt) : (s.setLoop n x).heldOff = s.heldOff := rfl
@[simp] theorem setLoop_descMoves (s : State) (n : Nat) (x : LoopSt) : (s.setLoop n x).descMoves = s.descMoves := rfl
@[simp] theorem setLoop_delayFlight (s : State) (n : Nat) (x : LoopSt) : (s.setLoop n x).delayFlight = s.delayFlight := rfl
@[simp] theorem setLoop_bps (s : State) (n : Nat) (x : LoopSt) : (s.setLoop n x).bps = s.bps := rfl
@[simp] theorem setLoop_rsmp (s : State) (n : Nat) (x : LoopSt) : (s.setLoop n x).rsmp = s.rsmp := rfl
@[simp] theorem setLoop_chains (s : State) (n : Nat) (x : LoopSt) : (s.setLoop n x).chains = s.chains := rfl
@[simp] theorem setLoop_cx (s : State) (n : Nat) (x : LoopSt) : (s.setLoop n x).cx = s.cx := rfl
@[simp] theorem setLoop_adcs (s : State) (n : Nat) (x : LoopSt) : (s.setLoop n x).adcs = s.adcs := rfl
@[simp] theorem setLoop_mcs (s : State) (n : Nat) (x : LoopSt) : (s.setLoop n x).mcs = s.mcs := rfl
@[simp] theorem setLoop_meas (s : State) (n : Nat) (x : LoopSt) : (s.setLoop n x).meas = s.meas := rfl
@[simp] theorem setLoop_engines (s : State) (n : Nat) (x : LoopSt) : (s.setLoop n x).engines = s.engines := rfl
@[simp] theorem setLoop_lighters (s : State) (n : Nat) (x : LoopSt) : (s.setLoop n x).lighters = s.lighters := rfl
@[simp] theorem setLoop_taps (s : State) (n : Nat) (x : LoopSt) : (s.setLoop n x).taps = s.taps := rfl
@[simp] theorem setLoop_writeBacks (s : State) (n : Nat) (x : LoopSt) : (s.setLoop n x).writeBacks = s.writeBacks := rfl
@[simp] theorem setLoop_ports (s : State) (n : Nat) (x : LoopSt) : (s.setLoop n x).ports = s.ports := rfl
@[simp] theorem setLoop_time (s : State) (n : Nat) (x : LoopSt) : (s.setLoop n x).time = s.time := rfl
@[simp] theorem setLoop_thermal (s : State) (n : Nat) (x : LoopSt) : (s.setLoop n x).thermal = s.thermal := rfl
@[simp] theorem setLoop_fc (s : State) (n : Nat) (x : LoopSt) : (s.setLoop n x).fc = s.fc := rfl
@[simp] theorem setLoop_mgmt (s : State) (n : Nat) (x : LoopSt) : (s.setLoop n x).mgmt = s.mgmt := rfl
@[simp] theorem setLoop_flash0 (s : State) (n : Nat) (x : LoopSt) : (s.setLoop n x).flash0 = s.flash0 := rfl
@[simp] theorem setLoop_flash1 (s : State) (n : Nat) (x : LoopSt) : (s.setLoop n x).flash1 = s.flash1 := rfl
@[simp] theorem setLoop_rpl (s : State) (n : Nat) (x : LoopSt) : (s.setLoop n x).rpl = s.rpl := rfl
@[simp] theorem setLoop_cp0 (s : State) (n : Nat) (x : LoopSt) : (s.setLoop n x).cp0 = s.cp0 := rfl
@[simp] theorem setLoop_cp1 (s : State) (n : Nat) (x : LoopSt) : (s.setLoop n x).cp1 = s.cp1 := rfl
@[simp] theorem setLoop_boot (s : State) (n : Nat) (x : LoopSt) : (s.setLoop n x).boot = s.boot := rfl
@[simp] theorem setLoop_fuses (s : State) (n : Nat) (x : LoopSt) : (s.setLoop n x).fuses = s.fuses := rfl
@[simp] theorem setLoop_burned (s : State) (n : Nat) (x : LoopSt) : (s.setLoop n x).burned = s.burned := rfl
@[simp] theorem setLoop_burn (s : State) (n : Nat) (x : LoopSt) : (s.setLoop n x).burn = s.burn := rfl
@[simp] theorem setLoop_pins (s : State) (n : Nat) (x : LoopSt) : (s.setLoop n x).pins = s.pins := rfl
@[simp] theorem setLoop_freeCtr (s : State) (n : Nat) (x : LoopSt) : (s.setLoop n x).freeCtr = s.freeCtr := rfl

/-! `setEngine` changes `engines`. -/
@[simp] theorem setEngine_pending (s : State) (n : Nat) (x : Engine) : (s.setEngine n x).pending = s.pending := rfl
@[simp] theorem setEngine_cyc (s : State) (n : Nat) (x : Engine) : (s.setEngine n x).cyc = s.cyc := rfl
@[simp] theorem setEngine_uptime (s : State) (n : Nat) (x : Engine) : (s.setEngine n x).uptime = s.uptime := rfl
@[simp] theorem setEngine_regs (s : State) (n : Nat) (x : Engine) : (s.setEngine n x).regs = s.regs := rfl
@[simp] theorem setEngine_shadows (s : State) (n : Nat) (x : Engine) : (s.setEngine n x).shadows = s.shadows := rfl
@[simp] theorem setEngine_reads (s : State) (n : Nat) (x : Engine) : (s.setEngine n x).reads = s.reads := rfl
@[simp] theorem setEngine_mem (s : State) (n : Nat) (x : Engine) : (s.setEngine n x).mem = s.mem := rfl
@[simp] theorem setEngine_parBad (s : State) (n : Nat) (x : Engine) : (s.setEngine n x).parBad = s.parBad := rfl
@[simp] theorem setEngine_img (s : State) (n : Nat) (x : Engine) : (s.setEngine n x).img = s.img := rfl
@[simp] theorem setEngine_limits (s : State) (n : Nat) (x : Engine) : (s.setEngine n x).limits = s.limits := rfl
@[simp] theorem setEngine_limPend (s : State) (n : Nat) (x : Engine) : (s.setEngine n x).limPend = s.limPend := rfl
@[simp] theorem setEngine_evalSeq (s : State) (n : Nat) (x : Engine) : (s.setEngine n x).evalSeq = s.evalSeq := rfl
@[simp] theorem setEngine_tapFlight (s : State) (n : Nat) (x : Engine) : (s.setEngine n x).tapFlight = s.tapFlight := rfl
@[simp] theorem setEngine_heldOff (s : State) (n : Nat) (x : Engine) : (s.setEngine n x).heldOff = s.heldOff := rfl
@[simp] theorem setEngine_descMoves (s : State) (n : Nat) (x : Engine) : (s.setEngine n x).descMoves = s.descMoves := rfl
@[simp] theorem setEngine_delayFlight (s : State) (n : Nat) (x : Engine) : (s.setEngine n x).delayFlight = s.delayFlight := rfl
@[simp] theorem setEngine_bps (s : State) (n : Nat) (x : Engine) : (s.setEngine n x).bps = s.bps := rfl
@[simp] theorem setEngine_rsmp (s : State) (n : Nat) (x : Engine) : (s.setEngine n x).rsmp = s.rsmp := rfl
@[simp] theorem setEngine_chains (s : State) (n : Nat) (x : Engine) : (s.setEngine n x).chains = s.chains := rfl
@[simp] theorem setEngine_cx (s : State) (n : Nat) (x : Engine) : (s.setEngine n x).cx = s.cx := rfl
@[simp] theorem setEngine_adcs (s : State) (n : Nat) (x : Engine) : (s.setEngine n x).adcs = s.adcs := rfl
@[simp] theorem setEngine_mcs (s : State) (n : Nat) (x : Engine) : (s.setEngine n x).mcs = s.mcs := rfl
@[simp] theorem setEngine_meas (s : State) (n : Nat) (x : Engine) : (s.setEngine n x).meas = s.meas := rfl
@[simp] theorem setEngine_loops (s : State) (n : Nat) (x : Engine) : (s.setEngine n x).loops = s.loops := rfl
@[simp] theorem setEngine_lighters (s : State) (n : Nat) (x : Engine) : (s.setEngine n x).lighters = s.lighters := rfl
@[simp] theorem setEngine_taps (s : State) (n : Nat) (x : Engine) : (s.setEngine n x).taps = s.taps := rfl
@[simp] theorem setEngine_writeBacks (s : State) (n : Nat) (x : Engine) : (s.setEngine n x).writeBacks = s.writeBacks := rfl
@[simp] theorem setEngine_ports (s : State) (n : Nat) (x : Engine) : (s.setEngine n x).ports = s.ports := rfl
@[simp] theorem setEngine_time (s : State) (n : Nat) (x : Engine) : (s.setEngine n x).time = s.time := rfl
@[simp] theorem setEngine_thermal (s : State) (n : Nat) (x : Engine) : (s.setEngine n x).thermal = s.thermal := rfl
@[simp] theorem setEngine_fc (s : State) (n : Nat) (x : Engine) : (s.setEngine n x).fc = s.fc := rfl
@[simp] theorem setEngine_mgmt (s : State) (n : Nat) (x : Engine) : (s.setEngine n x).mgmt = s.mgmt := rfl
@[simp] theorem setEngine_flash0 (s : State) (n : Nat) (x : Engine) : (s.setEngine n x).flash0 = s.flash0 := rfl
@[simp] theorem setEngine_flash1 (s : State) (n : Nat) (x : Engine) : (s.setEngine n x).flash1 = s.flash1 := rfl
@[simp] theorem setEngine_rpl (s : State) (n : Nat) (x : Engine) : (s.setEngine n x).rpl = s.rpl := rfl
@[simp] theorem setEngine_cp0 (s : State) (n : Nat) (x : Engine) : (s.setEngine n x).cp0 = s.cp0 := rfl
@[simp] theorem setEngine_cp1 (s : State) (n : Nat) (x : Engine) : (s.setEngine n x).cp1 = s.cp1 := rfl
@[simp] theorem setEngine_boot (s : State) (n : Nat) (x : Engine) : (s.setEngine n x).boot = s.boot := rfl
@[simp] theorem setEngine_fuses (s : State) (n : Nat) (x : Engine) : (s.setEngine n x).fuses = s.fuses := rfl
@[simp] theorem setEngine_burned (s : State) (n : Nat) (x : Engine) : (s.setEngine n x).burned = s.burned := rfl
@[simp] theorem setEngine_burn (s : State) (n : Nat) (x : Engine) : (s.setEngine n x).burn = s.burn := rfl
@[simp] theorem setEngine_pins (s : State) (n : Nat) (x : Engine) : (s.setEngine n x).pins = s.pins := rfl
@[simp] theorem setEngine_freeCtr (s : State) (n : Nat) (x : Engine) : (s.setEngine n x).freeCtr = s.freeCtr := rfl

/-! `setLighter` changes `lighters`. -/
@[simp] theorem setLighter_pending (s : State) (n : Nat) (x : Lighter) : (s.setLighter n x).pending = s.pending := rfl
@[simp] theorem setLighter_cyc (s : State) (n : Nat) (x : Lighter) : (s.setLighter n x).cyc = s.cyc := rfl
@[simp] theorem setLighter_uptime (s : State) (n : Nat) (x : Lighter) : (s.setLighter n x).uptime = s.uptime := rfl
@[simp] theorem setLighter_regs (s : State) (n : Nat) (x : Lighter) : (s.setLighter n x).regs = s.regs := rfl
@[simp] theorem setLighter_shadows (s : State) (n : Nat) (x : Lighter) : (s.setLighter n x).shadows = s.shadows := rfl
@[simp] theorem setLighter_reads (s : State) (n : Nat) (x : Lighter) : (s.setLighter n x).reads = s.reads := rfl
@[simp] theorem setLighter_mem (s : State) (n : Nat) (x : Lighter) : (s.setLighter n x).mem = s.mem := rfl
@[simp] theorem setLighter_parBad (s : State) (n : Nat) (x : Lighter) : (s.setLighter n x).parBad = s.parBad := rfl
@[simp] theorem setLighter_img (s : State) (n : Nat) (x : Lighter) : (s.setLighter n x).img = s.img := rfl
@[simp] theorem setLighter_limits (s : State) (n : Nat) (x : Lighter) : (s.setLighter n x).limits = s.limits := rfl
@[simp] theorem setLighter_limPend (s : State) (n : Nat) (x : Lighter) : (s.setLighter n x).limPend = s.limPend := rfl
@[simp] theorem setLighter_evalSeq (s : State) (n : Nat) (x : Lighter) : (s.setLighter n x).evalSeq = s.evalSeq := rfl
@[simp] theorem setLighter_tapFlight (s : State) (n : Nat) (x : Lighter) : (s.setLighter n x).tapFlight = s.tapFlight := rfl
@[simp] theorem setLighter_heldOff (s : State) (n : Nat) (x : Lighter) : (s.setLighter n x).heldOff = s.heldOff := rfl
@[simp] theorem setLighter_descMoves (s : State) (n : Nat) (x : Lighter) : (s.setLighter n x).descMoves = s.descMoves := rfl
@[simp] theorem setLighter_delayFlight (s : State) (n : Nat) (x : Lighter) : (s.setLighter n x).delayFlight = s.delayFlight := rfl
@[simp] theorem setLighter_bps (s : State) (n : Nat) (x : Lighter) : (s.setLighter n x).bps = s.bps := rfl
@[simp] theorem setLighter_rsmp (s : State) (n : Nat) (x : Lighter) : (s.setLighter n x).rsmp = s.rsmp := rfl
@[simp] theorem setLighter_chains (s : State) (n : Nat) (x : Lighter) : (s.setLighter n x).chains = s.chains := rfl
@[simp] theorem setLighter_cx (s : State) (n : Nat) (x : Lighter) : (s.setLighter n x).cx = s.cx := rfl
@[simp] theorem setLighter_adcs (s : State) (n : Nat) (x : Lighter) : (s.setLighter n x).adcs = s.adcs := rfl
@[simp] theorem setLighter_mcs (s : State) (n : Nat) (x : Lighter) : (s.setLighter n x).mcs = s.mcs := rfl
@[simp] theorem setLighter_meas (s : State) (n : Nat) (x : Lighter) : (s.setLighter n x).meas = s.meas := rfl
@[simp] theorem setLighter_loops (s : State) (n : Nat) (x : Lighter) : (s.setLighter n x).loops = s.loops := rfl
@[simp] theorem setLighter_engines (s : State) (n : Nat) (x : Lighter) : (s.setLighter n x).engines = s.engines := rfl
@[simp] theorem setLighter_taps (s : State) (n : Nat) (x : Lighter) : (s.setLighter n x).taps = s.taps := rfl
@[simp] theorem setLighter_writeBacks (s : State) (n : Nat) (x : Lighter) : (s.setLighter n x).writeBacks = s.writeBacks := rfl
@[simp] theorem setLighter_ports (s : State) (n : Nat) (x : Lighter) : (s.setLighter n x).ports = s.ports := rfl
@[simp] theorem setLighter_time (s : State) (n : Nat) (x : Lighter) : (s.setLighter n x).time = s.time := rfl
@[simp] theorem setLighter_thermal (s : State) (n : Nat) (x : Lighter) : (s.setLighter n x).thermal = s.thermal := rfl
@[simp] theorem setLighter_fc (s : State) (n : Nat) (x : Lighter) : (s.setLighter n x).fc = s.fc := rfl
@[simp] theorem setLighter_mgmt (s : State) (n : Nat) (x : Lighter) : (s.setLighter n x).mgmt = s.mgmt := rfl
@[simp] theorem setLighter_flash0 (s : State) (n : Nat) (x : Lighter) : (s.setLighter n x).flash0 = s.flash0 := rfl
@[simp] theorem setLighter_flash1 (s : State) (n : Nat) (x : Lighter) : (s.setLighter n x).flash1 = s.flash1 := rfl
@[simp] theorem setLighter_rpl (s : State) (n : Nat) (x : Lighter) : (s.setLighter n x).rpl = s.rpl := rfl
@[simp] theorem setLighter_cp0 (s : State) (n : Nat) (x : Lighter) : (s.setLighter n x).cp0 = s.cp0 := rfl
@[simp] theorem setLighter_cp1 (s : State) (n : Nat) (x : Lighter) : (s.setLighter n x).cp1 = s.cp1 := rfl
@[simp] theorem setLighter_boot (s : State) (n : Nat) (x : Lighter) : (s.setLighter n x).boot = s.boot := rfl
@[simp] theorem setLighter_fuses (s : State) (n : Nat) (x : Lighter) : (s.setLighter n x).fuses = s.fuses := rfl
@[simp] theorem setLighter_burned (s : State) (n : Nat) (x : Lighter) : (s.setLighter n x).burned = s.burned := rfl
@[simp] theorem setLighter_burn (s : State) (n : Nat) (x : Lighter) : (s.setLighter n x).burn = s.burn := rfl
@[simp] theorem setLighter_pins (s : State) (n : Nat) (x : Lighter) : (s.setLighter n x).pins = s.pins := rfl
@[simp] theorem setLighter_freeCtr (s : State) (n : Nat) (x : Lighter) : (s.setLighter n x).freeCtr = s.freeCtr := rfl

/-! `setTap` changes `taps`. -/
@[simp] theorem setTap_pending (s : State) (n : Nat) (x : Taps) : (s.setTap n x).pending = s.pending := rfl
@[simp] theorem setTap_cyc (s : State) (n : Nat) (x : Taps) : (s.setTap n x).cyc = s.cyc := rfl
@[simp] theorem setTap_uptime (s : State) (n : Nat) (x : Taps) : (s.setTap n x).uptime = s.uptime := rfl
@[simp] theorem setTap_regs (s : State) (n : Nat) (x : Taps) : (s.setTap n x).regs = s.regs := rfl
@[simp] theorem setTap_shadows (s : State) (n : Nat) (x : Taps) : (s.setTap n x).shadows = s.shadows := rfl
@[simp] theorem setTap_reads (s : State) (n : Nat) (x : Taps) : (s.setTap n x).reads = s.reads := rfl
@[simp] theorem setTap_mem (s : State) (n : Nat) (x : Taps) : (s.setTap n x).mem = s.mem := rfl
@[simp] theorem setTap_parBad (s : State) (n : Nat) (x : Taps) : (s.setTap n x).parBad = s.parBad := rfl
@[simp] theorem setTap_img (s : State) (n : Nat) (x : Taps) : (s.setTap n x).img = s.img := rfl
@[simp] theorem setTap_limits (s : State) (n : Nat) (x : Taps) : (s.setTap n x).limits = s.limits := rfl
@[simp] theorem setTap_limPend (s : State) (n : Nat) (x : Taps) : (s.setTap n x).limPend = s.limPend := rfl
@[simp] theorem setTap_evalSeq (s : State) (n : Nat) (x : Taps) : (s.setTap n x).evalSeq = s.evalSeq := rfl
@[simp] theorem setTap_tapFlight (s : State) (n : Nat) (x : Taps) : (s.setTap n x).tapFlight = s.tapFlight := rfl
@[simp] theorem setTap_heldOff (s : State) (n : Nat) (x : Taps) : (s.setTap n x).heldOff = s.heldOff := rfl
@[simp] theorem setTap_descMoves (s : State) (n : Nat) (x : Taps) : (s.setTap n x).descMoves = s.descMoves := rfl
@[simp] theorem setTap_delayFlight (s : State) (n : Nat) (x : Taps) : (s.setTap n x).delayFlight = s.delayFlight := rfl
@[simp] theorem setTap_bps (s : State) (n : Nat) (x : Taps) : (s.setTap n x).bps = s.bps := rfl
@[simp] theorem setTap_rsmp (s : State) (n : Nat) (x : Taps) : (s.setTap n x).rsmp = s.rsmp := rfl
@[simp] theorem setTap_chains (s : State) (n : Nat) (x : Taps) : (s.setTap n x).chains = s.chains := rfl
@[simp] theorem setTap_cx (s : State) (n : Nat) (x : Taps) : (s.setTap n x).cx = s.cx := rfl
@[simp] theorem setTap_adcs (s : State) (n : Nat) (x : Taps) : (s.setTap n x).adcs = s.adcs := rfl
@[simp] theorem setTap_mcs (s : State) (n : Nat) (x : Taps) : (s.setTap n x).mcs = s.mcs := rfl
@[simp] theorem setTap_meas (s : State) (n : Nat) (x : Taps) : (s.setTap n x).meas = s.meas := rfl
@[simp] theorem setTap_loops (s : State) (n : Nat) (x : Taps) : (s.setTap n x).loops = s.loops := rfl
@[simp] theorem setTap_engines (s : State) (n : Nat) (x : Taps) : (s.setTap n x).engines = s.engines := rfl
@[simp] theorem setTap_lighters (s : State) (n : Nat) (x : Taps) : (s.setTap n x).lighters = s.lighters := rfl
@[simp] theorem setTap_writeBacks (s : State) (n : Nat) (x : Taps) : (s.setTap n x).writeBacks = s.writeBacks := rfl
@[simp] theorem setTap_ports (s : State) (n : Nat) (x : Taps) : (s.setTap n x).ports = s.ports := rfl
@[simp] theorem setTap_time (s : State) (n : Nat) (x : Taps) : (s.setTap n x).time = s.time := rfl
@[simp] theorem setTap_thermal (s : State) (n : Nat) (x : Taps) : (s.setTap n x).thermal = s.thermal := rfl
@[simp] theorem setTap_fc (s : State) (n : Nat) (x : Taps) : (s.setTap n x).fc = s.fc := rfl
@[simp] theorem setTap_mgmt (s : State) (n : Nat) (x : Taps) : (s.setTap n x).mgmt = s.mgmt := rfl
@[simp] theorem setTap_flash0 (s : State) (n : Nat) (x : Taps) : (s.setTap n x).flash0 = s.flash0 := rfl
@[simp] theorem setTap_flash1 (s : State) (n : Nat) (x : Taps) : (s.setTap n x).flash1 = s.flash1 := rfl
@[simp] theorem setTap_rpl (s : State) (n : Nat) (x : Taps) : (s.setTap n x).rpl = s.rpl := rfl
@[simp] theorem setTap_cp0 (s : State) (n : Nat) (x : Taps) : (s.setTap n x).cp0 = s.cp0 := rfl
@[simp] theorem setTap_cp1 (s : State) (n : Nat) (x : Taps) : (s.setTap n x).cp1 = s.cp1 := rfl
@[simp] theorem setTap_boot (s : State) (n : Nat) (x : Taps) : (s.setTap n x).boot = s.boot := rfl
@[simp] theorem setTap_fuses (s : State) (n : Nat) (x : Taps) : (s.setTap n x).fuses = s.fuses := rfl
@[simp] theorem setTap_burned (s : State) (n : Nat) (x : Taps) : (s.setTap n x).burned = s.burned := rfl
@[simp] theorem setTap_burn (s : State) (n : Nat) (x : Taps) : (s.setTap n x).burn = s.burn := rfl
@[simp] theorem setTap_pins (s : State) (n : Nat) (x : Taps) : (s.setTap n x).pins = s.pins := rfl
@[simp] theorem setTap_freeCtr (s : State) (n : Nat) (x : Taps) : (s.setTap n x).freeCtr = s.freeCtr := rfl

/-! `setPort` changes `ports`. -/
@[simp] theorem setPort_pending (s : State) (n : Nat) (x : Port) : (s.setPort n x).pending = s.pending := rfl
@[simp] theorem setPort_cyc (s : State) (n : Nat) (x : Port) : (s.setPort n x).cyc = s.cyc := rfl
@[simp] theorem setPort_uptime (s : State) (n : Nat) (x : Port) : (s.setPort n x).uptime = s.uptime := rfl
@[simp] theorem setPort_regs (s : State) (n : Nat) (x : Port) : (s.setPort n x).regs = s.regs := rfl
@[simp] theorem setPort_shadows (s : State) (n : Nat) (x : Port) : (s.setPort n x).shadows = s.shadows := rfl
@[simp] theorem setPort_reads (s : State) (n : Nat) (x : Port) : (s.setPort n x).reads = s.reads := rfl
@[simp] theorem setPort_mem (s : State) (n : Nat) (x : Port) : (s.setPort n x).mem = s.mem := rfl
@[simp] theorem setPort_parBad (s : State) (n : Nat) (x : Port) : (s.setPort n x).parBad = s.parBad := rfl
@[simp] theorem setPort_img (s : State) (n : Nat) (x : Port) : (s.setPort n x).img = s.img := rfl
@[simp] theorem setPort_limits (s : State) (n : Nat) (x : Port) : (s.setPort n x).limits = s.limits := rfl
@[simp] theorem setPort_limPend (s : State) (n : Nat) (x : Port) : (s.setPort n x).limPend = s.limPend := rfl
@[simp] theorem setPort_evalSeq (s : State) (n : Nat) (x : Port) : (s.setPort n x).evalSeq = s.evalSeq := rfl
@[simp] theorem setPort_tapFlight (s : State) (n : Nat) (x : Port) : (s.setPort n x).tapFlight = s.tapFlight := rfl
@[simp] theorem setPort_heldOff (s : State) (n : Nat) (x : Port) : (s.setPort n x).heldOff = s.heldOff := rfl
@[simp] theorem setPort_descMoves (s : State) (n : Nat) (x : Port) : (s.setPort n x).descMoves = s.descMoves := rfl
@[simp] theorem setPort_delayFlight (s : State) (n : Nat) (x : Port) : (s.setPort n x).delayFlight = s.delayFlight := rfl
@[simp] theorem setPort_bps (s : State) (n : Nat) (x : Port) : (s.setPort n x).bps = s.bps := rfl
@[simp] theorem setPort_rsmp (s : State) (n : Nat) (x : Port) : (s.setPort n x).rsmp = s.rsmp := rfl
@[simp] theorem setPort_chains (s : State) (n : Nat) (x : Port) : (s.setPort n x).chains = s.chains := rfl
@[simp] theorem setPort_cx (s : State) (n : Nat) (x : Port) : (s.setPort n x).cx = s.cx := rfl
@[simp] theorem setPort_adcs (s : State) (n : Nat) (x : Port) : (s.setPort n x).adcs = s.adcs := rfl
@[simp] theorem setPort_mcs (s : State) (n : Nat) (x : Port) : (s.setPort n x).mcs = s.mcs := rfl
@[simp] theorem setPort_meas (s : State) (n : Nat) (x : Port) : (s.setPort n x).meas = s.meas := rfl
@[simp] theorem setPort_loops (s : State) (n : Nat) (x : Port) : (s.setPort n x).loops = s.loops := rfl
@[simp] theorem setPort_engines (s : State) (n : Nat) (x : Port) : (s.setPort n x).engines = s.engines := rfl
@[simp] theorem setPort_lighters (s : State) (n : Nat) (x : Port) : (s.setPort n x).lighters = s.lighters := rfl
@[simp] theorem setPort_taps (s : State) (n : Nat) (x : Port) : (s.setPort n x).taps = s.taps := rfl
@[simp] theorem setPort_writeBacks (s : State) (n : Nat) (x : Port) : (s.setPort n x).writeBacks = s.writeBacks := rfl
@[simp] theorem setPort_time (s : State) (n : Nat) (x : Port) : (s.setPort n x).time = s.time := rfl
@[simp] theorem setPort_thermal (s : State) (n : Nat) (x : Port) : (s.setPort n x).thermal = s.thermal := rfl
@[simp] theorem setPort_fc (s : State) (n : Nat) (x : Port) : (s.setPort n x).fc = s.fc := rfl
@[simp] theorem setPort_mgmt (s : State) (n : Nat) (x : Port) : (s.setPort n x).mgmt = s.mgmt := rfl
@[simp] theorem setPort_flash0 (s : State) (n : Nat) (x : Port) : (s.setPort n x).flash0 = s.flash0 := rfl
@[simp] theorem setPort_flash1 (s : State) (n : Nat) (x : Port) : (s.setPort n x).flash1 = s.flash1 := rfl
@[simp] theorem setPort_rpl (s : State) (n : Nat) (x : Port) : (s.setPort n x).rpl = s.rpl := rfl
@[simp] theorem setPort_cp0 (s : State) (n : Nat) (x : Port) : (s.setPort n x).cp0 = s.cp0 := rfl
@[simp] theorem setPort_cp1 (s : State) (n : Nat) (x : Port) : (s.setPort n x).cp1 = s.cp1 := rfl
@[simp] theorem setPort_boot (s : State) (n : Nat) (x : Port) : (s.setPort n x).boot = s.boot := rfl
@[simp] theorem setPort_fuses (s : State) (n : Nat) (x : Port) : (s.setPort n x).fuses = s.fuses := rfl
@[simp] theorem setPort_burned (s : State) (n : Nat) (x : Port) : (s.setPort n x).burned = s.burned := rfl
@[simp] theorem setPort_burn (s : State) (n : Nat) (x : Port) : (s.setPort n x).burn = s.burn := rfl
@[simp] theorem setPort_pins (s : State) (n : Nat) (x : Port) : (s.setPort n x).pins = s.pins := rfl
@[simp] theorem setPort_freeCtr (s : State) (n : Nat) (x : Port) : (s.setPort n x).freeCtr = s.freeCtr := rfl

/-! `setResampler` changes `rsmp`. -/
@[simp] theorem setResampler_pending (s : State) (n : Nat) (x : RsmpSt) : (s.setResampler n x).pending = s.pending := rfl
@[simp] theorem setResampler_cyc (s : State) (n : Nat) (x : RsmpSt) : (s.setResampler n x).cyc = s.cyc := rfl
@[simp] theorem setResampler_uptime (s : State) (n : Nat) (x : RsmpSt) : (s.setResampler n x).uptime = s.uptime := rfl
@[simp] theorem setResampler_regs (s : State) (n : Nat) (x : RsmpSt) : (s.setResampler n x).regs = s.regs := rfl
@[simp] theorem setResampler_shadows (s : State) (n : Nat) (x : RsmpSt) : (s.setResampler n x).shadows = s.shadows := rfl
@[simp] theorem setResampler_reads (s : State) (n : Nat) (x : RsmpSt) : (s.setResampler n x).reads = s.reads := rfl
@[simp] theorem setResampler_mem (s : State) (n : Nat) (x : RsmpSt) : (s.setResampler n x).mem = s.mem := rfl
@[simp] theorem setResampler_parBad (s : State) (n : Nat) (x : RsmpSt) : (s.setResampler n x).parBad = s.parBad := rfl
@[simp] theorem setResampler_img (s : State) (n : Nat) (x : RsmpSt) : (s.setResampler n x).img = s.img := rfl
@[simp] theorem setResampler_limits (s : State) (n : Nat) (x : RsmpSt) : (s.setResampler n x).limits = s.limits := rfl
@[simp] theorem setResampler_limPend (s : State) (n : Nat) (x : RsmpSt) : (s.setResampler n x).limPend = s.limPend := rfl
@[simp] theorem setResampler_evalSeq (s : State) (n : Nat) (x : RsmpSt) : (s.setResampler n x).evalSeq = s.evalSeq := rfl
@[simp] theorem setResampler_tapFlight (s : State) (n : Nat) (x : RsmpSt) : (s.setResampler n x).tapFlight = s.tapFlight := rfl
@[simp] theorem setResampler_heldOff (s : State) (n : Nat) (x : RsmpSt) : (s.setResampler n x).heldOff = s.heldOff := rfl
@[simp] theorem setResampler_descMoves (s : State) (n : Nat) (x : RsmpSt) : (s.setResampler n x).descMoves = s.descMoves := rfl
@[simp] theorem setResampler_delayFlight (s : State) (n : Nat) (x : RsmpSt) : (s.setResampler n x).delayFlight = s.delayFlight := rfl
@[simp] theorem setResampler_bps (s : State) (n : Nat) (x : RsmpSt) : (s.setResampler n x).bps = s.bps := rfl
@[simp] theorem setResampler_chains (s : State) (n : Nat) (x : RsmpSt) : (s.setResampler n x).chains = s.chains := rfl
@[simp] theorem setResampler_cx (s : State) (n : Nat) (x : RsmpSt) : (s.setResampler n x).cx = s.cx := rfl
@[simp] theorem setResampler_adcs (s : State) (n : Nat) (x : RsmpSt) : (s.setResampler n x).adcs = s.adcs := rfl
@[simp] theorem setResampler_mcs (s : State) (n : Nat) (x : RsmpSt) : (s.setResampler n x).mcs = s.mcs := rfl
@[simp] theorem setResampler_meas (s : State) (n : Nat) (x : RsmpSt) : (s.setResampler n x).meas = s.meas := rfl
@[simp] theorem setResampler_loops (s : State) (n : Nat) (x : RsmpSt) : (s.setResampler n x).loops = s.loops := rfl
@[simp] theorem setResampler_engines (s : State) (n : Nat) (x : RsmpSt) : (s.setResampler n x).engines = s.engines := rfl
@[simp] theorem setResampler_lighters (s : State) (n : Nat) (x : RsmpSt) : (s.setResampler n x).lighters = s.lighters := rfl
@[simp] theorem setResampler_taps (s : State) (n : Nat) (x : RsmpSt) : (s.setResampler n x).taps = s.taps := rfl
@[simp] theorem setResampler_writeBacks (s : State) (n : Nat) (x : RsmpSt) : (s.setResampler n x).writeBacks = s.writeBacks := rfl
@[simp] theorem setResampler_ports (s : State) (n : Nat) (x : RsmpSt) : (s.setResampler n x).ports = s.ports := rfl
@[simp] theorem setResampler_time (s : State) (n : Nat) (x : RsmpSt) : (s.setResampler n x).time = s.time := rfl
@[simp] theorem setResampler_thermal (s : State) (n : Nat) (x : RsmpSt) : (s.setResampler n x).thermal = s.thermal := rfl
@[simp] theorem setResampler_fc (s : State) (n : Nat) (x : RsmpSt) : (s.setResampler n x).fc = s.fc := rfl
@[simp] theorem setResampler_mgmt (s : State) (n : Nat) (x : RsmpSt) : (s.setResampler n x).mgmt = s.mgmt := rfl
@[simp] theorem setResampler_flash0 (s : State) (n : Nat) (x : RsmpSt) : (s.setResampler n x).flash0 = s.flash0 := rfl
@[simp] theorem setResampler_flash1 (s : State) (n : Nat) (x : RsmpSt) : (s.setResampler n x).flash1 = s.flash1 := rfl
@[simp] theorem setResampler_rpl (s : State) (n : Nat) (x : RsmpSt) : (s.setResampler n x).rpl = s.rpl := rfl
@[simp] theorem setResampler_cp0 (s : State) (n : Nat) (x : RsmpSt) : (s.setResampler n x).cp0 = s.cp0 := rfl
@[simp] theorem setResampler_cp1 (s : State) (n : Nat) (x : RsmpSt) : (s.setResampler n x).cp1 = s.cp1 := rfl
@[simp] theorem setResampler_boot (s : State) (n : Nat) (x : RsmpSt) : (s.setResampler n x).boot = s.boot := rfl
@[simp] theorem setResampler_fuses (s : State) (n : Nat) (x : RsmpSt) : (s.setResampler n x).fuses = s.fuses := rfl
@[simp] theorem setResampler_burned (s : State) (n : Nat) (x : RsmpSt) : (s.setResampler n x).burned = s.burned := rfl
@[simp] theorem setResampler_burn (s : State) (n : Nat) (x : RsmpSt) : (s.setResampler n x).burn = s.burn := rfl
@[simp] theorem setResampler_pins (s : State) (n : Nat) (x : RsmpSt) : (s.setResampler n x).pins = s.pins := rfl
@[simp] theorem setResampler_freeCtr (s : State) (n : Nat) (x : RsmpSt) : (s.setResampler n x).freeCtr = s.freeCtr := rfl

/-! `setTslot` changes `thermal`. -/
@[simp] theorem setTslot_pending (s : State) (n : Nat) (x : TSlot) : (s.setTslot n x).pending = s.pending := rfl
@[simp] theorem setTslot_cyc (s : State) (n : Nat) (x : TSlot) : (s.setTslot n x).cyc = s.cyc := rfl
@[simp] theorem setTslot_uptime (s : State) (n : Nat) (x : TSlot) : (s.setTslot n x).uptime = s.uptime := rfl
@[simp] theorem setTslot_regs (s : State) (n : Nat) (x : TSlot) : (s.setTslot n x).regs = s.regs := rfl
@[simp] theorem setTslot_shadows (s : State) (n : Nat) (x : TSlot) : (s.setTslot n x).shadows = s.shadows := rfl
@[simp] theorem setTslot_reads (s : State) (n : Nat) (x : TSlot) : (s.setTslot n x).reads = s.reads := rfl
@[simp] theorem setTslot_mem (s : State) (n : Nat) (x : TSlot) : (s.setTslot n x).mem = s.mem := rfl
@[simp] theorem setTslot_parBad (s : State) (n : Nat) (x : TSlot) : (s.setTslot n x).parBad = s.parBad := rfl
@[simp] theorem setTslot_img (s : State) (n : Nat) (x : TSlot) : (s.setTslot n x).img = s.img := rfl
@[simp] theorem setTslot_limits (s : State) (n : Nat) (x : TSlot) : (s.setTslot n x).limits = s.limits := rfl
@[simp] theorem setTslot_limPend (s : State) (n : Nat) (x : TSlot) : (s.setTslot n x).limPend = s.limPend := rfl
@[simp] theorem setTslot_evalSeq (s : State) (n : Nat) (x : TSlot) : (s.setTslot n x).evalSeq = s.evalSeq := rfl
@[simp] theorem setTslot_tapFlight (s : State) (n : Nat) (x : TSlot) : (s.setTslot n x).tapFlight = s.tapFlight := rfl
@[simp] theorem setTslot_heldOff (s : State) (n : Nat) (x : TSlot) : (s.setTslot n x).heldOff = s.heldOff := rfl
@[simp] theorem setTslot_descMoves (s : State) (n : Nat) (x : TSlot) : (s.setTslot n x).descMoves = s.descMoves := rfl
@[simp] theorem setTslot_delayFlight (s : State) (n : Nat) (x : TSlot) : (s.setTslot n x).delayFlight = s.delayFlight := rfl
@[simp] theorem setTslot_bps (s : State) (n : Nat) (x : TSlot) : (s.setTslot n x).bps = s.bps := rfl
@[simp] theorem setTslot_rsmp (s : State) (n : Nat) (x : TSlot) : (s.setTslot n x).rsmp = s.rsmp := rfl
@[simp] theorem setTslot_chains (s : State) (n : Nat) (x : TSlot) : (s.setTslot n x).chains = s.chains := rfl
@[simp] theorem setTslot_cx (s : State) (n : Nat) (x : TSlot) : (s.setTslot n x).cx = s.cx := rfl
@[simp] theorem setTslot_adcs (s : State) (n : Nat) (x : TSlot) : (s.setTslot n x).adcs = s.adcs := rfl
@[simp] theorem setTslot_mcs (s : State) (n : Nat) (x : TSlot) : (s.setTslot n x).mcs = s.mcs := rfl
@[simp] theorem setTslot_meas (s : State) (n : Nat) (x : TSlot) : (s.setTslot n x).meas = s.meas := rfl
@[simp] theorem setTslot_loops (s : State) (n : Nat) (x : TSlot) : (s.setTslot n x).loops = s.loops := rfl
@[simp] theorem setTslot_engines (s : State) (n : Nat) (x : TSlot) : (s.setTslot n x).engines = s.engines := rfl
@[simp] theorem setTslot_lighters (s : State) (n : Nat) (x : TSlot) : (s.setTslot n x).lighters = s.lighters := rfl
@[simp] theorem setTslot_taps (s : State) (n : Nat) (x : TSlot) : (s.setTslot n x).taps = s.taps := rfl
@[simp] theorem setTslot_writeBacks (s : State) (n : Nat) (x : TSlot) : (s.setTslot n x).writeBacks = s.writeBacks := rfl
@[simp] theorem setTslot_ports (s : State) (n : Nat) (x : TSlot) : (s.setTslot n x).ports = s.ports := rfl
@[simp] theorem setTslot_time (s : State) (n : Nat) (x : TSlot) : (s.setTslot n x).time = s.time := rfl
@[simp] theorem setTslot_fc (s : State) (n : Nat) (x : TSlot) : (s.setTslot n x).fc = s.fc := rfl
@[simp] theorem setTslot_mgmt (s : State) (n : Nat) (x : TSlot) : (s.setTslot n x).mgmt = s.mgmt := rfl
@[simp] theorem setTslot_flash0 (s : State) (n : Nat) (x : TSlot) : (s.setTslot n x).flash0 = s.flash0 := rfl
@[simp] theorem setTslot_flash1 (s : State) (n : Nat) (x : TSlot) : (s.setTslot n x).flash1 = s.flash1 := rfl
@[simp] theorem setTslot_rpl (s : State) (n : Nat) (x : TSlot) : (s.setTslot n x).rpl = s.rpl := rfl
@[simp] theorem setTslot_cp0 (s : State) (n : Nat) (x : TSlot) : (s.setTslot n x).cp0 = s.cp0 := rfl
@[simp] theorem setTslot_cp1 (s : State) (n : Nat) (x : TSlot) : (s.setTslot n x).cp1 = s.cp1 := rfl
@[simp] theorem setTslot_boot (s : State) (n : Nat) (x : TSlot) : (s.setTslot n x).boot = s.boot := rfl
@[simp] theorem setTslot_fuses (s : State) (n : Nat) (x : TSlot) : (s.setTslot n x).fuses = s.fuses := rfl
@[simp] theorem setTslot_burned (s : State) (n : Nat) (x : TSlot) : (s.setTslot n x).burned = s.burned := rfl
@[simp] theorem setTslot_burn (s : State) (n : Nat) (x : TSlot) : (s.setTslot n x).burn = s.burn := rfl
@[simp] theorem setTslot_pins (s : State) (n : Nat) (x : TSlot) : (s.setTslot n x).pins = s.pins := rfl
@[simp] theorem setTslot_freeCtr (s : State) (n : Nat) (x : TSlot) : (s.setTslot n x).freeCtr = s.freeCtr := rfl

/-! `setBpTherm` changes `thermal`. -/
@[simp] theorem setBpTherm_pending (s : State) (n : Nat) (x : BpTherm) : (s.setBpTherm n x).pending = s.pending := rfl
@[simp] theorem setBpTherm_cyc (s : State) (n : Nat) (x : BpTherm) : (s.setBpTherm n x).cyc = s.cyc := rfl
@[simp] theorem setBpTherm_uptime (s : State) (n : Nat) (x : BpTherm) : (s.setBpTherm n x).uptime = s.uptime := rfl
@[simp] theorem setBpTherm_regs (s : State) (n : Nat) (x : BpTherm) : (s.setBpTherm n x).regs = s.regs := rfl
@[simp] theorem setBpTherm_shadows (s : State) (n : Nat) (x : BpTherm) : (s.setBpTherm n x).shadows = s.shadows := rfl
@[simp] theorem setBpTherm_reads (s : State) (n : Nat) (x : BpTherm) : (s.setBpTherm n x).reads = s.reads := rfl
@[simp] theorem setBpTherm_mem (s : State) (n : Nat) (x : BpTherm) : (s.setBpTherm n x).mem = s.mem := rfl
@[simp] theorem setBpTherm_parBad (s : State) (n : Nat) (x : BpTherm) : (s.setBpTherm n x).parBad = s.parBad := rfl
@[simp] theorem setBpTherm_img (s : State) (n : Nat) (x : BpTherm) : (s.setBpTherm n x).img = s.img := rfl
@[simp] theorem setBpTherm_limits (s : State) (n : Nat) (x : BpTherm) : (s.setBpTherm n x).limits = s.limits := rfl
@[simp] theorem setBpTherm_limPend (s : State) (n : Nat) (x : BpTherm) : (s.setBpTherm n x).limPend = s.limPend := rfl
@[simp] theorem setBpTherm_evalSeq (s : State) (n : Nat) (x : BpTherm) : (s.setBpTherm n x).evalSeq = s.evalSeq := rfl
@[simp] theorem setBpTherm_tapFlight (s : State) (n : Nat) (x : BpTherm) : (s.setBpTherm n x).tapFlight = s.tapFlight := rfl
@[simp] theorem setBpTherm_heldOff (s : State) (n : Nat) (x : BpTherm) : (s.setBpTherm n x).heldOff = s.heldOff := rfl
@[simp] theorem setBpTherm_descMoves (s : State) (n : Nat) (x : BpTherm) : (s.setBpTherm n x).descMoves = s.descMoves := rfl
@[simp] theorem setBpTherm_delayFlight (s : State) (n : Nat) (x : BpTherm) : (s.setBpTherm n x).delayFlight = s.delayFlight := rfl
@[simp] theorem setBpTherm_bps (s : State) (n : Nat) (x : BpTherm) : (s.setBpTherm n x).bps = s.bps := rfl
@[simp] theorem setBpTherm_rsmp (s : State) (n : Nat) (x : BpTherm) : (s.setBpTherm n x).rsmp = s.rsmp := rfl
@[simp] theorem setBpTherm_chains (s : State) (n : Nat) (x : BpTherm) : (s.setBpTherm n x).chains = s.chains := rfl
@[simp] theorem setBpTherm_cx (s : State) (n : Nat) (x : BpTherm) : (s.setBpTherm n x).cx = s.cx := rfl
@[simp] theorem setBpTherm_adcs (s : State) (n : Nat) (x : BpTherm) : (s.setBpTherm n x).adcs = s.adcs := rfl
@[simp] theorem setBpTherm_mcs (s : State) (n : Nat) (x : BpTherm) : (s.setBpTherm n x).mcs = s.mcs := rfl
@[simp] theorem setBpTherm_meas (s : State) (n : Nat) (x : BpTherm) : (s.setBpTherm n x).meas = s.meas := rfl
@[simp] theorem setBpTherm_loops (s : State) (n : Nat) (x : BpTherm) : (s.setBpTherm n x).loops = s.loops := rfl
@[simp] theorem setBpTherm_engines (s : State) (n : Nat) (x : BpTherm) : (s.setBpTherm n x).engines = s.engines := rfl
@[simp] theorem setBpTherm_lighters (s : State) (n : Nat) (x : BpTherm) : (s.setBpTherm n x).lighters = s.lighters := rfl
@[simp] theorem setBpTherm_taps (s : State) (n : Nat) (x : BpTherm) : (s.setBpTherm n x).taps = s.taps := rfl
@[simp] theorem setBpTherm_writeBacks (s : State) (n : Nat) (x : BpTherm) : (s.setBpTherm n x).writeBacks = s.writeBacks := rfl
@[simp] theorem setBpTherm_ports (s : State) (n : Nat) (x : BpTherm) : (s.setBpTherm n x).ports = s.ports := rfl
@[simp] theorem setBpTherm_time (s : State) (n : Nat) (x : BpTherm) : (s.setBpTherm n x).time = s.time := rfl
@[simp] theorem setBpTherm_fc (s : State) (n : Nat) (x : BpTherm) : (s.setBpTherm n x).fc = s.fc := rfl
@[simp] theorem setBpTherm_mgmt (s : State) (n : Nat) (x : BpTherm) : (s.setBpTherm n x).mgmt = s.mgmt := rfl
@[simp] theorem setBpTherm_flash0 (s : State) (n : Nat) (x : BpTherm) : (s.setBpTherm n x).flash0 = s.flash0 := rfl
@[simp] theorem setBpTherm_flash1 (s : State) (n : Nat) (x : BpTherm) : (s.setBpTherm n x).flash1 = s.flash1 := rfl
@[simp] theorem setBpTherm_rpl (s : State) (n : Nat) (x : BpTherm) : (s.setBpTherm n x).rpl = s.rpl := rfl
@[simp] theorem setBpTherm_cp0 (s : State) (n : Nat) (x : BpTherm) : (s.setBpTherm n x).cp0 = s.cp0 := rfl
@[simp] theorem setBpTherm_cp1 (s : State) (n : Nat) (x : BpTherm) : (s.setBpTherm n x).cp1 = s.cp1 := rfl
@[simp] theorem setBpTherm_boot (s : State) (n : Nat) (x : BpTherm) : (s.setBpTherm n x).boot = s.boot := rfl
@[simp] theorem setBpTherm_fuses (s : State) (n : Nat) (x : BpTherm) : (s.setBpTherm n x).fuses = s.fuses := rfl
@[simp] theorem setBpTherm_burned (s : State) (n : Nat) (x : BpTherm) : (s.setBpTherm n x).burned = s.burned := rfl
@[simp] theorem setBpTherm_burn (s : State) (n : Nat) (x : BpTherm) : (s.setBpTherm n x).burn = s.burn := rfl
@[simp] theorem setBpTherm_pins (s : State) (n : Nat) (x : BpTherm) : (s.setBpTherm n x).pins = s.pins := rfl
@[simp] theorem setBpTherm_freeCtr (s : State) (n : Nat) (x : BpTherm) : (s.setBpTherm n x).freeCtr = s.freeCtr := rfl

/-! `setReg` changes `regs`. -/
@[simp] theorem setReg_pending (s : State) (a : Nat) (x : Word) : (s.setReg a x).pending = s.pending := rfl
@[simp] theorem setReg_cyc (s : State) (a : Nat) (x : Word) : (s.setReg a x).cyc = s.cyc := rfl
@[simp] theorem setReg_uptime (s : State) (a : Nat) (x : Word) : (s.setReg a x).uptime = s.uptime := rfl
@[simp] theorem setReg_shadows (s : State) (a : Nat) (x : Word) : (s.setReg a x).shadows = s.shadows := rfl
@[simp] theorem setReg_reads (s : State) (a : Nat) (x : Word) : (s.setReg a x).reads = s.reads := rfl
@[simp] theorem setReg_mem (s : State) (a : Nat) (x : Word) : (s.setReg a x).mem = s.mem := rfl
@[simp] theorem setReg_parBad (s : State) (a : Nat) (x : Word) : (s.setReg a x).parBad = s.parBad := rfl
@[simp] theorem setReg_img (s : State) (a : Nat) (x : Word) : (s.setReg a x).img = s.img := rfl
@[simp] theorem setReg_limits (s : State) (a : Nat) (x : Word) : (s.setReg a x).limits = s.limits := rfl
@[simp] theorem setReg_limPend (s : State) (a : Nat) (x : Word) : (s.setReg a x).limPend = s.limPend := rfl
@[simp] theorem setReg_evalSeq (s : State) (a : Nat) (x : Word) : (s.setReg a x).evalSeq = s.evalSeq := rfl
@[simp] theorem setReg_tapFlight (s : State) (a : Nat) (x : Word) : (s.setReg a x).tapFlight = s.tapFlight := rfl
@[simp] theorem setReg_heldOff (s : State) (a : Nat) (x : Word) : (s.setReg a x).heldOff = s.heldOff := rfl
@[simp] theorem setReg_descMoves (s : State) (a : Nat) (x : Word) : (s.setReg a x).descMoves = s.descMoves := rfl
@[simp] theorem setReg_delayFlight (s : State) (a : Nat) (x : Word) : (s.setReg a x).delayFlight = s.delayFlight := rfl
@[simp] theorem setReg_bps (s : State) (a : Nat) (x : Word) : (s.setReg a x).bps = s.bps := rfl
@[simp] theorem setReg_rsmp (s : State) (a : Nat) (x : Word) : (s.setReg a x).rsmp = s.rsmp := rfl
@[simp] theorem setReg_chains (s : State) (a : Nat) (x : Word) : (s.setReg a x).chains = s.chains := rfl
@[simp] theorem setReg_cx (s : State) (a : Nat) (x : Word) : (s.setReg a x).cx = s.cx := rfl
@[simp] theorem setReg_adcs (s : State) (a : Nat) (x : Word) : (s.setReg a x).adcs = s.adcs := rfl
@[simp] theorem setReg_mcs (s : State) (a : Nat) (x : Word) : (s.setReg a x).mcs = s.mcs := rfl
@[simp] theorem setReg_meas (s : State) (a : Nat) (x : Word) : (s.setReg a x).meas = s.meas := rfl
@[simp] theorem setReg_loops (s : State) (a : Nat) (x : Word) : (s.setReg a x).loops = s.loops := rfl
@[simp] theorem setReg_engines (s : State) (a : Nat) (x : Word) : (s.setReg a x).engines = s.engines := rfl
@[simp] theorem setReg_lighters (s : State) (a : Nat) (x : Word) : (s.setReg a x).lighters = s.lighters := rfl
@[simp] theorem setReg_taps (s : State) (a : Nat) (x : Word) : (s.setReg a x).taps = s.taps := rfl
@[simp] theorem setReg_writeBacks (s : State) (a : Nat) (x : Word) : (s.setReg a x).writeBacks = s.writeBacks := rfl
@[simp] theorem setReg_ports (s : State) (a : Nat) (x : Word) : (s.setReg a x).ports = s.ports := rfl
@[simp] theorem setReg_time (s : State) (a : Nat) (x : Word) : (s.setReg a x).time = s.time := rfl
@[simp] theorem setReg_thermal (s : State) (a : Nat) (x : Word) : (s.setReg a x).thermal = s.thermal := rfl
@[simp] theorem setReg_fc (s : State) (a : Nat) (x : Word) : (s.setReg a x).fc = s.fc := rfl
@[simp] theorem setReg_mgmt (s : State) (a : Nat) (x : Word) : (s.setReg a x).mgmt = s.mgmt := rfl
@[simp] theorem setReg_flash0 (s : State) (a : Nat) (x : Word) : (s.setReg a x).flash0 = s.flash0 := rfl
@[simp] theorem setReg_flash1 (s : State) (a : Nat) (x : Word) : (s.setReg a x).flash1 = s.flash1 := rfl
@[simp] theorem setReg_rpl (s : State) (a : Nat) (x : Word) : (s.setReg a x).rpl = s.rpl := rfl
@[simp] theorem setReg_cp0 (s : State) (a : Nat) (x : Word) : (s.setReg a x).cp0 = s.cp0 := rfl
@[simp] theorem setReg_cp1 (s : State) (a : Nat) (x : Word) : (s.setReg a x).cp1 = s.cp1 := rfl
@[simp] theorem setReg_boot (s : State) (a : Nat) (x : Word) : (s.setReg a x).boot = s.boot := rfl
@[simp] theorem setReg_fuses (s : State) (a : Nat) (x : Word) : (s.setReg a x).fuses = s.fuses := rfl
@[simp] theorem setReg_burned (s : State) (a : Nat) (x : Word) : (s.setReg a x).burned = s.burned := rfl
@[simp] theorem setReg_burn (s : State) (a : Nat) (x : Word) : (s.setReg a x).burn = s.burn := rfl
@[simp] theorem setReg_pins (s : State) (a : Nat) (x : Word) : (s.setReg a x).pins = s.pins := rfl
@[simp] theorem setReg_freeCtr (s : State) (a : Nat) (x : Word) : (s.setReg a x).freeCtr = s.freeCtr := rfl

/-! `wr` changes `regs`. -/
@[simp] theorem wr_pending (s : State) (f : Fld) (v : Nat) : (s.wr f v).pending = s.pending := rfl
@[simp] theorem wr_cyc (s : State) (f : Fld) (v : Nat) : (s.wr f v).cyc = s.cyc := rfl
@[simp] theorem wr_uptime (s : State) (f : Fld) (v : Nat) : (s.wr f v).uptime = s.uptime := rfl
@[simp] theorem wr_shadows (s : State) (f : Fld) (v : Nat) : (s.wr f v).shadows = s.shadows := rfl
@[simp] theorem wr_reads (s : State) (f : Fld) (v : Nat) : (s.wr f v).reads = s.reads := rfl
@[simp] theorem wr_mem (s : State) (f : Fld) (v : Nat) : (s.wr f v).mem = s.mem := rfl
@[simp] theorem wr_parBad (s : State) (f : Fld) (v : Nat) : (s.wr f v).parBad = s.parBad := rfl
@[simp] theorem wr_img (s : State) (f : Fld) (v : Nat) : (s.wr f v).img = s.img := rfl
@[simp] theorem wr_limits (s : State) (f : Fld) (v : Nat) : (s.wr f v).limits = s.limits := rfl
@[simp] theorem wr_limPend (s : State) (f : Fld) (v : Nat) : (s.wr f v).limPend = s.limPend := rfl
@[simp] theorem wr_evalSeq (s : State) (f : Fld) (v : Nat) : (s.wr f v).evalSeq = s.evalSeq := rfl
@[simp] theorem wr_tapFlight (s : State) (f : Fld) (v : Nat) : (s.wr f v).tapFlight = s.tapFlight := rfl
@[simp] theorem wr_heldOff (s : State) (f : Fld) (v : Nat) : (s.wr f v).heldOff = s.heldOff := rfl
@[simp] theorem wr_descMoves (s : State) (f : Fld) (v : Nat) : (s.wr f v).descMoves = s.descMoves := rfl
@[simp] theorem wr_delayFlight (s : State) (f : Fld) (v : Nat) : (s.wr f v).delayFlight = s.delayFlight := rfl
@[simp] theorem wr_bps (s : State) (f : Fld) (v : Nat) : (s.wr f v).bps = s.bps := rfl
@[simp] theorem wr_rsmp (s : State) (f : Fld) (v : Nat) : (s.wr f v).rsmp = s.rsmp := rfl
@[simp] theorem wr_chains (s : State) (f : Fld) (v : Nat) : (s.wr f v).chains = s.chains := rfl
@[simp] theorem wr_cx (s : State) (f : Fld) (v : Nat) : (s.wr f v).cx = s.cx := rfl
@[simp] theorem wr_adcs (s : State) (f : Fld) (v : Nat) : (s.wr f v).adcs = s.adcs := rfl
@[simp] theorem wr_mcs (s : State) (f : Fld) (v : Nat) : (s.wr f v).mcs = s.mcs := rfl
@[simp] theorem wr_meas (s : State) (f : Fld) (v : Nat) : (s.wr f v).meas = s.meas := rfl
@[simp] theorem wr_loops (s : State) (f : Fld) (v : Nat) : (s.wr f v).loops = s.loops := rfl
@[simp] theorem wr_engines (s : State) (f : Fld) (v : Nat) : (s.wr f v).engines = s.engines := rfl
@[simp] theorem wr_lighters (s : State) (f : Fld) (v : Nat) : (s.wr f v).lighters = s.lighters := rfl
@[simp] theorem wr_taps (s : State) (f : Fld) (v : Nat) : (s.wr f v).taps = s.taps := rfl
@[simp] theorem wr_writeBacks (s : State) (f : Fld) (v : Nat) : (s.wr f v).writeBacks = s.writeBacks := rfl
@[simp] theorem wr_ports (s : State) (f : Fld) (v : Nat) : (s.wr f v).ports = s.ports := rfl
@[simp] theorem wr_time (s : State) (f : Fld) (v : Nat) : (s.wr f v).time = s.time := rfl
@[simp] theorem wr_thermal (s : State) (f : Fld) (v : Nat) : (s.wr f v).thermal = s.thermal := rfl
@[simp] theorem wr_fc (s : State) (f : Fld) (v : Nat) : (s.wr f v).fc = s.fc := rfl
@[simp] theorem wr_mgmt (s : State) (f : Fld) (v : Nat) : (s.wr f v).mgmt = s.mgmt := rfl
@[simp] theorem wr_flash0 (s : State) (f : Fld) (v : Nat) : (s.wr f v).flash0 = s.flash0 := rfl
@[simp] theorem wr_flash1 (s : State) (f : Fld) (v : Nat) : (s.wr f v).flash1 = s.flash1 := rfl
@[simp] theorem wr_rpl (s : State) (f : Fld) (v : Nat) : (s.wr f v).rpl = s.rpl := rfl
@[simp] theorem wr_cp0 (s : State) (f : Fld) (v : Nat) : (s.wr f v).cp0 = s.cp0 := rfl
@[simp] theorem wr_cp1 (s : State) (f : Fld) (v : Nat) : (s.wr f v).cp1 = s.cp1 := rfl
@[simp] theorem wr_boot (s : State) (f : Fld) (v : Nat) : (s.wr f v).boot = s.boot := rfl
@[simp] theorem wr_fuses (s : State) (f : Fld) (v : Nat) : (s.wr f v).fuses = s.fuses := rfl
@[simp] theorem wr_burned (s : State) (f : Fld) (v : Nat) : (s.wr f v).burned = s.burned := rfl
@[simp] theorem wr_burn (s : State) (f : Fld) (v : Nat) : (s.wr f v).burn = s.burn := rfl
@[simp] theorem wr_pins (s : State) (f : Fld) (v : Nat) : (s.wr f v).pins = s.pins := rfl
@[simp] theorem wr_freeCtr (s : State) (f : Fld) (v : Nat) : (s.wr f v).freeCtr = s.freeCtr := rfl

/-! `wrB` changes `regs`. -/
@[simp] theorem wrB_pending (s : State) (f : Fld) (v : Bool) : (s.wrB f v).pending = s.pending := rfl
@[simp] theorem wrB_cyc (s : State) (f : Fld) (v : Bool) : (s.wrB f v).cyc = s.cyc := rfl
@[simp] theorem wrB_uptime (s : State) (f : Fld) (v : Bool) : (s.wrB f v).uptime = s.uptime := rfl
@[simp] theorem wrB_shadows (s : State) (f : Fld) (v : Bool) : (s.wrB f v).shadows = s.shadows := rfl
@[simp] theorem wrB_reads (s : State) (f : Fld) (v : Bool) : (s.wrB f v).reads = s.reads := rfl
@[simp] theorem wrB_mem (s : State) (f : Fld) (v : Bool) : (s.wrB f v).mem = s.mem := rfl
@[simp] theorem wrB_parBad (s : State) (f : Fld) (v : Bool) : (s.wrB f v).parBad = s.parBad := rfl
@[simp] theorem wrB_img (s : State) (f : Fld) (v : Bool) : (s.wrB f v).img = s.img := rfl
@[simp] theorem wrB_limits (s : State) (f : Fld) (v : Bool) : (s.wrB f v).limits = s.limits := rfl
@[simp] theorem wrB_limPend (s : State) (f : Fld) (v : Bool) : (s.wrB f v).limPend = s.limPend := rfl
@[simp] theorem wrB_evalSeq (s : State) (f : Fld) (v : Bool) : (s.wrB f v).evalSeq = s.evalSeq := rfl
@[simp] theorem wrB_tapFlight (s : State) (f : Fld) (v : Bool) : (s.wrB f v).tapFlight = s.tapFlight := rfl
@[simp] theorem wrB_heldOff (s : State) (f : Fld) (v : Bool) : (s.wrB f v).heldOff = s.heldOff := rfl
@[simp] theorem wrB_descMoves (s : State) (f : Fld) (v : Bool) : (s.wrB f v).descMoves = s.descMoves := rfl
@[simp] theorem wrB_delayFlight (s : State) (f : Fld) (v : Bool) : (s.wrB f v).delayFlight = s.delayFlight := rfl
@[simp] theorem wrB_bps (s : State) (f : Fld) (v : Bool) : (s.wrB f v).bps = s.bps := rfl
@[simp] theorem wrB_rsmp (s : State) (f : Fld) (v : Bool) : (s.wrB f v).rsmp = s.rsmp := rfl
@[simp] theorem wrB_chains (s : State) (f : Fld) (v : Bool) : (s.wrB f v).chains = s.chains := rfl
@[simp] theorem wrB_cx (s : State) (f : Fld) (v : Bool) : (s.wrB f v).cx = s.cx := rfl
@[simp] theorem wrB_adcs (s : State) (f : Fld) (v : Bool) : (s.wrB f v).adcs = s.adcs := rfl
@[simp] theorem wrB_mcs (s : State) (f : Fld) (v : Bool) : (s.wrB f v).mcs = s.mcs := rfl
@[simp] theorem wrB_meas (s : State) (f : Fld) (v : Bool) : (s.wrB f v).meas = s.meas := rfl
@[simp] theorem wrB_loops (s : State) (f : Fld) (v : Bool) : (s.wrB f v).loops = s.loops := rfl
@[simp] theorem wrB_engines (s : State) (f : Fld) (v : Bool) : (s.wrB f v).engines = s.engines := rfl
@[simp] theorem wrB_lighters (s : State) (f : Fld) (v : Bool) : (s.wrB f v).lighters = s.lighters := rfl
@[simp] theorem wrB_taps (s : State) (f : Fld) (v : Bool) : (s.wrB f v).taps = s.taps := rfl
@[simp] theorem wrB_writeBacks (s : State) (f : Fld) (v : Bool) : (s.wrB f v).writeBacks = s.writeBacks := rfl
@[simp] theorem wrB_ports (s : State) (f : Fld) (v : Bool) : (s.wrB f v).ports = s.ports := rfl
@[simp] theorem wrB_time (s : State) (f : Fld) (v : Bool) : (s.wrB f v).time = s.time := rfl
@[simp] theorem wrB_thermal (s : State) (f : Fld) (v : Bool) : (s.wrB f v).thermal = s.thermal := rfl
@[simp] theorem wrB_fc (s : State) (f : Fld) (v : Bool) : (s.wrB f v).fc = s.fc := rfl
@[simp] theorem wrB_mgmt (s : State) (f : Fld) (v : Bool) : (s.wrB f v).mgmt = s.mgmt := rfl
@[simp] theorem wrB_flash0 (s : State) (f : Fld) (v : Bool) : (s.wrB f v).flash0 = s.flash0 := rfl
@[simp] theorem wrB_flash1 (s : State) (f : Fld) (v : Bool) : (s.wrB f v).flash1 = s.flash1 := rfl
@[simp] theorem wrB_rpl (s : State) (f : Fld) (v : Bool) : (s.wrB f v).rpl = s.rpl := rfl
@[simp] theorem wrB_cp0 (s : State) (f : Fld) (v : Bool) : (s.wrB f v).cp0 = s.cp0 := rfl
@[simp] theorem wrB_cp1 (s : State) (f : Fld) (v : Bool) : (s.wrB f v).cp1 = s.cp1 := rfl
@[simp] theorem wrB_boot (s : State) (f : Fld) (v : Bool) : (s.wrB f v).boot = s.boot := rfl
@[simp] theorem wrB_fuses (s : State) (f : Fld) (v : Bool) : (s.wrB f v).fuses = s.fuses := rfl
@[simp] theorem wrB_burned (s : State) (f : Fld) (v : Bool) : (s.wrB f v).burned = s.burned := rfl
@[simp] theorem wrB_burn (s : State) (f : Fld) (v : Bool) : (s.wrB f v).burn = s.burn := rfl
@[simp] theorem wrB_pins (s : State) (f : Fld) (v : Bool) : (s.wrB f v).pins = s.pins := rfl
@[simp] theorem wrB_freeCtr (s : State) (f : Fld) (v : Bool) : (s.wrB f v).freeCtr = s.freeCtr := rfl

/-! `setCell` changes `mem`. -/
@[simp] theorem setCell_pending (s : State) (k : MemSel) (a : Nat) (x : Cell) : (s.setCell k a x).pending = s.pending := rfl
@[simp] theorem setCell_cyc (s : State) (k : MemSel) (a : Nat) (x : Cell) : (s.setCell k a x).cyc = s.cyc := rfl
@[simp] theorem setCell_uptime (s : State) (k : MemSel) (a : Nat) (x : Cell) : (s.setCell k a x).uptime = s.uptime := rfl
@[simp] theorem setCell_regs (s : State) (k : MemSel) (a : Nat) (x : Cell) : (s.setCell k a x).regs = s.regs := rfl
@[simp] theorem setCell_shadows (s : State) (k : MemSel) (a : Nat) (x : Cell) : (s.setCell k a x).shadows = s.shadows := rfl
@[simp] theorem setCell_reads (s : State) (k : MemSel) (a : Nat) (x : Cell) : (s.setCell k a x).reads = s.reads := rfl
@[simp] theorem setCell_parBad (s : State) (k : MemSel) (a : Nat) (x : Cell) : (s.setCell k a x).parBad = s.parBad := rfl
@[simp] theorem setCell_img (s : State) (k : MemSel) (a : Nat) (x : Cell) : (s.setCell k a x).img = s.img := rfl
@[simp] theorem setCell_limits (s : State) (k : MemSel) (a : Nat) (x : Cell) : (s.setCell k a x).limits = s.limits := rfl
@[simp] theorem setCell_limPend (s : State) (k : MemSel) (a : Nat) (x : Cell) : (s.setCell k a x).limPend = s.limPend := rfl
@[simp] theorem setCell_evalSeq (s : State) (k : MemSel) (a : Nat) (x : Cell) : (s.setCell k a x).evalSeq = s.evalSeq := rfl
@[simp] theorem setCell_tapFlight (s : State) (k : MemSel) (a : Nat) (x : Cell) : (s.setCell k a x).tapFlight = s.tapFlight := rfl
@[simp] theorem setCell_heldOff (s : State) (k : MemSel) (a : Nat) (x : Cell) : (s.setCell k a x).heldOff = s.heldOff := rfl
@[simp] theorem setCell_descMoves (s : State) (k : MemSel) (a : Nat) (x : Cell) : (s.setCell k a x).descMoves = s.descMoves := rfl
@[simp] theorem setCell_delayFlight (s : State) (k : MemSel) (a : Nat) (x : Cell) : (s.setCell k a x).delayFlight = s.delayFlight := rfl
@[simp] theorem setCell_bps (s : State) (k : MemSel) (a : Nat) (x : Cell) : (s.setCell k a x).bps = s.bps := rfl
@[simp] theorem setCell_rsmp (s : State) (k : MemSel) (a : Nat) (x : Cell) : (s.setCell k a x).rsmp = s.rsmp := rfl
@[simp] theorem setCell_chains (s : State) (k : MemSel) (a : Nat) (x : Cell) : (s.setCell k a x).chains = s.chains := rfl
@[simp] theorem setCell_cx (s : State) (k : MemSel) (a : Nat) (x : Cell) : (s.setCell k a x).cx = s.cx := rfl
@[simp] theorem setCell_adcs (s : State) (k : MemSel) (a : Nat) (x : Cell) : (s.setCell k a x).adcs = s.adcs := rfl
@[simp] theorem setCell_mcs (s : State) (k : MemSel) (a : Nat) (x : Cell) : (s.setCell k a x).mcs = s.mcs := rfl
@[simp] theorem setCell_meas (s : State) (k : MemSel) (a : Nat) (x : Cell) : (s.setCell k a x).meas = s.meas := rfl
@[simp] theorem setCell_loops (s : State) (k : MemSel) (a : Nat) (x : Cell) : (s.setCell k a x).loops = s.loops := rfl
@[simp] theorem setCell_engines (s : State) (k : MemSel) (a : Nat) (x : Cell) : (s.setCell k a x).engines = s.engines := rfl
@[simp] theorem setCell_lighters (s : State) (k : MemSel) (a : Nat) (x : Cell) : (s.setCell k a x).lighters = s.lighters := rfl
@[simp] theorem setCell_taps (s : State) (k : MemSel) (a : Nat) (x : Cell) : (s.setCell k a x).taps = s.taps := rfl
@[simp] theorem setCell_writeBacks (s : State) (k : MemSel) (a : Nat) (x : Cell) : (s.setCell k a x).writeBacks = s.writeBacks := rfl
@[simp] theorem setCell_ports (s : State) (k : MemSel) (a : Nat) (x : Cell) : (s.setCell k a x).ports = s.ports := rfl
@[simp] theorem setCell_time (s : State) (k : MemSel) (a : Nat) (x : Cell) : (s.setCell k a x).time = s.time := rfl
@[simp] theorem setCell_thermal (s : State) (k : MemSel) (a : Nat) (x : Cell) : (s.setCell k a x).thermal = s.thermal := rfl
@[simp] theorem setCell_fc (s : State) (k : MemSel) (a : Nat) (x : Cell) : (s.setCell k a x).fc = s.fc := rfl
@[simp] theorem setCell_mgmt (s : State) (k : MemSel) (a : Nat) (x : Cell) : (s.setCell k a x).mgmt = s.mgmt := rfl
@[simp] theorem setCell_flash0 (s : State) (k : MemSel) (a : Nat) (x : Cell) : (s.setCell k a x).flash0 = s.flash0 := rfl
@[simp] theorem setCell_flash1 (s : State) (k : MemSel) (a : Nat) (x : Cell) : (s.setCell k a x).flash1 = s.flash1 := rfl
@[simp] theorem setCell_rpl (s : State) (k : MemSel) (a : Nat) (x : Cell) : (s.setCell k a x).rpl = s.rpl := rfl
@[simp] theorem setCell_cp0 (s : State) (k : MemSel) (a : Nat) (x : Cell) : (s.setCell k a x).cp0 = s.cp0 := rfl
@[simp] theorem setCell_cp1 (s : State) (k : MemSel) (a : Nat) (x : Cell) : (s.setCell k a x).cp1 = s.cp1 := rfl
@[simp] theorem setCell_boot (s : State) (k : MemSel) (a : Nat) (x : Cell) : (s.setCell k a x).boot = s.boot := rfl
@[simp] theorem setCell_fuses (s : State) (k : MemSel) (a : Nat) (x : Cell) : (s.setCell k a x).fuses = s.fuses := rfl
@[simp] theorem setCell_burned (s : State) (k : MemSel) (a : Nat) (x : Cell) : (s.setCell k a x).burned = s.burned := rfl
@[simp] theorem setCell_burn (s : State) (k : MemSel) (a : Nat) (x : Cell) : (s.setCell k a x).burn = s.burn := rfl
@[simp] theorem setCell_pins (s : State) (k : MemSel) (a : Nat) (x : Cell) : (s.setCell k a x).pins = s.pins := rfl
@[simp] theorem setCell_freeCtr (s : State) (k : MemSel) (a : Nat) (x : Cell) : (s.setCell k a x).freeCtr = s.freeCtr := rfl

/-! A read of the instance just written gives what was written; the others are as before. -/

@[simp] theorem setBp_bp_same (s : State) (n : Nat) (x : Bp) : (s.setBp n x).bp n = x := by simp [bp, setBp]
theorem setBp_bp_ne (s : State) {n m : Nat} (x : Bp) (h : m ≠ n) : (s.setBp n x).bp m = s.bp m := by simp [bp, setBp, Tbl.get_set_ne _ _ _ h]
theorem setBp_bp (s : State) (n m : Nat) (x : Bp) : (s.setBp n x).bp m = if m = n then x else s.bp m := by simp [bp, setBp, Tbl.get_set]
@[simp] theorem setChain_chain_same (s : State) (n : Nat) (x : Chain) : (s.setChain n x).chain n = x := by simp [chain, setChain]
theorem setChain_chain_ne (s : State) {n m : Nat} (x : Chain) (h : m ≠ n) : (s.setChain n x).chain m = s.chain m := by simp [chain, setChain, Tbl.get_set_ne _ _ _ h]
theorem setChain_chain (s : State) (n m : Nat) (x : Chain) : (s.setChain n x).chain m = if m = n then x else s.chain m := by simp [chain, setChain, Tbl.get_set]
@[simp] theorem setCx_cxPort_same (s : State) (n : Nat) (x : CxPort) : (s.setCx n x).cxPort n = x := by simp [cxPort, setCx]
theorem setCx_cxPort_ne (s : State) {n m : Nat} (x : CxPort) (h : m ≠ n) : (s.setCx n x).cxPort m = s.cxPort m := by simp [cxPort, setCx, Tbl.get_set_ne _ _ _ h]
theorem setCx_cxPort (s : State) (n m : Nat) (x : CxPort) : (s.setCx n x).cxPort m = if m = n then x else s.cxPort m := by simp [cxPort, setCx, Tbl.get_set]
@[simp] theorem setAdc_adc_same (s : State) (n : Nat) (x : Adc) : (s.setAdc n x).adc n = x := by simp [adc, setAdc]
theorem setAdc_adc_ne (s : State) {n m : Nat} (x : Adc) (h : m ≠ n) : (s.setAdc n x).adc m = s.adc m := by simp [adc, setAdc, Tbl.get_set_ne _ _ _ h]
theorem setAdc_adc (s : State) (n m : Nat) (x : Adc) : (s.setAdc n x).adc m = if m = n then x else s.adc m := by simp [adc, setAdc, Tbl.get_set]
@[simp] theorem setMc_mc_same (s : State) (n : Nat) (x : Mc) : (s.setMc n x).mc n = x := by simp [mc, setMc]
theorem setMc_mc_ne (s : State) {n m : Nat} (x : Mc) (h : m ≠ n) : (s.setMc n x).mc m = s.mc m := by simp [mc, setMc, Tbl.get_set_ne _ _ _ h]
theorem setMc_mc (s : State) (n m : Nat) (x : Mc) : (s.setMc n x).mc m = if m = n then x else s.mc m := by simp [mc, setMc, Tbl.get_set]
@[simp] theorem setLoop_loop_same (s : State) (n : Nat) (x : LoopSt) : (s.setLoop n x).loop n = x := by simp [loop, setLoop]
theorem setLoop_loop_ne (s : State) {n m : Nat} (x : LoopSt) (h : m ≠ n) : (s.setLoop n x).loop m = s.loop m := by simp [loop, setLoop, Tbl.get_set_ne _ _ _ h]
theorem setLoop_loop (s : State) (n m : Nat) (x : LoopSt) : (s.setLoop n x).loop m = if m = n then x else s.loop m := by simp [loop, setLoop, Tbl.get_set]
@[simp] theorem setEngine_engine_same (s : State) (n : Nat) (x : Engine) : (s.setEngine n x).engine n = x := by simp [engine, setEngine]
theorem setEngine_engine_ne (s : State) {n m : Nat} (x : Engine) (h : m ≠ n) : (s.setEngine n x).engine m = s.engine m := by simp [engine, setEngine, Tbl.get_set_ne _ _ _ h]
theorem setEngine_engine (s : State) (n m : Nat) (x : Engine) : (s.setEngine n x).engine m = if m = n then x else s.engine m := by simp [engine, setEngine, Tbl.get_set]
@[simp] theorem setLighter_lighter_same (s : State) (n : Nat) (x : Lighter) : (s.setLighter n x).lighter n = x := by simp [lighter, setLighter]
theorem setLighter_lighter_ne (s : State) {n m : Nat} (x : Lighter) (h : m ≠ n) : (s.setLighter n x).lighter m = s.lighter m := by simp [lighter, setLighter, Tbl.get_set_ne _ _ _ h]
theorem setLighter_lighter (s : State) (n m : Nat) (x : Lighter) : (s.setLighter n x).lighter m = if m = n then x else s.lighter m := by simp [lighter, setLighter, Tbl.get_set]
@[simp] theorem setTap_tap_same (s : State) (n : Nat) (x : Taps) : (s.setTap n x).tap n = x := by simp [tap, setTap]
theorem setTap_tap_ne (s : State) {n m : Nat} (x : Taps) (h : m ≠ n) : (s.setTap n x).tap m = s.tap m := by simp [tap, setTap, Tbl.get_set_ne _ _ _ h]
theorem setTap_tap (s : State) (n m : Nat) (x : Taps) : (s.setTap n x).tap m = if m = n then x else s.tap m := by simp [tap, setTap, Tbl.get_set]
@[simp] theorem setPort_port_same (s : State) (n : Nat) (x : Port) : (s.setPort n x).port n = x := by simp [port, setPort]
theorem setPort_port_ne (s : State) {n m : Nat} (x : Port) (h : m ≠ n) : (s.setPort n x).port m = s.port m := by simp [port, setPort, Tbl.get_set_ne _ _ _ h]
theorem setPort_port (s : State) (n m : Nat) (x : Port) : (s.setPort n x).port m = if m = n then x else s.port m := by simp [port, setPort, Tbl.get_set]
@[simp] theorem setResampler_resampler_same (s : State) (n : Nat) (x : RsmpSt) : (s.setResampler n x).resampler n = x := by simp [resampler, setResampler]
theorem setResampler_resampler_ne (s : State) {n m : Nat} (x : RsmpSt) (h : m ≠ n) : (s.setResampler n x).resampler m = s.resampler m := by simp [resampler, setResampler, Tbl.get_set_ne _ _ _ h]
theorem setResampler_resampler (s : State) (n m : Nat) (x : RsmpSt) : (s.setResampler n x).resampler m = if m = n then x else s.resampler m := by simp [resampler, setResampler, Tbl.get_set]
@[simp] theorem setTslot_tslot_same (s : State) (n : Nat) (x : TSlot) : (s.setTslot n x).tslot n = x := by simp [tslot, setTslot]
theorem setTslot_tslot_ne (s : State) {n m : Nat} (x : TSlot) (h : m ≠ n) : (s.setTslot n x).tslot m = s.tslot m := by simp [tslot, setTslot, Tbl.get_set_ne _ _ _ h]
theorem setTslot_tslot (s : State) (n m : Nat) (x : TSlot) : (s.setTslot n x).tslot m = if m = n then x else s.tslot m := by simp [tslot, setTslot, Tbl.get_set]
@[simp] theorem setBpTherm_bpTherm_same (s : State) (n : Nat) (x : BpTherm) : (s.setBpTherm n x).bpTherm n = x := by simp [bpTherm, setBpTherm]
theorem setBpTherm_bpTherm_ne (s : State) {n m : Nat} (x : BpTherm) (h : m ≠ n) : (s.setBpTherm n x).bpTherm m = s.bpTherm m := by simp [bpTherm, setBpTherm, Tbl.get_set_ne _ _ _ h]
theorem setBpTherm_bpTherm (s : State) (n m : Nat) (x : BpTherm) : (s.setBpTherm n x).bpTherm m = if m = n then x else s.bpTherm m := by simp [bpTherm, setBpTherm, Tbl.get_set]

/-! An instance a different update does not reach. -/

@[simp] theorem setChain_bp_frame (s : State) (n : Nat) (x : Chain) (m : Nat) : (s.setChain n x).bp m = s.bp m := rfl
@[simp] theorem setCx_bp_frame (s : State) (n : Nat) (x : CxPort) (m : Nat) : (s.setCx n x).bp m = s.bp m := rfl
@[simp] theorem setAdc_bp_frame (s : State) (n : Nat) (x : Adc) (m : Nat) : (s.setAdc n x).bp m = s.bp m := rfl
@[simp] theorem setMc_bp_frame (s : State) (n : Nat) (x : Mc) (m : Nat) : (s.setMc n x).bp m = s.bp m := rfl
@[simp] theorem setLoop_bp_frame (s : State) (n : Nat) (x : LoopSt) (m : Nat) : (s.setLoop n x).bp m = s.bp m := rfl
@[simp] theorem setEngine_bp_frame (s : State) (n : Nat) (x : Engine) (m : Nat) : (s.setEngine n x).bp m = s.bp m := rfl
@[simp] theorem setLighter_bp_frame (s : State) (n : Nat) (x : Lighter) (m : Nat) : (s.setLighter n x).bp m = s.bp m := rfl
@[simp] theorem setTap_bp_frame (s : State) (n : Nat) (x : Taps) (m : Nat) : (s.setTap n x).bp m = s.bp m := rfl
@[simp] theorem setPort_bp_frame (s : State) (n : Nat) (x : Port) (m : Nat) : (s.setPort n x).bp m = s.bp m := rfl
@[simp] theorem setResampler_bp_frame (s : State) (n : Nat) (x : RsmpSt) (m : Nat) : (s.setResampler n x).bp m = s.bp m := rfl
@[simp] theorem setTslot_bp_frame (s : State) (n : Nat) (x : TSlot) (m : Nat) : (s.setTslot n x).bp m = s.bp m := rfl
@[simp] theorem setBpTherm_bp_frame (s : State) (n : Nat) (x : BpTherm) (m : Nat) : (s.setBpTherm n x).bp m = s.bp m := rfl
@[simp] theorem setReg_bp_frame (s : State) (n : Nat) (x : Word) (m : Nat) : (s.setReg n x).bp m = s.bp m := rfl
@[simp] theorem wr_bp_frame (s : State) (n : Fld) (x : Nat) (m : Nat) : (s.wr n x).bp m = s.bp m := rfl
@[simp] theorem wrB_bp_frame (s : State) (n : Fld) (x : Bool) (m : Nat) : (s.wrB n x).bp m = s.bp m := rfl
@[simp] theorem setCell_bp_frame (s : State) (k : MemSel) (n : Nat) (x : Cell) (m : Nat) : (s.setCell k n x).bp m = s.bp m := rfl
@[simp] theorem setBp_chain_frame (s : State) (n : Nat) (x : Bp) (m : Nat) : (s.setBp n x).chain m = s.chain m := rfl
@[simp] theorem setCx_chain_frame (s : State) (n : Nat) (x : CxPort) (m : Nat) : (s.setCx n x).chain m = s.chain m := rfl
@[simp] theorem setAdc_chain_frame (s : State) (n : Nat) (x : Adc) (m : Nat) : (s.setAdc n x).chain m = s.chain m := rfl
@[simp] theorem setMc_chain_frame (s : State) (n : Nat) (x : Mc) (m : Nat) : (s.setMc n x).chain m = s.chain m := rfl
@[simp] theorem setLoop_chain_frame (s : State) (n : Nat) (x : LoopSt) (m : Nat) : (s.setLoop n x).chain m = s.chain m := rfl
@[simp] theorem setEngine_chain_frame (s : State) (n : Nat) (x : Engine) (m : Nat) : (s.setEngine n x).chain m = s.chain m := rfl
@[simp] theorem setLighter_chain_frame (s : State) (n : Nat) (x : Lighter) (m : Nat) : (s.setLighter n x).chain m = s.chain m := rfl
@[simp] theorem setTap_chain_frame (s : State) (n : Nat) (x : Taps) (m : Nat) : (s.setTap n x).chain m = s.chain m := rfl
@[simp] theorem setPort_chain_frame (s : State) (n : Nat) (x : Port) (m : Nat) : (s.setPort n x).chain m = s.chain m := rfl
@[simp] theorem setResampler_chain_frame (s : State) (n : Nat) (x : RsmpSt) (m : Nat) : (s.setResampler n x).chain m = s.chain m := rfl
@[simp] theorem setTslot_chain_frame (s : State) (n : Nat) (x : TSlot) (m : Nat) : (s.setTslot n x).chain m = s.chain m := rfl
@[simp] theorem setBpTherm_chain_frame (s : State) (n : Nat) (x : BpTherm) (m : Nat) : (s.setBpTherm n x).chain m = s.chain m := rfl
@[simp] theorem setReg_chain_frame (s : State) (n : Nat) (x : Word) (m : Nat) : (s.setReg n x).chain m = s.chain m := rfl
@[simp] theorem wr_chain_frame (s : State) (n : Fld) (x : Nat) (m : Nat) : (s.wr n x).chain m = s.chain m := rfl
@[simp] theorem wrB_chain_frame (s : State) (n : Fld) (x : Bool) (m : Nat) : (s.wrB n x).chain m = s.chain m := rfl
@[simp] theorem setCell_chain_frame (s : State) (k : MemSel) (n : Nat) (x : Cell) (m : Nat) : (s.setCell k n x).chain m = s.chain m := rfl
@[simp] theorem setBp_cxPort_frame (s : State) (n : Nat) (x : Bp) (m : Nat) : (s.setBp n x).cxPort m = s.cxPort m := rfl
@[simp] theorem setChain_cxPort_frame (s : State) (n : Nat) (x : Chain) (m : Nat) : (s.setChain n x).cxPort m = s.cxPort m := rfl
@[simp] theorem setAdc_cxPort_frame (s : State) (n : Nat) (x : Adc) (m : Nat) : (s.setAdc n x).cxPort m = s.cxPort m := rfl
@[simp] theorem setMc_cxPort_frame (s : State) (n : Nat) (x : Mc) (m : Nat) : (s.setMc n x).cxPort m = s.cxPort m := rfl
@[simp] theorem setLoop_cxPort_frame (s : State) (n : Nat) (x : LoopSt) (m : Nat) : (s.setLoop n x).cxPort m = s.cxPort m := rfl
@[simp] theorem setEngine_cxPort_frame (s : State) (n : Nat) (x : Engine) (m : Nat) : (s.setEngine n x).cxPort m = s.cxPort m := rfl
@[simp] theorem setLighter_cxPort_frame (s : State) (n : Nat) (x : Lighter) (m : Nat) : (s.setLighter n x).cxPort m = s.cxPort m := rfl
@[simp] theorem setTap_cxPort_frame (s : State) (n : Nat) (x : Taps) (m : Nat) : (s.setTap n x).cxPort m = s.cxPort m := rfl
@[simp] theorem setPort_cxPort_frame (s : State) (n : Nat) (x : Port) (m : Nat) : (s.setPort n x).cxPort m = s.cxPort m := rfl
@[simp] theorem setResampler_cxPort_frame (s : State) (n : Nat) (x : RsmpSt) (m : Nat) : (s.setResampler n x).cxPort m = s.cxPort m := rfl
@[simp] theorem setTslot_cxPort_frame (s : State) (n : Nat) (x : TSlot) (m : Nat) : (s.setTslot n x).cxPort m = s.cxPort m := rfl
@[simp] theorem setBpTherm_cxPort_frame (s : State) (n : Nat) (x : BpTherm) (m : Nat) : (s.setBpTherm n x).cxPort m = s.cxPort m := rfl
@[simp] theorem setReg_cxPort_frame (s : State) (n : Nat) (x : Word) (m : Nat) : (s.setReg n x).cxPort m = s.cxPort m := rfl
@[simp] theorem wr_cxPort_frame (s : State) (n : Fld) (x : Nat) (m : Nat) : (s.wr n x).cxPort m = s.cxPort m := rfl
@[simp] theorem wrB_cxPort_frame (s : State) (n : Fld) (x : Bool) (m : Nat) : (s.wrB n x).cxPort m = s.cxPort m := rfl
@[simp] theorem setCell_cxPort_frame (s : State) (k : MemSel) (n : Nat) (x : Cell) (m : Nat) : (s.setCell k n x).cxPort m = s.cxPort m := rfl
@[simp] theorem setBp_adc_frame (s : State) (n : Nat) (x : Bp) (m : Nat) : (s.setBp n x).adc m = s.adc m := rfl
@[simp] theorem setChain_adc_frame (s : State) (n : Nat) (x : Chain) (m : Nat) : (s.setChain n x).adc m = s.adc m := rfl
@[simp] theorem setCx_adc_frame (s : State) (n : Nat) (x : CxPort) (m : Nat) : (s.setCx n x).adc m = s.adc m := rfl
@[simp] theorem setMc_adc_frame (s : State) (n : Nat) (x : Mc) (m : Nat) : (s.setMc n x).adc m = s.adc m := rfl
@[simp] theorem setLoop_adc_frame (s : State) (n : Nat) (x : LoopSt) (m : Nat) : (s.setLoop n x).adc m = s.adc m := rfl
@[simp] theorem setEngine_adc_frame (s : State) (n : Nat) (x : Engine) (m : Nat) : (s.setEngine n x).adc m = s.adc m := rfl
@[simp] theorem setLighter_adc_frame (s : State) (n : Nat) (x : Lighter) (m : Nat) : (s.setLighter n x).adc m = s.adc m := rfl
@[simp] theorem setTap_adc_frame (s : State) (n : Nat) (x : Taps) (m : Nat) : (s.setTap n x).adc m = s.adc m := rfl
@[simp] theorem setPort_adc_frame (s : State) (n : Nat) (x : Port) (m : Nat) : (s.setPort n x).adc m = s.adc m := rfl
@[simp] theorem setResampler_adc_frame (s : State) (n : Nat) (x : RsmpSt) (m : Nat) : (s.setResampler n x).adc m = s.adc m := rfl
@[simp] theorem setTslot_adc_frame (s : State) (n : Nat) (x : TSlot) (m : Nat) : (s.setTslot n x).adc m = s.adc m := rfl
@[simp] theorem setBpTherm_adc_frame (s : State) (n : Nat) (x : BpTherm) (m : Nat) : (s.setBpTherm n x).adc m = s.adc m := rfl
@[simp] theorem setReg_adc_frame (s : State) (n : Nat) (x : Word) (m : Nat) : (s.setReg n x).adc m = s.adc m := rfl
@[simp] theorem wr_adc_frame (s : State) (n : Fld) (x : Nat) (m : Nat) : (s.wr n x).adc m = s.adc m := rfl
@[simp] theorem wrB_adc_frame (s : State) (n : Fld) (x : Bool) (m : Nat) : (s.wrB n x).adc m = s.adc m := rfl
@[simp] theorem setCell_adc_frame (s : State) (k : MemSel) (n : Nat) (x : Cell) (m : Nat) : (s.setCell k n x).adc m = s.adc m := rfl
@[simp] theorem setBp_mc_frame (s : State) (n : Nat) (x : Bp) (m : Nat) : (s.setBp n x).mc m = s.mc m := rfl
@[simp] theorem setChain_mc_frame (s : State) (n : Nat) (x : Chain) (m : Nat) : (s.setChain n x).mc m = s.mc m := rfl
@[simp] theorem setCx_mc_frame (s : State) (n : Nat) (x : CxPort) (m : Nat) : (s.setCx n x).mc m = s.mc m := rfl
@[simp] theorem setAdc_mc_frame (s : State) (n : Nat) (x : Adc) (m : Nat) : (s.setAdc n x).mc m = s.mc m := rfl
@[simp] theorem setLoop_mc_frame (s : State) (n : Nat) (x : LoopSt) (m : Nat) : (s.setLoop n x).mc m = s.mc m := rfl
@[simp] theorem setEngine_mc_frame (s : State) (n : Nat) (x : Engine) (m : Nat) : (s.setEngine n x).mc m = s.mc m := rfl
@[simp] theorem setLighter_mc_frame (s : State) (n : Nat) (x : Lighter) (m : Nat) : (s.setLighter n x).mc m = s.mc m := rfl
@[simp] theorem setTap_mc_frame (s : State) (n : Nat) (x : Taps) (m : Nat) : (s.setTap n x).mc m = s.mc m := rfl
@[simp] theorem setPort_mc_frame (s : State) (n : Nat) (x : Port) (m : Nat) : (s.setPort n x).mc m = s.mc m := rfl
@[simp] theorem setResampler_mc_frame (s : State) (n : Nat) (x : RsmpSt) (m : Nat) : (s.setResampler n x).mc m = s.mc m := rfl
@[simp] theorem setTslot_mc_frame (s : State) (n : Nat) (x : TSlot) (m : Nat) : (s.setTslot n x).mc m = s.mc m := rfl
@[simp] theorem setBpTherm_mc_frame (s : State) (n : Nat) (x : BpTherm) (m : Nat) : (s.setBpTherm n x).mc m = s.mc m := rfl
@[simp] theorem setReg_mc_frame (s : State) (n : Nat) (x : Word) (m : Nat) : (s.setReg n x).mc m = s.mc m := rfl
@[simp] theorem wr_mc_frame (s : State) (n : Fld) (x : Nat) (m : Nat) : (s.wr n x).mc m = s.mc m := rfl
@[simp] theorem wrB_mc_frame (s : State) (n : Fld) (x : Bool) (m : Nat) : (s.wrB n x).mc m = s.mc m := rfl
@[simp] theorem setCell_mc_frame (s : State) (k : MemSel) (n : Nat) (x : Cell) (m : Nat) : (s.setCell k n x).mc m = s.mc m := rfl
@[simp] theorem setBp_loop_frame (s : State) (n : Nat) (x : Bp) (m : Nat) : (s.setBp n x).loop m = s.loop m := rfl
@[simp] theorem setChain_loop_frame (s : State) (n : Nat) (x : Chain) (m : Nat) : (s.setChain n x).loop m = s.loop m := rfl
@[simp] theorem setCx_loop_frame (s : State) (n : Nat) (x : CxPort) (m : Nat) : (s.setCx n x).loop m = s.loop m := rfl
@[simp] theorem setAdc_loop_frame (s : State) (n : Nat) (x : Adc) (m : Nat) : (s.setAdc n x).loop m = s.loop m := rfl
@[simp] theorem setMc_loop_frame (s : State) (n : Nat) (x : Mc) (m : Nat) : (s.setMc n x).loop m = s.loop m := rfl
@[simp] theorem setEngine_loop_frame (s : State) (n : Nat) (x : Engine) (m : Nat) : (s.setEngine n x).loop m = s.loop m := rfl
@[simp] theorem setLighter_loop_frame (s : State) (n : Nat) (x : Lighter) (m : Nat) : (s.setLighter n x).loop m = s.loop m := rfl
@[simp] theorem setTap_loop_frame (s : State) (n : Nat) (x : Taps) (m : Nat) : (s.setTap n x).loop m = s.loop m := rfl
@[simp] theorem setPort_loop_frame (s : State) (n : Nat) (x : Port) (m : Nat) : (s.setPort n x).loop m = s.loop m := rfl
@[simp] theorem setResampler_loop_frame (s : State) (n : Nat) (x : RsmpSt) (m : Nat) : (s.setResampler n x).loop m = s.loop m := rfl
@[simp] theorem setTslot_loop_frame (s : State) (n : Nat) (x : TSlot) (m : Nat) : (s.setTslot n x).loop m = s.loop m := rfl
@[simp] theorem setBpTherm_loop_frame (s : State) (n : Nat) (x : BpTherm) (m : Nat) : (s.setBpTherm n x).loop m = s.loop m := rfl
@[simp] theorem setReg_loop_frame (s : State) (n : Nat) (x : Word) (m : Nat) : (s.setReg n x).loop m = s.loop m := rfl
@[simp] theorem wr_loop_frame (s : State) (n : Fld) (x : Nat) (m : Nat) : (s.wr n x).loop m = s.loop m := rfl
@[simp] theorem wrB_loop_frame (s : State) (n : Fld) (x : Bool) (m : Nat) : (s.wrB n x).loop m = s.loop m := rfl
@[simp] theorem setCell_loop_frame (s : State) (k : MemSel) (n : Nat) (x : Cell) (m : Nat) : (s.setCell k n x).loop m = s.loop m := rfl
@[simp] theorem setBp_engine_frame (s : State) (n : Nat) (x : Bp) (m : Nat) : (s.setBp n x).engine m = s.engine m := rfl
@[simp] theorem setChain_engine_frame (s : State) (n : Nat) (x : Chain) (m : Nat) : (s.setChain n x).engine m = s.engine m := rfl
@[simp] theorem setCx_engine_frame (s : State) (n : Nat) (x : CxPort) (m : Nat) : (s.setCx n x).engine m = s.engine m := rfl
@[simp] theorem setAdc_engine_frame (s : State) (n : Nat) (x : Adc) (m : Nat) : (s.setAdc n x).engine m = s.engine m := rfl
@[simp] theorem setMc_engine_frame (s : State) (n : Nat) (x : Mc) (m : Nat) : (s.setMc n x).engine m = s.engine m := rfl
@[simp] theorem setLoop_engine_frame (s : State) (n : Nat) (x : LoopSt) (m : Nat) : (s.setLoop n x).engine m = s.engine m := rfl
@[simp] theorem setLighter_engine_frame (s : State) (n : Nat) (x : Lighter) (m : Nat) : (s.setLighter n x).engine m = s.engine m := rfl
@[simp] theorem setTap_engine_frame (s : State) (n : Nat) (x : Taps) (m : Nat) : (s.setTap n x).engine m = s.engine m := rfl
@[simp] theorem setPort_engine_frame (s : State) (n : Nat) (x : Port) (m : Nat) : (s.setPort n x).engine m = s.engine m := rfl
@[simp] theorem setResampler_engine_frame (s : State) (n : Nat) (x : RsmpSt) (m : Nat) : (s.setResampler n x).engine m = s.engine m := rfl
@[simp] theorem setTslot_engine_frame (s : State) (n : Nat) (x : TSlot) (m : Nat) : (s.setTslot n x).engine m = s.engine m := rfl
@[simp] theorem setBpTherm_engine_frame (s : State) (n : Nat) (x : BpTherm) (m : Nat) : (s.setBpTherm n x).engine m = s.engine m := rfl
@[simp] theorem setReg_engine_frame (s : State) (n : Nat) (x : Word) (m : Nat) : (s.setReg n x).engine m = s.engine m := rfl
@[simp] theorem wr_engine_frame (s : State) (n : Fld) (x : Nat) (m : Nat) : (s.wr n x).engine m = s.engine m := rfl
@[simp] theorem wrB_engine_frame (s : State) (n : Fld) (x : Bool) (m : Nat) : (s.wrB n x).engine m = s.engine m := rfl
@[simp] theorem setCell_engine_frame (s : State) (k : MemSel) (n : Nat) (x : Cell) (m : Nat) : (s.setCell k n x).engine m = s.engine m := rfl
@[simp] theorem setBp_lighter_frame (s : State) (n : Nat) (x : Bp) (m : Nat) : (s.setBp n x).lighter m = s.lighter m := rfl
@[simp] theorem setChain_lighter_frame (s : State) (n : Nat) (x : Chain) (m : Nat) : (s.setChain n x).lighter m = s.lighter m := rfl
@[simp] theorem setCx_lighter_frame (s : State) (n : Nat) (x : CxPort) (m : Nat) : (s.setCx n x).lighter m = s.lighter m := rfl
@[simp] theorem setAdc_lighter_frame (s : State) (n : Nat) (x : Adc) (m : Nat) : (s.setAdc n x).lighter m = s.lighter m := rfl
@[simp] theorem setMc_lighter_frame (s : State) (n : Nat) (x : Mc) (m : Nat) : (s.setMc n x).lighter m = s.lighter m := rfl
@[simp] theorem setLoop_lighter_frame (s : State) (n : Nat) (x : LoopSt) (m : Nat) : (s.setLoop n x).lighter m = s.lighter m := rfl
@[simp] theorem setEngine_lighter_frame (s : State) (n : Nat) (x : Engine) (m : Nat) : (s.setEngine n x).lighter m = s.lighter m := rfl
@[simp] theorem setTap_lighter_frame (s : State) (n : Nat) (x : Taps) (m : Nat) : (s.setTap n x).lighter m = s.lighter m := rfl
@[simp] theorem setPort_lighter_frame (s : State) (n : Nat) (x : Port) (m : Nat) : (s.setPort n x).lighter m = s.lighter m := rfl
@[simp] theorem setResampler_lighter_frame (s : State) (n : Nat) (x : RsmpSt) (m : Nat) : (s.setResampler n x).lighter m = s.lighter m := rfl
@[simp] theorem setTslot_lighter_frame (s : State) (n : Nat) (x : TSlot) (m : Nat) : (s.setTslot n x).lighter m = s.lighter m := rfl
@[simp] theorem setBpTherm_lighter_frame (s : State) (n : Nat) (x : BpTherm) (m : Nat) : (s.setBpTherm n x).lighter m = s.lighter m := rfl
@[simp] theorem setReg_lighter_frame (s : State) (n : Nat) (x : Word) (m : Nat) : (s.setReg n x).lighter m = s.lighter m := rfl
@[simp] theorem wr_lighter_frame (s : State) (n : Fld) (x : Nat) (m : Nat) : (s.wr n x).lighter m = s.lighter m := rfl
@[simp] theorem wrB_lighter_frame (s : State) (n : Fld) (x : Bool) (m : Nat) : (s.wrB n x).lighter m = s.lighter m := rfl
@[simp] theorem setCell_lighter_frame (s : State) (k : MemSel) (n : Nat) (x : Cell) (m : Nat) : (s.setCell k n x).lighter m = s.lighter m := rfl
@[simp] theorem setBp_tap_frame (s : State) (n : Nat) (x : Bp) (m : Nat) : (s.setBp n x).tap m = s.tap m := rfl
@[simp] theorem setChain_tap_frame (s : State) (n : Nat) (x : Chain) (m : Nat) : (s.setChain n x).tap m = s.tap m := rfl
@[simp] theorem setCx_tap_frame (s : State) (n : Nat) (x : CxPort) (m : Nat) : (s.setCx n x).tap m = s.tap m := rfl
@[simp] theorem setAdc_tap_frame (s : State) (n : Nat) (x : Adc) (m : Nat) : (s.setAdc n x).tap m = s.tap m := rfl
@[simp] theorem setMc_tap_frame (s : State) (n : Nat) (x : Mc) (m : Nat) : (s.setMc n x).tap m = s.tap m := rfl
@[simp] theorem setLoop_tap_frame (s : State) (n : Nat) (x : LoopSt) (m : Nat) : (s.setLoop n x).tap m = s.tap m := rfl
@[simp] theorem setEngine_tap_frame (s : State) (n : Nat) (x : Engine) (m : Nat) : (s.setEngine n x).tap m = s.tap m := rfl
@[simp] theorem setLighter_tap_frame (s : State) (n : Nat) (x : Lighter) (m : Nat) : (s.setLighter n x).tap m = s.tap m := rfl
@[simp] theorem setPort_tap_frame (s : State) (n : Nat) (x : Port) (m : Nat) : (s.setPort n x).tap m = s.tap m := rfl
@[simp] theorem setResampler_tap_frame (s : State) (n : Nat) (x : RsmpSt) (m : Nat) : (s.setResampler n x).tap m = s.tap m := rfl
@[simp] theorem setTslot_tap_frame (s : State) (n : Nat) (x : TSlot) (m : Nat) : (s.setTslot n x).tap m = s.tap m := rfl
@[simp] theorem setBpTherm_tap_frame (s : State) (n : Nat) (x : BpTherm) (m : Nat) : (s.setBpTherm n x).tap m = s.tap m := rfl
@[simp] theorem setReg_tap_frame (s : State) (n : Nat) (x : Word) (m : Nat) : (s.setReg n x).tap m = s.tap m := rfl
@[simp] theorem wr_tap_frame (s : State) (n : Fld) (x : Nat) (m : Nat) : (s.wr n x).tap m = s.tap m := rfl
@[simp] theorem wrB_tap_frame (s : State) (n : Fld) (x : Bool) (m : Nat) : (s.wrB n x).tap m = s.tap m := rfl
@[simp] theorem setCell_tap_frame (s : State) (k : MemSel) (n : Nat) (x : Cell) (m : Nat) : (s.setCell k n x).tap m = s.tap m := rfl
@[simp] theorem setBp_port_frame (s : State) (n : Nat) (x : Bp) (m : Nat) : (s.setBp n x).port m = s.port m := rfl
@[simp] theorem setChain_port_frame (s : State) (n : Nat) (x : Chain) (m : Nat) : (s.setChain n x).port m = s.port m := rfl
@[simp] theorem setCx_port_frame (s : State) (n : Nat) (x : CxPort) (m : Nat) : (s.setCx n x).port m = s.port m := rfl
@[simp] theorem setAdc_port_frame (s : State) (n : Nat) (x : Adc) (m : Nat) : (s.setAdc n x).port m = s.port m := rfl
@[simp] theorem setMc_port_frame (s : State) (n : Nat) (x : Mc) (m : Nat) : (s.setMc n x).port m = s.port m := rfl
@[simp] theorem setLoop_port_frame (s : State) (n : Nat) (x : LoopSt) (m : Nat) : (s.setLoop n x).port m = s.port m := rfl
@[simp] theorem setEngine_port_frame (s : State) (n : Nat) (x : Engine) (m : Nat) : (s.setEngine n x).port m = s.port m := rfl
@[simp] theorem setLighter_port_frame (s : State) (n : Nat) (x : Lighter) (m : Nat) : (s.setLighter n x).port m = s.port m := rfl
@[simp] theorem setTap_port_frame (s : State) (n : Nat) (x : Taps) (m : Nat) : (s.setTap n x).port m = s.port m := rfl
@[simp] theorem setResampler_port_frame (s : State) (n : Nat) (x : RsmpSt) (m : Nat) : (s.setResampler n x).port m = s.port m := rfl
@[simp] theorem setTslot_port_frame (s : State) (n : Nat) (x : TSlot) (m : Nat) : (s.setTslot n x).port m = s.port m := rfl
@[simp] theorem setBpTherm_port_frame (s : State) (n : Nat) (x : BpTherm) (m : Nat) : (s.setBpTherm n x).port m = s.port m := rfl
@[simp] theorem setReg_port_frame (s : State) (n : Nat) (x : Word) (m : Nat) : (s.setReg n x).port m = s.port m := rfl
@[simp] theorem wr_port_frame (s : State) (n : Fld) (x : Nat) (m : Nat) : (s.wr n x).port m = s.port m := rfl
@[simp] theorem wrB_port_frame (s : State) (n : Fld) (x : Bool) (m : Nat) : (s.wrB n x).port m = s.port m := rfl
@[simp] theorem setCell_port_frame (s : State) (k : MemSel) (n : Nat) (x : Cell) (m : Nat) : (s.setCell k n x).port m = s.port m := rfl
@[simp] theorem setBp_resampler_frame (s : State) (n : Nat) (x : Bp) (m : Nat) : (s.setBp n x).resampler m = s.resampler m := rfl
@[simp] theorem setChain_resampler_frame (s : State) (n : Nat) (x : Chain) (m : Nat) : (s.setChain n x).resampler m = s.resampler m := rfl
@[simp] theorem setCx_resampler_frame (s : State) (n : Nat) (x : CxPort) (m : Nat) : (s.setCx n x).resampler m = s.resampler m := rfl
@[simp] theorem setAdc_resampler_frame (s : State) (n : Nat) (x : Adc) (m : Nat) : (s.setAdc n x).resampler m = s.resampler m := rfl
@[simp] theorem setMc_resampler_frame (s : State) (n : Nat) (x : Mc) (m : Nat) : (s.setMc n x).resampler m = s.resampler m := rfl
@[simp] theorem setLoop_resampler_frame (s : State) (n : Nat) (x : LoopSt) (m : Nat) : (s.setLoop n x).resampler m = s.resampler m := rfl
@[simp] theorem setEngine_resampler_frame (s : State) (n : Nat) (x : Engine) (m : Nat) : (s.setEngine n x).resampler m = s.resampler m := rfl
@[simp] theorem setLighter_resampler_frame (s : State) (n : Nat) (x : Lighter) (m : Nat) : (s.setLighter n x).resampler m = s.resampler m := rfl
@[simp] theorem setTap_resampler_frame (s : State) (n : Nat) (x : Taps) (m : Nat) : (s.setTap n x).resampler m = s.resampler m := rfl
@[simp] theorem setPort_resampler_frame (s : State) (n : Nat) (x : Port) (m : Nat) : (s.setPort n x).resampler m = s.resampler m := rfl
@[simp] theorem setTslot_resampler_frame (s : State) (n : Nat) (x : TSlot) (m : Nat) : (s.setTslot n x).resampler m = s.resampler m := rfl
@[simp] theorem setBpTherm_resampler_frame (s : State) (n : Nat) (x : BpTherm) (m : Nat) : (s.setBpTherm n x).resampler m = s.resampler m := rfl
@[simp] theorem setReg_resampler_frame (s : State) (n : Nat) (x : Word) (m : Nat) : (s.setReg n x).resampler m = s.resampler m := rfl
@[simp] theorem wr_resampler_frame (s : State) (n : Fld) (x : Nat) (m : Nat) : (s.wr n x).resampler m = s.resampler m := rfl
@[simp] theorem wrB_resampler_frame (s : State) (n : Fld) (x : Bool) (m : Nat) : (s.wrB n x).resampler m = s.resampler m := rfl
@[simp] theorem setCell_resampler_frame (s : State) (k : MemSel) (n : Nat) (x : Cell) (m : Nat) : (s.setCell k n x).resampler m = s.resampler m := rfl
@[simp] theorem setBp_tslot_frame (s : State) (n : Nat) (x : Bp) (m : Nat) : (s.setBp n x).tslot m = s.tslot m := rfl
@[simp] theorem setChain_tslot_frame (s : State) (n : Nat) (x : Chain) (m : Nat) : (s.setChain n x).tslot m = s.tslot m := rfl
@[simp] theorem setCx_tslot_frame (s : State) (n : Nat) (x : CxPort) (m : Nat) : (s.setCx n x).tslot m = s.tslot m := rfl
@[simp] theorem setAdc_tslot_frame (s : State) (n : Nat) (x : Adc) (m : Nat) : (s.setAdc n x).tslot m = s.tslot m := rfl
@[simp] theorem setMc_tslot_frame (s : State) (n : Nat) (x : Mc) (m : Nat) : (s.setMc n x).tslot m = s.tslot m := rfl
@[simp] theorem setLoop_tslot_frame (s : State) (n : Nat) (x : LoopSt) (m : Nat) : (s.setLoop n x).tslot m = s.tslot m := rfl
@[simp] theorem setEngine_tslot_frame (s : State) (n : Nat) (x : Engine) (m : Nat) : (s.setEngine n x).tslot m = s.tslot m := rfl
@[simp] theorem setLighter_tslot_frame (s : State) (n : Nat) (x : Lighter) (m : Nat) : (s.setLighter n x).tslot m = s.tslot m := rfl
@[simp] theorem setTap_tslot_frame (s : State) (n : Nat) (x : Taps) (m : Nat) : (s.setTap n x).tslot m = s.tslot m := rfl
@[simp] theorem setPort_tslot_frame (s : State) (n : Nat) (x : Port) (m : Nat) : (s.setPort n x).tslot m = s.tslot m := rfl
@[simp] theorem setResampler_tslot_frame (s : State) (n : Nat) (x : RsmpSt) (m : Nat) : (s.setResampler n x).tslot m = s.tslot m := rfl
@[simp] theorem setBpTherm_tslot_frame (s : State) (n : Nat) (x : BpTherm) (m : Nat) : (s.setBpTherm n x).tslot m = s.tslot m := rfl
@[simp] theorem setReg_tslot_frame (s : State) (n : Nat) (x : Word) (m : Nat) : (s.setReg n x).tslot m = s.tslot m := rfl
@[simp] theorem wr_tslot_frame (s : State) (n : Fld) (x : Nat) (m : Nat) : (s.wr n x).tslot m = s.tslot m := rfl
@[simp] theorem wrB_tslot_frame (s : State) (n : Fld) (x : Bool) (m : Nat) : (s.wrB n x).tslot m = s.tslot m := rfl
@[simp] theorem setCell_tslot_frame (s : State) (k : MemSel) (n : Nat) (x : Cell) (m : Nat) : (s.setCell k n x).tslot m = s.tslot m := rfl
@[simp] theorem setBp_bpTherm_frame (s : State) (n : Nat) (x : Bp) (m : Nat) : (s.setBp n x).bpTherm m = s.bpTherm m := rfl
@[simp] theorem setChain_bpTherm_frame (s : State) (n : Nat) (x : Chain) (m : Nat) : (s.setChain n x).bpTherm m = s.bpTherm m := rfl
@[simp] theorem setCx_bpTherm_frame (s : State) (n : Nat) (x : CxPort) (m : Nat) : (s.setCx n x).bpTherm m = s.bpTherm m := rfl
@[simp] theorem setAdc_bpTherm_frame (s : State) (n : Nat) (x : Adc) (m : Nat) : (s.setAdc n x).bpTherm m = s.bpTherm m := rfl
@[simp] theorem setMc_bpTherm_frame (s : State) (n : Nat) (x : Mc) (m : Nat) : (s.setMc n x).bpTherm m = s.bpTherm m := rfl
@[simp] theorem setLoop_bpTherm_frame (s : State) (n : Nat) (x : LoopSt) (m : Nat) : (s.setLoop n x).bpTherm m = s.bpTherm m := rfl
@[simp] theorem setEngine_bpTherm_frame (s : State) (n : Nat) (x : Engine) (m : Nat) : (s.setEngine n x).bpTherm m = s.bpTherm m := rfl
@[simp] theorem setLighter_bpTherm_frame (s : State) (n : Nat) (x : Lighter) (m : Nat) : (s.setLighter n x).bpTherm m = s.bpTherm m := rfl
@[simp] theorem setTap_bpTherm_frame (s : State) (n : Nat) (x : Taps) (m : Nat) : (s.setTap n x).bpTherm m = s.bpTherm m := rfl
@[simp] theorem setPort_bpTherm_frame (s : State) (n : Nat) (x : Port) (m : Nat) : (s.setPort n x).bpTherm m = s.bpTherm m := rfl
@[simp] theorem setResampler_bpTherm_frame (s : State) (n : Nat) (x : RsmpSt) (m : Nat) : (s.setResampler n x).bpTherm m = s.bpTherm m := rfl
@[simp] theorem setTslot_bpTherm_frame (s : State) (n : Nat) (x : TSlot) (m : Nat) : (s.setTslot n x).bpTherm m = s.bpTherm m := rfl
@[simp] theorem setReg_bpTherm_frame (s : State) (n : Nat) (x : Word) (m : Nat) : (s.setReg n x).bpTherm m = s.bpTherm m := rfl
@[simp] theorem wr_bpTherm_frame (s : State) (n : Fld) (x : Nat) (m : Nat) : (s.wr n x).bpTherm m = s.bpTherm m := rfl
@[simp] theorem wrB_bpTherm_frame (s : State) (n : Fld) (x : Bool) (m : Nat) : (s.wrB n x).bpTherm m = s.bpTherm m := rfl
@[simp] theorem setCell_bpTherm_frame (s : State) (k : MemSel) (n : Nat) (x : Cell) (m : Nat) : (s.setCell k n x).bpTherm m = s.bpTherm m := rfl

/-! Registers and their fields. -/

@[simp] theorem setReg_reg_same (s : State) (a : Nat) (w : Word) : (s.setReg a w).reg a = w := by simp [reg, setReg]
theorem setReg_reg_ne (s : State) {a b : Nat} (w : Word) (h : b ≠ a) : (s.setReg a w).reg b = s.reg b := by simp [reg, setReg, Tbl.get_set_ne _ _ _ h]
theorem wr_reg_same (s : State) (f : Fld) (v : Nat) : (s.wr f v).reg f.addr = putBits (s.reg f.addr) f.hi f.lo v := by simp [wr]
theorem wr_reg_ne (s : State) {f : Fld} {a : Nat} (v : Nat) (h : a ≠ f.addr) : (s.wr f v).reg a = s.reg a := by simp [wr, setReg_reg_ne _ _ h]
theorem wr_rd_ne (s : State) {f g : Fld} (v : Nat) (h : g.addr ≠ f.addr) : (s.wr f v).rd g = s.rd g := by simp [rd, wr_reg_ne _ _ h]
@[simp] theorem setBp_reg (s : State) (n : Nat) (x : Bp) (a : Nat) : (s.setBp n x).reg a = s.reg a := rfl
@[simp] theorem setBp_rd (s : State) (n : Nat) (x : Bp) (f : Fld) : (s.setBp n x).rd f = s.rd f := rfl
@[simp] theorem setChain_reg (s : State) (n : Nat) (x : Chain) (a : Nat) : (s.setChain n x).reg a = s.reg a := rfl
@[simp] theorem setChain_rd (s : State) (n : Nat) (x : Chain) (f : Fld) : (s.setChain n x).rd f = s.rd f := rfl
@[simp] theorem setCx_reg (s : State) (n : Nat) (x : CxPort) (a : Nat) : (s.setCx n x).reg a = s.reg a := rfl
@[simp] theorem setCx_rd (s : State) (n : Nat) (x : CxPort) (f : Fld) : (s.setCx n x).rd f = s.rd f := rfl
@[simp] theorem setAdc_reg (s : State) (n : Nat) (x : Adc) (a : Nat) : (s.setAdc n x).reg a = s.reg a := rfl
@[simp] theorem setAdc_rd (s : State) (n : Nat) (x : Adc) (f : Fld) : (s.setAdc n x).rd f = s.rd f := rfl
@[simp] theorem setMc_reg (s : State) (n : Nat) (x : Mc) (a : Nat) : (s.setMc n x).reg a = s.reg a := rfl
@[simp] theorem setMc_rd (s : State) (n : Nat) (x : Mc) (f : Fld) : (s.setMc n x).rd f = s.rd f := rfl
@[simp] theorem setLoop_reg (s : State) (n : Nat) (x : LoopSt) (a : Nat) : (s.setLoop n x).reg a = s.reg a := rfl
@[simp] theorem setLoop_rd (s : State) (n : Nat) (x : LoopSt) (f : Fld) : (s.setLoop n x).rd f = s.rd f := rfl
@[simp] theorem setEngine_reg (s : State) (n : Nat) (x : Engine) (a : Nat) : (s.setEngine n x).reg a = s.reg a := rfl
@[simp] theorem setEngine_rd (s : State) (n : Nat) (x : Engine) (f : Fld) : (s.setEngine n x).rd f = s.rd f := rfl
@[simp] theorem setLighter_reg (s : State) (n : Nat) (x : Lighter) (a : Nat) : (s.setLighter n x).reg a = s.reg a := rfl
@[simp] theorem setLighter_rd (s : State) (n : Nat) (x : Lighter) (f : Fld) : (s.setLighter n x).rd f = s.rd f := rfl
@[simp] theorem setTap_reg (s : State) (n : Nat) (x : Taps) (a : Nat) : (s.setTap n x).reg a = s.reg a := rfl
@[simp] theorem setTap_rd (s : State) (n : Nat) (x : Taps) (f : Fld) : (s.setTap n x).rd f = s.rd f := rfl
@[simp] theorem setPort_reg (s : State) (n : Nat) (x : Port) (a : Nat) : (s.setPort n x).reg a = s.reg a := rfl
@[simp] theorem setPort_rd (s : State) (n : Nat) (x : Port) (f : Fld) : (s.setPort n x).rd f = s.rd f := rfl
@[simp] theorem setResampler_reg (s : State) (n : Nat) (x : RsmpSt) (a : Nat) : (s.setResampler n x).reg a = s.reg a := rfl
@[simp] theorem setResampler_rd (s : State) (n : Nat) (x : RsmpSt) (f : Fld) : (s.setResampler n x).rd f = s.rd f := rfl
@[simp] theorem setTslot_reg (s : State) (n : Nat) (x : TSlot) (a : Nat) : (s.setTslot n x).reg a = s.reg a := rfl
@[simp] theorem setTslot_rd (s : State) (n : Nat) (x : TSlot) (f : Fld) : (s.setTslot n x).rd f = s.rd f := rfl
@[simp] theorem setBpTherm_reg (s : State) (n : Nat) (x : BpTherm) (a : Nat) : (s.setBpTherm n x).reg a = s.reg a := rfl
@[simp] theorem setBpTherm_rd (s : State) (n : Nat) (x : BpTherm) (f : Fld) : (s.setBpTherm n x).rd f = s.rd f := rfl
@[simp] theorem setCell_reg (s : State) (k : MemSel) (n : Nat) (x : Cell) (a : Nat) : (s.setCell k n x).reg a = s.reg a := rfl

end Sys2Proof.Machine.State
end

