-- ==== Sys2Proof/Laws/Report.lean ====
section
/-! SUPPORT. What counting an event, sending a message and reading a protected word can do to the state. -/

namespace Sys2Proof.Machine.State

/-! ### Counters -/

/-- A count touches the registers of its two fields and nothing else. -/
theorem inc_eq (s : State) (c o : Fld) : s.inc c o = { s with regs := (s.inc c o).regs } := by
  unfold inc; dsimp only; split <;> rfl

theorem inc_reg_ne (s : State) {c o : Fld} {a : Nat} (hc : a ≠ c.addr) (ho : a ≠ o.addr) :
    (s.inc c o).reg a = s.reg a := by
  unfold inc; dsimp only
  split
  · rw [wr_reg_ne _ _ ho, wr_reg_ne _ _ hc]
  · rw [wr_reg_ne _ _ hc]

/-! ### Messages -/

theorem dropped_eq (s : State) (h : Nat) : s.dropped h = { s with regs := (s.dropped h).regs } := by
  unfold dropped; repeat' split
  all_goals exact inc_eq _ _ _

theorem dropped_reg_ne (s : State) (h : Nat) {a : Nat} (ha : a ≠ F.fcQueueDrop0.addr) : (s.dropped h).reg a = s.reg a := by
  unfold dropped; repeat' split
  all_goals exact inc_reg_ne _ ha ha

/-- Everything a message at the intake queue can change: the queue, what is held back, PEAK, and the drop counts of FC_QUEUE. -/
theorem offer_eq (s : State) (m : FMsg) :
    s.offer m = { s with regs := (s.offer m).regs, fc := { s.fc with
      queue := (s.offer m).fc.queue, heldBack := (s.offer m).fc.heldBack, peak := (s.offer m).fc.peak } } := by
  unfold offer; dsimp only; repeat' split
  all_goals first | (rw [dropped_eq]) | rfl

theorem offer_reg_ne (s : State) (m : FMsg) {a : Nat} (ha : a ≠ F.fcQueueDrop0.addr) : (s.offer m).reg a = s.reg a := by
  unfold offer; dsimp only; repeat' split
  all_goals first | (rw [dropped_reg_ne _ _ ha]; try rfl) | rfl

/-- With room at the queue a message is appended, and nothing else but PEAK changes. -/
theorem offer_room (s : State) (m : FMsg) (h : s.fc.heldBack = []) (hq : s.fc.queue.length < 64) :
    s.offer m = s.pushQueue m := by
  simp [offer, h, hq]

theorem report_eq (s : State) (src kind hint : Nat) (ctx : Word) :
    s.report src kind hint ctx = { s with regs := (s.report src kind hint ctx).regs, fc := { s.fc with
      queue := (s.report src kind hint ctx).fc.queue, heldBack := (s.report src kind hint ctx).fc.heldBack
      peak := (s.report src kind hint ctx).fc.peak } } := offer_eq _ _

theorem report_reg_ne (s : State) (src kind hint : Nat) (ctx : Word) {a : Nat} (ha : a ≠ F.fcQueueDrop0.addr) :
    (s.report src kind hint ctx).reg a = s.reg a := offer_reg_ne _ _ ha

/-- A hint below C4 is an ordinary message. -/
theorem send_low (s : State) (src kind : Nat) {hint : Nat} (ctx : Word) (h : hint < 4) :
    s.send src kind hint ctx = s.report src kind hint ctx := by
  simp [send]; intro h4; omega

/-! ### Reads of the protected store -/

theorem countCorr_eq (s : State) (k : MemSel) (a : Nat) : s.countCorr k a = { s with regs := (s.countCorr k a).regs } := by
  unfold countCorr; split
  · exact inc_eq _ _ _
  · exact inc_eq _ _ _
  · rfl

/-- A read that delivers a word without poison has changed nothing, or it has corrected the word: a count, a message and a write-back. -/
theorem memRead_clean (s : State) (k : MemSel) (a src : Nat) (h : (s.memRead k a src).1.poison = false) :
    (s.memRead k a src).2 = { s with
      regs := (s.memRead k a src).2.regs, writeBacks := (s.memRead k a src).2.writeBacks
      fc := { s.fc with queue := (s.memRead k a src).2.fc.queue, heldBack := (s.memRead k a src).2.fc.heldBack
                        peak := (s.memRead k a src).2.fc.peak } } := by
  unfold memRead at h ⊢
  dsimp only at h ⊢
  split
  · simp_all
  · split
    · rfl
    · dsimp only
      rw [report_eq, countCorr_eq]
    · simp_all

/-- The register that counts the corrected reads of a memory, if it has one. -/
theorem countCorr_reg_ne (s : State) (k : MemSel) (m : Nat) {a : Nat}
    (h : ∀ q, memCounts k m = some (some q) → a ≠ (F.quayMemCorrCnt q).addr)
    (h' : memCounts k m = some none → a ≠ F.holdMemCorrCnt.addr) : (s.countCorr k m).reg a = s.reg a := by
  unfold countCorr
  split
  · rename_i q hq; exact inc_reg_ne _ (h q hq) (h q hq)
  · rename_i hq; exact inc_reg_ne _ (h' hq) (h' hq)
  · rfl

theorem memRead_clean_reg (s : State) (k : MemSel) (m src : Nat) {a : Nat} (hp : (s.memRead k m src).1.poison = false)
    (ha : a ≠ F.fcQueueDrop0.addr)
    (h : ∀ q, memCounts k m = some (some q) → a ≠ (F.quayMemCorrCnt q).addr)
    (h' : memCounts k m = some none → a ≠ F.holdMemCorrCnt.addr) : (s.memRead k m src).2.reg a = s.reg a := by
  unfold memRead at hp ⊢
  dsimp only at hp ⊢
  split
  · simp_all
  · split
    · rfl
    · show ((s.countCorr k m).report _ _ _ _).reg a = _
      rw [report_reg_ne _ _ _ _ _ ha, countCorr_reg_ne _ _ _ h h']
    · simp_all

end Sys2Proof.Machine.State
end

