-- ==== Sys2Proof/Laws/Issue.lean ====
section
/-! SUPPORT. What the issue of an engine instruction does where its engine stands at it. -/

namespace Sys2Proof.Machine.State

/-- The state after the fetch of an issue: its read has been made, and the berth, PC and PROG of the issue are noted. -/
def fetched (s : State) (e : Nat) (b : BerthId) : State :=
  let s1 := (s.memRead .imem (8192 * e + (s.engine e).live.pc) (srcEng e)).2
  let en := s1.engine e
  s1.setEngine e { en with issuedBerth := b, issuedPc := en.live.pc, issuedProg := en.live.prog, usedAt := some (s.engCyc e) }

/-- Where an engine stands at an instruction, its issue is the action after the fetch; an action that leaves a walk open has not issued. -/
theorem issue_stands {s : State} {i : Instr} {e : EngId} {w : Word} {b : BerthId} (act : State → State)
    (hi : encode i = some (e, w)) (h : s.standsAt i b = true) :
    s.issue e.toNat w act =
      (let s' := act (s.fetched e.toNat b)
       let en' := s'.engine e.toNat
       let en := (s.memRead .imem (8192 * e.toNat + (s.engine e.toNat).live.pc) (srcEng e.toNat)).2.engine e.toNat
       if en'.walk.isSome then
         s'.setEngine e.toNat { en' with issuedBerth := en.issuedBerth, issuedPc := en.issuedPc, issuedProg := en.issuedProg, usedAt := en.usedAt }
       else s') := by
  simp only [standsAt, hi, Bool.and_eq_true, beq_iff_eq, Option.isNone_iff_eq_none, decide_eq_true_eq, Bool.not_eq_true'] at h
  obtain ⟨⟨⟨⟨⟨⟨⟨⟨h1, h2⟩, h3⟩, h4⟩, h5⟩, h6⟩, h7⟩, h8⟩, h9⟩ := h
  unfold issue fetched
  simp only [h1, h2, h3, h4, h5, h8, h7, h9]
  simp only [Option.isSome_none, Bool.false_eq_true, or_self, not_true_eq_false, if_false, ne_eq, Bool.not_true]
  rw [if_neg (by omega)]

theorem fetched_facts {s : State} {i : Instr} {e : EngId} {w : Word} {b : BerthId}
    (hi : encode i = some (e, w)) (h : s.standsAt i b = true) :
    (s.memRead .imem (8192 * e.toNat + (s.engine e.toNat).live.pc) (srcEng e.toNat)).1 = ⟨w, false⟩ ∧
    (s.engine e.toNat).running = some b ∧ (s.engine e.toNat).walk = none ∧ (s.engine e.toNat).live.pc < 8192 ∧
    legalWord w = true := by
  simp only [standsAt, hi, Bool.and_eq_true, beq_iff_eq, Option.isNone_iff_eq_none, decide_eq_true_eq] at h
  obtain ⟨⟨⟨⟨⟨⟨⟨⟨h1, h2⟩, h3⟩, h4⟩, h5⟩, h6⟩, h7⟩, h8⟩, h9⟩ := h
  exact ⟨h8, h1, h4, h6, h7⟩

/-- The fetch of a standing engine changes no instance, no memory word and no register but its counts. -/
theorem fetched_eq {s : State} {i : Instr} {e : EngId} {w : Word} {b : BerthId}
    (hi : encode i = some (e, w)) (h : s.standsAt i b = true) :
    s.fetched e.toNat b = { s with
      engines := (s.setEngine e.toNat { s.engine e.toNat with
        issuedBerth := b, issuedPc := (s.engine e.toNat).live.pc, issuedProg := (s.engine e.toNat).live.prog,
        usedAt := some (s.engCyc e.toNat) }).engines
      regs := (s.fetched e.toNat b).regs, writeBacks := (s.fetched e.toNat b).writeBacks
      fc := { s.fc with queue := (s.fetched e.toNat b).fc.queue, heldBack := (s.fetched e.toNat b).fc.heldBack
                        peak := (s.fetched e.toNat b).fc.peak } } := by
  have hc := memRead_clean s .imem (8192 * e.toNat + (s.engine e.toNat).live.pc) (srcEng e.toNat)
    (by rw [(fetched_facts hi h).1])
  unfold fetched
  generalize hr : (s.memRead .imem (8192 * e.toNat + (s.engine e.toNat).live.pc) (srcEng e.toNat)).2 = r at hc ⊢
  have he : r.engine e.toNat = s.engine e.toNat := by rw [hc]; rfl
  simp only [he]
  rw [hc]; rfl

theorem fetched_reg {s : State} {i : Instr} {e : EngId} {w : Word} {b : BerthId} {a : Nat}
    (hi : encode i = some (e, w)) (h : s.standsAt i b = true)
    (ha : a ≠ F.fcQueueDrop0.addr) (hq : a ≠ (F.quayMemCorrCnt (e.toNat / 16)).addr) :
    (s.fetched e.toNat b).reg a = s.reg a := by
  have hp := (fetched_facts hi h).2.2.2.1
  unfold fetched
  rw [setEngine_reg]
  apply memRead_clean_reg _ _ _ _ (by rw [(fetched_facts hi h).1]) ha
  · intro q hm
    simp only [memCounts, Option.some.injEq] at hm
    have : (8192 * e.toNat + (s.engine e.toNat).live.pc) / 8192 = e.toNat := by omega
    rw [this] at hm
    rwa [← hm]
  · intro hm; simp [memCounts] at hm

@[simp] theorem fetched_engine {s : State} {e : Nat} {b : BerthId} :
    (s.fetched e b).engine e = { (s.memRead .imem (8192 * e + (s.engine e).live.pc) (srcEng e)).2.engine e with
      issuedBerth := b
      issuedPc := ((s.memRead .imem (8192 * e + (s.engine e).live.pc) (srcEng e)).2.engine e).live.pc
      issuedProg := ((s.memRead .imem (8192 * e + (s.engine e).live.pc) (srcEng e)).2.engine e).live.prog
      usedAt := some (s.engCyc e) } := by
  simp [fetched]

/-! ### Flags and whole instructions -/

theorem rd_wr_same (s : State) (f : Fld) (v : Nat) (h : f.lo ≤ f.hi) (h' : f.hi < 40) :
    (s.wr f v).rd f = v % 2 ^ (f.hi - f.lo + 1) := by
  simp [rd, wr, bitsOf_putBits_same _ v h h']

theorem rd_wr_ne (s : State) (f g : Fld) (v : Nat) (h : f.addr ≠ g.addr ∨ f.hi < g.lo ∨ g.hi < f.lo) (hl : f.lo ≤ f.hi)
    (hl' : g.lo ≤ g.hi) (hh : g.hi < 40) : (s.wr f v).rd g = s.rd g := by
  by_cases ha : f.addr = g.addr
  · have h : f.hi < g.lo ∨ g.hi < f.lo := h.resolve_left (fun k => k ha)
    simp only [rd, wr, ← ha, setReg_reg_same, bitsOf_putBits_ne _ v h hl hl' hh]
  · simp only [rd, wr, setReg_reg_ne _ _ (Ne.symm ha)]

theorem stickSat_eq (s : State) (e : Nat) (x y : Bool) : s.stickSat e x y = { s with regs := (s.stickSat e x y).regs } := by
  unfold stickSat; cases x <;> cases y <;> rfl

theorem stickSat_reg_ne (s : State) (e : Nat) (x y : Bool) {a : Nat} (h : a ≠ (F.engStatSatAny e).addr) :
    (s.stickSat e x y).reg a = s.reg a := by
  have h' : a ≠ (F.engStatAccsatAny e).addr := h
  unfold stickSat; cases x <;> cases y <;> simp [wr_reg_ne, h, h']

/-- The sticky bits of ENG_STAT after flags have been set. -/
theorem stickSat_flags (s : State) (e : Nat) (x y : Bool) :
    (s.stickSat e x y).rdB (F.engStatSatAny e) = (s.rdB (F.engStatSatAny e) || x) ∧
    (s.stickSat e x y).rdB (F.engStatAccsatAny e) = (s.rdB (F.engStatAccsatAny e) || y) := by
  have e1 : ∀ s : State, (s.wr (F.engStatSatAny e) 1).rd (F.engStatSatAny e) = 1 := fun s =>
    rd_wr_same s _ 1 (by simp [F.engStatSatAny]) (by simp [F.engStatSatAny])
  have e2 : ∀ s : State, (s.wr (F.engStatAccsatAny e) 1).rd (F.engStatAccsatAny e) = 1 := fun s =>
    rd_wr_same s _ 1 (by simp [F.engStatAccsatAny]) (by simp [F.engStatAccsatAny])
  have e3 : ∀ s : State, (s.wr (F.engStatSatAny e) 1).rd (F.engStatAccsatAny e) = s.rd (F.engStatAccsatAny e) := fun s =>
    rd_wr_ne s _ _ 1 (by simp [F.engStatAccsatAny, F.engStatSatAny]) (by simp [F.engStatSatAny]) (by simp [F.engStatAccsatAny]) (by simp [F.engStatAccsatAny])
  have e4 : ∀ s : State, (s.wr (F.engStatAccsatAny e) 1).rd (F.engStatSatAny e) = s.rd (F.engStatSatAny e) := fun s =>
    rd_wr_ne s _ _ 1 (by simp [F.engStatAccsatAny, F.engStatSatAny]) (by simp [F.engStatAccsatAny]) (by simp [F.engStatSatAny]) (by simp [F.engStatSatAny])
  cases x <;> cases y <;> simp [stickSat, rdB, e1, e2, e3, e4]

/-- An instruction that only changes its task completes where its engine stands at it. -/
theorem runTask_issuedAs {s : State} {i : Instr} {e : EngId} {w : Word} {b : BerthId} (g : State → Task → Task × Bool × Bool)
    (hi : encode i = some (e, w)) (h : s.standsAt i b = true) :
    s.issuedAs (s.runTask e.toNat w g) e (g (s.fetched e.toNat b) (s.engine e.toNat).live).1
      (g (s.fetched e.toNat b) (s.engine e.toNat).live).2.1 (g (s.fetched e.toNat b) (s.engine e.toNat).live).2.2 := by
  have hf := fetched_eq hi h
  obtain ⟨-, hrun, hw, -, -⟩ := fetched_facts hi h
  have hre : ∀ a, a ≠ F.fcQueueDrop0.addr → a ≠ (F.quayMemCorrCnt (e.toNat / 16)).addr →
      (s.fetched e.toNat b).reg a = s.reg a := fun a h1 h2 => fetched_reg hi h h1 h2
  have he : (s.fetched e.toNat b).engine e.toNat = { s.engine e.toNat with
      issuedBerth := b, issuedPc := (s.engine e.toNat).live.pc, issuedProg := (s.engine e.toNat).live.prog,
        usedAt := some (s.engCyc e.toNat) } := by
    rw [hf]; exact setEngine_engine_same _ _ _
  have heng : ∀ n, n ≠ e.toNat → (s.fetched e.toNat b).engine n = s.engine n := by
    intro n hn; rw [hf]; exact setEngine_engine_ne _ _ hn
  unfold runTask
  rw [issue_stands _ hi h]
  generalize hr : g (s.fetched e.toNat b) (s.engine e.toNat).live = r
  have hlive : ((s.fetched e.toNat b).engine e.toNat).live = (s.engine e.toNat).live := by rw [he]
  simp only [hlive, hr]
  generalize hq : s.fetched e.toNat b = q at *
  have hst : ∀ n (x : State), ((x.stickSat e.toNat r.2.1 r.2.2).engine n) = x.engine n := by
    intro n x; rw [stickSat_eq]; rfl
  rw [if_neg (by rw [hst, setEngine_engine_same, he]; simp [hw])]
  have hflag := stickSat_flags (q.setEngine e.toNat { q.engine e.toNat with
      live := { r.1 with pc := (s.engine e.toNat).live.pc + 1, sat := r.1.sat || r.2.1, accsat := r.1.accsat || r.2.2 } })
      e.toNat r.2.1 r.2.2
  have hsat : q.rdB (F.engStatSatAny e.toNat) = s.rdB (F.engStatSatAny e.toNat) ∧
      q.rdB (F.engStatAccsatAny e.toNat) = s.rdB (F.engStatAccsatAny e.toNat) := by
    simp only [rdB, rd]
    rw [hre _ (by simp [F.engStatSatAny, F.fcQueueDrop0]; omega) (by simp [F.engStatSatAny, F.quayMemCorrCnt]; omega),
      hre _ (by simp [F.engStatAccsatAny, F.fcQueueDrop0]; omega) (by simp [F.engStatAccsatAny, F.quayMemCorrCnt]; omega)]
    exact ⟨rfl, rfl⟩
  refine ⟨?_, ?_, ?_, ?_, ?_, ?_, ?_, ?_⟩
  · rw [hst, setEngine_engine_same, he]
  · rw [hst, setEngine_engine_same, he]; exact hrun
  · exact hflag.1.trans (by simp only [rdB, setEngine_rd] at hsat ⊢; rw [hsat.1])
  · exact hflag.2.trans (by simp only [rdB, setEngine_rd] at hsat ⊢; rw [hsat.2])
  · rw [stickSat_eq, hf]; rfl
  · intro n hn; rw [hst, setEngine_engine_ne _ _ hn, heng n hn]
  · intro a ha
    simp only [issueRegs, List.mem_cons, List.not_mem_nil, or_false, not_or] at ha
    rw [stickSat_reg_ne _ _ _ _ ha.2.2, setEngine_reg, hre a ha.2.1 ha.1]
  · rw [intakeOnly, stickSat_eq, hf]; rfl

end Sys2Proof.Machine.State
end

