-- ==== Sys2Proof/Laws/Mem.lean ====
section
/-! SUPPORT. Laws of the protected memories: a read after a write, and that every memory operation keeps the canonical form. -/

namespace Sys2Proof.Machine

@[simp] theorem Mem.tbl_setTbl_same (m : Mem) (k : MemSel) (t : Tbl Cell) : (m.setTbl k t).tbl k = t := by
  cases k <;> rfl

theorem Mem.tbl_setTbl_ne (m : Mem) {k j : MemSel} (t : Tbl Cell) (h : j ≠ k) : (m.setTbl k t).tbl j = m.tbl j := by
  cases k <;> cases j <;> first | rfl | exact absurd rfl h

namespace State

/-- The canonical form, memory by memory. -/
theorem memWf_iff (s : State) : s.memWf = true ↔ ∀ k, Tbl.wf (fun _ => Cell.zero) (s.mem.tbl k) = true := by
  constructor
  · intro h k
    simp only [memWf, List.all_cons, List.all_nil, Bool.and_eq_true] at h
    cases k <;> tauto
  · intro h
    simp [memWf, h]

/-- A cell read after a cell write. -/
theorem cell_setCell (s : State) (k j : MemSel) (a b : Nat) (c : Cell) :
    (s.setCell k a c).cell j b = if j = k ∧ b = a then c else s.cell j b := by
  unfold cell setCell
  by_cases h : j = k
  · subst h
    simp [Tbl.get_set]
  · simp [h, Mem.tbl_setTbl_ne]

/-- Writing a cell keeps the canonical form. -/
theorem memWf_setCell (s : State) (k : MemSel) (a : Nat) (c : Cell) (h : s.memWf = true) : (s.setCell k a c).memWf = true := by
  rw [memWf_iff] at h ⊢
  intro j
  by_cases hj : j = k
  · subst hj
    simpa [setCell] using Tbl.wf_set a c (h j)
  · simpa [setCell, Mem.tbl_setTbl_ne _ _ hj] using h j

/-- A write of one word changes memory as `setCell` does. -/
theorem memWrite_mem (s : State) (k : MemSel) (a : Nat) (w : Word) :
    (s.memWrite k a w).mem = (s.setCell k a ⟨w, 0, false⟩).mem := by
  unfold memWrite
  dsimp only
  split <;> rfl

/-- A cell read after a word is written. -/
theorem cell_memWrite (s : State) (k j : MemSel) (a b : Nat) (w : Word) :
    (s.memWrite k a w).cell j b = if j = k ∧ b = a then ⟨w, 0, false⟩ else s.cell j b := by
  have h : (s.memWrite k a w).cell j b = (s.setCell k a ⟨w, 0, false⟩).cell j b := by
    unfold cell; rw [memWrite_mem]
  rw [h, cell_setCell]

/-- Writing a word keeps the canonical form. -/
theorem memWf_memWrite (s : State) (k : MemSel) (a : Nat) (w : Word) (h : s.memWf = true) : (s.memWrite k a w).memWf = true := by
  have h1 := memWf_setCell s k a ⟨w, 0, false⟩ h
  unfold memWf at h1 ⊢
  rwa [memWrite_mem]

/-- Writing consecutive words keeps the canonical form. -/
theorem memWf_memWrites (s : State) (k : MemSel) (a : Nat) (l : List Word) (h : s.memWf = true) : (s.memWrites k a l).memWf = true := by
  induction l generalizing s a with
  | nil => exact h
  | cons w t ih => exact ih _ _ (memWf_memWrite s k a w h)

/-- A word outside consecutive words written is as before. -/
theorem cell_memWrites_outside (s : State) (k j : MemSel) (a b : Nat) (l : List Word) (h : ¬ (j = k ∧ a ≤ b ∧ b < a + l.length)) :
    (s.memWrites k a l).cell j b = s.cell j b := by
  induction l generalizing s a with
  | nil => rfl
  | cons w t ih =>
    simp only [List.length_cons] at h
    have h1 : ¬ (j = k ∧ a + 1 ≤ b ∧ b < a + 1 + t.length) := by
      rintro ⟨hj, h2, h3⟩; exact h ⟨hj, by omega, by omega⟩
    have h2 : ¬ (j = k ∧ b = a) := by
      rintro ⟨hj, rfl⟩; exact h ⟨hj, by omega, by omega⟩
    rw [memWrites, ih _ _ h1, cell_memWrite, if_neg h2]

end State

end Sys2Proof.Machine
end

