-- ==== Sys2Proof/Tests/Slice0.lean ====
section
/-! SUPPORT. Small checks of the model's own text: ill-formed commands refused, instruction words written out from the encoding tables, single steps of worked examples of the manual, and for every statement a state and operands that meet its hypotheses. -/

namespace Sys2Proof.Tests

set_option Elab.async false

open Sys2Proof Sys2Proof.Machine Sys2Proof.Machine.State

/-! ### Small states -/

/-- The device up, with an empty image. -/
def up0 : State := { State.reset with
  boot := { Boot.init with st := .running, image := true, locked := true }
  mgmt := { Mgmt.init with core := .running } }

/-- Engine `e` after `f`. -/
def withEng (s : State) (e : Nat) (f : Engine → Engine) : State := s.setEngine e (f (s.engine e))

/-- An engine instruction placed where task `t` of its engine runs in berth 0. -/
def stand (s : State) (i : Instr) (t : Task) : State :=
  match encode i with
  | none => s
  | some (e, w) =>
    (withEng s e.toNat (fun en => { en with st := .running, running := some 0, live := t })).memWrite .imem (8192 * e.toNat + t.pc) w

/-- The state a step answers. -/
def after (o : Host.Outcome State Fault Refusal) : State := match o with | .next t => t | _ => State.reset

/-- The command answers a next state. -/
def completes (o : Host.Outcome State Fault Refusal) : Bool := match o with | .next _ => true | _ => false

/-- A task with one register set. -/
def task1 (r : Nat) (v : Word) : Task := (Task.init 5 0).setW r v

theorem test_reset_queue : State.reset.pending = [] := rfl

/-- The ball states outside normal operation (R460) and the identification register (R469). -/
theorem test_reset_balls :
    State.reset.ballPaEn 0 = .low ∧ State.reset.ballPaDrv 0 = 0 ∧ State.reset.jtxIdle 0 = true ∧ State.reset.gvIdle 0 = true ∧ State.reset.ballFeCs 0 = .high ∧
    State.reset.ballCxReq 0 = .input ∧ State.reset.ballCxGnt 0 = .input ∧ State.reset.ballAlarm = .released ∧ State.reset.ballTherm = .released ∧
    State.reset.ballPpsOut = .low ∧ State.reset.jtagCapture = (32, 0x2564009F) := by decide +kernel

/-! ### Well-formedness: one refused command for each check -/

theorem test_ill_unused_field : wellFormed (.abs 0 ⟨1, 2, 3, 0⟩) = false := by decide
theorem test_ill_function_bit : wellFormed (.add 0 ⟨1, 2, 3, 1⟩) = false := by decide
theorem test_ill_predicate : wellFormed (.peq 0 ⟨8, 2, 3, 0⟩) = false := by decide
theorem test_ill_accumulator : wellFormed (.cmac 0 ⟨4, 2, 3, 0⟩) = false := by decide
theorem test_ill_pair : wellFormed (.rdtime 0 ⟨3, 0, 0, 0⟩) = false := by decide
theorem test_ill_narrow_shift : wellFormed (.anrw 0 ⟨1, 0, 0, 10⟩) = false := by decide
theorem test_ill_shift : wellFormed (.shli 0 ⟨1, 2, 40⟩) = false := by decide
theorem test_ill_bit_field : wellFormed (.extu 0 ⟨1, 2, 39 * 64 + 2⟩) = false := by decide
theorem test_ill_complex_shift : wellFormed (.csra 0 ⟨1, 2, 20⟩) = false := by decide
theorem test_ill_condition : wellFormed (.br 0 ⟨22, 0, 0⟩) = false := by decide
theorem test_ill_condition_register : wellFormed (.br 0 ⟨3, 1, 0⟩) = false := by decide
theorem test_ill_jump_condition : wellFormed (.jr 0 ⟨16, 1, 0⟩) = false := by decide
theorem test_ill_stride : wellFormed (.vmac 0 ⟨0, 1, 2, 4, 7 * 16⟩) = false := by decide
theorem test_ill_fir_stride : wellFormed (.firs 0 ⟨0, 1, 2, 4, 5 * 2⟩) = false := by decide
theorem test_ill_fill : wellFormed (.vfill 0 ⟨1, 1, 2, 4, 0⟩) = false := by decide
theorem test_ill_step : wellFormed (.bringupStepBound 3) = false := by decide
theorem test_ill_slot_sector : wellFormed (.coldStart false true false (.sectors (List.replicate 4097 0) [] false) (.kept false)) = false := by decide +kernel
theorem test_ill_slot_sector_other : wellFormed (.coldStart false true false (.kept true) (.sectors [] (List.replicate 4097 0) false)) = false := by
  decide +kernel
theorem test_ill_verdict : wellFormed (.maskVerdict .mgmt 0 4) = false := by decide
theorem test_ill_resampler_step : wellFormed (.stepWrite .mgmt 0 0x0FFFFFFFF) = false := by decide
theorem test_ill_trim : wellFormed (.trimActWrite .mgmt 7 0) = false := by decide
theorem test_ill_channel : wellFormed (.lighterBurst 528) = false ∧ wellFormed (.lighterBurst 527) = true := by decide
theorem test_ill_channel_abort : wellFormed (.ltrPosAbort .mgmt 528) = false := by decide
theorem test_ill_channel_resume : wellFormed (.ltrPosResume .mgmt 528) = false := by decide
theorem test_ill_frame : frameOk ⟨257, List.replicate 16 0, [], 0, 0, 0, 0, 0, 0⟩ = false := by decide
theorem test_ill_hash : hashOk (List.replicate 31 0) = false := by decide
theorem test_ill_hold_write : wellFormed (.holdWrite .debug 0 0 2 [0]) = false := by decide
theorem test_ill_header : wellFormed (.imageHeaderRead true false (List.replicate 16 (List.replicate 16 0)) [0]) = false := by decide +kernel
theorem test_ill_delays : wellFormed (.imageHeaderRead true false (List.replicate 15 (List.replicate 16 0)) (List.replicate 4096 0)) = false := by decide +kernel

/-! ### Engine words, written out from R208 and the tables of R231 to R246 -/

/-- ADD W1, W2, W3: opcode 0x01, dst 1, a 2, b 3. -/
theorem test_word_add : decodeEngine 7 0b00000001_00001_00010_00011_00000000000000000 = some (.add 7 ⟨1, 2, 3, 0⟩) := by decide
/-- ADDI W4, W5, −1: opcode 0x10, dst 4, a 5, imm22 all ones. -/
theorem test_word_addi : decodeEngine 0 0b00010000_00100_00101_1111111111111111111111 = some (.addi 0 ⟨4, 5, -1⟩) := by decide
/-- PLT P2, W1, W0: opcode 0x32. -/
theorem test_word_plt : decodeEngine 0 0b00110010_00010_00001_00000_00000000000000000 = some (.plt 0 ⟨2, 1, 0, 0⟩) := by decide
/-- CMAC ACC3, W1, W2 with the conjugate bit fn[0]: opcode 0x41. -/
theorem test_word_cmac : decodeEngine 0 0b01000001_00011_00001_00010_00000000000000001 = some (.cmac 0 ⟨3, 1, 2, 1⟩) := by decide
/-- ST W31 to W1 + 16: opcode 0x51. -/
theorem test_word_st : decodeEngine 0 0b01010001_11111_00001_0000000000000000010000 = some (.st 0 ⟨31, 1, 16⟩) := by decide
/-- BR on W3 = 0 (condition 16) by −2: opcode 0x60. -/
theorem test_word_br : decodeEngine 0 0b01100000_10000_00011_1111111111111111111110 = some (.br 0 ⟨16, 3, -2⟩) := by decide
/-- VMAC ACC1, W2, W3, 5 elements, mode 0x011: opcode 0x68, acc [31:30], a [29:25], b [24:20], count [19:10]. -/
theorem test_word_vmac : decodeEngine 0 0b01101000_01_00010_00011_0000000101_0000010001 = some (.vmac 0 ⟨1, 2, 3, 5, 17⟩) := by decide
/-- BEND: opcode 0x88 and zeros. -/
theorem test_word_bend : decodeEngine 0 0x8800000000 = some (.bend 0 ⟨0, 0, 0, 0⟩) := by decide
/-- MRECV W1, P3: opcode 0x90. -/
theorem test_word_mrecv : decodeEngine 0 0b10010000_00001_00000_00000_00000000000000011 = some (.mrecv 0 ⟨1, 0, 0, 3⟩) := by decide
/-- LQUE of descriptor W1 on channel W2 with P1: opcode 0x80. -/
theorem test_word_lque : decodeEngine 0 0b10000000_00000_00001_00010_00000000000000001 = some (.lque 0 ⟨0, 1, 2, 1⟩) := by decide
/-- Opcodes 0x00 and 0xFF are illegal (R209). -/
theorem test_word_illegal : decodeEngine 0 0 = none ∧ decodeEngine 0 0xFFFFFFFFFF = none := by decide

/-! ### Statements about the whole block -/

theorem witness_StepRunsFront : ({ up0 with pending := [.bwIntervalEnd] } : State).pending = [.bwIntervalEnd] := rfl
theorem witness_ResetAndIdle : State.reset.alive = false ∧ up0.pending = [] ∧ up0.alive = true ∧ up0.time.setAt = none ∧
    up0.time.stepTo = none ∧ up0.heldOff = [] ∧ (up0.cxPort 3).req = false ∧ ((up0.cyc + 1) % 8 ≠ 0) ∧ (({ up0 with cyc := 31 } : State).cyc + 1) % 8 = 0 ∧
    ({ up0 with cyc := 30 } : State).setCyc % 32 ≠ 0 ∧ up0.setCyc % 32 = 0 ∧ up0.time.corrTicks = 0 ∧ up0.time.st ≠ .holdover ∧
    (tblKeys (up0.setChain 3 Chain.init).chains).Nodup ∧ 3 ∈ tblKeys (up0.setChain 3 { Chain.init with st := .ready }).chains ∧
    (tblKeys up0.engines).Nodup ∧ ({ up0 with heldOff := [⟨none, 1, false⟩] } : State).heldOff = [⟨none, 1, false⟩] ∧ up0.replayMode = false ∧
    (after (step { up0 with heldOff := [⟨none, 1, false⟩] })).heldOff = [] := by decide +kernel
/-- An exact half to the even integer, and both ends of s1.19 (R8). -/
theorem test_rounding : roundBits 5 1 = 2 ∧ roundBits 7 1 = 4 ∧ roundBits (-5) 1 = -2 ∧ satS 20 524288 = 524287 ∧ satS 20 (-524289) = -524288 := by
  decide +kernel
theorem witness_CanonicalStorage : up0.canonical = true ∧ completes (step up0) = true := by decide +kernel
/-- A state with the latch set steps and keeps it (R372). -/
theorem witness_LatchStaysSet :
    let s : State := { up0 with fc := { up0.fc with c4 := true }, pending := [.bwIntervalEnd] }
    s.fc.c4 = true ∧ s.pending.head? ≠ some .vddCorePowerCycle ∧ s.pending.head? ≠ some .vddIoLoss ∧
      completes (step s) = true ∧ (after (step s)).fc.c4 = true := by decide +kernel

/-! ### Engine statements -/

/-- The words of a translation table entry: valid and readable page 3; a reserved bit; a store without permission; hold memory outside and inside the open words; in a block instruction (R251, R249). -/
theorem witness_TableEntryRule :
    applyEntry 0xB000000003 7 ⟨false, false⟩ = .quay 3079 ∧ applyEntry 0xB000000103 0 ⟨false, false⟩ = .fault 3 ∧
    applyEntry 0xB000001003 0 ⟨false, false⟩ = .fault 3 ∧ applyEntry 0x3000000003 0 ⟨false, false⟩ = .fault 3 ∧
    applyEntry 0xA000000003 0 ⟨true, false⟩ = .fault 4 ∧ applyEntry 0xF000000E00 0 ⟨true, false⟩ = .hold 0x380000 ∧
    applyEntry 0xF000000DFF 1023 ⟨true, false⟩ = .fault 4 ∧ applyEntry 0xF000000FF8 0 ⟨true, false⟩ = .fault 4 ∧
    applyEntry 0xF000000FF8 0 ⟨false, false⟩ = .hold 0x3FE000 ∧ applyEntry 0xF000000E00 0 ⟨false, true⟩ = .fault 4 := by
  decide +kernel

/-- Rows of the statements on tasks, arithmetic, words, shifts, predicates and accumulators, each with operands of its own. -/
def plainRows : List Instr :=
  [.rdcyc 0 ⟨1, 0, 0, 0⟩, .rdtime 0 ⟨2, 0, 0, 0⟩, .rdst 0 ⟨1, 0, 0, 0⟩, .rdp 0 ⟨1, 0, 0, 0⟩, .clst 0 ⟨0, 0, 0, 12⟩,
   .add 0 ⟨1, 2, 3, 65536⟩, .sub 0 ⟨0, 2, 3, 0⟩, .mul 0 ⟨31, 2, 3, 65536⟩, .fmul 0 ⟨1, 1, 1, 0⟩, .abs 0 ⟨1, 2, 0, 65536⟩,
   .shl 0 ⟨1, 2, 3, 65536⟩, .addi 0 ⟨1, 2, -5⟩, .addis 0 ⟨1, 2, 5⟩,
   .cadd 0 ⟨1, 2, 3, 65536⟩, .csub 0 ⟨1, 2, 3, 0⟩, .conj 0 ⟨1, 2, 0, 65536⟩, .cmul 0 ⟨1, 2, 3, 1⟩, .csra 0 ⟨1, 2, 19⟩,
   .min 0 ⟨1, 2, 3, 0⟩, .max 0 ⟨1, 2, 3, 0⟩, .andW 0 ⟨1, 2, 3, 0⟩, .orW 0 ⟨1, 2, 3, 0⟩, .xor 0 ⟨1, 2, 3, 0⟩, .sel 0 ⟨1, 2, 3, 7⟩,
   .andi 0 ⟨1, 2, -1⟩, .ori 0 ⟨1, 2, 5⟩, .xori 0 ⟨1, 2, 5⟩, .lui 0 ⟨1, 0, 5⟩]

/-- The same, second half. -/
def plainRows2 : List Instr :=
  [.shr 0 ⟨1, 2, 3, 0⟩, .sra 0 ⟨1, 2, 3, 0⟩, .popc 0 ⟨1, 2, 0, 0⟩, .norm 0 ⟨1, 2, 0, 0⟩, .shli 0 ⟨1, 2, 39⟩, .shri 0 ⟨1, 2, 0⟩, .srai 0 ⟨1, 2, 39⟩,
   .extu 0 ⟨1, 2, 40⟩, .exts 0 ⟨1, 2, 39 * 64 + 1⟩, .ins 0 ⟨1, 2, 20 * 64 + 20⟩,
   .peq 0 ⟨1, 2, 3, 0⟩, .pne 0 ⟨0, 2, 3, 0⟩, .plt 0 ⟨7, 2, 3, 0⟩, .ple 0 ⟨1, 2, 3, 0⟩, .pltu 0 ⟨1, 2, 3, 0⟩, .pbit 0 ⟨1, 2, 3, 0⟩,
   .peqi 0 ⟨1, 2, 3⟩, .plti 0 ⟨1, 2, 3⟩, .pgti 0 ⟨1, 2, 3⟩, .pand 0 ⟨1, 2, 3, 0⟩, .por 0 ⟨1, 2, 3, 0⟩, .pxor 0 ⟨1, 2, 3, 0⟩, .pandn 0 ⟨1, 0, 7, 0⟩,
   .pnz 0 ⟨1, 2, 0, 0⟩, .wrp 0 ⟨0, 2, 0, 0⟩,
   .cmac 0 ⟨3, 2, 3, 1⟩, .cmsu 0 ⟨0, 2, 3, 0⟩, .aclr 0 ⟨2, 0, 0, 0⟩, .anrw 0 ⟨1, 3, 0, 25⟩, .ard 0 ⟨1, 3, 0, 3⟩, .awr 0 ⟨3, 1, 0, 2⟩]

/-- Every one of them stands at a running engine, also as its last instruction word. -/
theorem witness_plain_engine_rows : plainRows.all (fun i => (stand up0 i (Task.init 8191 0)).standsAt i 0) = true := by decide +kernel
theorem witness_plain_engine_rows2 : plainRows2.all (fun i => (stand up0 i (Task.init 5 0)).standsAt i 0) = true := by decide +kernel

/-- ADD wraps at the top of s40.0 without S (R206). -/
theorem test_add_wraps : ((after (exec (.add 0 ⟨1, 2, 2, 0⟩) (stand up0 (.add 0 ⟨1, 2, 2, 0⟩) (task1 2 0x7FFFFFFFFF)))).engine 0).live.getW 1 = 0xFFFFFFFFFE := by
  decide +kernel
/-- ADD with S saturates and sets SAT, the source being the destination (R206). -/
theorem test_add_saturates :
    let t := ((after (exec (.add 0 ⟨2, 2, 2, 65536⟩) (stand up0 (.add 0 ⟨2, 2, 2, 65536⟩) (task1 2 0x7FFFFFFFFF)))).engine 0).live
    t.getW 2 = 0x7FFFFFFFFF ∧ t.sat = true ∧ t.pc = 6 := by decide +kernel
/-- A write of W0 is discarded (R202). -/
theorem test_w0 : ((after (exec (.addi 0 ⟨0, 0, 5⟩) (stand up0 (.addi 0 ⟨0, 0, 5⟩) (Task.init 5 0)))).engine 0).live.getW 0 = 0 := by decide +kernel
/-- The largest magnitude of CMUL: (−1) × (−1) saturates to 1 − 2^-19 (R206). -/
theorem test_cmul : ((after (exec (.cmul 0 ⟨1, 2, 2, 0⟩) (stand up0 (.cmul 0 ⟨1, 2, 2, 0⟩) (task1 2 0x8000000000)))).engine 0).live.getW 1 = 0x7FFFF00000 := by
  decide +kernel

/-- The table page of a task, its page 16 in quay page 3, page 17 in hold memory, page 18 with a store forbidden. -/
def mapped : List TlbEntry := [⟨0, 0, 16, 0xB000000003⟩, ⟨1, 0, 17, 0xF000000E00⟩, ⟨2, 0, 18, 0xA000000003⟩]

/-- An engine instruction with pages 16 and 17 mapped. -/
def standMapped (i : Instr) (t : Task) : State := withEng (stand up0 i t) 0 (fun en => { en with tlb := mapped })

theorem witness_AddressesAndWalks :
    let en := { (up0.engine 0) with live := Task.init 5 0, tlb := mapped }
    let s := standMapped (.ld 0 ⟨1, 2, 0⟩) (Task.init 5 0)
    let l : PendLoad := ⟨0, 3, 5, 99, false, none⟩
    let s1 := withEng s 0 (fun en => { en with loads := [l] })
    let s2 := withEng s 0 (fun en => { en with loads := [{ l with poison := true }] })
    let s3 := withEng s1 0 (fun en => { en with running := none })
    let s4 := (withEng s 0 (fun en => { en with walk := some ⟨20, false, false⟩ })).memWrite .quay 20 0xB000000004
    en.target 0x3FFF ⟨false, false⟩ = .data 0x3FFF ∧ en.target 0x100000 ⟨false, false⟩ = .fault 3 ∧
    en.target 0x4000 ⟨false, false⟩ = .quay 3072 ∧ en.target 0xFFFFF ⟨false, false⟩ = .miss 1023 ∧
    (s1.engine 0).loads.find? (fun x => x.berth == 0 && x.reg == 3) = some l ∧ (s1.engine 0).running = some 0 ∧
    ((s2.engine 0).loads.find? (fun x => x.berth == 0 && x.reg == 3)).isSome = true ∧ (s3.engine 0).running ≠ some 0 ∧
    (s4.memRead .quay 20 (srcQuay 0)).1 = ⟨0xB000000004, false⟩ ∧ applyEntry 0xB000000004 0 ⟨false, false⟩ = .quay 4096 ∧
    (s4.engine 0).walk = some ⟨20, false, false⟩ ∧ (s4.engine 0).tlbFind (s4.engine 0).live.table 20 = none ∧
    ((after (exec (.tlbWalk 0) s4)).engine 0).tlbFind 0 20 = some ⟨0, 0, 20, 0xB000000004⟩ := by decide +kernel

theorem witness_EngineLoadsWord :
    let i : Instr := .ld 0 ⟨1, 2, 0⟩
    let at_ := fun (a : Word) => (standMapped i (task1 2 a)).standsAt i 0
    let to_ := fun (a : Word) => ((standMapped i (task1 2 a)).engine 0).target a.toNat ⟨false, false⟩
    at_ 0 = true ∧ to_ 0 = .data 0 ∧ at_ 0x3FFF = true ∧ to_ 0x3FFF = .data 0x3FFF ∧ at_ 0x4000 = true ∧ to_ 0x4000 = .quay 3072 ∧
    at_ 0x4400 = true ∧ to_ 0x4400 = .hold 0x380000 ∧ at_ 0x4C00 = true ∧ to_ 0x4C00 = .miss 19 := by decide +kernel

theorem witness_EngineStoresWord :
    let i : Instr := .st 0 ⟨1, 2, 0⟩
    let at_ := fun (a : Word) => (standMapped i (task1 2 a)).standsAt i 0
    let to_ := fun (a : Word) => ((standMapped i (task1 2 a)).engine 0).target a.toNat ⟨true, false⟩
    at_ 0x3BFF = true ∧ to_ 0x3BFF = .data 0x3BFF ∧ to_ 0x4000 = .quay 3072 ∧ to_ 0x4400 = .hold 0x380000 ∧ to_ 0x4C00 = .miss 19 ∧
    ((after (exec i (standMapped i (task1 2 0x4400)))).memPeek .hold 0x380000 = 0) := by decide +kernel

theorem witness_EngineBranches :
    let rows : List Instr := [.br 0 ⟨0, 0, -5⟩, .call 0 ⟨19, 2, 100⟩, .jr 0 ⟨15, 2, 0⟩, .jrl 0 ⟨7, 2, 8191⟩, .br 0 ⟨21, 2, 0⟩]
    rows.all (fun i => (stand up0 i (Task.init 5 0)).standsAt i 0) = true ∧
    ((after (exec (.call 0 ⟨19, 2, 100⟩) (stand up0 (.call 0 ⟨19, 2, 100⟩) (Task.init 5 0)))).engine 0).live.pc = 105 ∧
    ((after (exec (.br 0 ⟨8, 0, 9⟩) (stand up0 (.br 0 ⟨8, 0, 9⟩) (Task.init 5 0)))).engine 0).live.pc = 6 := by decide +kernel

theorem witness_BlockInstructionsStart :
    let k : K5 := ⟨0, 2, 4, 4, 0⟩
    let rows : List (Instr × BitVec 8) :=
      [(.vmac 0 k, 0x68), (.firs 0 k, 0x69), (.corr 0 k, 0x6A), (.bfly 0 k, 0x6B), (.vmul 0 k, 0x6C), (.vfill 0 k, 0x6D)]
    rows.all (fun r =>
      let s := stand up0 r.1 (((task1 2 100).setW 3 200).setW 4 400)
      let ms := blockStreams r.2 k (s.engine 0).live
      s.standsAt r.1 0 && !blockMisaligned r.2 ms && ((s.engine 0).blockMiss ms 0).isNone) = true := by decide +kernel

theorem witness_BlockElementEffects :
    let t := (task1 2 100).setW 3 200
    let s := fun (op : BitVec 8) (n : BitVec 10) => withEng (stand up0 (.vmac 0 ⟨0, 2, 3, n, 0⟩) t) 0 (fun en => { en with block := some ⟨op, ⟨0, 2, 3, n, 0⟩, true⟩ })
    let bad := withEng (s 0x68 1) 0 (fun en => { en with poisoned := some 4 })
    ((s 0x68 1).engine 0).block = some ⟨0x68, ⟨0, 2, 3, 1, 0⟩, true⟩ ∧ ((s 0x68 1).engine 0).poisoned = none ∧ (bad.engine 0).poisoned = some 4 ∧
    ((after (exec (.blockElementEffect 0) bad)).engine 0).lastFault = 5 ∧ ((s 0x68 1).engine 0).running = some 0 ∧
    ((s 0x68 1).engine 0).walk = none ∧ streamAt 100 (strideOf 0) 0 = 100 ∧ (s 0x68 0).cell .dmem 100 = ⟨0, 0, false⟩ ∧
    ((after (exec (.blockElementEffect 0) (s 0x68 1))).engine 0).block = none ∧
    ((after (exec (.blockElementEffect 0) (s 0x6D 0))).engine 0).live.prog = 1 ∧
    (after (exec (.blockElementEffect 0) (s 0x6D 0))).memPeek .dmem 100 = 200 := by decide +kernel

/-- An image with one engine of two timed berths, an urgent one and a handler, and two lighter channels of its own. -/
def engImg : Image := { Image.none with
  engines := [⟨0, [], [], [⟨0, .timed, 0, 400, 0, false, 100, 0x1000⟩, ⟨1, .timed, 400, 300, 0, true, 200, 0x1400⟩,
    ⟨2, .urgent, 0, 0, 3, false, 300, 0x1800⟩, ⟨3, .handler, 0, 0, 2, false, 900, 0x1C00⟩]⟩]
  ltrOwner := [(7, 0), (515, 0), (512, 0), (516, 0)], quays := [⟨0, [], [(0, 7)]⟩] }

/-- The device up with that image. -/
def upE : State := { up0 with img := engImg }

theorem witness_EngineRegisterAccess :
    let ldr : Instr := .ldr 0 ⟨1, 2, 0⟩
    let str : Instr := .str 0 ⟨1, 2, 0⟩
    let s1 := fun (a : Word) => stand upE ldr (task1 2 a)
    let s2 := stand upE str ((task1 2 267).setW 1 63)
    let ctrl := (F.engCtrlHalt 0).addr
    let full := withEng upE 0 (fun en => { en with inbox := List.replicate 8 ⟨1, 0, false⟩ })
    let halted := fun (st : EngSt) => withEng upE 0 (fun en => { en with st := st })
    let run := stand upE ldr (Task.init 5 0)
    (s1 10).standsAt ldr 0 = true ∧ (s1 10).clean .imem 5 = true ∧ (layout 10).isSome = true ∧ (10 ∉ (s1 10).parBad) ∧ isHi 10 = false ∧
    (s1 0x30004).standsAt ldr 0 = true ∧ s2.standsAt str 0 = true ∧ s2.writeAns 267 63 = .ok ∧ s2.alive = true ∧ s2.inReplayQuay 0 = false ∧
    s2.journals s2.cycW = false ∧ (after (exec str s2)).reg 267 = 63 ∧
    upE.takesWord .mgmt 8195 5 = true ∧ (upE.engine 0).inbox.length < 8 ∧ full.takesWord .mgmt 8195 5 = true ∧ full.intakeRoom 1 = true ∧
    run.takes .mgmt ctrl [(F.engCtrlHalt 0, 1)] = true ∧ run.engLive 0 = true ∧ (run.engine 0).running = some 0 ∧ (run.engine 0).poisoned = none ∧
    (halted .haltedReq).takes .debug ctrl [(F.engCtrlResume 0, 1)] = true ∧ (halted .haltedReq).latched = false ∧
    ((halted .haltedReq).timedAt 0 ((1000 + 12) % 1024)).isNone = true ∧
    (halted .haltedFault).takes .debug ctrl [(F.engCtrlResume 0, 1)] = true ∧ (halted .haltedFault).intakeRoom 1 = true ∧
    upE.takes .mgmt ctrl [(F.engCtrlRestart 0, 1)] = true := by decide +kernel

/-- RESUME of a halted engine whose quantum falls outside every timed berth leaves it idle. -/
theorem witness_Resume :
    let s := { withEng upE 0 (fun en => { en with st := .haltedReq }) with cyc := 1000 }
    s.takes .debug (F.engCtrlResume 0).addr [(F.engCtrlResume 0, 1)] = true ∧ s.timedAt 0 ((s.engCyc 0 + 12) % 1024) = none ∧
    (s.engine 0).ready = 0 ∧ ((after (exec (.resume .debug 0) s)).engine 0).st = .idle := by decide +kernel

theorem witness_EngineFaults :
    let i : Instr := .br 0 ⟨0, 0, -6⟩
    let s := stand upE i (Task.init 5 0)
    let ldr : Instr := .ldr 0 ⟨1, 2, 0⟩
    let str : Instr := .str 0 ⟨1, 2, 0⟩
    let s1 := stand upE ldr (task1 2 0xFFFFFF)
    let s2 := fun (a w : Word) => stand upE str ((task1 2 a).setW 1 w)
    (encode i).isSome = true ∧ (s.engine 0).running = some 0 ∧ (s.engine 0).st = .running ∧ (s.engine 0).block = none ∧ (s.engine 0).walk = none ∧
    s.urgentBerth 0 0 = false ∧ s.handlerOf 0 = some 3 ∧ s.intakeRoom 2 = true ∧
    ((withEng s 0 (fun en => { en with poisoned := some 4 })).engine 0).poisoned = some 4 ∧ (s.engine 0).poisoned = none ∧
    (s.setCell .imem 5 ⟨0, 0, true⟩).memRead .imem 5 (srcEng 0) = (⟨0, true⟩, (after (.next ((s.setCell .imem 5 ⟨0, 0, true⟩).memRead .imem 5 (srcEng 0)).2))) ∧
    legalWord ((s.memWrite .imem 5 0).memRead .imem 5 (srcEng 0)).1.word = false ∧
    s.standsAt i 0 = true ∧ (s.engine 0).live.cond 0 0 = true ∧ ((after (exec i s)).engine 0).lastFault = 2 ∧
    s1.standsAt ldr 0 = true ∧ (layout 0xFFFFFF).isNone = true ∧ ((after (exec ldr s1)).engine 0).lastFault = 3 ∧
    (s2 0xFFFFFF 1).standsAt str 0 = true ∧ (s2 0xFFFFFF 1).writeAns 0xFFFFFF 1 = .unmapped ∧ (s2 0 1).writeAns 0 1 = .noField ∧
    (s2 267 64).writeAns 267 64 = .reservedBit ∧ (s2 267 64).standsAt str 0 = true ∧
    ((after (exec str (s2 267 64))).engine 0).lastFault = 4 := by decide +kernel

theorem witness_LighterInstructions :
    let rows : List Instr := [.lstat 0 ⟨1, 9, 0, 0⟩, .labort 0 ⟨0, 9, 0, 1⟩, .lres 0 ⟨0, 9, 0, 7⟩, .lque 0 ⟨0, 8, 9, 2⟩]
    let t := ((task1 9 7).setW 8 10)
    let s := fun (i : Instr) => (stand upE i t).memWrites .dmem 40 [100, 200, 4 * 2 ^ 20, 2 ^ 20 + 1]
    let d : Desc := ⟨100, 200, 4 * 2 ^ 20, 2 ^ 20 + 1, 0, 0, 0, false⟩
    let q := s (.lque 0 ⟨0, 8, 9, 2⟩)
    let full := q.setLighter 7 { Lighter.init with queue := List.replicate 32 d }
    let cap := { (stand upE (.labort 0 ⟨0, 9, 0, 1⟩) (task1 9 32)).setLighter 512 { Lighter.init with queue := [d], st := .running } with
      rpl := { upE.rpl with capWait := [⟨6, 0x300000, [0]⟩] } }
    let cp := stand { upE with rpl := { upE.rpl with copying := some (false, 9) } } (.labort 0 ⟨0, 9, 0, 1⟩) (task1 9 36)
    rows.all (fun i => (s i).standsAt i 0) = true ∧ d.srcSpace ≠ 6 ∧ q.rpl.capWait.find? (fun g => q.capChannel g.bp.toNat == 7) = none ∧
    cap.standsAt (.labort 0 ⟨0, 9, 0, 1⟩) 0 = true ∧ cap.ltrOf 0 32 = some 512 ∧
    cap.rpl.capWait.find? (fun g => cap.capChannel g.bp.toNat == 512) = some ⟨6, 0x300000, [0]⟩ ∧ (cap.lighter 512).queue ≠ [] ∧
    (((after (exec (.labort 0 ⟨0, 9, 0, 1⟩) cap)).lighter 512).queue.map Desc.srcSpace) = [6] ∧ cp.ltrOf 0 36 = some 516 ∧
    cp.standsAt (.labort 0 ⟨0, 9, 0, 1⟩) 0 = true ∧ (after (exec (.labort 0 ⟨0, 9, 0, 1⟩) cp)).rpl.copying = none ∧ upE.ltrOf 0 7 = some 7 ∧ upE.ltrOf 0 35 = some 515 ∧
    q.cell .dmem 40 = ⟨100, 0, false⟩ ∧ q.cell .dmem 43 = ⟨2 ^ 20 + 1, 0, false⟩ ∧ (q.lighter 7).queue.length < 32 ∧ q.descOk 7 d = true ∧
    ((after (exec (.lque 0 ⟨0, 8, 9, 2⟩) q)).lighter 7).queue.length = 1 ∧ full.standsAt (.lque 0 ⟨0, 8, 9, 2⟩) 0 = true ∧
    q.descOk 7 { d with w2 := 0 } = false ∧ ((after (exec (.lque 0 ⟨0, 8, 9, 2⟩) full)).engine 0).live.getP 2 = false := by decide +kernel

theorem witness_BerthWakeAndStatus :
    let s := stand upE (.bwake 0 ⟨0, 2, 0, 1⟩) (task1 2 2)
    s.standsAt (.bwake 0 ⟨0, 2, 0, 1⟩) 0 = true ∧ ((after (exec (.bwake 0 ⟨0, 2, 0, 1⟩) s)).engine 0).ready = 4 ∧
    (stand upE (.bstat 0 ⟨1, 0, 0, 0⟩) (Task.init 5 0)).standsAt (.bstat 0 ⟨1, 0, 0, 0⟩) 0 = true := by decide +kernel

theorem witness_TaskEndsItsRun :
    let s := stand upE (.bend 0 ⟨0, 0, 0, 0⟩) (Task.init 5 0)
    let u := withEng ({ stand upE (.bsleep 0 ⟨0, 0, 0, 0⟩) (Task.init 5 0) with cyc := 1000 }) 0 (fun en => { en with running := some 2 })
    s.standsAt (.bend 0 ⟨0, 0, 0, 0⟩) 0 = true ∧ s.urgentBerth 0 0 = false ∧
    u.standsAt (.bsleep 0 ⟨0, 0, 0, 0⟩) 2 = true ∧ u.urgentBerth 0 2 = true ∧ u.nextUrgent 0 (u.engCyc 0 + 1) = none ∧
    u.timedAt 0 ((u.engCyc 0 + 13) % 1024) = none ∧ (after (exec (.bend 0 ⟨0, 0, 0, 0⟩) s)).memPeek .dmem 15360 = 6 := by decide +kernel

theorem witness_Mailboxes :
    let rx : Instr := .mrecv 0 ⟨1, 0, 0, 1⟩
    let tx : Instr := .msend 0 ⟨0, 2, 0, 1⟩
    let s := withEng (stand upE rx (Task.init 5 0)) 0 (fun en => { en with inbox := [⟨8, 0, false⟩, ⟨9, 0, true⟩] })
    let v := { withEng upE 0 (fun en => { en with inbox := [⟨8, 0, false⟩], outbox := [0x7000000001] }) with cyc := 128 }
    let w := { v with mgmt := { v.mgmt with ring := List.replicate 4096 (0, 0) } }
    s.standsAt rx 0 = true ∧ (stand upE rx (Task.init 5 0)).standsAt rx 0 = true ∧ (stand upE tx (Task.init 5 0)).standsAt tx 0 = true ∧
    (withEng (stand upE tx (Task.init 5 0)) 0 (fun en => { en with outbox := List.replicate 8 0 })).standsAt tx 0 = true ∧
    (stand upE (.mstat 0 ⟨1, 0, 0, 0⟩) (Task.init 5 0)).standsAt (.mstat 0 ⟨1, 0, 0, 0⟩) 0 = true ∧
    ((after (exec rx s)).engine 0).live.getW 1 = 9 ∧ v.inReplayQuay 0 = false ∧ v.journals v.cycW = false ∧ (0 + 64 + 63) / 64 * 64 ≤ v.cyc ∧
    v.cyc % 256 = (0 + 128) % 256 ∧ upE.cyc % 256 ≠ (0 + 128) % 256 ∧ (v.engine 0).outbox = [0x7000000001] ∧ v.mgmt.ring.length < 4096 ∧ w.mgmt.ring.length = 4096 := by decide +kernel

theorem witness_RoundsAndSwitches :
    let idle := withEng { upE with cyc := 1012 } 0 (fun en => { en with st := .idle })
    let end_ := withEng { upE with cyc := 400 } 0 (fun en => { en with st := .running, running := some 0 })
    let bad := withEng end_ 0 (fun en => { en with poisoned := some 7 })
    let shed := withEng { upE with thermal := { upE.thermal with shed := true } } 0 (fun en => { en with st := .running, running := some 1 })
    let k0 : BerthCfg := ⟨0, .timed, 0, 400, 0, false, 100, 0x1000⟩
    let run := withEng { upE with cyc := 64 } 0 (fun en => { en with st := .running, running := some 0, ready := 4 })
    let urg := withEng { upE with cyc := 1000 } 0 (fun en => { en with st := .running, running := some 2, budgetEnd := some 1000 })
    idle.engLive 0 = true ∧ idle.berthCfg 0 0 = some k0 ∧ (idle.engCyc 0 + 12) % 1024 = 0 ∧ (idle.engine 0).running = none ∧
    (idle.engine 0).suspended = 0 ∧ idle.shedAtStart 0 k0 = false ∧ (upE.engCyc 0 + 12) % 1024 ≠ 0 ∧ end_.berthCfg 0 0 = some k0 ∧
    end_.engCyc 0 % 1024 = (0 + 400) % 1024 ∧ end_.engLive 0 = true ∧ idle.engCyc 0 % 1024 ≠ 400 ∧ (bad.engine 0).poisoned ≠ none ∧
    ((after (exec (.timedBerthEnd 0) bad)).engine 0).lastFault = 5 ∧ idle.engCyc 0 % 64 ≠ 0 ∧ run.engCyc 0 % 64 = 0 ∧ (run.engine 0).poisoned = none ∧
    (urg.engine 0).poisoned = none ∧ idle.engCyc 0 % 1024 ≠ 0 ∧ upE.engCyc 0 % 1024 = 0 ∧ (upE.engine 0).restart = false ∧
    shed.engCyc 0 % 1024 = 0 ∧ shed.engLive 0 = true ∧ shed.berthCfg 0 1 = some ⟨1, .timed, 400, 300, 0, true, 200, 0x1400⟩ ∧
    ((after (exec (.berthRoundStart 0) shed)).engine 0).running = none ∧
    ((after (exec (.timedBerthStart 0 0) idle)).engine 0).running = some 0 ∧
    run.engLive 0 = true ∧ run.urgentBerth 0 0 = false ∧ run.nextUrgent 0 (run.engCyc 0) = some 2 ∧ run.urgentBerth 0 2 = true ∧
    (run.cell .dmem (15360 + 64 * 2 + 63)) = ⟨0, 0, false⟩ ∧ ((after (exec (.urgentPreempt 0) run)).engine 0).running = some 2 ∧
    (urg.engine 0).budgetEnd = some 1000 ∧ 1000 ≤ urg.engCyc 0 ∧ urg.nextUrgent 0 (urg.engCyc 0) = none ∧ urg.timedAt 0 ((urg.engCyc 0 + 12) % 1024) = none ∧
    (after (exec (.berthRoundStart 0) (withEng upE 0 (fun en => { en with restart := true })))).memPeek .dmem 15360 = 100 := by decide +kernel

theorem witness_LightersAtWork :
    let d : Desc := ⟨100, 200, 20 * 2 ^ 20, 2 ^ 20 + 1, 0, 0, 0, false⟩
    let s := upE.setLighter 7 { Lighter.init with st := .running, started := true, queue := [d] }
    let far : Desc := { d with w0 := 0xFFFFFF, w1 := 4 * 2 ^ 36 }
    let s2 := upE.setLighter 7 { Lighter.init with st := .running, started := true, queue := [far] }
    let p := upE.setTap 3 { Taps.init with aWhole := [⟨[1]⟩], mWhole := [⟨[2]⟩] }
    s.ownsSlot 7 0 = true ∧ ({ s with cyc := 32 } : State).ownsSlot 7 0 = false ∧
    d.srcSpace ≠ 6 ∧ s.rpl.capWait = [] ∧ s.latched = false ∧ d.srcSpace = 0 ∧ d.dstSpace = 0 ∧ d.count = 20 ∧ d.src 15 = 115 ∧ d.dst 15 = 215 ∧ d.notify = false ∧ d.release = false ∧
    s.clean .dmem 115 = true ∧ ((after (exec (.lighterBurst 7) s)).lighter 7).moved = 16 ∧
    ((after (exec (.lighterBurst 7) (after (exec (.lighterBurst 7) s)))).lighter 7).queue = [] ∧
    far.srcSpace = 0 ∧ far.dstSpace ≠ 0 ∧ 0x100000 ≤ far.src 0 ∧ s2.intakeRoom 1 = true ∧ ((after (exec (.lighterBurst 7) s2)).lighter 7).fault = 1 ∧
    s.takesWord .mgmt (ltrPosAddr 7) (maskOf 14 14) = true ∧ s.takesWord .mgmt (ltrPosAddr 7) (maskOf 13 13) = true ∧
    s.takesWord .mgmt (ltrPosAddr 527) (maskOf 13 13) = true ∧
    (p.tap 3).aWhole = [⟨[1]⟩] ∧ (p.tap 3).mWhole = [⟨[2]⟩] ∧
    ({ s with fc := { s.fc with c4 := true } } : State).latched = true := by decide +kernel

theorem witness_LightersAtWork_device :
    let dl := fun (n : Nat) (d : Desc) (buf : List Word) (c : Nat) =>
      ({ upE with cyc := c, rpl := { upE.rpl with capTap := [(6, List.replicate 19 9)] } } : State).setLighter n
        { Lighter.init with st := .running, started := true, queue := [d], buf := buf }
    let cd := devDesc 6 6 0 4 0 0x300000 19 0 1
    let zd := devDesc 5 0 0 4 0 0x380000 40 0 1
    cd.srcSpace = 6 ∧ cd.dstSpace = 4 ∧ cd.count = 19 ∧ zd.srcSpace = 5 ∧ zd.dstSpace = 4 ∧ ((dl 512 cd [] 0).opens 512 cd).window = true ∧
    ((dl 512 cd [] 1).opens 512 cd).window = false ∧ ((dl 512 cd [] 0).capWords cd.srcUnit).length = 19 ∧ ((dl 517 zd [] 10).opens 517 zd).window = true ∧
    ((after (exec (.lighterBurst 512) (dl 512 cd [] 0))).lighter 512).buf.length = 16 ∧
    ((after (exec (.lighterBurst 517) (dl 517 zd (List.replicate 16 0) 10))).lighter 517).moved = 16 ∧ zd.dst 15 = 0x38000F := by decide +kernel

theorem witness_ScrubAndParity :
    let s := upE.memWrite .quay 5 0x1234
    let w : WriteBack := ⟨MemSel.quay.num, 5, 7, 0⟩
    let run := stand upE (.bend 0 ⟨0, 0, 0, 0⟩) (Task.init 5 0)
    s.alive = true ∧ (s.cell .quay 5).poison = false ∧ s.intakeRoom 1 = true ∧
    (match rsDecode 0x100 with | .corrected fix => fix == 0x100 | _ => false) = true ∧ rsDecode 0x0101 = .bad ∧
    ({ s with writeBacks := [w] } : State).writeBacks.find? (fun y => y.mem == MemSel.quay.num && y.addr == 5) = some w ∧
    (layout 10).isSome = true ∧ 10 ∉ s.parBad ∧ parityOwner 10 = .none ∧
    (run.engine 0).running = some 0 ∧ run.handlerOf 0 = some 3 ∧ run.alive = true ∧ run.intakeRoom 1 = true := by decide +kernel

/-! ### Band paths -/

/-- A level in a plan word. -/
def lv (x : Int) : Word := BitVec.ofInt 40 (x * dB1)

/-- A plan entry (R417): the fields given, then those every band path of these states has. -/
def planEnt (l : List (Nat × Word)) : List Word :=
  let rest : List (Nat × Word) := [(0, 1), (3, 2), (5, 2), (14, 0x140000000), (16, 2), (17, 10), (18, 0x201), (19, -1), (20, -1), (21, -1),
    (32, 8), (33, 100), (34, 50), (40, lv 0), (42, lv 60), (43, 4), (44, lv 3), (48, lv 80), (49, 800), (50, lv (-20)), (51, lv (-10)), (52, 1),
    (53, lv 3), (54, 4), (55, -1), (56, -1), (57, -1), (58, -1), (59, lv 1), (60, lv 1), (61, 200), (62, 300), (63, lv 1), (64, 400), (65, lv 60),
    (66, lv (-100)), (67, 20), (68, lv (-30)), (69, 2), (70, 3), (71, 3), (72, 5), (73, 2), (75, 20000), (76, lv 0), (77, -1), (78, lv (-60)), (79, 50),
    (80, 7), (81, 1), (82, 1), (83, -1)]
  (List.range 128).map (fun i => match (l ++ rest).find? (fun p => p.1 == i) with | some p => p.2 | none => 0)

/-- An image with a downlink BP0 from chain 3 and an uplink BP1 from chain 4 that watches BP0, and one limits entry. -/
def bpImg : Image := { Image.none with
  plan := planEnt [(1, 3), (2, 0)] ++ planEnt [(1, 4), (2, 1), (77, 0), (68, 3), (55, 2)]
  limits := List.replicate 17 700000 ++ ([lv (-10), lv 30, lv 40, lv 100, lv 6, 0, 1, 0, 0xFFFFFFFF] ++ List.replicate 7 0) }

/-- The device up with that image. -/
def upB : State := { up0 with img := bpImg, thermal := { Thermal.init with free := 500 } }

/-- Band path `n` after `f`. -/
def withBp (s : State) (n : Nat) (f : Bp → Bp) : State := s.setBp n (f (s.bp n))

/-- Band path `n` in a state of protection. -/
def inSt (s : State) (n : Nat) (st : BpSt) : State := withBp s n (fun b => { b with prot := { b.prot with st := st } })

theorem witness_DatapathWrites :
    let on := inSt upB 0 .active
    let fb := withBp on 0 (fun b => { b with flow := { b.flow with fallback := true } })
    let full : State := { fb with rsmp := (List.range 64).map (fun k => (k, .held 5)) }
    let ctrl := (F.bpCtrlDcFreeze 0).addr
    let bwc := (F.bpBwCtrlSwapArm 0).addr
    let arm := fun (q : Nat) => on.takes .mgmt bwc [(F.bpBwCtrlSwapArm 0, 1), (F.bpBwCtrlSwapSeq 0, q)]
    on.takes .mgmt (F.bpNcoFreq 0).addr [(F.bpNcoFreq 0, 5)] = true ∧ on.passing 0 = true ∧ (on.gvSource 0).isNone = true ∧
    on.takesWord .mgmt (F.bpPathMode 0).addr 0 = true ∧ on.pathMode 0 = 0 ∧ fb.pathMode 0 = 2 ∧
    on.takes .mgmt (F.bpRsmpStepStep 0).addr [(F.bpRsmpStepStep 0, 2 ^ 32)] = true ∧
    on.takes .mgmt (F.bpRsmpStepStep 0).addr [(F.bpRsmpStepStep 0, 2 ^ 33)] = true ∧ on.rd (F.bpRsmpStepStep 0) ≠ 2 ^ 33 ∧
    on.takes .mgmt ctrl [(F.bpCtrlDcFreeze 0, 1)] = true ∧
    (on.wr (F.bpCtrlDcFreeze 0) 1).takes .mgmt ctrl [(F.bpCtrlDcFreeze 0, 0)] = true ∧ (on.wr (F.bpCtrlDcFreeze 0) 1).rdB (F.bpCtrlDcFreeze 0) = true ∧
    on.takes .mgmt ctrl [(F.bpCtrlMeterRestart 0, 1)] = true ∧ on.takes .mgmt ctrl [(F.bpCtrlRsmpRetry 0, 1)] = true ∧
    fb.freeResampler = some 0 ∧ full.freeResampler = none ∧ full.pathMode 0 = 2 ∧
    arm 0 = true ∧ arm (2 ^ 23 - 2) = true ∧ ((0 : BitVec 24) - (0 - 1)).toNat = 1 ∧ ((-1 : BitVec 24) - (0 - 1)).toNat = 0 ∧
    ((2 ^ 23 - 1 : BitVec 24) - (0 - 1)).toNat = 2 ^ 23 ∧
    on.takes .mgmt (F.bpBwCtrlFloor 0).addr [(F.bpBwCtrlFloor 0, 100)] = true := by decide +kernel

theorem witness_GainWrites :
    let s := inSt upB 1 .active
    let a := (F.bpGainGainSet 1).addr
    let r := withBp s 1 (fun b => { b with gain := { b.gain with gate := .resettle } })
    let m := withBp s 1 (fun b => { b with floor := { b.floor with blocks := List.replicate 64 5 }, mask := { b.mask with done := true, period := 3, consec := 1 } })
    let m2 := withBp m 1 (fun b => { b with mask := { b.mask with consec := 2 } })
    s.takes .mgmt a [(F.bpGainGainSet 1, 0x1000)] = true ∧ (s.bp 1).gain.frozen = false ∧
    r.takes .mgmt a [(F.bpGainAgcHold 1, 1)] = true ∧ r.rdB (F.bpGainAgcHold 1) = false ∧ s.takes .mgmt a [(F.bpGainAgcHold 1, 0)] = true ∧
    s.takes .mgmt a [(F.bpGainNrCapture 1, 1)] = true ∧ m.takes .mgmt a [(F.bpGainNrCapture 1, 1)] = true ∧ (m.bp 1).idle.2 = 1 ∧
    (s.bp 1).idle.2 ≠ 1 ∧ s.intakeRoom 1 = true ∧ s.takes .mgmt a [(F.bpGainEgMeterRestart 1, 1)] = true ∧
    m.takes .mgmt a [(F.bpGainMaskVerdict 1, 13)] = true ∧ m.takes .mgmt a [(F.bpGainMaskVerdict 1, 14)] = true ∧ 13 / 4 = (m.bp 1).mask.period % 8 ∧
    (m.bp 1).mask.consec < 2 ∧ (m.bp 1).mask.judged = false ∧ m2.takes .mgmt a [(F.bpGainMaskVerdict 1, 14)] = true ∧ 2 ≤ (m2.bp 1).mask.consec ∧
    m2.serving 1 = true ∧ m2.intakeRoom 2 = true ∧ 14 / 4 = (m2.bp 1).mask.period % 8 ∧ ((after (exec (.maskVerdict .mgmt 1 14) m2)).bp 1).prot.st = .muted ∧ ((after (exec (.maskVerdict .mgmt 1 13) m)).bp 1).mask.consec = 0 := by decide +kernel

theorem witness_ProtectionWrites :
    let en := F.bpProtEnable 0
    let on := (inSt upB 0 .active).wr en 1
    let off := { upB.wr en 1 with thermal := { upB.thermal with ledger := [(1, 20)] } }
    let busy := { upB with thermal := { upB.thermal with waiting := [⟨1, 20, true⟩] } }
    busy.takes .mgmt en.addr [(en, 1)] = true ∧ busy.govBusy (1 + 0) = true ∧ busy.rdB en = false ∧ off.takes .mgmt en.addr [(en, 0)] = true ∧
    (off.bp 0).prot.st = .off ∧ off.clearing 0 = false ∧ off.govBusy (1 + 0) = false ∧ off.credits (1 + 0) ≠ 0 ∧
    (after (exec (.bpDisable .mgmt 0) off)).thermal.xfer = some ⟨1, 20, true⟩ ∧
    upB.takes .mgmt en.addr [(en, 1)] = true ∧ (upB.bp 0).prot.st = .off ∧ upB.present 0 = true ∧ upB.rdB en = false ∧ upB.held4Service 0 = false ∧
    upB.credits 1 = 0 ∧ upB.thermal.xfer = none ∧ upB.creditCost 0 + upB.headroom ≤ upB.thermal.free ∧
    (inSt upB 0 .barred).takes .mgmt en.addr [(en, 1)] = true ∧ on.takes .mgmt en.addr [(en, 0)] = true ∧
    on.takes .mgmt en.addr [(F.bpProtLockAck 0, 1)] = true ∧ on.rdB en = true ∧
    (inSt on 0 .lockedOut).takes .mgmt en.addr [(F.bpProtLockAck 0, 1)] = true ∧
    upB.takesWord .mgmt 11 (lv (-11)) = true ∧ upB.writeAns 11 (lv (-10)) ≠ .ok ∧ (limRange 0).1 ≤ -11 * dB1 ∧ -11 * dB1 ≤ (limRange 0).2 ∧
    upB.limLatest (upB.limIdx (upB.rd F.protLimSelBp)) (upB.rd F.protLimSelItem) = -10 * dB1 ∧
    (after (exec (.protLimDataWrite .mgmt (lv (-11))) upB)).limPend = [⟨0, 0, -11 * dB1⟩] := by decide +kernel

theorem witness_BandSampleAdvances :
    let s := inSt upB 0 .active
    s.present 0 = true ∧ s.replayMode = false ∧ (s.bp 0).prot.st ≠ .off ∧ s.gvSource 0 = none ∧ (upB.bp 1).prot.st = .off ∧
    ({ s with rpl := { s.rpl with st := .replayMode } } : State).replayMode = true := by decide +kernel

theorem witness_GateTransitions :
    let s := inSt upB 1 .active
    let gate := fun (g : GateSt) (f : BpGain → BpGain) => withBp s 1 (fun b => { b with gain := f { b.gain with gate := g } })
    let loud : GateSample := ⟨1000, true, true, false⟩
    let low : GateSample := ⟨0, false, false, true⟩
    let n1 := s.countOf 1 plConfirm
    let n2 := s.countOf 1 plHang
    let e := gate .closed (fun g => { g with run := 20 })
    let c := gate .opened (fun g => { g with recent := List.replicate n1 loud })
    let v := gate .opened (fun g => { g with verifyN := s.countOf 1 plVerify })
    let k := gate .confirmed (fun g => { g with capRun := 16 })
    let h := gate .confirmed (fun g => { g with recent := List.replicate n2 low, capRun := 15 })
    let r := gate .resettle (fun g => { g with rsN := 1 })
    (e.bp 1).gain.gate = .closed ∧ e.serving 1 = true ∧ e.planN 1 plDetectN ≤ (e.bp 1).gain.run ∧
    mostOf n1 ≤ (((c.bp 1).gain.recent.take n1).filter (fun x => x.above)).length ∧ (c.bp 1).gain.gate = .opened ∧
    v.countOf 1 plVerify ≤ (v.bp 1).gain.verifyN ∧
    k.uplink 1 = true ∧ k.agcHold 1 = false ∧ (k.bp 1).gain.gate = .confirmed ∧ ((after (exec (.gateCapture 1) k)).bp 1).gain.gate = .resettle ∧
    (r.bp 1).gain.rsLeft = 0 ∧ mostOf n2 ≤ (((h.bp 1).gain.recent.take n2).filter (fun x => x.quiet)).length ∧
    ((after (exec (.gateOpenEnergy 1) e)).bp 1).gain.openSrc = 1 := by decide +kernel

/-- A reference sequence of three chips that the newest samples equal (R103). -/
theorem witness_GateReference :
    let img := { bpImg with plan := planEnt [(1, 3), (2, 0), (55, 3), (59, 0x8000)] }
    let s := withBp (inSt { upB with img := img } 0 .active) 0 (fun b => { b with gain := { b.gain with signs := List.replicate 3 (⟨1, 1⟩, true) } })
    let t := s.memWrites .refs 0 [0x0000100001, 0x0000100001, 0x0000100001]
    (t.bp 0).gain.gate = .closed ∧ t.serving 0 = true ∧ ¬ (t.planN 0 plDetectN ≤ (t.bp 0).gain.run ∧ 0 < (t.bp 0).gain.run) ∧
    t.readRef 0 0 = (some [⟨1, 1⟩, ⟨1, 1⟩, ⟨1, 1⟩], t) ∧ t.refMatches 0 [⟨1, 1⟩, ⟨1, 1⟩, ⟨1, 1⟩] = true := by decide +kernel

theorem witness_GainPathEvents :
    let s := inSt { upB with cyc := 20000000000 } 0 .active
    let f := withBp s 0 (fun b => { b with floor := { b.floor with whole := [(5, true), (6, false)] } })
    let m := withBp s 0 (fun b => { b with mask := { b.mask with captured := 20, done := true, consec := 1 } })
    let st := withBp (inSt s 0 .starting) 0 (fun b => { b with flow := { b.flow with meterIn := { b.flow.meterIn with window := List.replicate 64 9, blocks := [0, 5] } }, gain := { b.gain with ramp := some 0 } })
    let v := withBp s 0 (fun b => { b with flow := { b.flow with meterOut := { b.flow.meterOut with blocks := [7] } } })
    let m2 := withBp m 0 (fun b => { b with mask := { b.mask with consec := 2 } })
    let g := withBp s 0 (fun b => { b with floor := { b.floor with begun := true } })
    let r := (s.setResampler 63 (.resetting s.cyc)).setResampler 5 (.released 0 3)
    (f.bp 0).floor.whole = [(5, true), (6, false)] ∧ s.present 0 = true ∧ (g.bp 0).floor.begun = true ∧
    (after (exec (.floorStale 0) g)).fc.queue.length = 1 ∧ 2 ≤ (m2.bp 0).mask.consec ∧ m2.serving 0 = true ∧ m2.intakeRoom 3 = true ∧
    ((after (exec (.maskPeriodEnd 0) m2)).bp 0).prot.st = .muted ∧ r.resampler 5 = .released 0 3 ∧
    (after (exec (.resamplerResetDone 63) r)).resampler 5 = .resetting (r.cyc + 64) ∧ (s.bp 0).floor.stale = false ∧ (s.bp 0).floor.since + s.planN 0 plFloorAgeMax * msCyc < s.setCyc ∧
    s.intakeRoom 1 = true ∧ s.maskOn 0 = true ∧ s.planN 0 plMaskAvg ≤ (m.bp 0).mask.captured ∧ (m.bp 0).mask.periodStart + 10 * msCyc ≤ m.setCyc ∧
    (m.bp 0).mask.consec < 2 ∧ (st.bp 0).prot.st = .starting ∧ (st.bp 0).gain.softStarted = false ∧ 64 ≤ (st.bp 0).flow.meterIn.window.length ∧
    (st.bp 0).gain.ramp = some 0 ∧ (st.bp 0).flow.meterIn.blocks = [0, 5] ∧ (v.bp 0).flow.meterOut.blocks = [7] ∧
    (s.bp 0).flow.clearLeft = 0 ∧ (s.bp 0).flow.validOut = false ∧ r.resampler 63 = .resetting r.cyc ∧
    ((after (exec (.softStartBegin 0) st)).bp 0).gain.softStarted = true := by decide +kernel

theorem witness_CoefficientSwap :
    let a := withBp (inSt upB 0 .active) 0 (fun b => { b with bw := { b.bw with armed := true } })
    let ok := withBp a 0 (fun b => { b with bw := { b.bw with scan := some ⟨2 ^ 37, 3, 0, false⟩ } })
    let bad := withBp a 0 (fun b => { b with bw := { b.bw with scan := some ⟨0, 3, 0, true⟩ } })
    let high := withBp a 0 (fun b => { b with bw := { b.bw with scan := some ⟨2 ^ 40, 3, 0, false⟩ } })
    (a.bp 0).bw.armed = true ∧ (a.bp 0).bw.scan = none ∧ a.planN 0 plTaps = 100 ∧ a.clean (bankSel true) 7 = true ∧ a.swapDue 0 = true ∧
    ok.swapDue 0 = true ∧ bad.swapDue 0 = true ∧ high.swapDue 0 = true ∧
    ¬ (ok.planDb 0 plEnergyMax < ratioDb (2 ^ 37) (2 ^ 38)) ∧ high.planDb 0 plEnergyMax < ratioDb (2 ^ 40) (2 ^ 38) ∧
    ((after (exec (.swapTakeEffect 0) ok)).bp 0).bw.swapResult = 1 := by decide +kernel

theorem witness_BreakwaterEvents :
    let p : Probe := ⟨-60 * dB1, 100, 50, dB1, 2 ^ 20, 2 ^ 20, List.replicate 4 ⟨2 ^ 40, 0⟩, List.replicate 4 ⟨2 ^ 30, 0⟩, 2 ^ 44, 2 ^ 44, List.replicate 4 (2 ^ 41), []⟩
    let s := withBp (inSt upB 0 .active) 0 (fun b => { b with bw := { b.bw with probe := some p } })
    let lim : State := { upB with limPend := [⟨0, 7, 5⟩, ⟨0, 0, -12 * dB1⟩] }
    let w : TripWin := ⟨16, 2 ^ 41, 2 ^ 41, false, 100, 0⟩
    let hist : TripPt := ⟨99, -200 * dB1, -100 * dB1⟩
    let far : TripPt := ⟨0, 0, 0⟩
    let t := fun (w : TripWin) (h : List TripPt) => withBp (inSt upB 0 .active) 0 (fun b => { b with bw := { b.bw with tripDone := [w], tripHist := h } })
    let out := powerDb w.outSum (w.n * 2 ^ 38)
    (s.bp 0).bw.probe = some p ∧ 2 ^ 20 ≤ p.count ∧ (isolation probeBits p.corrIn p.refPow p.powIn p.nValid (some p.level) p.spread (s.gChain 0)).open_ = false ∧
    (isolation probeBits p.corrOut p.refPow p.powOut p.nValid (some p.level) p.spread (s.gChain 0)).open_ = false ∧
    (lim.limPend.all (fun p => p.item < 8)) = true ∧ ((t w []).bp 0).bw.tripDone = [w] ∧ ((t { w with tainted := true } []).bp 0).bw.tripDone.length = 1 ∧
    hist.out + 3 * dB1 < out ∧ hist.loop + 3 * dB1 < out - 0 - out ∧ (100 - 99) * ((t w [hist]).rate 0).num * 10 ≤ 24576 * ((t w [hist]).rate 0).den ∧
    (t w [hist]).serving 0 = true ∧ (t w [hist]).intakeRoom 2 = true ∧ ¬ (far.out + 3 * dB1 < out) ∧
    (after (exec (.tripSubwindowEnd 0) (t w [hist]))).rdB (F.bpBwStatOscTrip 0) = true := by decide +kernel

theorem witness_ProtectionEvents :
    let late : State := { upB with cyc := 3600 * secCyc + 5 }
    let at_ := fun (st : BpSt) (f : BpProt → BpProt) => withBp late 1 (fun b => { b with prot := f { b.prot with st := st } })
    let r := at_ .muted (fun p => { p with retryAt := some 5, tripped := true })
    let e := at_ .active (fun p => { p with serviceFrom := some 5, retryExp := 3 })
    let l := at_ .active (fun p => { p with donorLow := some 0 })
    let k := inSt ((at_ .muted (fun p => { p with donorOk := some 0, donorLost := true })).setChain 3 { Chain.init with jrxLock := true }) 0 .active
    let d := at_ .active (fun p => { p with bucket := ⟨5, 10⟩, buckets := List.replicate 63 ⟨1, 2⟩ })
    let img := { bpImg with limits := List.replicate 17 700000 ++ ([lv (-10), lv 30, lv 40, lv 100, lv 6, 0, 1, 0, 0xFFFFFFFF] ++ List.replicate 7 0) }
    let m : State := { late with pins := { late.pins with muteN := true } }
    (r.bp 1).prot.retryAt = some 5 ∧ 5 ≤ r.setCyc ∧ anyHeld (r.bp 1).prot.held = false ∧ r.held4Service 1 = false ∧
    5 + 3600 * secCyc ≤ e.setCyc ∧ e.serving 1 = true ∧ l.planHas 1 plDonorBp = true ∧ (l.bp 1).prot.donorLost = false ∧
    0 + l.planN 1 plLossT * msCyc ≤ l.setCyc ∧ k.donorLane (k.planN 1 plDonorBp) = true ∧ k.passing (k.planN 1 plDonorBp) = true ∧
    0 + 100 * msCyc ≤ k.setCyc ∧ d.passing 1 = true ∧ (((d.bp 1).prot.bucket :: (d.bp 1).prot.buckets).take 64).length = 64 ∧
    ({ d with img := img } : State).limDuty 1 = 100 * dB1 ∧ m.pins.muteN = true ∧ m.replayMode = false ∧ late.pins.muteN = false ∧
    ⟨none, late.cyc + 16, false⟩ ∈ (after (exec .muteNRise late)).heldOff ∧ ((after (exec (.retryTimerExpiry 1) r)).bp 1).prot.st = .starting := by decide +kernel

/-- An uncorrectable delay word of BP0 (the sample of age d_b = 1): its taps read zero, DELAY_POISON is sent, and the next write clears the word (R92, R255). -/
theorem test_delay_poison :
    let s := withBp (inSt upB 0 .active) 0 (fun b => { b with flow := { b.flow with delayWords := 2, ref := [⟨5, 0⟩, ⟨6, 0⟩], seq := 7 } })
    let a := s.delayAddr 0 (7 - BitVec.ofNat 24 (s.bulk 0))
    let t := (s.setCell .hold a ⟨0, 0, true⟩).delayRead 0
    (t.fc.queue.map (fun m => (m.src, m.kind, m.hint)) = [(0, 5, 2)]) ∧ t.cell .hold a = ⟨0, 0, true⟩ ∧
    ((t.delayWrite 0 (7 - BitVec.ofNat 24 (s.bulk 0))).cell .hold a) = Cell.zero := by decide +kernel

/-- From 33.0 to 42.0 dB a ceiling rises in 90 steps of 0.1 dB, and not in 89 (R86). -/
theorem test_ceiling_rises :
    let climb := fun (k : Nat) => (List.range k).foldl (fun (c : Db × Nat) _ => ceilRise c.1 c.2 (42 * dB1)) (33 * dB1, 0)
    climb 90 = (42 * dB1, 0) ∧ (climb 89).1 < 42 * dB1 := by decide +kernel

/-- A converter sample stands in bits [19:4] (R35). -/
theorem test_conv_sample : convSample 0x0001FFFF = ⟨-16, 16⟩ := by decide +kernel

/-! ### Chains, coexistence, measurement and loops -/

/-- Chain 3 with sequences in entries 0 to 8, a device of 8 data bits, one TDD point toward TRANSMIT and a background calibration. -/
def feCfg : ChainCfg := { chainCfgNone with
  chain := 3, configured := true, slots := [(0, 0), (1, 0), (2, 0), (3, 0), (4, 0), (5, 0), (6, 0), (7, 0), (8, 8), (15, 8)]
  durations := [(0, 10), (2, 10), (3, 10), (8, 10)], devices := [⟨2, 0, 0, false, 8⟩], background := 1, bgInt := [(0, 1000)]
  calReqTimeout := 1000, rxOk := 1, settleRx := 200, settleTx := 600, tddPeriod := 5000000, points := [⟨1000, true, false⟩, ⟨300000, false, true⟩] }

/-- Two measurement channels, a trigger, two loops, chain 3 and the band paths. -/
def hwImg : Image := { bpImg with
  chains := [feCfg]
  mcs := [⟨1, 0, 2, 1, 1000, 0, 0⟩, ⟨2, 1, 0, 0, 100, 0, 0⟩]
  scan := [(0, 33)]
  trigs := [⟨[.trig 0 true], 1, 7, false⟩]
  loops := [⟨0, false, 2 ^ 24, 2 ^ 20, 0, 0, .none, 0, 0, 2 ^ 32, 0, 2 ^ 31, 2 ^ 20, false, 0⟩,
    ⟨1, true, 2 ^ 24, 0, 0, 0, .none, 0, 0, 2 ^ 32, 0, 2 ^ 32, 2 ^ 20, false, 0⟩] }

/-- The device up with that image. -/
def upH : State := { upB with img := hwImg }

/-- Chain 3 after `f`. -/
def withCh (s : State) (f : Chain → Chain) : State := s.setChain 3 (f (s.chain 3))

theorem witness_FrontEndCommands :
    let ok := fun (s : State) (cmd arg : Nat) => s.takes .mgmt (F.chFeCmdCmd 3).addr [(F.chFeCmdCmd 3, cmd), (F.chFeCmdArg 3, arg)]
    let at_ := fun (st : ChSt) => withCh upH (fun k => { k with st := st })
    let sch := (at_ .ready).wr (F.chFeCfgCtrl 3) 1
    let r : SeqRun := upH.freshRun 3 0 none
    let run := withCh (at_ .biasing) (fun k => { k with seq := some r })
    let c4 : State := { at_ .feFault with fc := { upH.fc with testLatch := true } }
    c4.latched = true ∧ ok c4 8 0 = true ∧ upH.latched = false ∧ ((after (exec (.clearFault .mgmt 3) c4)).chain 3).seq = none ∧
    ok (at_ .poweredDown) 1 0 = true ∧ (upH.chain 3).st = .poweredDown ∧ ok (at_ .ready) 2 0 = true ∧ ((at_ .ready).chain 3).seq = none ∧
    ok run 2 0 = true ∧ (run.chain 3).seq = some r ∧ r.ended = false ∧ ok (at_ .feFault) 8 0 = true ∧ ok (at_ .ready) 3 0 = true ∧
    (at_ .ready).onSchedule 3 = false ∧ ok sch 3 0 = true ∧ sch.onSchedule 3 = true ∧ (sch.chain 3).joined = false ∧
    ok (at_ .receive) 4 0 = true ∧ ok sch 4 0 = true ∧ sch.intakeRoom 1 = true ∧ ok (at_ .transmit) 5 0 = true ∧ ok (at_ .ready) 6 1 = true ∧
    ok (at_ .ready) 7 7 = true ∧ (upH.seqStart 3 15).isSome = true ∧ ok (at_ .biasing) 3 0 = true ∧ ok (at_ .synthLocking) 4 0 = true ∧
    ok (at_ .synthLocking) 5 0 = true ∧ ((at_ .biasing).chain 3).held = none ∧
    ((after (exec (.powerUp .mgmt 3) upH)).chain 3).st = .biasing := by decide +kernel

theorem witness_SequenceEntries :
    let r : SeqRun := { upH.freshRun 3 2 none with entry := 2 }
    let s := fun (op : Nat) => (withCh { upH with cyc := 2 ^ 34 } (fun k => { k with st := .switching, seq := some r })).memWrites .seq 6
      [BitVec.ofNat 40 (op * 2 ^ 36 + 2 * 2 ^ 33), 5, BitVec.ofNat 40 (3 * 2 ^ 32 + 0xFF)]
    let p := fun (tmo : Nat) (t0 : Nat) => (withCh (s 3) (fun k => { k with seq := some { r with pollFrom := some t0 } })).memWrites .seq 8 [BitVec.ofNat 40 (tmo * 2 ^ 32)]
    let lock := withCh (s 3) (fun k => { k with st := .synthLocking })
    let ab := withCh (s 3) (fun k => { k with st := .receive, seq := some { r with slot := 8, abort := some .transmit } })
    let early := withCh (s 2) (fun k => { k with seq := some { r with nextAt := 2 ^ 35 } })
    let end_ := (s 2).memWrite .seq 6 5
    let busy := withCh (s 2) (fun k => { k with xfer := some (feTransfer ⟨2, 0, 0, false, 8⟩ true 0 5 (2 ^ 34 - 16)) })
    let cal8 := withCh (s 9) (fun k => { k with st := .receive, seq := some { r with slot := 8 } })
    (s 2).entryAt 3 r ≤ (s 2).cyc ∧ r.abort = none ∧ early.cyc < early.entryAt 3 { r with nextAt := 2 ^ 35 } ∧ end_.entryAt 3 r ≤ end_.cyc ∧
    busy.inTransfer 3 = true ∧ (s 2).inTransfer 3 = false ∧ cal8.entryAt 3 { r with slot := 8 } ≤ cal8.cyc ∧
    ((after (exec (.seqEntry 3 0) cal8)).chain 3).faultKind = 6 ∧ ((after (exec (.seqEntry 3 0x105) (s 2))).chain 3).xfer.isSome = true ∧
    ((s 2).chain 3).seq = some r ∧ r.ended = false ∧ (s 9).cell .seq 6 = ⟨0x9400000000, 0, false⟩ ∧ (s 9).cell .seq 7 = ⟨5, 0, false⟩ ∧
    (s 9).cell .seq 8 = ⟨0x3000000FF, 0, false⟩ ∧ bitsOf 0x9400000000 32 30 = 0 ∧ (s 2).feDataBits 3 2 = 8 ∧
    Nat.land (Nat.xor (0x105 % 2 ^ 8) 5) 0xFF = 0 ∧ r.slot.toNat < 8 ∧ ((s 2).chain 3).st ≠ .poweredDown ∧ (s 2).intakeRoom 1 = true ∧
    0 + usCyc (8 * 3) ≤ (p 3 0).cyc ∧ (p 3 (2 ^ 34)).cyc < 2 ^ 34 + usCyc (8 * 3) ∧
    r.startedAt + usCyc ((p 0 0).rd (F.chFeCfgLockTimeout 3)) ≤ (p 0 0).cyc ∧ (lock.chain 3).lockFrom + usCyc (lock.rd (F.chFeCfgLockTimeout 3)) ≤ lock.cyc ∧
    assoc (ab.chain 3).reqDue 0 = none ∧ ((after (exec (.seqEntry 3 0x106) (s 2))).chain 3).st = .feFault := by decide +kernel

theorem witness_ChainTransitions :
    let sch := { upH.wr (F.chFeCfgCtrl 3) 1 with cyc := 2 ^ 34 }
    let r : SeqRun := { upH.freshRun 3 2 none with ended := true }
    let at_ := fun (st : ChSt) (f : Chain → Chain) => withCh { upH with cyc := 2 ^ 34 } (fun k => f { k with st := st })
    let c := at_ .receive (fun k => { k with seq := some { r with slot := 15 } })
    let y := at_ .synthLocking (fun k => { k with settleAt := some 5 })
    let w := at_ .switching (fun k => { k with settleAt := some (2 ^ 34), target := .receive })
    let g := at_ .receive (fun k => { k with pending := 1 })
    let d := at_ .ready (fun k => { k with reqDue := [(7, 5)], pending := 0x80 })
    let b := (at_ .ready (fun k => { k with committedAt := [(0, 5)] })).wr (F.chFeCfgCalMode 3) 1
    let j := withCh sch (fun k => { k with st := .receive, joined := true })
    let h := { j with boot := { j.boot with harbour := true } }
    let fe := withCh j (fun k => { k with frameEnd := some 5 })
    let late := withCh j (fun k => { k with frameEnd := some (2 ^ 35) })
    let cross := { j with time := { j.time with prev := -1, now := 5 } }
    let p0 : TddPoint := ⟨1000, true, false⟩
    let pt := withCh { j with cyc := 7900 } (fun k => { k with frameStart := 0, joinedAt := 0, enteredAt := 0, lastPoint := 5 })
    let dn := withCh c (fun k => { k with seq := some { r with slot := 15, doneAt := 2 ^ 35 } })
    let bi := at_ .biasing (fun k => { k with seq := some { r with slot := 0 } })
    r.doneAt ≤ c.cyc ∧ dn.cyc < 2 ^ 35 ∧ (bi.chain 3).st = .biasing ∧ bi.latched = false ∧ ((after (exec (.sequenceComplete 3) bi)).chain 3).st = .synthLocking ∧
    (fe.chain 3).frameEnd = some 5 ∧ (late.chain 3).frameEnd = some (2 ^ 35) ∧ (j.chain 3).frameEnd = none ∧ cross.frameCrossed 3 = true ∧
    j.frameCrossed 3 = false ∧ ((after (exec (.tddFrameStart 3) cross)).chain 3).frameStart = 2 ^ 34 ∧
    (pt.chainCfg 3).points[0]? = some p0 ∧ pt.pointAt 3 p0 = 8000 ∧ pt.prerollAt 3 p0 8000 ≤ 7900 ∧ (pt.chain 3).joined = true ∧
    ((after (exec (.switchPointPreroll 3 0) pt)).chain 3).target = .transmit ∧
    ((after (exec (.switchPointPreroll 3 0) pt)).chain 3).lastPoint = 8000 ∧ ({ pt with cyc := 7800 } : State).cyc < pt.prerollAt 3 p0 8000 ∧    (c.chain 3).seq.isSome = true ∧ (y.chain 3).startup = 0 ∧ (y.chain 3).held = none ∧ (w.chain 3).held = none ∧ (3 ∉ w.boot.feAwait) ∧
    j.onSchedule 3 = true ∧ (j.chainCfg 3).points[0]? = some ⟨1000, true, false⟩ ∧ j.boot.harbour = false ∧ h.boot.harbour = true ∧
    g.calFits 3 0 = true ∧ (g.chain 3).pending.getLsbD 0 = true ∧ assoc (d.chain 3).reqDue 7 = some 5 ∧ d.intakeRoom 1 = true ∧
    assoc (b.chain 3).committedAt 0 = some 5 ∧ assoc (b.chainCfg 3).bgInt 0 = some 1000 ∧ b.rdB (F.chFeCfgCalMode 3) = true ∧
    5 + nsCyc 1000 ≤ b.cyc ∧ ((after (exec (.switchSettleElapsed 3) w)).chain 3).st = .receive := by decide +kernel

theorem witness_CoexistenceAndLanes :
    let rq := { upH.wr (F.cxCtrlRole 1) 1 with cyc := 2 ^ 34 }
    let gr := { upH.wr (F.cxCtrlRole 1) 2 with cyc := 2 ^ 34 }
    let pt := fun (s : State) (f : CxPort → CxPort) => s.setCx 1 (f (s.cxPort 1))
    let up_ := pt rq (fun p => { p with gnt := true })
    let ch := withCh upH (fun k => { k with jrxLock := true, jtxRunning := true })
    rq.rd (F.cxCtrlRole 1) = 1 ∧ (up_.cxPort 1).gnt = true ∧ (rq.cxPort 1).gnt = false ∧ rq.replayMode = false ∧
    ((pt rq (fun p => { p with relAt := some 5 })).cxPort 1).relAt = some 5 ∧
    ((pt rq (fun p => { p with reqFrom := some 5 })).cxPort 1).noted = false ∧ 5 + secCyc ≤ rq.cyc ∧ rq.intakeRoom 1 = true ∧
    gr.rd (F.cxCtrlRole 1) = 2 ∧ (gr.cxPort 1).req = false ∧ (gr.cxPort 1).yielding = false ∧
    ((pt gr (fun p => { p with yielding := true, grantAt := some 5 })).cxPort 1).grantAt = some 5 ∧
    (ch.chain 3).jrxLock = true ∧ (upH.chain 3).jrxLock = false ∧ (ch.chain 3).st ≠ .transmit ∧
    ((after (exec (.gntFall 1) up_)).cxPort 1).gnt = false ∧
    ⟨some 1, 2 ^ 34 + 16, false⟩ ∈ (after (exec (.gntRise 1) rq)).heldOff ∧ (upH.cxPort 1).relAt = none := by decide +kernel

theorem witness_ConversionsAndRequests :
    let slot := upH.slotNow
    let v : Conv := ⟨.scheduled, 1, 5, false, false, true, 0, 0⟩
    let busy := upH.setAdc 0 { Adc.init with conv := some v }
    let done := { upH with cyc := 2 ^ 34 }.setAdc 0 { Adc.init with conv := some v, urgent := [2], aborted := some (1, true), late := [1] }
    let ord := upH.setAdc 0 { Adc.init with ordinary := List.replicate 8 1 }
    let urg := upH.setAdc 0 { Adc.init with conv := some { v with kind := .urgent } }
    let trg := { upH with cyc := 2 ^ 34, meas := { upH.meas with trigs := [⟨0, 5⟩] } }
    let go := fun (s : State) (u : Nat) => s.takes .mgmt 385 [(F.measReqUrgent, u), (F.measReqGo, 1), (F.measReqMc, 1)]
    let new := upH.setAdc 0 { Adc.init with conv := some { v with at_ := 0 } }
    let pa := withCh upH (fun k => { k with paEdges := 2, raised := 1 })
    upH.cyc % 960 = 0 ∧ ({ upH with cyc := 1 } : State).cyc % 960 ≠ 0 ∧ upH.meas.trigs = [] ∧ go new 1 = true ∧ (new.adc 0).conv = some { v with at_ := 0 } ∧
    new.cyc = 0 ∧ ((after (exec (.measReqUrgent .mgmt 1) new)).adc 0).late = [1] ∧ (upH.chain 3).paEdges.getLsbD 1 = false ∧
    (pa.chain 3).paEdges.getLsbD 1 = true ∧ (pa.chain 3).raised.getLsbD 0 = true ∧ trigBefore ⟨0, 5⟩ ⟨0, 5⟩ = false ∧
    slot ≠ 1023 ∧ (upH.memWrite .scan slot 33).cell .scan slot = ⟨33, 0, false⟩ ∧ (33 : Word).getLsbD 5 = true ∧ (upH.adc 0).conv = none ∧
    (busy.adc 0).conv = some v ∧ upH.cell .scan slot = ⟨0, 0, false⟩ ∧ (ord.adc 0).late = [] ∧ (ord.adc 0).ordinary.length = 8 ∧
    (done.adc 0).conv = some v ∧ v.at_ + 960 ≤ done.cyc ∧ done.replayMode = false ∧ (done.mcCfg 1).isSome = true ∧
    go upH 0 = true ∧ go ord 0 = true ∧ ord.intakeRoom 1 = true ∧ go upH 1 = true ∧ go busy 1 = true ∧ go urg 1 = true ∧ (urg.adc 0).urgent.length < 4 ∧
    trg.img.trigs[0]? = some ⟨[.trig 0 true], 1, 7, false⟩ ∧ trg.meas.trigs = [⟨0, 5⟩] ∧ (trg.adc 0).ordinary.length < 8 ∧
    ((after (exec (.conversionComplete 0 100) done)).mc 1).raw = 100 := by decide +kernel

theorem witness_CalibrationAndTrims :
    let z := [(F.calCmdOp, 1), (F.calCmdMc, 1)]
    let o : CalOp := ⟨false, 1, 0, 0, 16, 2 ^ 30, 0⟩
    let c := { upH with meas := { upH.meas with calOp := some o } }
    let bad := { upH with meas := { upH.meas with calOp := some { o with sumNum := 2 ^ 43 } } }
    let few := { upH with meas := { upH.meas with calOp := some { o with taken := 15 } } }
    let trims := { upH with meas := { upH.meas with trims := List.replicate 26 512 } }
    let due := { trims with meas := { trims.meas with trimNext := some (List.replicate 26 500) }, cyc := 983040 - 960 }
    upH.takes .mgmt 390 z = true ∧ (upH.mcCfg 1).isSome = true ∧ upH.meas.calOp = none ∧ c.takes .mgmt 390 z = true ∧ c.intakeRoom 1 = true ∧
    upH.takes .mgmt 390 [(F.calCmdOp, 2), (F.calCmdMc, 1), (F.calCmdFsRef, 100)] = true ∧
    (upH.mcCfg 1).map (fun g => (upH.filterN g, g.k)) = some (1, 1) ∧
    16 * (2 ^ 30 : Int) ≤ 2 ^ 41 * Nat.max 1 (1 ^ 1) ∧ (2 ^ 41 * (Nat.max 1 (1 ^ 1) : Int)) < 16 * 2 ^ 43 ∧ bad.intakeRoom 1 = true ∧ few.meas.calOp = some { o with taken := 15 } ∧
    upH.takesWord .mgmt 449 ((0 : BitVec 20) ++ (0x80000 : BitVec 20)) = true ∧
    trims.takesWord .mgmt 404 0x8020000000 = true ∧ (trims.meas.trimNext.getD trims.meas.trims).length = 26 ∧
    due.meas.trimNext = some (List.replicate 26 500) ∧ due.slotNow = 1023 ∧ due.cyc % 960 = 0 ∧ (due.adc 3).conv = none ∧ upH.slotNow ≠ 1023 ∧
    (after (exec .trimApply due)).meas.trims = List.replicate 26 500 := by decide +kernel

theorem witness_LoopControl :
    let lp := fun (mode : Nat) (f : LoopSt → LoopSt) =>
      ({ (upH.wr (F.loopCtrlMode 0) mode).wr (F.loopCtrlPeriod 0) 1 with cyc := 2 ^ 34 }).setLoop 0 (f { LoopSt.init with sampleAt := some 5, sampleV := 2 ^ 30 })
    let s := lp 2 id
    let g0 : LoopCfg := ⟨0, false, 2 ^ 24, 2 ^ 20, 0, 0, .none, 0, 0, 2 ^ 32, 0, 2 ^ 31, 2 ^ 20, false, 0⟩
    let gI := { g0 with idleHold := true }
    let idle := { s.wr (F.loopCtrlTkind 0) 1 with img := { hwImg with loops := [gI] } }
    let per := (s.wr (F.loopCtrlPeriod 0) 0).setLoop 0 { s.loop 0 with sampleAt := some (1022 * 960) }
    s.loopCfg 0 = some g0 ∧ idle.loopCfg 0 = some gI ∧ (1022 * 960 + 1472) / 960 % 1024 = 1023 ∧ (per.loop 0).sampleAt = some (1022 * 960) ∧ (s.loop 0).sampleAt = some 5 ∧ 5 + 1472 ≤ s.setCyc ∧ (s.loop 0).idleHeld = false ∧ s.latched = false ∧
    s.boot.harbour = false ∧ (lp 0 id).loopMode 0 = 0 ∧ (lp 1 id).loopMode 0 = 1 ∧ s.loopMode 0 = 2 ∧ ((lp 2 (fun l => { l with trimHold := some 7 })).loop 0).trimHold = some 7 ∧
    idle.idleHolds 0 gI 5 = true ∧ s.idleHolds 0 g0 5 = false ∧ s.rd (F.loopCtrlTkind 0) ≠ 1 ∧ per.quietHold 0 1023 = true ∧
    s.quietHold 0 ((5 + 1472) / 960 % 1024) = false ∧ idle.latched = false ∧ idle.boot.harbour = false ∧
    ((after (exec (.loopOutputWrite 0) idle)).loop 0).idleHeld = true ∧ (s.loop 0).trimHold = none ∧ (s.loop 0).preset = false ∧
    s.takes .mgmt 552 [(F.loopCtrlMode 0, 1)] = true ∧ (lp 0 id).takes .mgmt 552 [(F.loopCtrlMode 0, 2)] = true ∧ s.takesWord .mgmt 553 5 = true ∧
    ((after (exec (.loopOutputWrite 0) (lp 1 id))).loop 0).seq = 1 := by decide +kernel

/-! ### Guvan ports -/

/-- A whole message from 0.0.2 to an address, with a hop limit. -/
def msgTo (dst : Nat) (hops : Nat) : List Byte :=
  mkMsgBytes 1 hops dst 2 7 0 [1, 2]

/-- Port 1 after `f`. -/
def withPt (s : State) (f : Port → Port) : State := s.setPort 1 (f (s.port 1))

theorem witness_GuvanHandshake :
    let en := F.gvCtrlEnable 1
    let at_ := fun (st : LinkSt) (f : Port → Port) => withPt ({ upB.wr (F.gvCfgModeSlow 1) 5 with cyc := 2 ^ 34 }) (fun q => f { q with st := st })
    let on := (at_ .up id).wr en 1
    let paid : State := { at_ .disabled id with thermal := { upB.thermal with ledger := [(146, 24)] } }
    let h := fun (fast slow chosen : Nat) => mkHello fast slow chosen 0 0 true
    let busy : State := { at_ .disabled id with thermal := { upB.thermal with waiting := [⟨146, 20, true⟩] } }
    let soon := at_ .train (fun q => { q with heardAt := 2 ^ 34 - 5, turnDue := true })
    let ld := at_ .hello (fun q => { q with leader := true, turns := 1, chosen := 7 })
    let agreed := at_ .hello (fun q => { q with leader := true, turns := 1, chosen := 3 })
    let ready := at_ .train (fun q => { q with turnDue := true, trainSt := 3, partnerSt := 3 })
    let go := at_ .train (fun q => { q with goEnds := some (2 ^ 34) })
    (at_ .disabled id).takes .mgmt en.addr [(en, 1)] = true ∧ (at_ .disabled id).credits 146 = 0 ∧ paid.credits 146 ≠ 0 ∧ paid.latched = false ∧
    paid.portCost 1 + paid.headroom ≤ (at_ .disabled id).thermal.free ∧ upB.thermal.xfer = none ∧
    on.takes .mgmt en.addr [(en, 0)] = true ∧ on.takes .mgmt en.addr [(F.gvCtrlRetrain 1, 1)] = true ∧ on.rdB en = true ∧
    ((at_ .detect (fun q => { q with silenceAt := some 5 })).port 1).silenceAt = some 5 ∧
    busy.govBusy (145 + 1) = true ∧ busy.takes .mgmt en.addr [(en, 1)] = true ∧ paid.govBusy (145 + 1) = false ∧ soon.turnOpen 1 = false ∧
    Nat.max ((ld.port 1).fast.toNat) (helloFld (h 0 5 3) 59 57) ≤ ld.rd (F.gvCfgModeSlow 1) ∧ (ld.port 1).chosen = 7 ∧
    ((after (exec (.helloTurnReceived 1 (h 0 5 3) 100) ld)).port 1).chosen = 0 ∧
    ((after (exec (.helloTurnReceived 1 (h 0 5 3) 100) agreed)).port 1).st = .train ∧
    ((after (exec (.helloTurnReceived 1 (h 0 5 2) 100) agreed)).port 1).chosen = 0 ∧
    ready.turnOpen 1 = true ∧ ((after (exec (.trainTurnStart 1) ready)).port 1).goEnds = some (2 ^ 34 + turnCyc 0) ∧
    go.pending = [] ∧ go.alive = true ∧ go.time.setAt = none ∧ go.time.stepTo = none ∧ go.heldOff = [] ∧ go.rpl.copying = none ∧ go.cx = [] ∧
    ((after (step go)).port 1).st = .hunt ∧
    (at_ .hello id).turnOpen 1 = true ∧ (at_ .train id).turnOpen 1 = true ∧ ((0x4000 : BitVec 16).toNat / 4096 % 8 = 4) ∧
    ((after (exec (.trainTurnReceived 1 ⟨0x8000, 4⟩ 0x1800 0xE000) (at_ .train id))).port 1).trainSt = 3 ∧
    ((after (exec (.trainTurnReceived 1 ⟨0x8000, 3⟩ 0x17FF 0xE201) (at_ .train id))).port 1).trainSt = 0 ∧
    ((after (exec (.trainTurnReceived 1 ⟨0xC000, 0⟩ 0 0) (at_ .train id))).port 1).st = .hunt ∧
    helloOk (h 0 5 7) = true ∧ Nat.max 0 (helloFld (h 0 5 7) 59 57) ≤ (at_ .detect id).rd (F.gvCfgModeSlow 1) ∧
    Nat.max 0 (helloFld (h 0 5 7) 59 57) ≤ helloFld (h 0 5 7) 56 54 ∧ helloFld (h 0 5 3) 53 51 = 3 ∧ helloOk (h 0 5 3) = true ∧
    ¬ (Nat.max 6 (helloFld (h 0 5 3) 59 57) ≤ 5) ∧
    ((at_ .hello (fun q => { q with leader := true, chosen := 7, turnDue := true })).port 1).turns = 0 ∧
    ((at_ .hello (fun q => { q with disjointAt := some 5 })).port 1).disjointAt = some 5 ∧ (at_ .hello id).intakeRoom 1 = true ∧
    ((0x3000 : BitVec 16).toNat / 4096 % 8 ≠ 4) ∧ ((at_ .train (fun q => { q with turnDue := true, trainSt := 3, partnerSt := 3 })).port 1).trainSt = 3 ∧
    ((at_ .train id).port 1).leftDetect + 150 * msCyc ≤ (at_ .train id).cyc ∧ ((at_ .hunt id).port 1).huntFrom + 100 * msCyc ≤ (at_ .hunt id).cyc ∧
    ((after (exec (.detectSilenceExpiry 1) (at_ .detect (fun q => { q with silenceAt := some 5 })))).port 1).st = .hello ∧
    ((after (exec (.huntTimeout 1) (at_ .hunt id))).port 1).st = .detect := by decide +kernel

theorem witness_GuvanTraffic :
    let at_ := fun (st : LinkSt) (f : Port → Port) => withPt upB (fun q => f { q with st := st })
    let f : RxFrame := ⟨60, List.replicate 16 0, List.replicate 64 0, 100, 0, 0, 0, 0, 0⟩
    let lock := at_ .hunt (fun q => { q with candidates := [(100 - framePeriodNs (frameTicks 0), 3)] })
    let own : State := ((upB.wr F.devAddrValid 1).wr F.devAddrAddr 5).setPort 0 { upB.port 0 with st := .up }
    let m : Msg := ⟨msgTo 9 1, some 1, 1⟩
    let rx := fun (b : List Byte) => own.setPort 1 { own.port 1 with st := .up, inbox := [{ m with bytes := b }] }
    let bad := after (exec (.scrubRead .hold (0x40000 + 32768 + 1) [⟨.hold, 0x40000 + 32768 + 1, 0x0101010000000000⟩]) { rx (msgTo 9 1) with cyc := 1 })
    let c4 : State := { at_ .up (fun q => { q with framesOn := true }) with fc := { upB.fc with c4 := true } }
    let sec : State := { ((upB.setPort 2 { upB.port 2 with st := .up, pStratum := 3 }).wr (F.gvCfgRole 2) 1) with cyc := secCyc }
    let ties : State := { ((sec.setPort 5 { upB.port 5 with st := .up, pStratum := 3 }).wr (F.gvCfgRole 5) 2) with time := { sec.time with upstream := some 5 } }
    c4.latched = true ∧ (c4.port 1).framesOn = true ∧ (c4.port 1).nextFrame ≤ c4.cyc + 512 ∧ (c4.port 1).alarmQ.drop 4 = [] ∧
    ((after (exec (.gvFrameSend 1) c4)).port 1).st = .disabled ∧
    sec.alive = true ∧ sec.uptime < sec.cyc / secCyc ∧ sec.lodestar = false ∧ sec.boot.romLoader = false ∧ sec.time.upstream = none ∧
    (List.range 8).filter (fun j => sec.eligible j) = [2] ∧ (after (exec .uptimeSecond sec)).time.upstream = some 2 ∧
    (List.range 8).filter (fun j => ties.eligible j) = [2, 5] ∧ (after (exec .uptimeSecond ties)).time.upstream = some 5 ∧
    (List.range 8).filter (fun j => ({ upB with cyc := secCyc } : State).eligible j) = [] ∧
    ((at_ .up id).port 1).framesOn = false ∧ ((at_ .up (fun q => { q with framesOn := true })).port 1).nextFrame ≤ upB.cyc + 512 ∧
    upB.cyc + 512 < ((at_ .up (fun q => { q with framesOn := true, nextFrame := 600 })).port 1).nextFrame ∧
    own.clean .routes (own.routeKey 9) = true ∧
    (at_ .up id).latched = false ∧ ((at_ .up (fun q => { q with framesOn := true })).port 1).retrainLeft ≠ 1 ∧
    ((at_ .hunt id).port 1).candidates = [] ∧ (lock.port 1).candidates = [(100 - framePeriodNs (frameTicks (lock.port 1).mode.toNat), 3)] ∧
    (hdr f 8).getLsbD 21 = false ∧ 60 ≤ f.markerSigns ∧ ((at_ .up (fun q => { q with misses := 7 })).port 1).misses = 7 ∧
    (at_ .up id).intakeRoom 1 = true ∧ ((rx (msgTo 9 1)).port 1).inbox = [⟨msgTo 9 1, some 1, 1⟩] ∧ msgOk (msgTo 9 1) = true ∧
    msgOk ((msgTo 9 1).take 10) = false ∧ own.addressed = true ∧ msgDst (msgTo 9 1) = 9 ∧ own.ownAddr = 5 ∧ msgHops (msgTo 9 0) = 0 ∧
    msgHops (msgTo 9 1) ≠ 0 ∧ (own.routePort 9).isSome = true ∧ (own.port 0).outQ.length < 16 ∧
    (0 ∉ ((rx (msgTo 9 1)).port 1).badIn) ∧ (0 ∈ (bad.port 1).badIn) ∧ bad.intakeRoom 1 = true ∧ ((after (exec (.msgReceive 1) bad)).port 1).inbox = [] ∧
    bitsOf (0x0000400000 : Word) 39 22 ≠ 0 ∧ ((after (exec (.gvFrameReceive 1 f) lock)).port 1).st = .up := by decide +kernel

/-- An aligned frame in UP whose header says 2 credits and stratum 3, with one message of `b` and one container group of 3 samples. -/
def goodFrame (b : List Byte) : RxFrame :=
  let h := ((List.range 34).map (fun i => if i = 0 then BitVec.ofNat 40 (7 * 2 ^ 24 + 3 * 2 ^ 6) else if i = 3 then BitVec.ofNat 40 (2 * 2 ^ 33) else 0)).flatMap wordSyms
  let m := (List.range b.length).map (fun i => if i = 0 then mgmtSym 2 (atD b 0 0) else if i + 1 = b.length then mgmtSym 3 (atD b i 0) else mgmtSym 1 (atD b i 0))
  let g := [BitVec.ofNat 40 (3 * 2 ^ 32 + 0x3F), 1, 2, 3].flatMap wordSyms
  ⟨60, List.replicate 16 0, h.take 51 ++ m ++ List.replicate (85 - m.length) 0 ++ g ++ List.replicate 5288 0, 100, 0, 0, 0, 0, 0⟩

/-- The same in UP, with group 0 carrying stream 2, the source of band path 0, and port 1 the upstream of a locked device. -/
theorem witness_GuvanTraffic_aligned :
    let b := msgTo 9 1
    let f := goodFrame b
    let mp : GvMap := ⟨1, 0, true, 7, [(0, 2)]⟩
    let img := { bpImg with plan := planEnt [(1, 1024 + 128 + 2), (2, 0)], maps := [mp] }
    let s := withPt { upB with img := img } (fun q => { q with st := .up, mode := 0 })
    let u : State := { (s.wr (F.gvCfgRole 1) 1) with time := { s.time with upstream := some 1, st := .locked, sentStratum := 4 } }
    let t := after (exec (.gvFrameReceive 1 f) s)
    (20 ≤ b.length ∧ b.length ≤ 85 ∧ msgOk b = true ∧ (s.port 1).rxOpen = false ∧ (s.port 1).occupied + (s.port 1).owed + blocksOf b ≤ 64 ∧ f.syms.length = 5440 ∧
      (List.range 16).all (fun i => atD f.errors i 0 == 0) = true ∧ (hdr f 8).getLsbD 21 = false) ∧
    (List.range 85).all (fun i => atD f.syms (51 + i) 0 == (if i = 0 then mgmtSym 2 (atD b 0 0) else if i + 1 = b.length then mgmtSym 3 (atD b i 0)
      else if i < b.length then mgmtSym 1 (atD b i 0) else 0)) = true ∧
    s.gvMap 1 true = some mp ∧ s.streamTo 1 2 = some 0 ∧ s.ltrStopped 518 = false ∧ bitsOf (hdr f 0) 39 24 = mp.mapId.toNat ∧
    bitsOf (symsWord f.syms 136) 36 32 = 3 ∧ (3 ≤ 40 * (s.rate 0).den * 78 / (s.rate 0).num + 32) ∧
    (t.port 1).inbox.map Msg.bytes = [b] ∧ (t.port 1).credits = 2 ∧ (Tbl.get (fun _ => RxStream.empty) (t.port 1).rx 2).buf.map GvSample.word = [1, 2, 3] ∧
    u.time.upstream = some 1 ∧ u.lodestar = false ∧ u.replayMode = false ∧ u.time.st = .locked ∧ u.portRole 1 = 1 ∧ bitsOf (hdr f 0) 11 6 = 3 ∧ u.time.far < 15 ∧
    (after (exec (.gvFrameReceive 1 f) u)).time.corrTicks = 78 ∧
    ({ u with time := { u.time with sentStratum := 3 } } : State).time.sentStratum.toNat ≤ 3 ∧
    (after (exec (.gvFrameReceive 1 f) { u with time := { u.time with sentStratum := 3 } })).time.st = .holdover := by decide +kernel

/-- The table of transfer lengths of R146. -/
theorem test_transfer_lengths :
    (feTransfer ⟨0, 0, 0, false, 8⟩ false 5 6 0).len = 16 ∧ (feTransfer ⟨0, 0, 0, true, 8⟩ false 5 6 0).len = 24 ∧
    (feTransfer ⟨0, 0, 0, true, 16⟩ true 5 6 0).len = 33 ∧ (feTransfer ⟨0, 8, 9, true, 32⟩ true 5 6 0).len = 57 ∧
    (feTransfer ⟨0, 0, 0, false, 8⟩ false 5 6 0).bits = msbBits 16 0x0506 := by decide +kernel

/-- N is the scheduled rate over NOTCH: one conversion a millisecond and 100 Hz give 10 (R181). -/
theorem test_filter_length : upH.filterN ⟨1, 0, 2, 1, 100, 0, 0⟩ = 10 := by decide +kernel

/-- Half way from 513 to 514 the whole sum rounds to the even code (R186). -/
theorem test_almanac : almCode [[0], [513], [514], [0], [0]] (25 * 2 ^ 23) 0 = 514 := by decide +kernel

/-! ### The fabric, time, temperature and faults -/

/-- Rows of a register as the fabric has them now. -/
def rowsAt (s : State) (n : Nat) : List Row := (s.rowsNow n).getD []

/-- A mapped register none of whose fields can be written. -/
def fixedReg (s : State) (n : Nat) : Bool := (rowsAt s n).all (fun r => r.acc != .rw && r.acc != .live && r.acc != .w1c)

theorem witness_WriteRefusals :
    upH.canReach (reqCode .mgmt) = true ∧ upH.canReach (reqCode .debug) = true ∧ upH.canReach (reqCode (.engine 3)) = true ∧ upH.rowsNow 0xFFFFFF = none ∧
    (upH.rowsNow 0).isSome = true ∧ fixedReg upH 0 = true ∧ upH.boot.locked = true ∧ ({ upH with boot := Boot.init } : State).boot.locked = false ∧
    (upH.rowsNow 10).isSome = true ∧ fixedReg upH 10 = false ∧ (rowsAt upH 10).all (fun r => decide (r.lo ≤ r.hi ∧ r.hi < 40)) = true ∧
    (0x8000000000 : Word).getLsbD 39 = true ∧ (rowsAt upH 10).all (fun r => !r.name || !(decide (r.lo ≤ 39) && decide (39 ≤ r.hi))) = true ∧
    upH.writeAns 552 (puts 0 [(F.loopCtrlMode 0, 3)]) = .range ∧ upH.inReplayQuay (reqCode (.engine 3) - 10) = false := by decide +kernel

theorem witness_PlainWritesAndTwoHalfReads :
    upH.takesWord .mgmt 10 0x7F07 = true ∧ upH.takesWord .mgmt 16 0x1000000 = true ∧ upH.takesWord .mgmt 263 0x1FF = true ∧ upH.takesWord .mgmt 267 0x3F = true ∧
    upH.takesWord (.engine 255) 267 0 = true ∧ upH.inReplayQuay 255 = false ∧ upH.journals upH.cycW = false ∧ upH.takesWord .mgmt (554 + 4 * 1) 0xFFFFFFFFFF = true ∧
    hiOf 131 = some 132 ∧ hiOf 140 = some 141 ∧ hiOf 1037 = some 1036 ∧ hiOf 1517 = some 1516 ∧ hiOf 1549 = none ∧ (131 ∉ upH.parBad) ∧
    Tbl.get (fun _ => none) (after (exec (.twoHalfReadLo .mgmt 140) (upH.wr F.timeSetHiSet 5))).shadows 141 = some 5 := by decide +kernel

/-- Lodestar with the PPS input and output on. -/
def upT : State := ((({ upH with cyc := 2 ^ 36 }.wr F.timeCfgLodestar 1).wr F.ppsCfgPpsInEn 1).wr F.ppsCfgPpsOutEn 1).wr F.clkStatRefOk 1

/-- `upT` in a state of its time base. -/
def timed (f : TimeBase → TimeBase) : State := { upT with time := f upT.time }

theorem witness_TimeEvents :
    let lo : Word := 5
    let seven := timed (fun b => { b with now := 7 * sec1 })
    let eight := timed (fun b => { b with now := 7 * sec1 + 1 })
    let edge := { timed (fun b => { b with stepTo := some 9 }) with cyc := 2 ^ 36 + 31 }
    let sec := { timed (fun b => { b with st := .acquire, secondOk := true, secondUpdates := 3 }) with cyc := secCyc }
    let other := { upH with time := { upH.time with st := .locked } }
    upT.rdB F.clkStatRefOk = true ∧ upT.intakeRoom 1 = true ∧ (upT.wr F.clkStatPllLock 1).rdB F.clkStatPllLock = true ∧
    upT.takesWord .mgmt 140 lo = true ∧ upT.time.st = .free ∧ other.takesWord .mgmt 140 lo = true ∧ other.time.st ≠ .free ∧ other.lodestar = false ∧
    upT.lodestar = true ∧ upT.rdB F.ppsCfgPpsInEn = true ∧ upT.replayMode = false ∧ upT.time.tod = none ∧
    (timed (fun b => { b with tod := some (100, 5) })).time.st = .free ∧ 5 + 10 * msCyc ≤ upT.cyc ∧
    (timed (fun b => { b with st := .locked, lastEdge := some 5 })).time.lastEdge = some 5 ∧ 5 + 2 * secCyc < upT.cyc ∧
    upT.rdB F.ppsCfgPpsOutEn = true ∧ upT.rdB F.ppsCfgPpsOutGate = false ∧
    seven.rdS F.ppsCfgPpsOutComp = 0 ∧ (seven.instant 0 + sec1 - 1) / sec1 = 7 ∧ 7 * sec1 < seven.instant 8 ∧ seven.time.lastPpsSecond ≠ 7 ∧
    (after (exec .ppsOutEdge seven)).time.ppsEighth = 0 ∧ (eight.instant 0 + sec1 - 1) / sec1 = 8 ∧ eight.instant 8 ≤ 8 * sec1 ∧
    (upT.instant 0 + sec1 - 1) / sec1 = 0 ∧ upT.time.lastPpsSecond = 0 ∧
    edge.pending = [] ∧ edge.alive = true ∧ (edge.setCyc + 1) % 32 = 0 ∧ edge.time.setAt = none ∧ edge.time.stepTo = some 9 ∧
    { edge with time := { edge.time with setAt := some 8 } }.time.setAt = some 8 ∧ (after (step edge)).time.now = 9 ∧
    sec.cyc % secCyc = 0 ∧ sec.uptime < sec.cyc / secCyc ∧ sec.alive = true ∧ upT.cyc % secCyc ≠ 0 ∧
    ((upT.wr F.devAddrValid 1).wr F.devAddrAddr 9).addressed = true ∧ ((upT.wr F.devAddrValid 1).wr F.devAddrAddr 9).ownAddr = 9 ∧ upT.addressed = false ∧
    (timed (fun b => { b with withdrawnUntil := some 5 })).time.withdrawnUntil = some 5 ∧ 5 ≤ upT.cyc ∧
    upH.lodestar = false ∧ upH.time.upstream = none ∧ ({ upH with cyc := 2 ^ 43 } : State).time.noLodestarAt ≤ 2 ^ 43 ∧ upT.alive = true ∧
    (after (exec (.ppsInEdge 0) (timed (fun b => { b with tod := some (100, 5) })))).time.st = .acquire ∧
    (after (exec .ppsGapExpiry (timed (fun b => { b with st := .locked, lastEdge := some 5 })))).time.st = .holdover ∧
    (after (exec .uptimeSecond sec)).time.st = .locked := by decide +kernel

theorem witness_ThermalAndCredits :
    let ep : State := { inSt upB 0 .active with cyc := 2 ^ 34 }.setBpTherm 0 { BpTherm.init with episode := true, graceEnd := some 5 }
    let xf := fun (w : GovXfer) => { upB with thermal := { upB.thermal with xfer := some w, ledger := [(129, 24), (146, 24)] } }
    let ask := { (upB.wr (F.bpProtEnable 0) 1) with thermal := { upB.thermal with xfer := some ⟨1, 24, true⟩, ledger := [(1, 24)] } }
    ask.thermal.xfer = some ⟨1, 24, true⟩ ∧ ask.thermal.waiting = [] ∧ ask.rdB (F.bpProtEnable 0) = true ∧ (ask.bp 0).prot.st = .off ∧ ask.present 0 = true ∧
    ask.held4Service 0 = false ∧ ask.credits 1 - 24 = 0 ∧ ask.thermal.booksBad = false ∧ ask.creditCost 0 + ask.headroom ≤ ask.thermal.free + 24 ∧
    (after (exec .govTransferEnd ask)).thermal.xfer = some ⟨1, ask.creditCost 0, false⟩ ∧ upB.rdB (F.gvCtrlEnable 1) = false ∧
    up0.alive = true ∧ upB.boot.image = true ∧ State.reset.alive = false ∧ (0 ∈ upB.planned) ∧ upB.privileged 0 = false ∧
    ((inSt upB 0 .active).throttles 0 = true) ∧ (ep.bpTherm 0).episode = true ∧ (ep.bpTherm 0).graceEnd = some 5 ∧ 5 ≤ ep.setCyc ∧ ep.throttles 0 = true ∧
    (xf ⟨129, 24, false⟩).thermal.xfer = some ⟨129, 24, false⟩ ∧ (xf ⟨129, 24, false⟩).thermal.waiting = [] ∧
    (xf ⟨146, 24, true⟩).thermal.xfer = some ⟨146, 24, true⟩ ∧ 129 ≤ (129 : BitVec 8).toNat ∧ (129 : BitVec 8).toNat ≤ 144 ∧
    (after (exec .govTransferEnd (xf ⟨129, 24, false⟩))).credits 129 = 48 ∧ (after (exec .analogueTrip upB)).fc.c4 = true ∧
    (after (exec .thermalEvaluation upB)).thermal.evaluated = true := by decide +kernel

/-- A message from engine 2. -/
def msgOf (hint : BitVec 3) : FMsg := ⟨0x602, 5, hint, 0, false, false, false, 9, 0, 0, 0⟩

/-- The collector after `f`. -/
def withFc (s : State) (f : Collector → Collector) : State := { s with fc := f s.fc }

/-- One message waits to be classified. -/
def oneMsg (hint : BitVec 3) : State := { withFc up0 (fun c => { c with queue := [msgOf hint] }) with mgmt := Mgmt.init, cyc := 2 ^ 34 }

/-- Table entry 3 matches every message, with a class and a bucket of 2. -/
def clsOne (s : State) (c : Nat) : State := s.memWrites .cls 6 [BitVec.ofNat 40 (0x22 + c * 4), BitVec.ofNat 40 (2 * 2 ^ 32 + 100 * 2 ^ 16)]

theorem witness_FaultReactions :
    let d := fun (h : BitVec 3) (s : State) => ({ s with fc := { s.fc with queue := [] } } : State).clsFind (msgOf h) 256 0
    (oneMsg 0).fc.queue = [msgOf 0] ∧ (oneMsg 0).fc.heldBack = [] ∧ (oneMsg 0).fc.c4 = false ∧ (oneMsg 0).fc.testLatch = false ∧ (msgOf 4).inj = false ∧
    (d 0 (oneMsg 0)).1 = none ∧ (d 2 (oneMsg 2)).1 = none ∧ (d 4 (oneMsg 4)).1 = none ∧ (oneMsg 2).openHas false 0x602 2 = false ∧
    (oneMsg 2).openFree false = some 0 ∧ (oneMsg 2).mgmt.core ≠ .running := by decide +kernel

theorem witness_FaultReactions_match :
    let s := clsOne (oneMsg 0) 0
    let u : State := { s with fc := { s.fc with queue := [] } }
    let w0 : Word := 0x22
    let w1 : Word := BitVec.ofNat 40 (2 * 2 ^ 32 + 100 * 2 ^ 16)
    let at_ := fun (c : Nat) (full : Bool) =>
      let v := clsOne (oneMsg 0) c
      after (exec .faultClassify (if full then v.setBucket false 3 ⟨1, v.cyc⟩ else v))
    (at_ 0 true).fc.rolling.map (fun m => (m.cls, m.promo)) = [(1, true)] ∧ (at_ 1 true).openEnt false 0 = some ⟨0x602, 5, 2, false, some (2 ^ 34 + (oneMsg 0).graceC2)⟩ ∧
    (at_ 2 false).openEnt false 0 = some ⟨0x602, 5, 2, false, some (2 ^ 34 + (oneMsg 0).graceC2)⟩ ∧
    (at_ 2 true).openEnt false 0 = some ⟨0x602, 5, 3, true, none⟩ ∧ (at_ 3 false).openEnt false 0 = some ⟨0x602, 5, 3, true, none⟩ ∧
    (at_ 3 true).fc.c4 = true ∧ (at_ 4 false).fc.c4 = true ∧
    u.clsFind (msgOf 0) 256 0 = (some (3, w0, w1), u) ∧ bitsOf w0 4 2 ≤ 1 ∧ 1 ≤ bitsOf w1 39 32 ∧ (u.countBucket false 3 w1).1 = false ∧
    ((u.setBucket false 3 ⟨1, u.cyc⟩).countBucket false 3 w1).1 = true := by decide +kernel

/-- A real message of class 3 (R371, R374), one that its source's open fault raises to it (R367), one of class 4, and one that the core acknowledges at once (R370). -/
theorem witness_FaultReactions_classes :
    let cl := fun (s : State) => { s with fc := { s.fc with queue := [] } }
    let dup := withFc (oneMsg 2) (fun c => { c with open_ := [(0, some ⟨0x602, 5, 2, false, some (2 ^ 35)⟩)] })
    let dup3 := withFc (oneMsg 3) (fun c => { c with open_ := [(0, some ⟨0x602, 5, 3, true, none⟩)] })
    let full := withFc (oneMsg 3) (fun c => { c with open_ := (List.range 32).map (fun i => (i, some ⟨0x205, 3, 2, false, none⟩)) })
    let core : State := { oneMsg 2 with img := { Image.none with keep := [⟨BitVec.ofNat _ (groupOf 0x602), 5⟩] }, mgmt := { Mgmt.init with core := .running } }
    let c3 := fun (s : State) => after (exec .faultClassify s)
    (cl (oneMsg 3)).openHas false 0x602 3 = false ∧ (cl (oneMsg 3)).openFree false = some 0 ∧ (oneMsg 3).fc.snapFrozen = false ∧
    (oneMsg 3).fc.c3At = none ∧ (oneMsg 3).boot.harbour = false ∧ ((cl (oneMsg 3)).clsFind (msgOf 3) 256 0).1 = none ∧
    (c3 (oneMsg 3)).openEnt false 0 = some ⟨0x602, 5, 3, true, none⟩ ∧ (c3 (oneMsg 3)).fc.c3At = some (2 ^ 34 + msCyc) ∧
    ((c3 (oneMsg 3)).port 2).st = .disabled ∧ (cl dup).openHas false 0x602 2 = true ∧ (cl dup).openFree false = some 1 ∧
    (c3 dup).openEnt false 1 = some ⟨0x602, 5, 3, true, none⟩ ∧ (cl dup3).openHas false 0x602 3 = true ∧ (c3 dup3).fc.c4 = true ∧
    (cl full).openFree false = none ∧ (c3 full).fc.c4 = true ∧ (c3 (oneMsg 4)).fc.c4 = true ∧
    core.mgmt.core = .running ∧ core.kept (msgOf 2) = true ∧ core.fc.parityBad = false ∧ (cl core).openFree false = some 0 ∧
    (c3 core).openEnt false 0 = none := by decide +kernel

theorem witness_FaultReactions_graces :
    let opn := withFc (oneMsg 0) (fun c => { c with open_ := [(4, some ⟨0x205, 3, 2, false, some 5⟩)] })
    let h := withFc (oneMsg 0) (fun c => { c with c3At := some 5 })
    opn.openEnt false 4 = some ⟨0x205, 3, 2, false, some 5⟩ ∧ 5 ≤ opn.cyc ∧ opn.fc.c4 = false ∧ h.fc.c3At = some 5 ∧ h.boot.harbour = false ∧
    opn.bpIsOut 0x205 = false ∧ 5 ≤ h.cyc ∧ ({ h with cyc := 4 } : State).cyc < 5 ∧ ((after (exec (.c2GraceExpiry 4) opn)).lighter 5).st = .idle ∧
    ((after (exec (.c2GraceExpiry 4) opn)).openEnt false 4).map OpenEnt.out = some true ∧
    (after (exec .c3GraceExpiry h)).boot.harbour = true := by decide +kernel

/-- A log record of message `msgOf 1`. -/
def recOf (n : Nat) : LogRec := ⟨BitVec.ofNat 24 n, 0, 0, 0, 9, BitVec.ofNat 40 ((0x602 * 64 + 5) * 2 ^ 20)⟩

theorem witness_FaultRecords :
    let s := withFc up0 (fun c => { c with intake := [msgOf 0], logReady := true })
    let c := withFc { s with boot := { s.boot with image := false } } (fun c => { c with slots := [(0, ⟨some (recOf 1), false, []⟩)], head := some 0, headCyc := 0 })
    let opn := withFc up0 (fun c => { c with open_ := [(4, some ⟨0x205, 3, 2, false, some 5⟩)] })
    let hist := withFc up0 (fun c => { c with rolling := [msgOf 0], emr := [recOf 1] })
    let test : State := { up0 with boot := { up0.boot with testEn := true } }
    let bad := withFc up0 (fun c => { c with slots := [(0, ⟨some (recOf 1), false, [0x0101]⟩)] })
    up0.takesWord (.engine 3) 258 (ackWord 4 0x205 2 1) = true ∧ 10 ≤ reqCode (.engine 3) ∧ up0.inReplayQuay 3 = false ∧ reqCode .mgmt < 10 ∧
    up0.journals up0.cycW = false ∧ (opn.lighter 5).queue = [] ∧ opn.rpl.capWait = [] ∧
    rsDecode (atD (bad.logSlot (bad.cursor 0).slot.toNat).flips 0 0) = .bad ∧ (after (exec (.logW0Read .mgmt) bad)).logSlot 0 = ⟨none, true, []⟩ ∧
    opn.takesWord .mgmt 258 (ackWord 4 0x205 2 1) = true ∧ opn.takesWord .mgmt 258 (ackWord 4 0x205 2 2) = true ∧
    opn.openEnt false 4 = some ⟨0x205, 3, 2, false, some 5⟩ ∧ opn.fc.parityBad = false ∧ opn.openEnt false 5 = none ∧ opn.fc.c4 = false ∧
    s.fc.logReady = true ∧ s.fc.intake = [msgOf 0] ∧ s.coalesces (msgOf 0) = false ∧ lowFree s.fc.slots 0 = some 0 ∧ (s.logSlot 0).flips = [] ∧
    c.coalesces (msgOf 0) = true ∧ c.fc.head = some 0 ∧ c.logSlot 0 = ⟨some (recOf 1), false, []⟩ ∧ (c.cursor 0).next = false ∧ (c.cursor 0).slot = 0 ∧
    hist.fc.rolling[hist.rd F.histSelEntry]? = some (msgOf 0) ∧ hist.rdB F.histSelFrozen = false ∧ hist.fc.emr[hist.rd F.emrSelEntry]? = some (recOf 1) ∧
    up0.takes .mgmt 269 [(F.histSelHistClr, 1)] = true ∧ up0.takes .mgmt 291 [(F.emrSelEmrClr, 1)] = true ∧
    up0.takes .mgmt 298 [(F.fiCtrlFiGo, 1)] = true ∧ up0.factoryTest = false ∧ test.takes .mgmt 298 [(F.fiCtrlFiGo, 1)] = true ∧ test.factoryTest = true ∧
    test.fc.queue = [] ∧ ((after (exec (.fcAckKeep .mgmt 4 0x205 2) opn)).openEnt false 4) = none ∧ (after (exec (.fiGo .mgmt) test)).fc.queue.length = 1 := by
  decide +kernel

/-! ### Management, update and replay -/

/-- The debug port has sent nothing; the core runs; device 0.0.5 is lodestar. -/
def upM : State := (upT.wr F.devAddrValid 1).wr F.devAddrAddr 5

/-- The management core after `f`. -/
def withMg (s : State) (f : Mgmt → Mgmt) : State := { s with mgmt := f s.mgmt }

theorem witness_ManagementCommands :
    let pois := upM.setCell .hold 0x80000 ⟨0, 0, true⟩
    let log := withFc upM (fun c => { c with slots := [(0, ⟨some (recOf 1), false, []⟩)] })
    let opn := withFc upM (fun c => { c with open_ := [(4, some ⟨0x205, 3, 2, false, some 5⟩)] })
    let rm : State := { upM with rpl := { upM.rpl with st := .replayMode } }
    let d : DoneCmd := ⟨9, [1, 0], 2 ^ 36⟩
    let rep := withMg upM (fun m => { m with debugRecent := [d] })
    let stop := withMg upM (fun m => { m with core := .restarting })
    upM.coreAnswers = true ∧ upM.boot.romLoader = false ∧ upM.freshCommand .debug 9 = true ∧ upM.freshCommand (.addr 2 1) 9 = true ∧
    layout 0xFFFFFF = none ∧ (layout 10).isSome = true ∧ (10 ∉ upM.parBad) ∧ (10 ∈ ({ upM with parBad := [10] } : State).parBad) ∧ upM.alive = true ∧
    upM.writeAns 10 7 = .ok ∧ upM.writeAns 0xFFFFFF 7 = .unmapped ∧ log.logSlot 0 = ⟨some (recOf 1), false, []⟩ ∧
    upM.openEnt false 4 = none ∧ opn.openEnt false 4 = some ⟨0x205, 3, 2, false, some 5⟩ ∧ upM.clean .hold 0x80000 = true ∧
    (pois.cell .hold 0x80000).poison = true ∧ pois.intakeRoom 2 = true ∧ upM.replayMode = false ∧ rm.replayMode = true ∧ upM.lodestar = true ∧
    upH.lodestar = false ∧ upH.coreAnswers = true ∧ (recentOf rep.mgmt.debugRecent rep.cyc).find? (fun d => d.seq == 9) = some d ∧
    stop.coreAnswers = false ∧ stop.mgmt.toCore = [] ∧
    (after (exec (.mbRead .debug 9 1) (withMg upM (fun m => { m with store := [(1, 2), (3, 4)] })))).mgmt.store = [(3, 4)] := by decide +kernel

theorem witness_ImageUpdate :
    let st := fun (img : List Byte) (len : Nat) (hash : List Byte) =>
      withMg { upM with flash1 := { upM.flash1 with image := img } } (fun m => { m with staging := some ⟨none, true, len, hash⟩ })
    let trial : State := { upM with flash0 := { upM.flash0 with slot := ⟨true, true, 3, 1, 0⟩ } }
    let free : State := { upM with img := { upM.img with hasAddress := none } }
    let addr : State := { upM with img := { upM.img with hasAddress := some 5 } }
    upM.coreAnswers = true ∧ upM.boot.romLoader = false ∧ upM.freshCommand .debug 9 = true ∧ addr.img.hasAddress ≠ none ∧ free.img.hasAddress = none ∧
    free.freshCommand .debug 9 = true ∧ (2 ^ 18 - 1 ≤ (0xFFFFFF : BitVec 24).toNat) ∧ upM.mgmt.staging = none ∧ (st [] 9 []).mgmt.staging ≠ none ∧ upM.ownSlot.inSt 3 = false ∧
    trial.ownSlot.inSt 3 = true ∧ upM.ownStaging .debug = none ∧ (st [1, 2] 9 []).ownStaging .debug = some ⟨none, true, 9, []⟩ ∧
    ((st [1, 2] 9 []).flashOf true).image.length = 2 ∧ (st [] 9 []).intakeRoom 1 = true ∧ bytesCheck [1, 2] (upM.reg 0) upM.fuses ≠ none ∧
    (after (exec (.imgBegin .debug 9 100 (List.replicate 32 1) 0) upM)).mgmt.staging = some ⟨none, true, 100, List.replicate 32 1⟩ := by decide +kernel

theorem witness_CoreDuties :
    let p : Word × Word := (0x0000000005, 0x0300000000)
    let q := fun (ty : Nat) => withMg upM (fun m => { m with ring := [(BitVec.ofNat 40 (ty * 2 ^ 36 + 5), p.2)] })
    let log := withFc upM (fun c => { c with slots := [(0, ⟨some (recOf 1), false, []⟩)] })
    let rs := withMg upM (fun m => { m with core := .restarting })
    let st := withMg upM (fun m => { m with core := .starting })
    let ss := withMg upM (fun m => { m with sessions := [(2, some ⟨9, 5, []⟩)] })
    upM.coreWorks = true ∧ rs.coreWorks = false ∧ (q 0).mgmt.ring = [p] ∧ (q 1).coreWorks = true ∧ (q 2).mgmt.ring.length = 1 ∧ (q 0).mgmt.store.length < 4096 ∧ (q 0).intakeRoom 1 = true ∧
    log.fc.c3At = none ∧ log.nextRec log.mgmt.mirrorSeq.toNat = some (0, recOf 1) ∧ log.logSlot 0 = ⟨some (recOf 1), false, []⟩ ∧
    upM.nextRec upM.mgmt.mirrorSeq.toNat = none ∧ upM.coreAnswers = true ∧ rs.mgmt.core = .restarting ∧ st.mgmt.core = .starting ∧ st.boot.locked = true ∧
    st.fc.c4 = false ∧ st.writeAns 291 (st.wordOf .mgmt 291 [(F.emrSelEmrClr, 1)]) = .ok ∧ ss.session 2 = some ⟨9, 5, []⟩ ∧ 5 + 60 * secCyc ≤ ss.cyc ∧
    (after (exec .mgmtFirmwareStartDone st)).mgmt.core = .running ∧ (after (exec .logbookMirror log)).flash0.log = [recOf 1] := by decide +kernel

/-- A replay state. -/
def inRpl (s : State) (f : Replay → Replay) : State := { s with rpl := f s.rpl }

theorem witness_RecordingAndReplay_copy :
    let rc := inRpl upM (fun r => { r with st := .recording })
    let x := rc.takeSnap
    let dn := fun (k : Nat) => (inRpl { upM with cyc := 2 ^ 36 + 1 } (fun r => { r with st := .recording, copying := some (false, k) })).setSnap false (some x)
    let at0 : State := { rc with cyc := rc.cpCycles }
    let bad : Snap := { x with mem := { Mem.cleared with quay := [(7, ⟨5, 0, true⟩)] } }
    let poi : State := { (dn 0x55007).setSnap false (some bad) with mem := bad.mem }
    at0.recording = true ∧ at0.rpl.copying = none ∧ at0.ltrStopped 516 = false ∧ at0.cyc % at0.cpCycles = 0 ∧ (dn 0).recording = true ∧
    (dn 0).pending = [] ∧ (dn 0).alive = true ∧ ((dn 0).cyc + 1) % 2 = 0 ∧ (dn 0).time.setAt = none ∧ (dn 0).time.stepTo = none ∧ (dn 0).heldOff = [] ∧
    (dn 0).cx = [] ∧ (dn 0).ports = [] ∧ ((dn 0).snap false).isSome = true ∧ (dn 0).ltrStopped 516 = false ∧ 0x94FFF < (dn 0).cpWords x ∧
    (after (step (dn 0))).rpl.copying = some (false, 1) ∧ (dn 0).cpTotal false = 0x95000 ∧
    ((dn 0).cpFrom x 0x15000) = (.dmem, 0, srcEng 0) ∧ (poi.cpFrom bad 0x55007) = (.quay, 7, srcQuay 0) ∧ poi.intakeRoom 1 = true ∧
    (after (step poi)).ltrStopped 516 = true ∧ (after (step poi)).rpl.copying = some (false, 0x55007) ∧ (dn 0).jChannel = some 512 ∧
    (dn 0x95000).cpTotal false ≤ 0x95000 ∧ (after (exec .checkpointDone (dn 0x95000))).rpl.copying = none := by decide +kernel

theorem witness_RecordingAndReplay :
    let rc := inRpl upM (fun r => { r with st := .recording })
    let fr := inRpl upM (fun r => { r with st := .frozen })
    let x := rc.takeSnap
    let rm : State := { inRpl upM (fun r => { r with st := .replayMode, cpValid := 1 }) with cp0 := some x }
    let tx : State := { upM with chains := [(3, { Chain.init with st := .transmit })] }
    let je8 := ((inRpl upM (fun r => { r with st := .replaying, rcyc := 1000, jLeft := 1 })).memWrites .hold 524288 [BitVec.ofNat 40 (7 * 2 ^ 34 + 3), 900, 7, 0]).setCell .hold 524290 ⟨7, 0, true⟩
    let je := fun (ty : Nat) (c : Nat) => (inRpl upM (fun r => { r with st := .replaying, rcyc := 1000, freezeCyc := 500, jLeft := 1 })).memWrites .hold 524288 [BitVec.ofNat 40 (ty * 2 ^ 34 + 3), BitVec.ofNat 40 c, 7, 0]
    je8.jChannel = some 512 ∧ (je8.cell .hold 524288).poison = false ∧
    (je8.cell .hold 524290).poison = true ∧ je8.clean .hold 524291 = true ∧ bitsOf (je8.jWords 0).1 39 34 = 7 ∧ (je8.jWords 0).2.1 = 900 ∧
    (after (exec .journalEntryApply je8)).rpl.jNext = 1 ∧ (je 7 900).clean .hold 524291 = true ∧
    rc.coreAnswers = true ∧ rc.freshCommand .debug 9 = true ∧ rc.rpl.st = .recording ∧ upM.rpl.st ≠ .recording ∧ fr.rpl.st = .frozen ∧ upM.replayMode = false ∧
    rm.replayMode = true ∧ (tx.chain 3).st = .transmit ∧ ((upM.chain 3).st ≠ .transmit) ∧ rm.rdB F.rplCfgFromSlot = false ∧
    (List.range 20).all (fun i => rm.clean .hold (cpBase false + i)) = true ∧
    (List.range 9).map (fun i => rm.memPeek .hold (cpBase false + 1 + i)) ≠ cpIdent (rm.reg 0) rm.img.stamp rm.img.digest ∧
 (je 7 900).rpl.st = .replaying ∧ bitsOf ((je 7 900).jWords 0).1 39 34 = 7 ∧ notEarlier 1000 900 = true ∧ notEarlier 1000 1001 = false ∧
    (((je 7 900).engine 3).inbox = []) ∧ bitsOf ((je 9 1000).jWords 0).1 39 34 = 9 ∧ ((je 9 1000).jWords 0).2.1 = 1000 ∧ ((je 9 900).jWords 0).2.1 ≠ 1000 ∧
    bitsOf ((je 0 0).jWords 0).1 39 34 = 0 ∧ notEarlier 1000 (je 0 0).rpl.freezeCyc = true ∧
    (after (exec .replayEnd (je 0 0))).rpl.st = .done := by decide +kernel

/-- The cells after words are written. -/
theorem cell_words (s : State) (k : MemSel) (l : List Word) (a b : Nat) :
    (s.memWrites k a l).cell k b = if a ≤ b ∧ b < a + l.length then ⟨atD l (b - a) 0, 0, false⟩ else s.cell k b := by
  induction l generalizing s a with
  | nil => simp [State.memWrites]
  | cons w l ih =>
    rw [State.memWrites, ih, State.cell_memWrite]
    by_cases h : b = a
    · subst h; simp [atD]
    · have h1 : a < b → atD (w :: l) (b - a) 0 = atD l (b - (a + 1)) 0 := fun g => by
        rw [show b - a = (b - (a + 1)) + 1 by omega]; rfl
      simp only [h, and_false, if_false, List.length_cons]
      split <;> split
      · rw [h1 (by omega)]
      · omega
      · omega
      · rfl

theorem atD_eq (l : List Word) (i : Nat) (h : i < l.length) : atD l i 0 = l[i] := by
  induction l generalizing i with
  | nil => simp at h
  | cons w l ih =>
    cases i with
    | zero => rfl
    | succ i => simpa [atD] using ih i (by simpa using h)

/-- What stands in hold memory where a header has been written into one that holds nothing. -/
theorem header_stands (r : State) (b : Nat) (w : Word) (l : List Word) (h : ∀ a, r.cell .hold a = Cell.zero) (hl : l.length = 9) :
    (List.range 9).map (fun i => (r.memWrites .hold b (w :: l)).memPeek .hold (b + 1 + i)) = l ∧
    (r.memWrites .hold b (w :: l)).memPeek .hold b = w ∧ ∀ a, (r.memWrites .hold b (w :: l)).clean .hold a = true := by
  refine ⟨List.ext_getElem (by simp [hl]) fun i h1 h2 => ?_, ?_, fun a => ?_⟩
  · simp only [List.length_map, List.length_range] at h1
    simp only [List.getElem_map, List.getElem_range, State.memPeek, cell_words, List.length_cons, hl]
    rw [if_pos (by omega), show b + 1 + i - b = i + 1 by omega]
    exact atD_eq l i h2
  · simp [State.memPeek, cell_words, atD]
  · rw [State.clean, cell_words, h]
    split <;> rfl

theorem cpIdent_length (idrev : Word) (stamp : BitVec 64) (digest : List Byte) : (cpIdent idrev stamp digest).length = 9 := rfl

/-- Replay mode with an empty hold memory. -/
def rplEmpty : State := inRpl upM (fun r => { r with st := .replayMode, cpValid := 1 })

/-- The same with slot 0 filled from outside: its header is the running device's. -/
def rplStart : State := { rplEmpty with
  mem := (rplEmpty.memWrites .hold (cpBase false) (BitVec.ofNat 40 upM.takeSnap.cyc :: cpIdent (upM.reg 0) upM.img.stamp upM.img.digest)).mem
  cp0 := some upM.takeSnap }

theorem rplEmpty_cell (a : Nat) : rplEmpty.cell .hold a = Cell.zero := rfl

/-- Such a slot starts a replay (R404). -/
theorem witness_RecordingAndReplay_start :
    (rplStart.rpl.st = .replayMode ∧ rplStart.rdB F.rplCfgFromSlot = false ∧ rplStart.reg 0 = upM.reg 0) ∧
    rplStart.snap false = some upM.takeSnap ∧ rplStart.img = upM.img ∧
    (List.range 9).map (fun i => rplStart.memPeek .hold (cpBase false + 1 + i)) = cpIdent (upM.reg 0) upM.img.stamp upM.img.digest ∧
    rplStart.memPeek .hold (cpBase false) = BitVec.ofNat 40 upM.takeSnap.cyc ∧ ∀ a, rplStart.clean .hold a = true := by
  have h := header_stands rplEmpty (cpBase false) (BitVec.ofNat 40 upM.takeSnap.cyc) _ rplEmpty_cell (cpIdent_length (upM.reg 0) upM.img.stamp upM.img.digest)
  exact ⟨by decide +kernel, rfl, rfl, h.1, h.2.1, h.2.2⟩

/-- R400, R402: entries stand in CYC order, in TYPE order at an equal CYC; after a freeze only one from at or before its CYC is written. R392: the form of arguments. -/
theorem test_journal_order :
    let rc := (inRpl upM (fun r => { r with st := .recording })).journal 7 3 900 7 0
    let two := (rc.journal 2 0 800 0 0).journal 1 5 900 1 2
    let fr := inRpl two (fun r => { r with st := .frozen, freezeCyc := 900 })
    (two.jWords 0).2.1 = 800 ∧ bitsOf (two.jWords 1).1 39 34 = 1 ∧ two.jWords 2 = (BitVec.ofNat 40 (7 * 2 ^ 34 + 3), 900, 7, 0) ∧
    two.rpl.jCount = 3 ∧ fr.journal 2 0 901 0 0 = fr ∧ (fr.journal 2 0 899 0 0).rpl.jCount = 4 ∧
    argsOk 1 [1, 0] = true ∧ argsOk 1 [1, 0, 0] = false ∧ argsOk 16 [16, 0, 5] = false := by decide +kernel

/-! ### The debug port, resets and the start -/

theorem witness_DebugPortAndFuses :
    let harb : State := { upM with boot := { upM.boot with harbour := true } }
    let em := withFc upM (fun c => { c with emr := [recOf 1] })
    let b := mkMsgBytes 0 3 0 0 9 0 [1, 0]
    let f : List Byte := [0x7E] ++ b ++ [0x7E]
    let cold : State := { upM with thermal := { upM.thermal with tjHot := 2 ^ 24 } }
    let bn : State := { upM with burn := [⟨1, 5⟩] }
    let two := withMg upM (fun m => { m with toCore := [⟨b, none, 0⟩, ⟨b, none, 0⟩] })
    harb.boot.harbour = true ∧ upM.boot.harbour = false ∧ upM.boot.romLoader = false ∧ (harb.chain 3).st ≠ .transmit ∧ upM.alive = true ∧ (10 ∉ upM.parBad) ∧
    upM.takesWord .debug 10 7 = true ∧ em.fc.emr[(0 : BitVec 4).toNat]? = some (recOf 1) ∧ uartMsg [1, 2] = none ∧ uartFrame [0x7E, 5] = [0x7E, 0x7D, 0x5E, 5, 0x7E] ∧ uartMsg (uartFrame b) = some b ∧ ((after (exec .extest harb)).pins.bndDr.length = pads.length) ∧ uartMsg f = some b ∧ msgOk b = true ∧
    msgDst b = 0 ∧ msgClass b = 0 ∧ upM.debugWaiting < 2 ∧ msgNat (msgPayload b) 0 1 = 1 ∧ msgNat (msgPayload b) 1 1 = 0 ∧ argsOk 1 (msgPayload b) = true ∧ 2 ≤ two.debugWaiting ∧
    cold.boot.image = true ∧ cold.boot.locked = true ∧ cold.burned.limFused = false ∧ cold.burned.keyFused = false ∧ cold.burned.factoryLock = false ∧
    cold.thermal.tjHot = 2 ^ 24 ∧ upM.burn = [] ∧ bn.burn = [⟨1, 5⟩] ∧ bn.intakeRoom 1 = true ∧
    (after (exec (.limBurn true) cold)).burn.length = 1 ∧ (after (exec (.fuseBurnDone true) bn)).burned.limFused = true := by decide +kernel

theorem witness_ResetsAndStart :
    let rom := withMg { up0 with cyc := 9, boot := { up0.boot with romLoader := true } } (fun m => { m with resetAt := some 5 })
    let rec_ := fun (st : BitVec 3) (k : Nat) (gen : BitVec 16) => SlotView.sectors (slotEntry st k gen) [] false
    let seen := fun (v : SlotView) => (slotSeen v State.reset.flash0).slot
    let dead := SlotView.sectors (slotEntry 2 0 3) [] true
    let kept := Flash.withSlot State.reset.flash0 3 2 5
    let conf : State := { upM with boot := { upM.boot with softEnd := some 5 }, flash0 := { upM.flash0 with slot := ⟨true, true, 3, 1, 4⟩ } }
    up0.fc.c4 = false ∧ rom.mgmt.resetAt = some 5 ∧ rom.boot.romLoader = true ∧ 5 ≤ rom.cyc ∧ State.reset.boot.st = .inReset ∧ State.reset.fc.c4 = false ∧
    (seen (rec_ 2 0 3)).inSt 2 = true ∧ (seen (rec_ 3 2 3)).inSt 3 = true ∧ (seen (rec_ 3 2 3)).tries < 3 ∧ 3 ≤ (seen (rec_ 3 3 3)).tries ∧ (seen (.sectors [] [] false)).valid = true ∧ (seen (.sectors (slotEntry 4 0 3 ++ slotEntry 2 0 7 ++ [0x53]) [] false)).inSt 2 = true ∧
    (seen (.sectors [0] [] false)).lost = true ∧ (slotSeen (.kept false) kept).slot = ⟨true, true, 3, 2, 5⟩ ∧ blankSector State.reset.flash0.sect0 = true ∧
    (after (exec (.coldStart true false false (rec_ 4 0 3) dead) State.reset)).flash1.slot = ⟨true, true, 2, 0, 3⟩ ∧
    (seen (rec_ 3 3 3)).inSt 2 = false ∧ (seen (rec_ 4 0 3)).inSt 4 = true ∧ follows 16 4 3 = true ∧ follows 16 3 4 = false ∧
    conf.boot.softEnd = some 5 ∧ 5 + 60 * secCyc ≤ conf.cyc ∧ conf.boot.harbour = false ∧ conf.ownSlot.inSt 3 = true ∧
    (after (exec (.coldStart true false false (rec_ 4 0 3) (rec_ 4 0 4)) State.reset)).boot.flash = true ∧
    (after (exec (.coldStart false false false (rec_ 3 3 3) (.sectors [] [] false)) State.reset)).boot.rolledBack = true ∧
    (after (exec .trialConfirm conf)).flash0.slot.st = 4 := by decide +kernel

/-- The header words of one identity, nine sections of no length and stamp 0 (R414). -/
def hdrFront : List Byte :=
  let top := beBytes 4 0x4F4B4131 ++ beBytes 2 1 ++ beBytes 2 4096 ++ beBytes 4 4096 ++ beBytes 8 0 ++ [1, 0, 0, 0] ++ beBytes 5 (State.reset.reg 0).toNat
  let dir := [1, 2, 3, 4, 7, 8, 9, 11, 12].flatMap (fun k => beBytes 2 k ++ [0, 0] ++ beBytes 4 4096 ++ List.replicate 24 0)
  top ++ List.replicate (160 - 29) 0 ++ [0, 9, 0, 0] ++ dir

/-- The header but for its CRC. -/
def hdrBody : List Byte := hdrFront ++ List.replicate 3640 0

/-- The header with its CRC-32. -/
def hdrOk : List Byte := hdrBody ++ beBytes 4 (crc32 hdrBody).toNat

theorem hdrBody_length : hdrBody.length = 4092 := by
  have h : hdrFront.length = 452 := by decide +kernel
  rw [hdrBody, List.length_append, List.length_replicate, h]

theorem beNat_beBytes_word (c : BitVec 32) : beNat (beBytes 4 c.toNat) = c.toNat := by
  have h := c.isLt
  simp [beNat, beBytes]
  omega

theorem crc_stands (b : List Byte) (h : b.length = 4092) :
    hNat (b ++ beBytes 4 (crc32 b).toNat) 4092 4 = (crc32 ((b ++ beBytes 4 (crc32 b).toNat).take 4092)).toNat := by
  rw [hNat, List.drop_left' h, List.take_left' h, List.take_of_length_le (by simp [beBytes]), beNat_beBytes_word]

theorem with_crc_length (b : List Byte) (x : Nat) (h : b.length = 4092) : (b ++ beBytes 4 x).length = 4096 := by
  simp [beBytes, h]

theorem hdrOk_length : hdrOk.length = 4096 := with_crc_length hdrBody _ hdrBody_length

theorem hdrOk_crc : hNat hdrOk 4092 4 = (crc32 (hdrOk.take 4092)).toNat := crc_stands hdrBody hdrBody_length

theorem test_header_accepted : headerCheck hdrOk (State.reset.reg 0) Fuses.unburned = none := by
  have h1 : imageLen hdrOk = 4096 := by decide +kernel
  have h2 : formatOk hdrOk = true := by decide +kernel
  have h3 : idrevListed hdrOk (State.reset.reg 0) = true := by decide +kernel
  have h4 : (sects hdrOk).any (fun x => x.stamp != hNat hdrOk 12 8) = false := by decide +kernel
  have h5 : Fuses.unburned.keyFused = false := rfl
  simp [headerCheck, h1, h2, h3, h4, h5, hdrOk_crc]

/-- The check value of the CRC of R414: the nine digits 1 to 9. -/
theorem test_crc32 : crc32 [0x31, 0x32, 0x33, 0x34, 0x35, 0x36, 0x37, 0x38, 0x39] = 0xCBF43926 := by decide +kernel

theorem witness_BootChecksAndBringUp :
    let boot := fun (st : BootSt) (f : Boot → Boot) => { State.reset with boot := f { Boot.init with st := st } }
    let rd := boot .reading id
    let ld := boot .loading id
    let ds := List.replicate 4 [0] ++ List.replicate 5 [1] ++ List.replicate 7 [0]
    let quad := List.replicate 21 0 ++ [1] ++ List.replicate 4074 0
    let tr := { rd with flash0 := { rd.flash0 with slot := ⟨true, true, 3, 1, 4⟩ } }
    let at_ := fun (k : BitVec 2) (f : State → State) => f { upH with cyc := 2 ^ 36, boot := { upH.boot with step := some k, stepAt := 5 } }
    let jesd := at_ 0 (fun s => s.setChain 3 { s.chain 3 with jtxRunning := true })
    (boot .pllLocking id).boot.st = .pllLocking ∧ (boot .clearing id).fc.c4 = false ∧ (boot .clearing id).boot.noSource = false ∧ (boot .clearing id).intakeRoom 2 = true ∧
    rd.fuses.limFused = false ∧ rd.fuses.keyFused = false ∧ (boot .clearing (fun b => { b with noSource := true })).boot.noSource = true ∧
    rd.boot.st = .reading ∧ rd.intakeRoom 1 = true ∧ hNat hdrOk 21 1 % 4 = 0 ∧
    headerCheck [0] (rd.reg 0) rd.fuses = some (2, 2) ∧
    (tr.flashOf tr.boot.flash).slot.inSt 3 = true ∧ (rd.flashOf (!rd.boot.flash)).slot.valid = true ∧ ((!rd.boot.flash) ∉ rd.boot.tried) ∧
    ((!rd.boot.flash) ∈ (boot .reading (fun b => { b with tried := [true] })).boot.tried) ∧ ld.boot.st = .loading ∧
    samplingPoint [1] ds = some 6 ∧ samplingPoint [1] (List.replicate 15 [0] ++ [[1]]) = some 15 ∧ samplingPoint [1] (List.replicate 16 [0]) = none ∧
    hNat quad 21 1 % 4 = 1 ∧ samplingPoint (quad.take 16) ds = none ∧ (rd.flashOf false).image = [] ∧
    (after (exec (.imageHeaderRead false true ds quad) rd)).rd (F.bootRejKind 0) = 1 ∧
    jesd.boot.step = some 0 ∧ jesd.stepUnits 0 = [3] ∧ (jesd.chain 3).jtxRunning = true ∧ (at_ 1 id).stepUnits 1 = [] ∧
    (at_ 2 (fun s => s.wr (F.gvCtrlEnable 1) 1)).stepUnits 2 = [1] ∧ (at_ 2 (fun s => s.wr (F.gvCtrlEnable 1) 1)).unitUp 2 1 = false ∧
    5 + stepBound 2 ≤ (at_ 2 id).cyc ∧ (at_ 2 id).intakeRoom 1 = true := by
  decide +kernel

theorem header_only (b : List Byte) (r : Word) (f : Fuses) (hc : headerCheck b r f = none) (h1 : imageSigned b = true)
    (h2 : Config.ed25519 Config.fwKey (Config.sha256 []) [] = true) (h3 : (Config.fwTested []).contains r = true)
    (e1 : imageLen b = 4096) (e2 : b.length = 4096) (e4 : sectBytes b 1 = []) (e5 : hNat b 12 4 = 0) (e7 : f.limFused = false) :
    bodyCheck b r f = none ∧ bytesCheck b r f = none := by
  have e3 : b.take 4096 = b := List.take_of_length_le (by omega)
  have e6 : hNat ([] : List Byte) 0 5 = 0 := by decide
  have e9 : bodyCheck b r f = none := by
    simp only [bodyCheck, e4, h1, e5, e7]
    simpa [h2, e6] using h3
  refine ⟨e9, ?_⟩
  have e10 : imageBytes b = b := by simp [imageBytes, e1, e2, e3]
  simp only [bytesCheck, e10, e3, hc]
  exact e9

/-- The image that is this header alone passes every check of R419, where the signature checks accept and the firmware names the device's identity: those three are constants left open. -/
theorem witness_ImageUpdate_good (h1 : imageSigned hdrOk = true) (h2 : Config.ed25519 Config.fwKey (Config.sha256 []) [] = true)
    (h3 : (Config.fwTested []).contains (State.reset.reg 0) = true) :
    bodyCheck hdrOk (State.reset.reg 0) Fuses.unburned = none ∧ bytesCheck hdrOk (State.reset.reg 0) Fuses.unburned = none :=
  header_only _ _ _ test_header_accepted h1 h2 h3 (by decide +kernel) hdrOk_length (by decide +kernel) (by decide +kernel) rfl

/-- An image whose signature fails is refused by check 7 (R419). -/
theorem witness_BootChecks_unsigned (b : List Byte) (h : imageSigned b = false) : bodyCheck b (State.reset.reg 0) Fuses.unburned = some (7, 6) := by
  simp [bodyCheck, h]

theorem witness_EngineWordsRoundTrip :
    wellFormed (.add 7 ⟨1, 2, 3, 0⟩) = true ∧ encode (.add 7 ⟨1, 2, 3, 0⟩) = some (7, 0x0108860000) ∧ legalWord 0x0108860000 = true ∧
    legalWord 0 = false ∧ legalWord 0x8800000001 = false := by decide +kernel

/-! ### Witnesses of single clauses -/

/-- LD and ST that fault in translation, in permission and in the context area, JR out of range, and each in the handler's berth (R211, R251, R255, R273). -/
theorem witness_EngineFaults_memory :
    let ld : Instr := .ld 0 ⟨1, 2, 0⟩
    let st : Instr := .st 0 ⟨1, 2, 0⟩
    let jr : Instr := .jr 0 ⟨0, 2, 0⟩
    let s : Instr → Word → State := fun i a => { standMapped i (task1 2 a) with img := engImg }
    let tgt := fun (i : Instr) (a : Word) (w : Bool) => ((s i a).engine 0).target a.toNat ⟨w, false⟩
    let hand := withEng (s ld 0x100000) 0 (fun en => { en with running := some 3 })
    let end_ := withEng (s ld 0) 0 (fun en => { en with live := { en.live with pc := 8192 } })
    (s ld 0x100000).standsAt ld 0 = true ∧ tgt ld 0x100000 false = .fault 3 ∧ tgt ld 0x4800 false = .quay 3072 ∧ tgt st 0x4800 true = .fault 4 ∧
    (s st 0x4800).standsAt st 0 = true ∧ tgt st 0x3C00 true = .data 0x3C00 ∧ (s st 0x3C00).standsAt st 0 = true ∧
    ((after (exec st (s st 0x3C00))).engine 0).lastFault = 4 ∧ (s jr 8192).standsAt jr 0 = true ∧ ((s jr 8192).engine 0).live.cond 0 2 = true ∧
    ((after (exec jr (s jr 8192))).engine 0).lastFault = 2 ∧ hand.standsAt ld 3 = true ∧ hand.handlerOf 0 = some 3 ∧
    (after (exec ld hand)).fc.queue.map (fun m => (m.kind, m.hint)) = [(3, 3)] ∧ 8192 ≤ (end_.engine 0).live.pc := by decide +kernel

/-- A walk that finds a word that is not valid, one that a store may not use, a poisoned one, and a table beyond quay memory (R250 to R252). -/
theorem witness_TableWalk_faults :
    let s := fun (k : WalkWait) (w : Word) => (withEng (standMapped (.ld 0 ⟨1, 2, 0⟩) (Task.init 5 0)) 0 (fun en => { en with walk := some k })).memWrite .quay 20 w
    let p := (s ⟨20, false, false⟩ 1).setCell .quay 20 ⟨1, 0, true⟩
    let far := withEng (s ⟨20, false, false⟩ 1) 0 (fun en => { en with live := { en.live with xbase := 0xFFFC00 } })
    262144 ≤ (far.engine 0).live.table.toNat * 1024 + 20 ∧ ((after (exec (.tlbWalk 0) far)).engine 0).lastFault = 3 ∧
    ((s ⟨20, false, false⟩ 1).engine 0).walk = some ⟨20, false, false⟩ ∧ ((s ⟨20, false, false⟩ 1).engine 0).running = some 0 ∧
    applyEntry 1 0 ⟨false, false⟩ = .fault 3 ∧ applyEntry 0xA000000003 0 ⟨true, true⟩ = .fault 4 ∧ (s ⟨20, false, false⟩ 1).intakeRoom 2 = true ∧
    ((after (exec (.tlbWalk 0) (s ⟨20, false, false⟩ 1))).engine 0).suspended = 1 ∧
    ((after (exec (.tlbWalk 0) (s ⟨20, true, true⟩ 0xA000000003))).engine 0).blkFailed = [(20, 4)] ∧
    (p.memRead .quay 20 (srcQuay 0)).1.poison = true ∧ ((after (exec (.tlbWalk 0) p)).engine 0).lastFault = 5 ∧
    ((p.engine 0).live.table.toNat * 1024 + 20 < 262144) := by decide +kernel

/-- An element of each block instruction, with streams in data and in quay memory, and one that faults, misses, or is poisoned (R240 to R243). -/
theorem witness_BlockElementEffects_all :
    let t := (((task1 2 100).setW 3 200).setW 4 300)
    let s := fun (op : BitVec 8) (f : K5) (t : Task) =>
      (((withEng (standMapped (.vmac 0 ⟨0, 2, 3, 1, 0⟩) t) 0 (fun en => { en with tlb := [⟨0, 0, 16, 0xB000000003⟩, ⟨1, 0, 18, 0xA000000003⟩], block := some ⟨op, f, true⟩ })).memWrite
        .dmem 100 0x4000000000).memWrite .dmem 200 0x4000040000).memWrite .dmem 300 0x4000000000
    let k : K5 := ⟨1, 2, 3, 1, 0⟩
    let b : K5 := ⟨0, 2, 3, 1, 0⟩
    let run := fun (x : State) => after (exec (.blockElementEffect 0) x)
    let q := (s 0x68 k (t.setW 2 0x4000)).memWrite .quay 3072 0x4000000000
    let no := s 0x68 k (t.setW 2 0x100000)
    let miss := s 0x68 k (t.setW 2 0x4C00)
    let bad := (s 0x68 k t).setCell .dmem 100 ⟨0, 0, true⟩
    ((run (s 0x68 k t)).engine 0).live.getAcc 1 0 = 0x1000000000 ∧ ((run (s 0x69 k t)).engine 0).live.getW 3 = 201 ∧
    ((run (s 0x6A ⟨1, 2, 3, 1, 0⟩ t)).engine 0).live.getAcc 0 1 = 0x1000000000 ∧ ((run (s 0x6C k t)).engine 0).live.sat = false ∧
    (run (s 0x6C k t)).memPeek .dmem 100 = 0x2000020000 ∧ ((run (s 0x6B b t)).engine 0).block = none ∧ ((s 0x68 k t).engine 0).poisoned = none ∧
    (q.engine 0).elemTarget 0x4000 false = .quay 3072 ∧ ((run q).engine 0).live.getAcc 1 0 = 0x1000000000 ∧
    (no.engine 0).elemTarget 0x100000 false = .fault 3 ∧ ((run no).engine 0).lastFault = 3 ∧ (miss.engine 0).elemTarget 0x4C00 false = .miss 19 ∧
    ((run miss).engine 0).walk = some ⟨19, false, true⟩ ∧ (bad.cell .dmem 100).poison = true ∧ ((run bad).engine 0).lastFault = 5 ∧ no.intakeRoom 2 = true := by
  decide +kernel

/-- LDR of a _HI register with and without a shadow of its engine (R440). -/
theorem witness_TwoHalfReads_hi :
    let i : Instr := .ldr 0 ⟨1, 2, 0⟩
    let s := stand upE i (task1 2 141)
    let sh := { s with shadows := Tbl.set (fun _ => none) s.shadows (10 * 2 ^ 24 + 141) (some 77) }
    let bad : State := { upE with parBad := [140] }
    s.standsAt i 0 = true ∧ s.clean .imem 5 = true ∧ isHi 141 = true ∧ (layout 141).isSome = true ∧ 141 ∉ s.parBad ∧
    ((after (exec i sh)).engine 0).loads.map PendLoad.word = [77] ∧ ((after (exec i s)).engine 0).loads.map PendLoad.word = [0] ∧
    140 ∈ bad.parBad ∧ bad.canReach (reqCode .mgmt) = true ∧ (after (exec (.twoHalfReadLo .mgmt 140) bad)).lastRead 9 = [] := by decide +kernel

/-- CAL_FULL: 0.25 of full scale against a reference of 0.25 gives the gain 1, and a divisor below 1/64 of the span fails (R184). -/
theorem witness_CalibrationAndTrims_full :
    let o : CalOp := ⟨true, 1, 0x20000, 0, 16, 2 ^ 39, 0⟩
    let s := fun (x : CalOp) => { upH with meas := { upH.meas with calOp := some x } }
    ((s o).mcCfg 1).map (fun g => 2 ^ 41 * Nat.max 1 ((s o).filterN g ^ g.k)) = some (2 ^ 41) ∧ (s o).rdS (F.mcCalOffset 1) = 0 ∧
    2 ^ 13 * 2 ^ 41 ≤ (2 ^ 39 * 2 ^ 19 : Nat) ∧ (after (exec .calOpComplete (s o))).rd (F.mcCalGain 1) = 2 ^ 18 ∧
    (after (exec .calOpComplete (s { o with sumNum := 2 ^ 34 }))).rd F.calStatResult = 3 ∧ (s o).intakeRoom 1 = true := by decide +kernel

/-- The end of an evaluation interval of BP0, the only band path in service: back-off, margin mute, rise, bar and, of uplink BP1, the donor noise (R85, R86, R87, R130, R133). -/
theorem witness_IntervalJudgement :
    let s := fun (n : Nat) (f : Bp → Bp) => { withBp (inSt upB n .active) n f with cyc := intervalCyc * 7 }
    let bw := fun (iso c : Int) (b : Bp) => { b with bw := { b.bw with isoP := iso * dB1, ceiling := c * dB1, ceilFifths := 0 } }
    let only := fun (x : State) (n : Nat) => x.planned.all (fun m => m == n || !x.passing m)
    let down := s 0 (bw 35 30)
    let low := s 0 (bw (-60) 58)
    let up := s 0 (bw 120 20)
    let wait := s 0 (fun b => let b := bw 120 20 b; { b with bw := { b.bw with holdOff := 2 } })
    let loud := s 0 (fun b => { b with flow := { b.flow with meterOut := { b.flow.meterOut with window := List.replicate 64 (2 ^ 50), coarse := 40 * dB1 } } })
    let run := fun (x : State) => after (exec .bwIntervalEnd x)
    down.cyc % intervalCyc = 0 ∧ only down 0 = true ∧ down.present 0 = true ∧ down.intakeRoom 3 = true ∧ down.serving 0 = true ∧ loud.passing 0 = true ∧ loud.thermal.waiting = [] ∧
    ((run down).bp 0).bw.holdOff = 1 ∧ ((run low).bp 0).prot.cause = 2 ∧ 20 * dB1 < ((run up).bp 0).bw.ceiling ∧
    ((run wait).bp 0).bw.holdOff = 1 ∧ ((run loud).bp 0).prot.st = .barred ∧ only (s 1 (bw 120 20)) 1 = true ∧ (s 1 (bw 120 20)).uplink 1 = true := by
  decide +kernel

/-- The end of a band path's grant, of a port's, and a privileged episode that begins, runs, and ends (R29, R296, R349). -/
theorem witness_ThermalAndCredits_grants :
    let xf := fun (s : State) (w : GovXfer) => { s with thermal := { s.thermal with xfer := some w, ledger := [] } }
    let b := xf ((withBp { upB with img := { bpImg with plan := planEnt [(1, 3), (2, 0), (plMode, 1)] } } 0 (fun b => { b with flow := { b.flow with delayWords := 5 } })).wr (F.bpProtEnable 0) 1) ⟨1, 20, false⟩
    let p := xf (upB.wr (F.gvCtrlEnable 1) 1) ⟨146, 20, false⟩
    let pr : State := { inSt { upB with img := { bpImg with limits := List.replicate 17 700000 ++ ([lv (-10), lv 30, lv 40, lv 100, lv 6, 0, 1, 0, 0xFFFFFFFF] ++ List.replicate 7 0) } } 0 .active with cyc := msCyc * 7 }
    b.thermal.waiting = [] ∧ (b.bp 0).prot.st = .off ∧ b.rdB (F.bpProtEnable 0) = true ∧ b.held4Service 0 = false ∧ b.clearing 0 = false ∧ (b.bp 0).flow.delayWords ≠ 0 ∧
    b.tapsOwed + b.tapCost 0 ≤ 16384 ∧ b.wantsResampler 0 = false ∧ b.rangesOk 0 = true ∧ anyHeld (b.bp 0).prot.held = false ∧ (b.bpTherm 0).hot = false ∧
    ((after (exec .govTransferEnd b)).bp 0).prot.st = .starting ∧ p.rdB (F.gvCtrlEnable 1) = true ∧ ((after (exec .govTransferEnd p)).port 1).st = .detect ∧
    pr.setCyc % msCyc = 0 ∧ pr.throttles 0 = true ∧ (pr.bpTherm 0).kept = none := by decide +kernel

/-- A flash that fails: a staging, a commit, the mirror and the first start (R390). -/
theorem witness_FlashFails :
    let dead := { upM with flash0 := { upM.flash0 with fails := true }, flash1 := { upM.flash1 with fails := true, image := [1, 2] } }
    let st := withMg dead (fun m => { m with staging := some ⟨none, true, 2, []⟩ })
    let first := withFc (withMg dead (fun m => { m with core := .starting })) (fun c => { c with emr := [recOf 1] })
    let c3 := withFc upM (fun c => { c with c3At := some 5, slots := [(0, ⟨some (recOf 1), false, []⟩)] })
    dead.coreAnswers = true ∧ (dead.flashOf true).fails = true ∧ dead.mgmt.staging = none ∧ dead.ownSlot.inSt 3 = false ∧ dead.intakeRoom 2 = true ∧
    st.ownStaging .debug = some ⟨none, true, 2, []⟩ ∧ first.mgmt.core = .starting ∧ first.fc.emr ≠ [] ∧
    (after (exec (.imgBegin .debug 9 100 (List.replicate 32 1) 0) dead)).fc.queue.map (fun m => (m.src, m.kind)) = [(BitVec.ofNat 14 srcMgmt, 4)] ∧
    (after (exec .mgmtFirmwareStartDone first)).flash0 = first.flash0 ∧ c3.coreWorks = true ∧ (c3.flashOf c3.boot.flash).reserve = [] ∧
    (c3.logSlot 0).flips = [] ∧ ((after (exec .logbookMirror c3)).flash0).reserveLog = [recOf 1] := by decide +kernel

/-- A command that waits its turn at the core, one that is taken there, and a stopped DL7 (R391, R404). -/
theorem witness_ManagementCommands_waiting :
    let b := mkMsgBytes 0 3 0 0 9 0 [1, 0]
    let w := withMg upM (fun m => { m with toCore := [⟨b, none, 0⟩] })
    let dl7 := upM.setLighter 519 { Lighter.init with st := .stopped }
    w.mgmt.toCore = [⟨b, none, 0⟩] ∧ carries ⟨b, none, 0⟩ 9 1 [] = true ∧ (w.coreNext .debug).isSome = true ∧ upM.coreNext .debug = none ∧
    (after (exec (.ident .debug 9) w)).mgmt.toCore = [] ∧ msgSeq b ≠ (8 : BitVec 16).toNat ∧ dl7.ltrStopped 519 = true ∧ upM.ltrStopped 519 = false := by
  decide +kernel

/-- Nothing happens before its time: a ramp step, a duty bucket, a copy and a resampler's place in line (R101, R132). -/
theorem witness_BeforeTheirTime :
    let s := inSt { upB with cyc := 20000000000 } 0 .starting
    let r := withBp s 0 (fun b => { b with gain := { b.gain with ramp := some 0, rampAt := s.setCyc }, prot := { b.prot with bucketFrom := s.setCyc } })
    let d : State := { withBp s 0 (fun b => { b with gain := { b.gain with ramp := some 0 } }) with cyc := 2 ^ 40 }
    (r.bp 0).prot.st = .starting ∧ r.setCyc < r.rampDue 0 ((r.bp 0).gain.rampN + 1) ∧ d.rampDue 0 ((d.bp 0).gain.rampN + 1) ≤ d.setCyc ∧
    r.setCyc < r.bucketDue 0 ((r.bp 0).prot.bucketN + 1) ∧ d.bucketDue 0 ((d.bp 0).prot.bucketN + 1) ≤ d.setCyc ∧
    upB.cyc % intervalCyc = 0 ∧ ({ upB with cyc := 1 } : State).cyc % intervalCyc ≠ 0 := by decide +kernel

/-- A sample of a muted path past its 40 cycles, of a gated uplink path with and without a probe, and of one whose gain steps by more than 0.5 dB (R60, R78, R126). -/
theorem witness_BandSampleAdvances_output :
    let s := { upB with cyc := 2 ^ 34 }
    let muted := withBp (inSt s 0 .muted) 0 (fun b => { b with prot := { b.prot with mutedAt := 5 } })
    let gated := withBp (inSt s 1 .active) 1 (fun b => { b with gain := { b.gain with gate := .closed } })
    let harb : State := { gated with boot := { gated.boot with harbour := true } }
    let far := withBp (inSt s 0 .active) 0 (fun b => { b with gain := { b.gain with lastStep := 1000 } })
    let probed := withBp gated 1 (fun b => { b with bw := { b.bw with probe := some ⟨-60 * dB1, 100, 0, 0, 1, 0, [], [], 0, 0, [], []⟩ } })
    5 + 40 ≤ muted.setCyc ∧ (muted.bp 0).prot.st = .muted ∧ gated.uplink 1 = true ∧ (gated.bp 1).gain.gate = .closed ∧ harb.uplink 1 = true ∧
    (harb.bp 1).gain.gate = .closed ∧ harb.probing 1 = false ∧ probed.probing 1 = true ∧ (probed.bp 1).bw.probe.isSome = true ∧
    (probed.bp 1).gain.gate = .closed ∧ (far.bp 0).gain.lastStep = 1000 := by decide +kernel

/-- The free-running cycles of an idle step: an engine past its restore counts, one in it does not, one that issued in the ending cycle does (R227). -/
theorem witness_ResetAndIdle_engines :
    let e := fun (f : Engine → Engine) => withEng { upE with cyc := 100 } 0 f
    let run := e (fun en => { en with st := .running, running := some 0, runFrom := 50 })
    let rest := e (fun en => { en with st := .running, running := some 0, runFrom := 5000 })
    let last := e (fun en => { en with st := .idle, usedAt := some (({ upE with cyc := 100 } : State).engCyc 0) })
    run.rpl.copying = none ∧ run.ports = [] ∧ (tblKeys run.engines).Nodup ∧ ((after (step run)).engine 0).used = 1 ∧ ((after (step rest)).engine 0).used = 0 ∧
    ((after (step last)).engine 0).used = 1 := by decide +kernel

/-- Responses that stand in for open ROM values meet their rows: two half-band variants, a channel filter and an emission mask (R40, R42, R284). -/
theorem test_rom_half_bands : hbOk (designed ((hbDesign 0).take (hbDelay 0 + 1))) 0 = true ∧ hbOk (designed ((hbDesign 1).take (hbDelay 1 + 1))) 1 = true := by
  decide +kernel
theorem test_rom_channel_filter : cfOk (designed (cfDesign 1)) 1 = true := by decide +kernel
theorem test_rom_mask : maskOk (designed (maskDesign 1)) 1 = true := by decide +kernel
/-- A response of zeros meets none. -/
theorem test_rom_zero : hbOk (fun _ => 0) 0 = false := by decide +kernel

end Sys2Proof.Tests
end

section
/-! The arithmetic of R8: what convergent rounding and saturation answer, for every value and width. -/

namespace Sys2Proof.Machine

/-! ### Convergent rounding -/

/-- Rounding takes the quotient when the remainder is at most half the divisor and the next integer when it is at least that; at the half itself it takes the even one of the two. -/
theorem roundEven_down_or_up (n : Int) (d : Nat) :
    ((roundEven n d = n / d ∧ 2 * (n % d) ≤ d) ∨ (roundEven n d = n / d + 1 ∧ d ≤ 2 * (n % d))) ∧
    (2 * (n % d) = d → roundEven n d % 2 = 0) := by
  simp only [roundEven]
  split_ifs <;> omega

/-- How far a rounded value lies from the exact one: the remainder below it, or what the remainder lacks to the divisor above it. -/
theorem abs_roundEven_mul_sub (n : Int) {d : Nat} (hd : 0 < d) :
    |roundEven n d * d - n| = min (n % d) (d - n % d) := by
  have hnonneg : 0 ≤ n % (d : Int) := Int.emod_nonneg n (by omega)
  have hlt : n % (d : Int) < d := Int.emod_lt_of_pos n (by omega)
  have hdiv : n / d * d = n - n % d := by linarith [Int.ediv_mul_add_emod n d]
  obtain ⟨⟨hr, hle⟩ | ⟨hr, hge⟩, -⟩ := roundEven_down_or_up n d
  · have herr : roundEven n d * d - n = -(n % d) := by rw [hr, hdiv]; ring
    rw [herr, abs_neg, abs_of_nonneg hnonneg, min_eq_left (by omega)]
  · have herr : roundEven n d * d - n = d - n % d := by rw [hr, add_mul, hdiv]; ring
    rw [herr, abs_of_pos (by omega), min_eq_right (by omega)]

/-- R8: the rounded value is a nearest integer, at most half the divisor away. -/
theorem two_mul_abs_roundEven_mul_sub_le (n : Int) {d : Nat} (hd : 0 < d) :
    2 * |roundEven n d * d - n| ≤ d := by
  rw [abs_roundEven_mul_sub n hd]
  omega

/-- R8: an exact half rounds to the even result. -/
theorem roundEven_even_of_half (n : Int) {d : Nat} (hd : 0 < d) (hhalf : 2 * |roundEven n d * d - n| = d) :
    roundEven n d % 2 = 0 := by
  rw [abs_roundEven_mul_sub n hd] at hhalf
  exact (roundEven_down_or_up n d).2 (by omega)

/-! ### Saturation -/

/-- A clamped value lies in the range. -/
theorem clampI_mem {lo hi : Int} (h : lo ≤ hi) (x : Int) : lo ≤ clampI lo hi x ∧ clampI lo hi x ≤ hi := by
  unfold clampI
  split_ifs <;> omega

theorem clampI_of_mem {lo hi x : Int} (hlo : lo ≤ x) (hhi : x ≤ hi) : clampI lo hi x = x := by
  rw [clampI, if_neg (by omega), if_neg (by omega)]

theorem clampI_of_lt {lo x : Int} (hi : Int) (hlt : x < lo) : clampI lo hi x = lo := if_pos hlt

theorem clampI_of_gt {lo hi x : Int} (h : lo ≤ hi) (hgt : hi < x) : clampI lo hi x = hi := by
  rw [clampI, if_neg (by omega), if_pos hgt]

/-- A signed field's range is not empty: its bounds stand on either side of zero. -/
theorem signed_bounds_le (w : Nat) : -(2 ^ (w - 1) : Int) ≤ 2 ^ (w - 1) - 1 := by
  have hpos : (0 : Int) < 2 ^ (w - 1) := by positivity
  omega

/-- Settles O3: rounding by the remainder against half the divisor, saturation as a clamp to the bounds of the field. -/
theorem roundingAndSaturation : Obligations.RoundingAndSaturation := by
  refine ⟨fun x k => ?_, fun x w _ => ?_⟩
  · have hd : 0 < 2 ^ k := by positivity
    have hnear := two_mul_abs_roundEven_mul_sub_le x hd
    have heven := roundEven_even_of_half x hd
    push_cast at hnear heven
    exact ⟨hnear, heven⟩
  · have hle := signed_bounds_le w
    obtain ⟨hlo, hhi⟩ := clampI_mem hle x
    exact ⟨hlo, hhi, clampI_of_mem, clampI_of_lt _, clampI_of_gt hle⟩

end Sys2Proof.Machine
end

section
/-! Consecutive words of a protected memory and its reads, and how a descriptor enters a queue and its slot goes back (R255, R262, R267). -/

namespace Sys2Proof.Machine.State

/-! ### Consecutive words of a memory -/

theorem memWrite_eq (s : State) (k : MemSel) (a : Nat) (w : Word) :
    s.memWrite k a w = { s with mem := (s.memWrite k a w).mem, writeBacks := (s.memWrite k a w).writeBacks } := by
  unfold memWrite
  dsimp only
  split <;> rfl

theorem memWrites_eq (s : State) (k : MemSel) (a : Nat) (l : List Word) :
    s.memWrites k a l = { s with mem := (s.memWrites k a l).mem, writeBacks := (s.memWrites k a l).writeBacks } := by
  induction l generalizing s a with
  | nil => rfl
  | cons w t ih => rw [memWrites, ih, memWrite_eq]

/-- A word among consecutive words written reads as written. -/
theorem cell_memWrites_inside (s : State) (k : MemSel) (a : Nat) (l : List Word) {i : Nat} (h : i < l.length) :
    (s.memWrites k a l).cell k (a + i) = ⟨l[i], 0, false⟩ := by
  induction l generalizing s a i with
  | nil => exact absurd h (Nat.not_lt_zero i)
  | cons w t ih =>
    rw [memWrites]
    cases i with
    | zero => rw [cell_memWrites_outside _ _ _ _ _ _ (by omega), cell_memWrite]; simp
    | succ i => simpa [Nat.add_assoc, Nat.add_comm 1] using ih (s.memWrite k a w) (a + 1) (Nat.lt_of_succ_lt_succ h)

/-- A clean cell is delivered as it stands, and the read leaves no trace (R255). -/
theorem memRead_of_clean (s : State) (k : MemSel) {a : Nat} (src : Nat) {w : Word} (h : s.cell k a = ⟨w, 0, false⟩) :
    s.memRead k a src = (⟨w, false⟩, s) := by
  have hzero : rsDecode 0#64 = .clean := by decide +kernel
  simp [memRead, h, hzero]

theorem countUnc_eq (s : State) (k : MemSel) (a : Nat) : s.countUnc k a = { s with regs := (s.countUnc k a).regs } := by
  unfold countUnc
  split
  · exact inc_eq _ _ _
  · exact inc_eq _ _ _
  · rfl

/-- A read of a protected word, whatever it finds, changes counts, the word's poison mark, the intake and the write-backs alone (R255). -/
theorem memRead_eq (s : State) (k : MemSel) (a src : Nat) :
    (s.memRead k a src).2 = { s with
      regs := (s.memRead k a src).2.regs, mem := (s.memRead k a src).2.mem, fc := (s.memRead k a src).2.fc
      writeBacks := (s.memRead k a src).2.writeBacks } := by
  unfold memRead
  dsimp only
  split
  · rw [countUnc_eq]
  · split
    · rfl
    · rw [report_eq, countCorr_eq]
    · rw [countUnc_eq]; rfl

/-! ### Descriptor slots on their way -/

/-- The move just begun is among those on their way, and has not ended. -/
theorem moveDesc_mem (s : State) (st slot : Nat) (back : Bool) :
    ∃ v ∈ (s.moveDesc st slot back).descMoves, v.store = st ∧ v.slot = slot ∧ v.back = back ∧ s.cyc < v.until_ := by
  have hfrom : ∀ (l : List DescMove) (c : Nat), c ≤ l.foldl (fun t m => if m.store = st then Nat.max t m.until_ else t) c := by
    intro l
    induction l with
    | nil => exact fun c => Nat.le_refl c
    | cons m l ih =>
      intro c
      refine le_trans ?_ (ih _)
      dsimp only
      split
      · exact Nat.le_max_left _ _
      · exact Nat.le_refl c
  refine ⟨_, List.mem_append_right _ (List.mem_singleton.mpr rfl), rfl, rfl, rfl, ?_⟩
  exact Nat.lt_of_le_of_lt (hfrom _ s.cyc) (Nat.lt_add_of_pos_right Nat.two_pos)

/-- A move that has not ended stays when another begins. -/
theorem mem_moveDesc_of_mem {s : State} {v : DescMove} (st slot : Nat) (back : Bool) (hv : v ∈ s.descMoves) (hc : s.cyc < v.until_) :
    v ∈ (s.moveDesc st slot back).descMoves :=
  List.mem_append_left _ (List.mem_filter.mpr ⟨hv, by simpa using hc⟩)

/-- The slots of discarded descriptors on their way back to their store, and the words of those at a CAPTURE tap gone (R267, R399). -/
def returnSlots (s : State) (store : Nat) (ds : List Desc) : State :=
  ds.foldl (fun s d => (s.moveDesc store d.slot.toNat true).capLeave d) s

theorem capLeave_eq (s : State) (d : Desc) :
    s.capLeave d = { s with rpl := { s.rpl with capTap := (s.capLeave d).rpl.capTap } } := by
  unfold capLeave
  split <;> rfl

theorem returnSlots_eq (s : State) (store : Nat) (ds : List Desc) :
    s.returnSlots store ds = { s with
      descMoves := (s.returnSlots store ds).descMoves
      rpl := { s.rpl with capTap := (s.returnSlots store ds).rpl.capTap } } := by
  induction ds generalizing s with
  | nil => rfl
  | cons d ds ih =>
    have hstep : s.returnSlots store (d :: ds) = ((s.moveDesc store d.slot.toNat true).capLeave d).returnSlots store ds := rfl
    rw [hstep, ih, capLeave_eq]
    rfl

/-- Descriptors that read no CAPTURE tap leave the taps alone. -/
theorem returnSlots_rpl {ds : List Desc} (h : ∀ d ∈ ds, d.srcSpace ≠ 6) (s : State) (store : Nat) :
    (s.returnSlots store ds).rpl = s.rpl := by
  induction ds generalizing s with
  | nil => rfl
  | cons d ds ih =>
    have hstep : s.returnSlots store (d :: ds) = ((s.moveDesc store d.slot.toNat true).capLeave d).returnSlots store ds := rfl
    rw [hstep, ih fun x hx => h x (List.mem_cons_of_mem d hx), capLeave, if_neg (h d List.mem_cons_self)]
    rfl

theorem mem_returnSlots_of_mem {s : State} {v : DescMove} (store : Nat) (ds : List Desc) (hv : v ∈ s.descMoves)
    (hc : s.cyc < v.until_) : v ∈ (s.returnSlots store ds).descMoves := by
  induction ds generalizing s with
  | nil => exact hv
  | cons d ds ih =>
    refine @ih ((s.moveDesc store d.slot.toNat true).capLeave d) ?_ ?_
    · rw [capLeave_eq]; exact mem_moveDesc_of_mem store _ true hv hc
    · rw [capLeave_eq]; exact hc

/-- Every discarded descriptor's slot is on its way back. -/
theorem returnSlots_moves (s : State) (store : Nat) (ds : List Desc) {d : Desc} (hd : d ∈ ds) :
    ∃ v ∈ (s.returnSlots store ds).descMoves, v.store = store ∧ v.slot = d.slot.toNat ∧ v.back = true ∧ s.cyc < v.until_ := by
  induction ds generalizing s with
  | nil => exact absurd hd List.not_mem_nil
  | cons x ds ih =>
    have hcyc : ((s.moveDesc store x.slot.toNat true).capLeave x).cyc = s.cyc := by rw [capLeave_eq]; rfl
    rcases List.mem_cons.mp hd with rfl | hd
    · obtain ⟨v, hv, hst, hsl, hback, hc⟩ := moveDesc_mem s store d.slot.toNat true
      have hleft : v ∈ ((s.moveDesc store d.slot.toNat true).capLeave d).descMoves := by rw [capLeave_eq]; exact hv
      exact ⟨v, mem_returnSlots_of_mem store ds hleft (by rw [hcyc]; exact hc), hst, hsl, hback, hc⟩
    · have := ih ((s.moveDesc store x.slot.toNat true).capLeave x) hd
      rwa [hcyc] at this

/-! ### A descriptor enters a queue (R262) -/

theorem atD_mem_or {α : Type} (l : List α) (i : Nat) (d : α) : atD l i d ∈ l ∨ atD l i d = d := by
  induction l generalizing i with
  | nil => exact .inr rfl
  | cons x t ih =>
    cases i with
    | zero => exact .inl List.mem_cons_self
    | succ i => exact (ih i).imp_left (List.mem_cons_of_mem x)

/-- The slot taken is one of the store's. -/
theorem takeSlot_lt (s : State) (st : Nat) : (s.takeSlot st).1 < 1024 := by
  have hslots : descSlots st ≤ 1024 := by unfold descSlots; split <;> omega
  have hatD : ∀ i, atD ((List.range (descSlots st)).filter (fun k => !(s.usedSlots st).contains k)) i 0 < 1024 := by
    intro i
    rcases atD_mem_or ((List.range (descSlots st)).filter (fun k => !(s.usedSlots st).contains k)) i 0 with h | h
    · exact Nat.lt_of_lt_of_le (List.mem_range.mp (List.mem_filter.mp h).1) hslots
    · rw [h]; omega
  exact hatD _

/-- The place in its store that a descriptor queued next would take. -/
def nextSlot (s : State) (n : Nat) : BitVec 10 := BitVec.ofNat 10 (s.takeSlot (descStore n)).1

theorem nextSlot_toNat (s : State) (n : Nat) : (s.nextSlot n).toNat = (s.takeSlot (descStore n)).1 := by
  rw [nextSlot, BitVec.toNat_ofNat, Nat.mod_eq_of_lt (takeSlot_lt s _)]

theorem enqueue_eq (s : State) (n : Nat) (d : Desc) :
    s.enqueue n d = { s with
      lighters := (s.enqueue n d).lighters, mem := (s.enqueue n d).mem, writeBacks := (s.enqueue n d).writeBacks
      descMoves := (s.enqueue n d).descMoves, freeCtr := (s.enqueue n d).freeCtr } := by
  unfold enqueue
  dsimp only
  rw [memWrites_eq]
  rfl

theorem enqueue_lighter_same (s : State) (n : Nat) (d : Desc) :
    (s.enqueue n d).lighter n = { s.lighter n with
      queue := (s.lighter n).queue ++ [{ d with slot := s.nextSlot n }]
      st := if (s.lighter n).st = .idle then .running else (s.lighter n).st } := by
  unfold enqueue
  dsimp only
  rw [memWrites_eq]
  exact setLighter_lighter_same _ _ _

theorem enqueue_lighter_ne (s : State) {n j : Nat} (d : Desc) (h : j ≠ n) : (s.enqueue n d).lighter j = s.lighter j := by
  unfold enqueue
  dsimp only
  rw [memWrites_eq]
  exact setLighter_lighter_ne _ _ h

theorem enqueue_mem (s : State) (n : Nat) (d : Desc) :
    (s.enqueue n d).mem = ((s.takeSlot (descStore n)).2.memWrites .desc
      (4096 * descStore n + 4 * (s.nextSlot n).toNat) [d.w0, d.w1, d.w2, d.w3]).mem := by
  simp only [nextSlot_toNat, enqueue, moveDesc, setLighter_mem]

theorem enqueue_cell (s : State) (n : Nat) (d : Desc) (k : MemSel) (a : Nat) :
    (s.enqueue n d).cell k a = ((s.takeSlot (descStore n)).2.memWrites .desc
      (4096 * descStore n + 4 * (s.nextSlot n).toNat) [d.w0, d.w1, d.w2, d.w3]).cell k a := by
  rw [cell, enqueue_mem, cell]

/-- Only the descriptor store is written. -/
theorem enqueue_cell_ne (s : State) (n : Nat) (d : Desc) {k : MemSel} (a : Nat) (h : k ≠ .desc) : (s.enqueue n d).cell k a = s.cell k a := by
  rw [enqueue_cell, cell_memWrites_outside _ _ _ _ _ _ (fun hk => h hk.1)]
  rfl

/-- The slot holds the four words of the descriptor. -/
theorem enqueue_words (s : State) (n : Nat) (d : Desc) {i : Nat} (h : i < 4) :
    (s.enqueue n d).memPeek .desc (4096 * descStore n + 4 * (s.nextSlot n).toNat + i) = [d.w0, d.w1, d.w2, d.w3][i]?.getD 0 := by
  have hi : i < [d.w0, d.w1, d.w2, d.w3].length := h
  rw [memPeek, enqueue_cell, cell_memWrites_inside _ _ _ _ hi, List.getElem?_eq_getElem hi]
  rfl

theorem enqueue_moves (s : State) (n : Nat) (d : Desc) :
    ∃ v ∈ (s.enqueue n d).descMoves, v.store = descStore n ∧ v.slot = (s.nextSlot n).toNat ∧ v.back = false ∧ s.cyc < v.until_ := by
  obtain ⟨t, ht, hcyc⟩ : ∃ t : State, s.enqueue n d = t.moveDesc (descStore n) (s.takeSlot (descStore n)).1 false ∧ t.cyc = s.cyc :=
    ⟨_, rfl, by rw [setLighter_cyc, memWrites_eq]; rfl⟩
  rw [ht, nextSlot_toNat, ← hcyc]
  exact moveDesc_mem t _ _ _

end Sys2Proof.Machine.State
end

section
/-! What the fetch of an engine instruction leaves to it, and the issue of a lighter instruction (R213, R244, R255). -/

namespace Sys2Proof.Machine.State

/-! ### What a fetch leaves to its instruction -/

/-- The fetch from berth `b` of engine `e` has left `q` of `s`: its issue is noted, a corrected read may have been counted and reported, and the rest is as it was (R213, R255). -/
structure Fetches (s q : State) (e : EngId) (b : BerthId) : Prop where
  frame : q = { s with engines := q.engines, regs := q.regs, fc := q.fc, writeBacks := q.writeBacks }
  own : q.engine e.toNat = { s.engine e.toNat with
    issuedBerth := b, issuedPc := (s.engine e.toNat).live.pc, issuedProg := (s.engine e.toNat).live.prog
    usedAt := some (s.engCyc e.toNat) }
  others : ∀ n, n ≠ e.toNat → q.engine n = s.engine n
  regs : ∀ a, a ≠ F.fcQueueDrop0.addr → a ≠ (F.quayMemCorrCnt (e.toNat / 16)).addr → q.reg a = s.reg a
  intake : s.intakeOnly q
  stands : (s.engine e.toNat).running = some b ∧ (s.engine e.toNat).walk = none

theorem fetched_fetches {s : State} {i : Instr} {e : EngId} {w : Word} {b : BerthId} (hi : encode i = some (e, w))
    (h : s.standsAt i b = true) : Fetches s (s.fetched e.toNat b) e b := by
  obtain ⟨-, hrun, hwalk, -, -⟩ := fetched_facts hi h
  have hreg := fun a h1 h2 => fetched_reg (a := a) hi h h1 h2
  have hf := fetched_eq hi h
  generalize s.fetched e.toNat b = q at hf hreg
  refine ⟨?_, ?_, ?_, hreg, ?_, hrun, hwalk⟩
  · rw [hf]
  · rw [hf]; exact setEngine_engine_same _ _ _
  · intro n hn
    rw [hf]; exact setEngine_engine_ne _ _ hn
  · rw [intakeOnly, hf]

/-- The rules of a descriptor read the image alone (R260, R262). -/
theorem descOk_img {s t : State} (h : t.img = s.img) (n : Nat) (d : Desc) : t.descOk n d = s.descOk n d := by
  simp only [descOk, srcOk, dstOk, homeOk, homeQuay, planN, plan, urgentBerth, berthKind, berthCfg, berths, engImage, h]

/-- The channel a number names is the image's matter (R244). -/
theorem ltrOf_img {s t : State} (h : t.img = s.img) : t.ltrOf = s.ltrOf := by
  funext e w
  simp only [ltrOf, h]

namespace Fetches

variable {s q : State} {e : EngId} {b : BerthId} (hq : Fetches s q e b)
include hq

theorem live : (q.engine e.toNat).live = (s.engine e.toNat).live := by rw [hq.own]
theorem img : q.img = s.img := by rw [hq.frame]
theorem rpl : q.rpl = s.rpl := by rw [hq.frame]
theorem cyc : q.cyc = s.cyc := by rw [hq.frame]
theorem mem : q.mem = s.mem := by rw [hq.frame]
theorem lighter (n : Nat) : q.lighter n = s.lighter n := by rw [hq.frame]; rfl
theorem cell (k : MemSel) (a : Nat) : q.cell k a = s.cell k a := by rw [State.cell, hq.mem]; rfl
theorem ltrStat (m : Nat) : q.ltrStat m = s.ltrStat m := by
  simp only [State.ltrStat, State.ltrRemaining, hq.lighter, hq.rpl]

theorem regsKept : s.regsKept q (issueRegs e.toNat) := by
  intro a ha
  simp only [issueRegs, List.mem_cons, List.not_mem_nil, or_false, not_or] at ha
  exact hq.regs a ha.2.1 ha.1

/-- The selection of band paths of the replay plan lies outside the registers a fetch counts in. -/
theorem selected : q.selected = s.selected := by
  have hplan : ∀ a, a < 259 → q.reg a = s.reg a := fun a ha =>
    hq.regs a (by simp only [F.fcQueueDrop0]; omega) (by simp only [F.quayMemCorrCnt]; omega)
  have hslot : ∀ k ∈ List.range 8, q.selSlot k = s.selSlot k := by
    intro k hk
    have hk := List.mem_range.mp hk
    simp only [selSlot, hplan _ (show (F.rplSelSlotA (k / 4)).addr < 259 by simp only [F.rplSelSlotA]; omega)]
  have hset : q.rd F.rplCfgSetN = s.rd F.rplCfgSetN := by rw [rd, rd, hplan _ (by decide)]
  rw [State.selected, State.selected, hset, List.filterMap_congr hslot]

theorem capChannel (n : Nat) : q.capChannel n = s.capChannel n := by
  rw [State.capChannel, State.capChannel, selIndex, selIndex, hq.selected]

/-- An effect on the live task of its engine alone is an issue without flags. -/
theorem issuedAs {t : State} {x : Task} (ht : t = { q with engines := t.engines })
    (hne : ∀ n, n ≠ e.toNat → t.engine n = q.engine n)
    (hen : t.engine e.toNat = { q.engine e.toNat with live := { x with pc := (s.engine e.toNat).live.pc + 1 } }) :
    s.issuedAs t e x false false := by
  have hreg : ∀ a, t.reg a = q.reg a := fun a => by rw [ht]; rfl
  have hstat : ∀ a, a = (F.engStatSatAny e.toNat).addr → t.reg a = s.reg a := by
    rintro a rfl
    rw [hreg, hq.regs _ (by simp only [F.engStatSatAny, F.fcQueueDrop0]; omega)
      (by simp only [F.engStatSatAny, F.quayMemCorrCnt]; omega)]
  rw [hq.own] at hen
  refine ⟨by rw [hen, Bool.or_false, Bool.or_false], by rw [hen]; exact hq.stands.1, ?_, ?_, ?_, ?_, ?_, ?_⟩
  · rw [Bool.or_false, rdB, rdB, rd, rd, hstat (F.engStatSatAny e.toNat).addr rfl]
  · rw [Bool.or_false, rdB, rdB, rd, rd, hstat (F.engStatAccsatAny e.toNat).addr rfl]
  · rw [ht, hq.frame]
  · intro n hn
    rw [hne n hn, hq.others n hn]
  · intro a ha
    rw [hreg, hq.regsKept a ha]
  · rw [intakeOnly, ht, hq.intake]

end Fetches

/-- Where its engine stands at it, a lighter instruction on an owned channel acts on the state after its fetch, and PC advances. -/
theorem issue_ltrInstr {s : State} {i : Instr} {e : EngId} {w : Word} {b : BerthId} {ch : BitVec 5} {m : Nat}
    (hi : encode i = some (e, w)) (h : s.standsAt i b = true)
    (hm : s.ltrOf e.toNat ((s.engine e.toNat).live.getW ch.toNat) = some m) (act : State → Nat → State)
    (hwalk : ∀ q, (q.engine e.toNat).walk = none → ((act q m).engine e.toNat).walk = none) :
    ∃ q, Fetches s q e b ∧ s.issue e.toNat w (fun s => s.ltrInstr e.toNat ch act) = (act q m).stepPc e.toNat := by
  have hq := fetched_fetches hi h
  refine ⟨_, hq, ?_⟩
  have hact : (s.fetched e.toNat b).ltrInstr e.toNat ch act = (act (s.fetched e.toNat b) m).stepPc e.toNat := by
    simp only [ltrInstr, hq.live, ltrOf_img hq.img, hm]
  rw [issue_stands _ hi h]
  simp only [hact, stepPc, modTask, setEngine_engine_same, hwalk _ (by rw [hq.own]; exact hq.stands.2), Option.isSome_none,
    Bool.false_eq_true, if_false]

/-! ### The predicate of a lighter instruction -/

/-- The end of LQUE, LABORT and LRES: the predicate is written and PC advances. -/
def predDone (s : State) (e : Nat) (f : T3) (x : Bool) : State := (s.setPred e f x).stepPc e

theorem setP_pc (t : Task) (n : Nat) (x : Bool) : (t.setP n x).pc = t.pc := by
  unfold Task.setP
  split <;> rfl

theorem setW_pc (t : Task) (r : Nat) (v : Word) : (t.setW r v).pc = t.pc := by
  unfold Task.setW
  split <;> rfl

theorem predDone_eq (s : State) (e : Nat) (f : T3) (x : Bool) :
    s.predDone e f x = { s with engines := (s.predDone e f x).engines } := rfl

@[simp] theorem predDone_lighter (s : State) (e : Nat) (f : T3) (x : Bool) (j : Nat) : (s.predDone e f x).lighter j = s.lighter j := rfl
@[simp] theorem predDone_cell (s : State) (e : Nat) (f : T3) (x : Bool) (k : MemSel) (a : Nat) : (s.predDone e f x).cell k a = s.cell k a := rfl
@[simp] theorem predDone_reg (s : State) (e : Nat) (f : T3) (x : Bool) (a : Nat) : (s.predDone e f x).reg a = s.reg a := rfl

@[simp] theorem predDone_memPeek (s : State) (e : Nat) (f : T3) (x : Bool) (k : MemSel) (a : Nat) :
    (s.predDone e f x).memPeek k a = s.memPeek k a := rfl
@[simp] theorem predDone_descMoves (s : State) (e : Nat) (f : T3) (x : Bool) : (s.predDone e f x).descMoves = s.descMoves := rfl

theorem predDone_engine_same (s : State) (e : Nat) (f : T3) (x : Bool) :
    (s.predDone e f x).engine e = { s.engine e with
      live := { (s.engine e).live.setP (f.fn.toNat % 8) x with pc := (s.engine e).live.pc + 1 } } := by
  simp only [predDone, setPred, stepPc, modTask, setEngine_engine_same, setP_pc]

theorem predDone_engine_ne (s : State) {e n : Nat} (f : T3) (x : Bool) (h : n ≠ e) :
    (s.predDone e f x).engine n = s.engine n := by
  simp only [predDone, setPred, stepPc, modTask, setEngine_engine_ne _ _ h]

/-- LQUE, LABORT and LRES: their effect on the channel, then the predicate it answers and PC. -/
theorem issue_predInstr {s : State} {i : Instr} {e : EngId} {w : Word} {b : BerthId} {ch : BitVec 5} {m : Nat}
    (hi : encode i = some (e, w)) (h : s.standsAt i b = true) (f : T3)
    (hm : s.ltrOf e.toNat ((s.engine e.toNat).live.getW ch.toNat) = some m) (g : State → Nat → Bool × State)
    (hg : ∀ q, (g q m).2.engines = q.engines) :
    ∃ q, Fetches s q e b ∧
      s.issue e.toNat w (fun s => s.ltrInstr e.toNat ch (fun s n => (g s n).2.setPred e.toNat f (g s n).1)) =
        (g q m).2.predDone e.toNat f (g q m).1 := by
  refine issue_ltrInstr hi h hm _ fun q hwalk => ?_
  have heng : (g q m).2.engine e.toNat = q.engine e.toNat := by simp only [engine, hg]
  simpa only [setPred, modTask, setEngine_engine_same, heng] using hwalk

namespace Fetches

variable {s q r : State} {e : EngId} {b : BerthId} (hq : Fetches s q e b) (hr : r.engines = q.engines)
include hq hr

theorem issuedTo (f : T3) (x : Bool) :
    s.issuedTo (r.predDone e.toNat f x) e b { s.engine e.toNat with
      live := { (s.engine e.toNat).live.setP (f.fn.toNat % 8) x with pc := (s.engine e.toNat).live.pc + 1 } } := by
  have heng : r.engine e.toNat = q.engine e.toNat := by simp only [engine, hr]
  simp only [State.issuedTo, predDone_engine_same, heng, hq.own]

theorem predLive (f : T3) (x : Bool) :
    ((r.predDone e.toNat f x).engine e.toNat).live =
      { (s.engine e.toNat).live.setP (f.fn.toNat % 8) x with pc := (s.engine e.toNat).live.pc + 1 } := by
  rw [hq.issuedTo hr f x]

theorem otherEngines (f : T3) (x : Bool) : s.otherEngines (r.predDone e.toNat f x) e.toNat := by
  intro n hn
  rw [predDone_engine_ne _ _ _ hn, ← hq.others n hn]
  simp only [engine, hr]

end Fetches

end Sys2Proof.Machine.State
end

section
/-! What LABORT, LRES and LQUE do to their channel (R262, R267, R399, R401). -/

namespace Sys2Proof.Machine.State

/-! ### What LABORT, LRES and LQUE do to their channel -/

theorem ltrResume_eq (s : State) (m : Nat) : (s.ltrResume m).2 = { s with lighters := (s.ltrResume m).2.lighters } := by
  unfold ltrResume
  dsimp only
  split <;> rfl

theorem ltrResume_stopped (s : State) (m : Nat) : (s.ltrResume m).1 = decide ((s.lighter m).st = .stopped) := by
  unfold ltrResume
  dsimp only
  split <;> simp_all

theorem ltrResume_lighter_same (s : State) (m : Nat) :
    (s.ltrResume m).2.lighter m = (if (s.lighter m).st = .stopped then
      { s.lighter m with st := if (s.lighter m).queue.isEmpty then .idle else .running, fault := 0 } else s.lighter m) := by
  unfold ltrResume
  dsimp only
  split
  · exact setLighter_lighter_same _ _ _
  · rfl

theorem ltrResume_lighter_ne (s : State) {m j : Nat} (h : j ≠ m) : (s.ltrResume m).2.lighter j = s.lighter j := by
  unfold ltrResume
  dsimp only
  split
  · exact setLighter_lighter_ne _ _ h
  · rfl

/-- An aborted channel: its queue discarded, idle, without a fault (R267). -/
def emptied (l : Lighter) : Lighter :=
  { l with st := .idle, queue := [], moved := 0, started := false, srcPages := [], dstPages := [], buf := [], fault := 0 }

/-- The channel copies a checkpoint (R401). -/
def copies (s : State) (m : Nat) : Bool := m == 516 && s.rpl.copying.isSome

/-- The channel emptied and its slots on their way back to the store. -/
def discarded (s : State) (m : Nat) : State :=
  (s.setLighter m (emptied (s.lighter m))).returnSlots (descStore m) (s.lighter m).queue

theorem discarded_eq (s : State) (m : Nat) :
    s.discarded m = { s with
      lighters := (s.setLighter m (emptied (s.lighter m))).lighters
      descMoves := (s.discarded m).descMoves
      rpl := { s.rpl with capTap := (s.discarded m).rpl.capTap } } := by
  unfold discarded
  rw [returnSlots_eq]
  rfl

theorem discarded_copies (s : State) (m : Nat) : (s.discarded m).copies m = s.copies m := by
  rw [discarded_eq]; rfl

/-- The state of an abort before a waiting group comes forward: a copy in progress is abandoned too (R401). -/
def abandoned (s : State) (m : Nat) : State :=
  { s.discarded m with rpl := { (s.discarded m).rpl with copying := if s.copies m then none else s.rpl.copying } }

theorem abandoned_eq (s : State) (m : Nat) :
    s.abandoned m = { s with
      lighters := (s.setLighter m (emptied (s.lighter m))).lighters
      descMoves := (s.abandoned m).descMoves
      rpl := { s.rpl with capTap := (s.abandoned m).rpl.capTap, copying := if s.copies m then none else s.rpl.copying } } := by
  unfold abandoned
  rw [discarded_eq]

theorem ltrAbort_eq (s : State) (m : Nat) :
    s.ltrAbort m = (s.copies m || !(s.lighter m).queue.isEmpty,
      if (s.lighter m).queue.isEmpty then s.abandoned m else (s.abandoned m).capFeed m) := by
  have hdef : s.ltrAbort m = ((s.discarded m).copies m || !(s.lighter m).queue.isEmpty,
      let t := if (s.discarded m).copies m then { s.discarded m with rpl := { (s.discarded m).rpl with copying := none } } else s.discarded m
      if (s.lighter m).queue.isEmpty then t else t.capFeed m) := rfl
  have hkept : (s.discarded m).rpl.copying = s.rpl.copying := by rw [discarded_eq]
  have hcopy : (if s.copies m then { s.discarded m with rpl := { (s.discarded m).rpl with copying := none } } else s.discarded m) =
      s.abandoned m := by
    unfold abandoned
    cases s.copies m
    · rw [if_neg Bool.false_ne_true, if_neg Bool.false_ne_true, ← hkept]
    · rfl
  rw [hdef, discarded_copies]
  dsimp only
  rw [hcopy]

/-- No group comes forward where none waits for the channel. -/
theorem capFeed_of_none {s : State} {m : Nat} (h : s.rpl.capWait.find? (fun g => s.capChannel g.bp.toNat == m) = none) :
    s.capFeed m = s := by
  unfold capFeed
  rw [h]
  exact ite_self _

/-- The group that waits comes forward to a channel with an empty queue, by a descriptor of its own (R399). -/
theorem capFeed_lighter_of_some {s : State} {m : Nat} {g : CapGroup}
    (h : s.rpl.capWait.find? (fun g => s.capChannel g.bp.toNat == m) = some g) (hq : (s.lighter m).queue = []) (hst : (s.lighter m).st = .idle) :
    ((s.capFeed m).lighter m).st = .running ∧
    ∃ slot, ((s.capFeed m).lighter m).queue = [{ devDesc 6 g.bp.toNat 0 4 0 g.addr 19 0 1 with slot := slot }] := by
  unfold capFeed
  rw [if_neg (by simp [hq]), h]
  dsimp only
  rw [enqueue_lighter_same]
  have hl : ∀ (r : Replay) (l : List Word), ((({ s with rpl := r } : State).setCapWords g.bp.toNat l).lighter m) = s.lighter m := fun _ _ => rfl
  simp only [hl, hq, hst, if_true, List.nil_append]
  exact ⟨trivial, _, rfl⟩

/-- LQUE of four clean words: queued where there is room and the descriptor is well formed, else refused without a trace (R262). -/
theorem queueDesc_of_clean {s : State} {e n x : Nat} {w0 w1 w2 w3 : Word} {d : Desc}
    (hd : d = ⟨w0, w1, w2, w3, (s.engine e).live.xbase, BitVec.ofNat 8 e, 0, false⟩) (hx : x < 3840)
    (h0 : s.cell .dmem (16384 * e + 4 * x) = ⟨w0, 0, false⟩) (h1 : s.cell .dmem (16384 * e + 4 * x + 1) = ⟨w1, 0, false⟩)
    (h2 : s.cell .dmem (16384 * e + 4 * x + 2) = ⟨w2, 0, false⟩) (h3 : s.cell .dmem (16384 * e + 4 * x + 3) = ⟨w3, 0, false⟩) :
    s.queueDesc e n x = if 32 ≤ (s.lighter n).queue.length || !s.descOk n d then (false, s) else (true, s.enqueue n d) := by
  simp only [hd, queueDesc, if_neg (Nat.not_le.mpr hx), Nat.add_zero, memRead_of_clean _ _ _ h0, memRead_of_clean _ _ _ h1,
    memRead_of_clean _ _ _ h2, memRead_of_clean _ _ _ h3, Bool.or_self, Bool.false_eq_true, if_false]

end Sys2Proof.Machine.State
end

section
/-! LQUE, LSTAT, LABORT and LRES where their engine stands at them (R244, R262, R266, R267). -/

namespace Sys2Proof.Machine.State

theorem abandoned_lighter_same (s : State) (m : Nat) : (s.abandoned m).lighter m = emptied (s.lighter m) := by
  rw [abandoned_eq]
  exact setLighter_lighter_same _ _ _

theorem abandoned_lighter_ne (s : State) {m j : Nat} (h : j ≠ m) : (s.abandoned m).lighter j = s.lighter j := by
  rw [abandoned_eq]
  exact setLighter_lighter_ne _ _ h

theorem abandoned_rpl {s : State} {m : Nat} (h : ∀ d ∈ (s.lighter m).queue, d.srcSpace ≠ 6) :
    (s.abandoned m).rpl = { s.rpl with copying := if s.copies m then none else s.rpl.copying } := by
  have hrpl : (s.discarded m).rpl = s.rpl := by rw [discarded, returnSlots_rpl h]; rfl
  rw [abandoned, hrpl]

theorem abandoned_moves (s : State) (m : Nat) {d : Desc} (hd : d ∈ (s.lighter m).queue) :
    ∃ v ∈ (s.abandoned m).descMoves, v.store = descStore m ∧ v.slot = d.slot.toNat ∧ v.back = true ∧ s.cyc < v.until_ :=
  returnSlots_moves (s.setLighter m (emptied (s.lighter m))) (descStore m) _ hd

theorem capFeed_engines (s : State) (m : Nat) : (s.capFeed m).engines = s.engines := by
  unfold capFeed
  split
  · rfl
  · split
    · rfl
    · rw [enqueue_eq]; rfl

theorem ltrAbort_engines (s : State) (m : Nat) : (s.ltrAbort m).2.engines = s.engines := by
  rw [ltrAbort_eq]
  dsimp only
  split
  · rw [abandoned_eq]
  · rw [capFeed_engines, abandoned_eq]

theorem queueDesc_engines (s : State) (e n x : Nat) : (s.queueDesc e n x).2.engines = s.engines := by
  have hread : ∀ (t : State) k a src, (t.memRead k a src).2.engines = t.engines := fun t k a src => by rw [memRead_eq]
  unfold queueDesc
  dsimp only
  split
  · rfl
  · split
    · rw [report_eq]; simp only [hread]
    · split
      · simp only [hread]
      · rw [enqueue_eq]; simp only [hread]

/-! ### The instructions -/

section Instructions

variable {s : State} {e : EngId} {b : BerthId} {f : T3} {m : Nat}

/-- LSTAT: the status word of the channel (R244). -/
theorem lstat_outcome (hm : s.ltrOf e.toNat ((s.engine e.toNat).live.getW f.a.toNat) = some m) (h : s.standsAt (.lstat e f) b = true) :
    ∃ s', exec (.lstat e f) s = .next s' ∧
      s.issuedAs s' e ((s.engine e.toNat).live.setW f.d.toNat (s.ltrStat m)) false false := by
  have hi : encode (.lstat e f) = some (e, encT 0x81 f) := rfl
  obtain ⟨q, hq, hissue⟩ := issue_ltrInstr hi h hm (fun s n => s.modTask e.toNat (fun t => t.setW f.d.toNat (s.ltrStat n)))
    (fun q hwalk => by simpa only [modTask, setEngine_engine_same] using hwalk)
  refine ⟨_, congrArg Host.Outcome.next hissue, hq.issuedAs rfl ?_ ?_⟩
  · intro n hn
    simp only [stepPc, modTask, setEngine_engine_ne _ _ hn]
  · simp only [stepPc, modTask, setEngine_engine_same, hq.ltrStat, setW_pc, hq.live]

/-- What LABORT and LRES may touch: engines, lighters, descriptor slots on their way, the replay record, and what the fetch counts and sends. -/
def lighterFrame (s t : State) : Prop :=
  t = { s with engines := t.engines, lighters := t.lighters, descMoves := t.descMoves, regs := t.regs, fc := t.fc
               writeBacks := t.writeBacks, rpl := t.rpl }

/-- LRES: a stopped channel goes on, any other is left alone (R267). -/
theorem lres_outcome (hm : s.ltrOf e.toNat ((s.engine e.toNat).live.getW f.a.toNat) = some m) (h : s.standsAt (.lres e f) b = true) :
    ∃ s', exec (.lres e f) s = .next s' ∧
      ((∀ j, j ≠ m → s'.lighter j = s.lighter j) ∧ s.otherEngines s' e.toNat ∧ s.regsKept s' (issueRegs e.toNat) ∧ s.lighterFrame s') ∧
      s'.rpl = s.rpl ∧ s'.descMoves = s.descMoves ∧
      s.issuedTo s' e b { s.engine e.toNat with live :=
        { (s.engine e.toNat).live.setP (f.fn.toNat % 8) (decide ((s.lighter m).st = .stopped)) with pc := (s.engine e.toNat).live.pc + 1 } } ∧
      s'.lighter m = (if (s.lighter m).st = .stopped then
        { s.lighter m with st := if (s.lighter m).queue.isEmpty then .idle else .running, fault := 0 } else s.lighter m) := by
  have hi : encode (.lres e f) = some (e, encT 0x83 f) := rfl
  obtain ⟨q, hq, hissue⟩ := issue_predInstr hi h f hm ltrResume (fun q => by rw [ltrResume_eq])
  have heng : (q.ltrResume m).2.engines = q.engines := by rw [ltrResume_eq]
  rw [ltrResume_stopped, hq.lighter] at hissue
  refine ⟨_, congrArg Host.Outcome.next hissue, ⟨?_, hq.otherEngines heng f _, ?_, ?_⟩, ?_, ?_, hq.issuedTo heng f _, ?_⟩
  · intro j hj
    rw [predDone_lighter, ltrResume_lighter_ne q hj, hq.lighter]
  · intro a ha
    rw [predDone_reg, ← hq.regsKept a ha, ltrResume_eq]; rfl
  · rw [lighterFrame, predDone_eq, ltrResume_eq, hq.frame]
  · rw [predDone_eq, ltrResume_eq, hq.frame]
  · rw [predDone_eq, ltrResume_eq, hq.frame]
  · rw [predDone_lighter, ltrResume_lighter_same, hq.lighter]

/-- The group that waits for a channel is the same after the fetch, and after the channel has been abandoned. -/
theorem Fetches.abandoned_waits {q : State} (hq : Fetches s q e b) :
    (q.abandoned m).rpl.capWait.find? (fun g => (q.abandoned m).capChannel g.bp.toNat == m) =
      s.rpl.capWait.find? (fun g => s.capChannel g.bp.toNat == m) := by
  have hcap : ∀ n, (q.abandoned m).capChannel n = s.capChannel n := by
    intro n
    rw [← hq.capChannel n, abandoned_eq]; rfl
  have hwait : (q.abandoned m).rpl.capWait = s.rpl.capWait := by rw [abandoned_eq, hq.frame]
  simp only [hcap, hwait]

/-- LABORT without a waiting group: the channel is idle and empty, its slots go back, a copy it made is abandoned (R267, R401). -/
theorem labort_outcome (hm : s.ltrOf e.toNat ((s.engine e.toNat).live.getW f.a.toNat) = some m) (h : s.standsAt (.labort e f) b = true)
    (hsrc : ∀ d ∈ (s.lighter m).queue, d.srcSpace ≠ 6) (hwaits : s.rpl.capWait.find? (fun g => s.capChannel g.bp.toNat == m) = none) :
    ∃ s', exec (.labort e f) s = .next s' ∧
      ((∀ j, j ≠ m → s'.lighter j = s.lighter j) ∧ s.otherEngines s' e.toNat ∧ s.regsKept s' (issueRegs e.toNat) ∧ s.lighterFrame s') ∧
      s.issuedTo s' e b { s.engine e.toNat with live :=
        { (s.engine e.toNat).live.setP (f.fn.toNat % 8) (s.copies m || !(s.lighter m).queue.isEmpty) with pc := (s.engine e.toNat).live.pc + 1 } } ∧
      (∀ d ∈ (s.lighter m).queue, ∃ v ∈ s'.descMoves, v.store = descStore m ∧ v.slot = d.slot.toNat ∧ v.back = true ∧ s.cyc < v.until_) ∧
      s'.rpl = { s.rpl with copying := if s.copies m then none else s.rpl.copying } ∧
      (s'.lighter m).queue = [] ∧ (s'.lighter m).st = .idle ∧ (s'.lighter m).fault = 0 ∧ (s'.lighter m).done = (s.lighter m).done := by
  have hi : encode (.labort e f) = some (e, encT 0x82 f) := rfl
  obtain ⟨q, hq, hissue⟩ := issue_predInstr hi h f hm ltrAbort (fun q => ltrAbort_engines q m)
  have hcopies : q.copies m = s.copies m := by rw [copies, copies, hq.rpl]
  rw [ltrAbort_eq, capFeed_of_none (hq.abandoned_waits.trans hwaits), ite_self, hq.lighter, hcopies] at hissue
  have heng : (q.abandoned m).engines = q.engines := by rw [abandoned_eq]
  have hlighter : (q.abandoned m).lighter m = emptied (s.lighter m) := by rw [abandoned_lighter_same, hq.lighter]
  refine ⟨_, congrArg Host.Outcome.next hissue, ⟨?_, hq.otherEngines heng f _, ?_, ?_⟩, hq.issuedTo heng f _, ?_, ?_, ?_⟩
  · intro j hj
    rw [predDone_lighter, abandoned_lighter_ne q hj, hq.lighter]
  · intro a ha
    rw [predDone_reg, ← hq.regsKept a ha, abandoned_eq]; rfl
  · rw [lighterFrame, predDone_eq, abandoned_eq, hq.frame]
  · intro d hd
    rw [← hq.cyc]
    exact abandoned_moves q m (by rwa [hq.lighter])
  · rw [predDone_eq]
    exact (abandoned_rpl (by rwa [hq.lighter])).trans (by rw [hq.rpl, hcopies])
  · rw [predDone_lighter, hlighter]
    exact ⟨rfl, rfl, rfl, rfl⟩

/-- LABORT that discards descriptors where a group waits: the group's own descriptor comes forward (R399). -/
theorem labort_feeds (hm : s.ltrOf e.toNat ((s.engine e.toNat).live.getW f.a.toNat) = some m) (h : s.standsAt (.labort e f) b = true)
    {g : CapGroup} (hwaits : s.rpl.capWait.find? (fun g => s.capChannel g.bp.toNat == m) = some g) (hne : (s.lighter m).queue ≠ []) :
    ∃ s' slot, exec (.labort e f) s = .next s' ∧ (s'.lighter m).st = .running ∧
      (s'.lighter m).queue = [{ devDesc 6 g.bp.toNat 0 4 0 g.addr 19 0 1 with slot := slot }] := by
  have hi : encode (.labort e f) = some (e, encT 0x82 f) := rfl
  obtain ⟨q, hq, hissue⟩ := issue_predInstr hi h f hm ltrAbort (fun q => ltrAbort_engines q m)
  rw [ltrAbort_eq, hq.lighter, if_neg (by rwa [List.isEmpty_iff])] at hissue
  have hlighter : (q.abandoned m).lighter m = emptied (s.lighter m) := by rw [abandoned_lighter_same, hq.lighter]
  obtain ⟨hst, slot, hqueue⟩ := capFeed_lighter_of_some (hq.abandoned_waits.trans hwaits)
    (congrArg Lighter.queue hlighter) (congrArg Lighter.st hlighter)
  exact ⟨_, slot, congrArg Host.Outcome.next hissue, by rw [predDone_lighter, hst], by rw [predDone_lighter, hqueue]⟩

/-- LQUE of four clean words: queued where there is room and the descriptor is well formed, else refused (R262). -/
theorem lque_issued {w0 w1 w2 w3 : Word} {x : Nat} {d : Desc} (hm : s.ltrOf e.toNat ((s.engine e.toNat).live.getW f.b.toNat) = some m)
    (h : s.standsAt (.lque e f) b = true) (hd : d = ⟨w0, w1, w2, w3, (s.engine e.toNat).live.xbase, e, 0, false⟩)
    (hx : x = ((s.engine e.toNat).live.getW f.a.toNat).toNat) (hlt : x < 3840)
    (h0 : s.cell .dmem (16384 * e.toNat + 4 * x) = ⟨w0, 0, false⟩) (h1 : s.cell .dmem (16384 * e.toNat + 4 * x + 1) = ⟨w1, 0, false⟩)
    (h2 : s.cell .dmem (16384 * e.toNat + 4 * x + 2) = ⟨w2, 0, false⟩) (h3 : s.cell .dmem (16384 * e.toNat + 4 * x + 3) = ⟨w3, 0, false⟩) :
    ∃ q, Fetches s q e b ∧ exec (.lque e f) s = .next (if 32 ≤ (s.lighter m).queue.length || !s.descOk m d then
      q.predDone e.toNat f false else (q.enqueue m d).predDone e.toNat f true) := by
  have hi : encode (.lque e f) = some (e, encT 0x80 f) := rfl
  obtain ⟨q, hq, hissue⟩ := issue_predInstr hi h f hm (fun s n => s.queueDesc e.toNat n ((s.engine e.toNat).live.getW f.a.toNat).toNat)
    (fun q => queueDesc_engines q _ _ _)
  have hdq : d = ⟨w0, w1, w2, w3, (q.engine e.toNat).live.xbase, BitVec.ofNat 8 e.toNat, 0, false⟩ := by
    rw [hq.live, BitVec.ofNat_toNat, BitVec.setWidth_eq, hd]
  have hqueue := queueDesc_of_clean (n := m) hdq hlt ((hq.cell _ _).trans h0) ((hq.cell _ _).trans h1) ((hq.cell _ _).trans h2)
    ((hq.cell _ _).trans h3)
  rw [hq.lighter, descOk_img hq.img] at hqueue
  rw [hq.live, ← hx, hqueue] at hissue
  refine ⟨q, hq, congrArg Host.Outcome.next (hissue.trans ?_)⟩
  split <;> rfl

end Instructions

end Sys2Proof.Machine.State

namespace Sys2Proof.Machine

open State

/-- Settles O20: each instruction is its fetch and then its effect on the channel, and what the effect does is read off `ltrAbort`, `ltrResume` and `enqueue`. -/
theorem lighterInstructions : Obligations.LighterInstructions := by
  refine ⟨fun s e b f m => ?_, fun s e b f m w0 w1 w2 w3 => ?_⟩
  · intro n t l p only copying waits hm
    exact ⟨lstat_outcome hm, labort_outcome hm, fun g h => labort_feeds hm h, lres_outcome hm⟩
  · intro n t x l d h hm hx h0 h1 h2 h3
    obtain ⟨q, hq, hexec⟩ := lque_issued (d := d) hm h rfl rfl hx h0 h1 h2 h3
    refine ⟨fun hroom hok => ?_, fun hfull => ?_⟩
    · have hnot : ¬ (decide (32 ≤ (s.lighter m).queue.length) || !s.descOk m d) = true := by simpa [hok] using hroom
      rw [if_neg hnot] at hexec
      have heng : (q.enqueue m d).engines = q.engines := by rw [enqueue_eq]
      have hlighter := enqueue_lighter_same q m d
      rw [hq.lighter] at hlighter
      refine ⟨_, q.nextSlot m, hexec, ?_, ?_, ?_, ?_, hq.predLive heng f _, hq.otherEngines heng f _, ?_, ?_⟩
      · rw [predDone_lighter, hlighter]
      · rw [predDone_lighter, hlighter]
      · intro i hi
        rw [predDone_memPeek]
        exact enqueue_words q m d hi
      · rw [predDone_descMoves, ← hq.cyc]
        exact enqueue_moves q m d
      · intro j hj
        rw [predDone_lighter, enqueue_lighter_ne q d hj, hq.lighter]
      · intro k a hk
        rw [predDone_cell, enqueue_cell_ne q m d a hk, hq.cell]
    · have hyes : (decide (32 ≤ (s.lighter m).queue.length) || !s.descOk m d) = true := by simpa using hfull
      rw [if_pos hyes] at hexec
      exact ⟨_, hexec, fun j => by rw [predDone_lighter, hq.lighter], by rw [predDone_eq, hq.mem], hq.predLive rfl f _, hq.otherEngines rfl f _⟩

end Sys2Proof.Machine
end

section
/-! LOCK_ACK in OFF (R29, R131, R140, R141): the write carries ENABLE 1 on, and barring the band path tells the band paths that name it as their donor. -/

namespace Sys2Proof.Machine

/-- Band path 0 is in OFF with ENABLE 1 and its two credits held. The plan holds band paths 0 and 1, and band path 1 names band path 0 as its donor (its plan words but PRESENT are zero, DONOR_BP too). The limits permit no range, so that the range check of R29 bars band path 0. -/
def lockAckInOff : State :=
  { State.reset with
    boot := { Boot.init with st := .running, locked := true }
    img := { Image.none with plan := ((List.replicate 256 (0 : Word)).set 0 1).set 128 1 }
    thermal := { Thermal.init with ledger := [(1, 2)] }
    regs := [((F.bpProtEnable 0).addr, 1)] }

theorem lockAckInOff_takes :
    lockAckInOff.takes .debug (F.bpProtEnable 0).addr [(F.bpProtLockAck 0, 1)] = true ∧ lockAckInOff.rdB (F.bpProtEnable 0) = true := by
  decide +kernel

/-- The donor is lost to band path 1 by the LOCK_ACK of band path 0. -/
theorem lockAckInOff_losesDonor {t : State} (h : exec (.lockAck .debug 0) lockAckInOff = .next t) : (t.bp 1).prot.donorLost = true := by
  have hrun : (match exec (.lockAck .debug 0) lockAckInOff with | .next t => (t.bp 1).prot.donorLost | _ => false) = true := by
    decide +kernel
  rwa [h] at hrun

/-- Refutes O31: a LOCK_ACK in OFF with ENABLE 1 goes on with the enabling of its band path (R29); where the range check then bars it, the donor is declared lost to the band paths that name it, so that another band path changes. -/
theorem not_protectionWrites : ¬ Obligations.ProtectionWrites := by
  intro h
  obtain ⟨-, -, -, -, -, hack, -⟩ := h lockAckInOff .debug 0
  obtain ⟨t, hexec, hothers, -⟩ := hack lockAckInOff_takes.1 lockAckInOff_takes.2
  have hsame : t.bp 1 = lockAckInOff.bp 1 := hothers 1 (by decide)
  have hlost := lockAckInOff_losesDonor hexec
  rw [hsame] at hlost
  exact absurd hlost (by decide)

end Sys2Proof.Machine
end

section
/-! What one stage of a band path may touch: the parts of a band path that BAND_SAMPLE is judged by, and the stages' rules about them (R17, R38 to R60, R68 to R111). -/

namespace Sys2Proof.Machine

/-- The parts of a band path that stages 5 to 12 read across one another, or leave to the next sample. -/
structure SampleView where
  seq : BitVec 24
  clearLeft : Nat
  validOut : Bool
  gatedOut : Bool
  outWord : Word
  step : Nat
  lastStep : Nat
  gate : GateSt
  ramp : Option Db
  probe : Option Probe
  st : BpSt
  mutedAt : Nat
  bucket : Bucket

/-- The view of a band path. -/
def sampleView (b : Bp) : SampleView :=
  ⟨b.flow.seq, b.flow.clearLeft, b.flow.validOut, b.flow.gatedOut, b.flow.outWord, b.gain.step, b.gain.lastStep, b.gain.gate, b.gain.ramp,
    b.bw.probe, b.prot.st, b.prot.mutedAt, b.prot.bucket⟩
/-- The view without the count of VALID-clear samples, which a source may raise (R60). -/
def sourceView (b : Bp) : SampleView := { sampleView b with clearLeft := 0 }
/-- The view without the probe measurement, which counts its chips (R79). -/
def probeView (b : Bp) : SampleView := { sampleView b with probe := none }
/-- The view without the applied step, which the AGC sets (R98). -/
def stepView (b : Bp) : SampleView := { sampleView b with step := 0 }
/-- The view without the ramp and the state, which RAMP_DONE changes (R101). -/
def rampView (b : Bp) : SampleView := { sampleView b with ramp := none, st := .off }

/-- What the samples of another band path leave of a band path: all that the duty of a donor's watchers does not reach (R131). -/
def service (b : Bp) : BpFlow × BpGain × BpBw × BpMask × BpSt := (b.flow, b.gain, b.bw, b.mask, b.prot.st)

namespace State

/-- What no stage changes: the image, the replay's state, and the cycle and the harbour mode it reads. -/
def setting (s : State) : Image × Nat × Bool × RplSt := (s.img, s.setCyc, s.harbourOf, s.rpl.st)

/-- No band path has changed, nor the setting. -/
structure Quiet (s t : State) : Prop where
  bps : t.bps = s.bps
  setting : t.setting = s.setting

/-- The setting has not changed, and of the other band paths only what watches a donor. -/
structure Beside (n : Nat) (s t : State) : Prop where
  setting : t.setting = s.setting
  others : ∀ m, m ≠ n → service (t.bp m) = service (s.bp m)

/-- Beside that, a projection of the band path itself stands as it was. -/
structure Keeps {α : Type} (p : Bp → α) (n : Nat) (s t : State) : Prop extends Beside n s t where
  own : p (t.bp n) = p (s.bp n)

/-! ### How the relations compose -/

theorem Quiet.refl (s : State) : Quiet s s := ⟨rfl, rfl⟩
theorem Quiet.trans {s t u : State} (h : Quiet s t) (g : Quiet t u) : Quiet s u := ⟨g.bps.trans h.bps, g.setting.trans h.setting⟩
theorem Quiet.bp {s t : State} (h : Quiet s t) (n : Nat) : t.bp n = s.bp n := by rw [State.bp, h.bps]; rfl

theorem Beside.refl (n : Nat) (s : State) : Beside n s s := ⟨rfl, fun _ _ => rfl⟩
theorem Beside.trans {n : Nat} {s t u : State} (h : Beside n s t) (g : Beside n t u) : Beside n s u :=
  ⟨g.setting.trans h.setting, fun m hm => (g.others m hm).trans (h.others m hm)⟩
theorem Beside.setBp (s : State) (n : Nat) (b : Bp) : Beside n s (s.setBp n b) :=
  ⟨rfl, fun _ hm => by rw [setBp_bp_ne _ _ hm]⟩

section
variable {α β : Type} {p : Bp → α} {n : Nat} {s t u : State}

theorem Keeps.refl (p : Bp → α) (n : Nat) (s : State) : Keeps p n s s := ⟨Beside.refl n s, rfl⟩
theorem Keeps.trans (h : Keeps p n s t) (g : Keeps p n t u) : Keeps p n s u := ⟨h.toBeside.trans g.toBeside, g.own.trans h.own⟩
theorem Keeps.map (f : α → β) (h : Keeps p n s t) : Keeps (fun b => f (p b)) n s t := ⟨h.toBeside, congrArg f h.own⟩
theorem Keeps.setBp {b : Bp} (h : p b = p (s.bp n)) : Keeps p n s (s.setBp n b) :=
  ⟨Beside.setBp s n b, by rw [setBp_bp_same]; exact h⟩
theorem Keeps.thenSetBp {b : Bp} (h : Keeps p n s t) (hb : p b = p (t.bp n)) : Keeps p n s (t.setBp n b) := h.trans (Keeps.setBp hb)
theorem Quiet.keeps (h : Quiet s t) : Keeps p n s t := ⟨⟨h.setting, fun m _ => by rw [h.bp]⟩, by rw [h.bp]⟩
theorem Keeps.quiet (h : Keeps p n s t) (g : Quiet t u) : Keeps p n s u := h.trans g.keeps

end

/-! ### What changes no band path -/

theorem Quiet.wr (s : State) (f : Fld) (v : Nat) : Quiet s (s.wr f v) := ⟨rfl, rfl⟩
theorem Quiet.setPort (s : State) (k : Nat) (x : Port) : Quiet s (s.setPort k x) := ⟨rfl, rfl⟩
theorem Quiet.setTap (s : State) (k : Nat) (x : Taps) : Quiet s (s.setTap k x) := ⟨rfl, rfl⟩
theorem Quiet.setCx (s : State) (k : Nat) (x : CxPort) : Quiet s (s.setCx k x) := ⟨rfl, rfl⟩

theorem Quiet.inc (s : State) (a b : Fld) : Quiet s (s.inc a b) := by rw [inc_eq]; exact ⟨rfl, rfl⟩

theorem Quiet.report (s : State) (src kind hint : Nat) (ctx : Word) : Quiet s (s.report src kind hint ctx) := by
  rw [report_eq]; exact ⟨rfl, rfl⟩

theorem Quiet.memRead (s : State) (k : MemSel) (a src : Nat) : Quiet s (s.memRead k a src).2 := by
  rw [memRead_eq]; exact ⟨rfl, rfl⟩

theorem Quiet.memWrite (s : State) (k : MemSel) (a : Nat) (w : Word) : Quiet s (s.memWrite k a w) := by
  rw [memWrite_eq]; exact ⟨rfl, rfl⟩

theorem Quiet.enqueue (s : State) (n : Nat) (d : Desc) : Quiet s (s.enqueue n d) := by
  rw [enqueue_eq]; exact ⟨rfl, rfl⟩

theorem Quiet.countSat (s : State) (n k : Nat) : Quiet s (s.countSat n k) := by
  unfold State.countSat
  dsimp only
  split <;> exact ⟨rfl, rfl⟩

theorem Quiet.narrowed (s : State) (n : Nat) (x : Cplx) (k : Nat) : Quiet s (s.narrowed n x k).2 := by
  unfold State.narrowed
  dsimp only
  split
  · exact Quiet.countSat s n 1
  · exact Quiet.refl s

theorem Quiet.narrowedOut (s : State) (n : Nat) (x : Cplx) (k : Nat) : Quiet s (s.narrowedOut n x k).2 := Quiet.narrowed s n x _

theorem Quiet.readBank (s : State) (n : Nat) (b : Bool) : Quiet s (s.readBank n b).2 :=
  List.foldlRecOn (motive := fun acc : List (Cplx × Bool) × State => Quiet s acc.2) _ _ (Quiet.refl s)
    fun _ h _ _ => h.trans (Quiet.memRead ..)

theorem Quiet.chainSample (s : State) (c : Nat) : Quiet s (s.chainSample c).2 := by
  unfold State.chainSample
  split <;> exact ⟨rfl, rfl⟩

theorem Quiet.rxShift (s : State) (p src : Nat) : Quiet s (s.rxShift p src) := by
  unfold State.rxShift
  dsimp only
  split <;> exact ⟨rfl, rfl⟩

/-! ### Ingress and egress filters -/

theorem Keeps.setDsp (s : State) (n : Nat) (d : BpDsp) : Keeps sampleView n s (s.setDsp n d) := Keeps.setBp rfl

theorem Keeps.ncoSample (s : State) (n c : Nat) : Keeps sampleView n s (s.ncoSample n c).2 := by
  unfold State.ncoSample
  have hx := Quiet.chainSample s c
  generalize s.chainSample c = r at hx ⊢
  obtain ⟨x, s1⟩ := r
  dsimp only
  exact Keeps.quiet (Keeps.thenSetBp hx.keeps (by rfl)) (Quiet.narrowed ..)

theorem Keeps.hbStage (s : State) (n k : Nat) (a b : Cplx) : Keeps sampleView n s (s.hbStage n k a b).2 :=
  (Keeps.setDsp s n _).quiet (Quiet.narrowed ..)

theorem Keeps.ladderSample (s : State) (n c k : Nat) : Keeps sampleView n s (s.ladderSample n c k).2 := by
  induction k generalizing s with
  | zero => exact Keeps.ncoSample s n c
  | succ k ih =>
    rw [State.ladderSample]
    have ha := ih s
    generalize s.ladderSample n c k = r at ha ⊢
    obtain ⟨a, s1⟩ := r
    dsimp only
    have hb := ih s1
    generalize s1.ladderSample n c k = q at hb ⊢
    obtain ⟨b, s2⟩ := q
    exact (ha.trans hb).trans (Keeps.hbStage ..)

theorem Keeps.filterSample (s : State) (n c : Nat) : Keeps sampleView n s (s.filterSample n c).2 := by
  unfold State.filterSample
  have hx := Keeps.ladderSample s n c (s.ladder n - s.halfOf n)
  generalize s.ladderSample n c (s.ladder n - s.halfOf n) = r at hx ⊢
  obtain ⟨x, s1⟩ := r
  dsimp only
  split
  · exact hx
  · exact hx.trans ((Keeps.setDsp s1 n _).quiet (Quiet.narrowed ..))

theorem Keeps.resamplerFeed (s : State) (n c k : Nat) : Keeps sampleView n s (s.resamplerFeed n c k) := by
  induction k generalizing s with
  | zero => exact Keeps.refl _ n s
  | succ k ih =>
    rw [State.resamplerFeed]
    have hx := Keeps.filterSample s n c
    generalize s.filterSample n c = r at hx ⊢
    obtain ⟨x, s1⟩ := r
    exact (hx.trans (Keeps.setDsp s1 n _)).trans (ih _)

theorem Keeps.stageFour (s : State) (n c : Nat) : Keeps sampleView n s (s.stageFour n c).2 := by
  unfold State.stageFour
  split
  · dsimp only
    exact Keeps.quiet (Keeps.thenSetBp (Keeps.resamplerFeed ..) (by rfl)) (Quiet.narrowed ..)
  · exact Keeps.filterSample s n c

theorem Keeps.shapeStep (s : State) (n : Nat) (y : Cplx) : Keeps sampleView n s (s.shapeStep n y).2 := by
  unfold State.shapeStep
  split
  · exact (Keeps.setDsp s n _).quiet (Quiet.narrowedOut ..)
  · exact Keeps.refl _ n s

theorem Quiet.upOutputs (s : State) (n stp : Nat) (l : List Cplx) (p k : Nat) : Quiet s (s.upOutputs n stp l p k).2 := by
  induction k generalizing s p with
  | zero => exact Quiet.refl s
  | succ k ih =>
    rw [State.upOutputs]
    split
    · exact (Quiet.narrowedOut ..).trans (ih _ _)
    · exact Quiet.refl s

theorem Keeps.upStep (s : State) (n : Nat) (z : Cplx) : Keeps sampleView n s (s.upStep n z).2 := by
  unfold State.upStep
  split
  · exact (Quiet.upOutputs ..).keeps.trans (Keeps.setDsp ..)
  · exact Keeps.refl _ n s

theorem Keeps.ehbStage (s : State) (n k : Nat) (x : Cplx) : Keeps sampleView n s (s.ehbStage n k x).2 :=
  ((Keeps.setDsp s n _).quiet (Quiet.narrowedOut ..)).quiet (Quiet.narrowedOut ..)

theorem Keeps.ehbSteps (s : State) (n k : Nat) (xs : List Cplx) (c : Nat) : Keeps sampleView n s (s.ehbSteps n k xs c).2 := by
  induction c generalizing s k xs with
  | zero => exact Keeps.refl _ n s
  | succ c ih =>
    refine Keeps.trans ?_ (ih _ _ _)
    exact List.foldlRecOn (motive := fun acc : List Cplx × State => Keeps sampleView n s acc.2) _ _ (Keeps.refl _ n s)
      fun _ h _ _ => h.trans (Keeps.ehbStage ..)

theorem Keeps.egressStep (s : State) (n : Nat) (y : Cplx) : Keeps sampleView n s (s.egressStep n y) := by
  unfold State.egressStep
  split
  · exact Keeps.refl _ n s
  · exact (((Keeps.shapeStep ..).trans (Keeps.upStep ..)).trans (Keeps.ehbSteps ..)).trans (Keeps.setDsp ..)

end State

end Sys2Proof.Machine
end

section
/-! Stages 4 to 8 on one sample: its source, the DC blocker, the canceller, the gate, the AGC and the digital gain (R37, R52, R60, R68, R96 to R103). -/

namespace Sys2Proof.Machine.State

theorem Keeps.clearMore (s : State) (n k : Nat) : Keeps sourceView n s (s.clearMore n k) := Keeps.setBp rfl

theorem Keeps.gvSample (s : State) (n p src : Nat) : Keeps sourceView n s (s.gvSample n p src).2 := by
  unfold State.gvSample
  extract_lets none' q r x put starts s1 bad
  split
  · exact Keeps.refl _ n s
  · split
    · have h1 : Keeps sourceView n s s1 := by
        simp only [s1]
        split
        · exact Keeps.clearMore s n 4
        · exact Keeps.refl _ n s
      split
      next v rest _ =>
        have h2 : Keeps sourceView n s ((put s1 ⟨rest, true, false⟩).rxShift p src) :=
          (h1.quiet (Quiet.setPort ..)).quiet (Quiet.rxShift ..)
        dsimp only
        split
        · exact h2.quiet (Quiet.report ..)
        · exact h2
      next => exact h1.quiet (((Quiet.setPort ..).trans (Quiet.inc ..)).trans (Quiet.report ..))
    · exact Keeps.refl _ n s

theorem Keeps.source {s : State} (n : Nat) (h : s.rpl.st ≠ .replaying) : Keeps sourceView n s (s.source n).2 := by
  unfold State.source
  rw [if_neg h]
  split
  · exact Keeps.gvSample ..
  · split
    · exact Keeps.refl _ n s
    · exact (Keeps.stageFour ..).map fun v : SampleView => { v with clearLeft := 0 }

theorem Keeps.dcBlock (s : State) (n : Nat) (x : Cplx) : Keeps sampleView n s (s.dcBlock n x).2 := by
  unfold State.dcBlock
  dsimp only
  refine Keeps.quiet ?_ (Quiet.narrowed ..)
  exact Keeps.setBp rfl

theorem Keeps.delayRead (s : State) (n : Nat) : Keeps sampleView n s (s.delayRead n) := by
  unfold State.delayRead
  dsimp only
  split
  · exact Keeps.refl _ n s
  · have hr := Quiet.memRead s .hold (s.delayAddr n ((s.bp n).flow.seq - BitVec.ofNat 24 (s.bulk n))) (srcBp n)
    split
    · exact Keeps.quiet (Keeps.thenSetBp hr.keeps (by rfl)) (Quiet.report ..)
    · exact hr.keeps

theorem Keeps.cancel (s : State) (n : Nat) (x : Cplx) : Keeps sampleView n s (s.cancel n x).2 := by
  unfold State.cancel
  split
  · exact Keeps.refl _ n s
  · dsimp only
    refine Keeps.quiet ?_ (Quiet.narrowed ..)
    refine List.foldlRecOn (motive := fun t => Keeps sampleView n s t) _ _ ?_ fun _ h _ _ => h.quiet (Quiet.report ..)
    exact Keeps.thenSetBp ((Keeps.delayRead s n).quiet (Quiet.readBank ..)) (by rfl)

theorem Keeps.gateStep (s : State) (n : Nat) (r : Cplx) (valid sub : Bool) : Keeps sampleView n s (s.gateStep n r valid sub) := by
  unfold State.gateStep
  extract_lets b p old g1 s1 d f j keep b1 g2 g3 g4 g5
  have h1 : Keeps sampleView n s s1 := Keeps.setBp (by rfl)
  have h3 : sampleView { b1 with gain := g3 } = sampleView b1 := by
    simp only [g3]; split <;> rfl
  have h4 : sampleView { b1 with gain := g4 } = sampleView { b1 with gain := g3 } := by
    simp only [g4]; split <;> rfl
  have h5 : sampleView { b1 with gain := g5 } = sampleView { b1 with gain := g4 } := by
    simp only [g5]; split <;> rfl
  exact h1.thenSetBp ((h5.trans h4).trans h3)

theorem Keeps.gainStage (s : State) (n : Nat) (r : Cplx) : Keeps sampleView n s (s.gainStage n r).2 := by
  unfold State.gainStage
  dsimp only
  split
  · exact Keeps.refl _ n s
  · exact (Quiet.countSat s n 1).keeps

/-! ### The AGC and the ramp -/

theorem Quiet.cxDemand (s : State) (k : Nat) : Quiet s (s.cxDemand k) := by
  unfold State.cxDemand
  dsimp only
  split
  · split
    · split
      · exact Quiet.setCx ..
      · exact Quiet.refl s
    · split
      · exact Quiet.setCx ..
      · exact (Quiet.setCx ..).trans (Quiet.inc ..)
  · exact Quiet.refl s

theorem Quiet.cxOf (s : State) (n : Nat) : Quiet s (s.cxOf n) := by
  unfold State.cxOf
  split
  · exact Quiet.cxDemand ..
  · exact Quiet.refl s

theorem Quiet.noteActive (s : State) : Quiet s s.noteActive := by
  unfold State.noteActive
  split
  · exact Quiet.wr ..
  · exact Quiet.refl s

theorem Keeps.setGain (s : State) (n : Nat) (g : Db) : Keeps stepView n s (s.setGain n g) := Keeps.setBp rfl
theorem Keeps.stillGain (s : State) (n : Nat) : Keeps stepView n s (s.stillGain n) := Keeps.setBp rfl

theorem Keeps.agcUpdate (s : State) (n : Nat) : Keeps stepView n s (s.agcUpdate n) := by
  unfold State.agcUpdate
  extract_lets b r want g old s1
  have h1 : Keeps stepView n s s1 := Keeps.setBp (by rfl)
  split
  · exact h1.trans (Keeps.setGain ..)
  · split
    · exact h1.trans (Keeps.setGain ..)
    · split
      · exact h1.trans (Keeps.stillGain ..)
      · split <;> exact h1.trans (Keeps.setGain ..)

end Sys2Proof.Machine.State
end

section
/-! The ramp's end, the gain step of a sample, and what stages 10 to 12 do with the sample (R60, R78 to R82, R89, R98, R101, R111, R118, R126, R131, R132). -/

namespace Sys2Proof.Machine

/-- The gain step lies more than 0.5 dB from the last sample's (R60). -/
def SampleView.far (v : SampleView) : Bool := decide (v.lastStep + 10 < v.step ∨ v.step + 10 < v.lastStep)

/-- The sample's gain step becomes the last one, and opens a run of 5 samples where it is far from it (R60). -/
def SampleView.stepped (v : SampleView) : SampleView := { v with
  lastStep := v.step
  clearLeft := if v.far then Nat.max v.clearLeft 5 else v.clearLeft }

/-- The band path has put out `w`, one sample more of its duty bucket and `e` more that emit (R132). -/
def SampleView.emitted (v : SampleView) (w : Word) (e : Nat) : SampleView := { v with
  outWord := w, bucket := ⟨v.bucket.emit + e, v.bucket.total + 1⟩ }

namespace State

/-! ### The state of a band path along a sample -/

theorem serving_of_st {s t : State} {n : Nat} (h : (t.bp n).prot.st = (s.bp n).prot.st) : t.serving n = s.serving n := by
  rw [serving, h]; rfl

theorem harbourOf_of_setting {s t : State} (h : t.setting = s.setting) : t.harbourOf = s.harbourOf := congrArg (·.2.2.1) h
theorem setCyc_of_setting {s t : State} (h : t.setting = s.setting) : t.setCyc = s.setCyc := congrArg (·.2.1) h
theorem rplSt_of_setting {s t : State} (h : t.setting = s.setting) : t.rpl.st = s.rpl.st := congrArg (·.2.2.2) h
theorem uplink_of_setting {s t : State} (h : t.setting = s.setting) (n : Nat) : t.uplink n = s.uplink n := by
  have himg : t.img = s.img := congrArg (·.1) h
  rw [uplink, planN, plan, himg]; rfl

theorem probing_of_serving {s t : State} {n : Nat} (h : t.setting = s.setting) (hs : t.serving n = s.serving n) :
    t.probing n = s.probing n := by
  rw [probing, hs, harbourOf_of_setting h]; rfl

theorem Keeps.setSt (s : State) (n : Nat) (st : BpSt) : Keeps rampView n s (s.setSt n st) := Keeps.setBp rfl

theorem setSt_st (s : State) (n : Nat) (st : BpSt) : ((s.setSt n st).bp n).prot.st = st := by
  rw [State.setSt, setBp_bp_same]

theorem Keeps.settleSt (s : State) (n : Nat) : Keeps rampView n s (s.settleSt n) := by
  unfold State.settleSt
  dsimp only
  split
  · exact Keeps.refl _ n s
  · split
    · split
      · exact (Keeps.setSt ..).quiet ((Quiet.noteActive ..).trans (Quiet.cxOf ..))
      · exact Keeps.refl _ n s
    · split
      · exact Keeps.refl _ n s
      · exact Keeps.setSt ..
    · split
      · exact Keeps.setSt ..
      · exact Keeps.refl _ n s
    · exact Keeps.refl _ n s

/-- STARTING, ACTIVE and BACKED_OFF follow one another alone (R140). -/
theorem settleSt_serving (s : State) (n : Nat) : (s.settleSt n).serving n = s.serving n := by
  unfold State.settleSt
  dsimp only
  split
  · rfl
  · split
    next hst =>
      split
      · rw [serving_of_st (congrArg (·.prot.st) (((Quiet.noteActive _).trans (Quiet.cxOf _ n)).bp n)), serving, setSt_st, serving, hst]
        cases decide (s.cMax n ≤ (s.bp n).bw.ceiling) <;> rfl
      · rfl
    next hst =>
      split
      · rfl
      · rw [serving, setSt_st, serving, hst]
    next hst =>
      split
      · rw [serving, setSt_st, serving, hst]
      · rfl
    · rfl

theorem Keeps.rampCheck (s : State) (n : Nat) : Keeps rampView n s (s.rampCheck n) := by
  unfold State.rampCheck
  dsimp only
  split
  · split
    · refine Keeps.trans ?_ (Keeps.settleSt ..)
      exact Keeps.setBp rfl
    · exact Keeps.refl _ n s
  · exact Keeps.refl _ n s

theorem rampCheck_serving (s : State) (n : Nat) : (s.rampCheck n).serving n = s.serving n := by
  unfold State.rampCheck
  dsimp only
  split
  · split
    · rw [settleSt_serving]
      exact serving_of_st (by rw [setBp_bp_same])
    · rfl
  · rfl

/-- Only a ramp that runs in STARTING ends. -/
theorem rampCheck_of_none {s : State} {n : Nat} (h : (s.bp n).prot.st ≠ .starting ∨ (s.bp n).gain.ramp = none) : s.rampCheck n = s := by
  unfold State.rampCheck
  dsimp only
  split
  next r hr =>
    obtain hst | hnone := h
    · rw [if_neg fun hc => hst hc.1]
    · exact absurd (hnone.symm.trans hr) nofun
  · rfl

theorem Beside.gainClear (s : State) (n : Nat) : Beside n s (s.gainClear n) := by
  unfold State.gainClear
  dsimp only
  split
  · exact (Beside.setBp ..).trans (Beside.setBp ..)
  · exact Beside.setBp ..

theorem gainClear_own (s : State) (n : Nat) : sampleView ((s.gainClear n).bp n) = (sampleView (s.bp n)).stepped := by
  unfold State.gainClear SampleView.stepped
  dsimp only
  split
  next h =>
    have hfar : (sampleView (s.bp n)).far = true := h
    rw [if_pos hfar, State.clearMore]
    simp only [setBp_bp_same]
    rfl
  next h =>
    have hfar : ¬ (sampleView (s.bp n)).far = true := h
    rw [if_neg hfar]
    simp only [setBp_bp_same]
    rfl

/-! ### Stage 10 and what takes its output -/

theorem Keeps.probeChip (s : State) (n : Nat) : Keeps probeView n s (s.probeChip n).2 := by
  unfold State.probeChip
  dsimp only
  split
  · dsimp only
    split
    · exact Keeps.setBp rfl
    · exact Keeps.refl _ n s
  · exact Keeps.setBp rfl

theorem probeChip_of_not {s : State} {n : Nat} (h : s.probing n = false) : (s.probeChip n).1 = Cplx.zero := by
  rw [State.probeChip, h]; rfl

theorem probeChip_of_some {s : State} {n : Nat} {p : Probe} (h : s.probing n = true) (hp : (s.bp n).bw.probe = some p) :
    (s.probeChip n).1 = chip n p.count p.amp := by
  unfold State.probeChip
  dsimp only
  rw [h, if_neg (by decide)]
  dsimp only
  rw [hp]

theorem Keeps.fastStep (s : State) (n : Nat) (r : Cplx) (u : Bool) : Keeps sampleView n s (s.fastStep n r u) := Keeps.setBp rfl

theorem Keeps.probeStep (s : State) (n : Nat) (zin zout c : Cplx) (v : Bool) : Keeps probeView n s (s.probeStep n zin zout c v) := by
  unfold State.probeStep
  dsimp only
  split
  · exact Keeps.refl _ n s
  · split
    · exact Keeps.refl _ n s
    · exact Keeps.setBp rfl

theorem Keeps.tripStep (s : State) (n : Nat) (zin out : Cplx) (u : Bool) : Keeps sampleView n s (s.tripStep n zin out u) := by
  unfold State.tripStep
  dsimp only
  split <;> exact Keeps.setBp rfl

theorem Keeps.floorStep (s : State) (n : Nat) (r : Cplx) (ok : Bool) : Keeps sampleView n s (s.floorStep n r ok) := Keeps.setBp rfl

theorem Keeps.maskStep (s : State) (n : Nat) (seq : BitVec 24) (w : Word) (v g : Bool) : Keeps sampleView n s (s.maskStep n seq w v g) := by
  unfold State.maskStep
  extract_lets b m
  have hmask : ∀ (x : BpMask) (t : Taps), Keeps sampleView n s ((s.setBp n { b with mask := x }).setTap n t) := fun _ _ =>
    Keeps.quiet (Keeps.setBp (by rfl)) (Quiet.setTap ..)
  split
  · exact Keeps.refl _ n s
  · split
    · exact hmask ..
    · split <;> exact hmask ..

theorem Quiet.adaptStep (s : State) (n : Nat) (seq : BitVec 24) (r : Cplx) (v g : Bool) : Quiet s (s.adaptStep n seq r v g) := by
  unfold State.adaptStep
  split
  · exact Quiet.refl s
  · extract_lets
    split <;> exact Quiet.setTap ..

theorem Quiet.delayWrite (s : State) (n : Nat) (seq : BitVec 24) : Quiet s (s.delayWrite n seq) := by
  unfold State.delayWrite
  dsimp only
  split
  · exact Quiet.refl s
  · exact Quiet.memWrite ..

theorem Quiet.capFeed (s : State) (n : Nat) : Quiet s (s.capFeed n) := by
  unfold State.capFeed
  split
  · exact Quiet.refl s
  · split
    · exact Quiet.refl s
    · refine Quiet.trans ?_ (Quiet.enqueue ..)
      exact ⟨rfl, rfl⟩

/-- What a capture holds and what waits of it is no part of the setting. -/
theorem Quiet.withRpl {s : State} {r : Replay} (hst : r.st = s.rpl.st) (hcyc : r.rcyc = s.rpl.rcyc) (hh : r.harbour = s.rpl.harbour) :
    Quiet s { s with rpl := r } :=
  ⟨rfl, by simp only [State.setting, State.setCyc, State.harbourOf, hst, hcyc, hh]⟩

theorem Quiet.captureStep (s : State) (n : Nat) (x : Cplx) (v6 v g : Bool) (w : Word) : Quiet s (s.captureStep n x v6 v g w) := by
  unfold State.captureStep
  extract_lets r inW going inT outT outW r1
  split
  · exact Quiet.refl s
  · have hr : r1.st = s.rpl.st ∧ r1.rcyc = s.rpl.rcyc ∧ r1.harbour = s.rpl.harbour := by
      simp only [r1]
      split <;> exact ⟨rfl, rfl, rfl⟩
    obtain ⟨hst, hcyc, hh⟩ := hr
    split
    · exact Quiet.withRpl hst hcyc hh
    · refine Quiet.trans ?_ (Quiet.capFeed ..)
      exact Quiet.withRpl hst hcyc hh

theorem compareStep_of_not {s : State} (h : s.rpl.st ≠ .replaying) (n : Nat) (v g : Bool) (w : Word) : s.compareStep n v g w = s := by
  rw [State.compareStep, if_pos h]

theorem Quiet.packStep (s : State) (n : Nat) (w : Word) (v g : Bool) : Quiet s (s.packStep n w v g) := by
  refine List.foldlRecOn (motive := fun t => Quiet s t) _ _ (Quiet.refl s) fun t h k _ => h.trans ?_
  dsimp only
  split
  · exact Quiet.setPort ..
  · exact Quiet.refl t

/-- A change of what watches the donor alone (R131). -/
theorem Keeps.setBp_watch {s : State} {m n : Nat} {b : Bp} (hv : sampleView b = sampleView (s.bp m)) (hs : service b = service (s.bp m)) :
    Keeps sampleView n s (s.setBp m b) := by
  have hbp : ∀ j, (s.setBp m b).bp j = if j = m then b else s.bp j := fun j => setBp_bp s m j b
  refine ⟨⟨rfl, fun j _ => ?_⟩, ?_⟩
  · rw [hbp]; split
    next h => rw [hs, h]
    next => rfl
  · rw [hbp]; split
    next h => rw [hv, h]
    next => rfl

theorem Keeps.donorWatch (s : State) (n : Nat) : Keeps sampleView n s (s.donorWatch n) :=
  List.foldlRecOn (motive := fun t => Keeps sampleView n s t) _ _ (Keeps.refl _ n s) fun _ h _ _ => h.trans (Keeps.setBp_watch rfl rfl)

end State

end Sys2Proof.Machine
end

section
/-! One band sample through stages 4 to 12 (R17, R59, R60, R78, R126, R132). -/

namespace Sys2Proof.Machine

/-! ### Projections of the view -/

theorem sampleView_of_sourceView {b c : Bp} (h : sourceView b = sourceView c) :
    sampleView b = { sampleView c with clearLeft := b.flow.clearLeft } :=
  congrArg (fun v : SampleView => { v with clearLeft := b.flow.clearLeft }) h

theorem sampleView_of_stepView {b c : Bp} (h : stepView b = stepView c) : sampleView b = { sampleView c with step := b.gain.step } :=
  congrArg (fun v : SampleView => { v with step := b.gain.step }) h

theorem sampleView_of_rampView {b c : Bp} (h : rampView b = rampView c) :
    sampleView b = { sampleView c with ramp := b.gain.ramp, st := b.prot.st } :=
  congrArg (fun v : SampleView => { v with ramp := b.gain.ramp, st := b.prot.st }) h

/-- The view of a band path `b` with `left` samples to be cleared, under the gain step, the ramp and the state of `c` (R60, R98, R101). -/
def gainedView (b : Bp) (left : Nat) (c : Bp) : SampleView :=
  ({ sampleView b with clearLeft := left, step := c.gain.step, ramp := c.gain.ramp, st := c.prot.st } : SampleView).stepped

theorem gainedView_congr {b c d : Bp} {left : Nat} (hstep : c.gain.step = d.gain.step) (hramp : c.gain.ramp = d.gain.ramp)
    (hst : c.prot.st = d.prot.st) : gainedView b left c = gainedView b left d := by
  rw [gainedView, hstep, hramp, hst]; rfl

theorem gainedView_of_sourceView {b c d : Bp} {left : Nat} (h : sourceView c = sourceView b) (hleft : c.flow.clearLeft = left) :
    gainedView c c.flow.clearLeft d = gainedView b left d := by
  rw [gainedView, sampleView_of_sourceView h, hleft]; rfl

/-- The sample's marks stand at the output: one sample fewer to be cleared, the sequence number of the next, VALID and GATED (R17, R59, R60, R72). -/
def SampleView.marked (v : SampleView) (valid gated : Bool) : SampleView := { v with
  clearLeft := v.clearLeft - 1, seq := v.seq + 1, validOut := valid, gatedOut := gated }

namespace State

/-- The gate of an uplink band path is closed (R59). -/
def shut (s : State) (n : Nat) : Bool := s.uplink n && decide ((s.bp n).gain.gate = .closed)

/-- The band path has been muted for its 40 cycles (R126). -/
def silent (s : State) (n : Nat) : Bool :=
  ((s.bp n).prot.st == .muted || (s.bp n).prot.st == .lockedOut) && decide ((s.bp n).prot.mutedAt + 40 ≤ s.setCyc)

theorem silent_of_own {s t : State} {n : Nat} (h : t.setting = s.setting) (hst : (t.bp n).prot.st = (s.bp n).prot.st)
    (hat : (t.bp n).prot.mutedAt = (s.bp n).prot.mutedAt) : t.silent n = s.silent n := by
  rw [silent, hst, hat, setCyc_of_setting h]; rfl

theorem silent_st {s : State} {n : Nat} (h : s.silent n = true) : (s.bp n).prot.st ≠ .starting := by
  intro hst
  rw [silent, hst] at h
  exact absurd h (by simp)

theorem Keeps.toProbeView {n : Nat} {s t : State} (h : Keeps sampleView n s t) : Keeps probeView n s t :=
  h.map fun v : SampleView => { v with probe := none }

theorem Keeps.toSourceView {n : Nat} {s t : State} (h : Keeps sampleView n s t) : Keeps sourceView n s t :=
  h.map fun v : SampleView => { v with clearLeft := 0 }

/-! ### The gain of a sample -/

/-- What the ramp, the AGC and R60 make of a band path on one sample. -/
structure GainPart (n : Nat) (s t : State) : Prop extends Beside n s t where
  serving : t.serving n = s.serving n
  st : (s.bp n).prot.st ≠ .starting ∨ (s.bp n).gain.ramp = none → (t.bp n).prot.st = (s.bp n).prot.st
  own : sampleView (t.bp n) = gainedView (s.bp n) (s.bp n).flow.clearLeft (t.bp n)

theorem gainPart (s : State) (n : Nat) : GainPart n s (((s.rampCheck n).agcUpdate n).gainClear n) := by
  generalize ht : ((s.rampCheck n).agcUpdate n).gainClear n = t
  have hramp := Keeps.rampCheck s n
  have hagc := Keeps.agcUpdate (s.rampCheck n) n
  have hown : sampleView (t.bp n) = (sampleView (((s.rampCheck n).agcUpdate n).bp n)).stepped := by rw [← ht]; exact gainClear_own _ n
  have hstep := sampleView_of_stepView hagc.own
  rw [sampleView_of_rampView hramp.own] at hstep
  rw [hstep] at hown
  have hst : (t.bp n).prot.st = ((s.rampCheck n).bp n).prot.st := congrArg SampleView.st hown
  have hr : (t.bp n).gain.ramp = ((s.rampCheck n).bp n).gain.ramp := congrArg SampleView.ramp hown
  have hk : (t.bp n).gain.step = (((s.rampCheck n).agcUpdate n).bp n).gain.step := congrArg SampleView.step hown
  refine ⟨ht ▸ (hramp.toBeside.trans hagc.toBeside).trans (Beside.gainClear ..), ?_, fun h => ?_, ?_⟩
  · rw [serving_of_st hst, rampCheck_serving]
  · rw [hst, rampCheck_of_none h]
  · rw [gainedView, hst, hr, hk]; exact hown

/-! ### Stage 10 -/

theorem outSample_zero : wOfC (outSample ⟨Cplx.zero.re * 2 ^ probeBits + Cplx.zero.re, Cplx.zero.im * 2 ^ probeBits + Cplx.zero.im⟩) = 0 := by
  decide +kernel

/-- What a band sample leaves, where its source has given `x` and `left` samples to be cleared of VALID. -/
structure Sampled (s : State) (n : Nat) (x : Sample) (left : Nat) (t : State) : Prop extends Beside n s t where
  own :
    let v := gainedView (s.bp n) left (t.bp n)
    probeView (t.bp n) = { (v.marked (x.valid && decide (left = 0) && decide (v.clearLeft = 0)) (s.shut n)).emitted
      (t.bp n).flow.outWord (if s.serving n && !s.shut n then 1 else 0) with probe := none }
  serving : t.serving n = s.serving n
  st : (s.bp n).prot.st ≠ .starting ∨ (s.bp n).gain.ramp = none → (t.bp n).prot.st = (s.bp n).prot.st
  zero : s.shut n = true ∨ s.silent n = true → s.probing n = false → (t.bp n).flow.outWord = 0
  chip : ∀ p, s.shut n = true → s.probing n = true → (s.bp n).bw.probe = some p →
    (t.bp n).flow.outWord = wOfC (outSample (chip n p.count p.amp))

/-- What measures the sample at stage 10 (R79, R82, R89, R111, R118, R261) reaches no more of the band path than its probe. -/
theorem Keeps.measures (s : State) (n : Nat) (seq : BitVec 24) (x6 r c out : Cplx) (w : Word) (valid gated usable ok : Bool) :
    Keeps probeView n s
      ((((((s.fastStep n r usable).probeStep n x6 r c valid).tripStep n x6 out usable).floorStep n r ok).maskStep n seq w valid gated).adaptStep
        n seq r valid gated) := by
  have hprobe : Keeps probeView n s ((s.fastStep n r usable).probeStep n x6 r c valid) :=
    (Keeps.fastStep ..).toProbeView.trans (Keeps.probeStep ..)
  exact (((hprobe.trans (Keeps.tripStep ..).toProbeView).trans (Keeps.floorStep ..).toProbeView).trans
    (Keeps.maskStep ..).toProbeView).quiet (Quiet.adaptStep ..)

/-- Where the sample goes from stage 10 (R56, R58, R69, R131, R399) reaches nothing of the band path. -/
theorem Keeps.sends {s : State} (h : s.rpl.st ≠ .replaying) (n : Nat) (seq : BitVec 24) (full x6 : Cplx) (sent valid gated : Bool) (w : Word) :
    Keeps sampleView n s
      ((((((s.delayWrite n seq).egressStep n full).captureStep n x6 sent valid gated w).compareStep n valid gated w).packStep n w valid
        gated).donorWatch n) := by
  have hcapture : Keeps sampleView n s (((s.delayWrite n seq).egressStep n full).captureStep n x6 sent valid gated w) :=
    ((Quiet.delayWrite ..).keeps.trans (Keeps.egressStep ..)).quiet (Quiet.captureStep ..)
  rw [compareStep_of_not (by rwa [rplSt_of_setting hcapture.setting])]
  exact (hcapture.quiet (Quiet.packStep ..)).trans (Keeps.donorWatch ..)

/-- Where stage 10 begins: the sample's marks stand, and `y` is what stage 8 has left of it. -/
structure AtStageTen (s : State) (n : Nat) (x : Sample) (left : Nat) (u : State) (y : Cplx) : Prop extends Beside n s u where
  own :
    let v := gainedView (s.bp n) left (u.bp n)
    sampleView (u.bp n) = v.marked (x.valid && decide (left = 0) && decide (v.clearLeft = 0)) (s.shut n)
  serving : u.serving n = s.serving n
  st : (s.bp n).prot.st ≠ .starting ∨ (s.bp n).gain.ramp = none → (u.bp n).prot.st = (s.bp n).prot.st
  zero : s.shut n = true ∨ s.silent n = true → y = Cplx.zero

/-- What a stage 10 output makes of a band path. -/
structure PutOut (n : Nat) (u t : State) (gated : Bool) (out : Cplx) : Prop extends Beside n u t where
  own : probeView (t.bp n) = (probeView (u.bp n)).emitted (wOfC (outSample out)) (if u.serving n && !gated then 1 else 0)

/-- The output and the duty bucket are written between what measures the sample and what sends it on. -/
theorem putOut_of_stages {n : Nat} {u m o t : State} {gated : Bool} {out : Cplx} {ref : List Cplx} (hm : Keeps probeView n u m)
    (ho : o = m.setBp n { m.bp n with
      flow := { (m.bp n).flow with outWord := wOfC (outSample out), ref := ref }
      prot := { (m.bp n).prot with bucket :=
        ⟨(m.bp n).prot.bucket.emit + (if m.serving n && !gated then 1 else 0), (m.bp n).prot.bucket.total + 1⟩ } })
    (ht : Keeps sampleView n o t) : PutOut n u t gated out := by
  have hserv : m.serving n = u.serving n := serving_of_st (congrArg SampleView.st hm.own)
  refine ⟨(hm.toBeside.trans (ho ▸ Beside.setBp ..)).trans ht.toBeside, ?_⟩
  rw [ht.toProbeView.own, ho, setBp_bp_same, ← hserv, ← hm.own]
  rfl

theorem sampled_of_putOut {s u t : State} {n : Nat} {x : Sample} {left : Nat} {y : Cplx} (hu : AtStageTen s n x left u y)
    (ht : PutOut n u t (s.shut n)
      ⟨y.re * 2 ^ probeBits + (u.probeChip n).1.re, y.im * 2 ^ probeBits + (u.probeChip n).1.im⟩) : Sampled s n x left t := by
  obtain ⟨hub, huown, huserv, hust, huzero⟩ := hu
  obtain ⟨htb, htown⟩ := ht
  have hst : (t.bp n).prot.st = (u.bp n).prot.st := congrArg SampleView.st htown
  have hstep : (t.bp n).gain.step = (u.bp n).gain.step := congrArg SampleView.step htown
  have hramp : (t.bp n).gain.ramp = (u.bp n).gain.ramp := congrArg SampleView.ramp htown
  have hword : (t.bp n).flow.outWord = wOfC (outSample _) := congrArg SampleView.outWord htown
  have hprobing : u.probing n = s.probing n := probing_of_serving hub.setting huserv
  refine ⟨hub.trans htb, ?_, (serving_of_st hst).trans huserv, fun hk => hst.trans (hust hk), fun hz hp => ?_, fun p hz hp hsome => ?_⟩
  · intro v
    have hv : v = gainedView (s.bp n) left (u.bp n) := gainedView_congr hstep hramp hst
    rw [hv, ← huown, hword, ← huserv, htown]
    rfl
  · rw [hword, huzero hz, probeChip_of_not (hprobing.trans hp)]
    exact outSample_zero
  · have hprobe : (u.bp n).bw.probe = some p := (congrArg SampleView.probe huown).trans hsome
    rw [hword, huzero (.inl hz), probeChip_of_some (hprobing.trans hp) hprobe]
    exact congrArg (fun c => wOfC (outSample c)) (by simp [Cplx.zero])

/-- The marks are written with the meters, between stage 8 and stage 10. -/
theorem atStageTen_of_stages {n : Nat} {s s6 s4 s7 s8 u : State} {x : Sample} {left : Nat} {y y8 : Cplx} {mi mo : Meter}
    (hin : Keeps sourceView n s s6) (hleft : (s6.bp n).flow.clearLeft = left) (hfour : Keeps sampleView n s6 s4)
    (hseven : GainPart n s4 s7) (height : Keeps sampleView n s7 s8)
    (hu : u = s8.setBp n { s8.bp n with flow := { (s8.bp n).flow with
      clearLeft := (s8.bp n).flow.clearLeft - 1, seq := (s6.bp n).flow.seq + 1
      validOut := x.valid && decide ((s6.bp n).flow.clearLeft = 0) && decide ((s7.bp n).flow.clearLeft = 0)
      gatedOut := s6.shut n, meterIn := mi, meterOut := mo } })
    (hy : y = if s6.shut n || s8.silent n then Cplx.zero else y8) : AtStageTen s n x left u y := by
  have hin4 : Keeps sourceView n s s4 := hin.trans hfour.toSourceView
  have hb8 : Beside n s s8 := (hin4.toBeside.trans hseven.toBeside).trans height.toBeside
  have hst4 : (s4.bp n).prot.st = (s.bp n).prot.st := congrArg SampleView.st hin4.own
  have hramp4 : (s4.bp n).gain.ramp = (s.bp n).gain.ramp := congrArg SampleView.ramp hin4.own
  have hst7 := hseven.st
  rw [hst4, hramp4] at hst7
  have hshut : s6.shut n = s.shut n := by
    have hgate : (s6.bp n).gain.gate = (s.bp n).gain.gate := congrArg SampleView.gate hin.own
    rw [shut, shut, uplink_of_setting hin.setting, hgate]
  have hseq : (s8.bp n).flow.seq = (s6.bp n).flow.seq :=
    calc (s8.bp n).flow.seq = (s7.bp n).flow.seq := congrArg SampleView.seq height.own
      _ = (s4.bp n).flow.seq := congrArg SampleView.seq hseven.own
      _ = (s6.bp n).flow.seq := congrArg SampleView.seq hfour.own
  have hview : sampleView (u.bp n) = (sampleView (s7.bp n)).marked
      (x.valid && decide (left = 0) && decide ((sampleView (s7.bp n)).clearLeft = 0)) (s.shut n) := by
    rw [hu, setBp_bp_same, ← height.own, ← hshut, ← hseq, hleft]
    exact congrArg (fun k => (sampleView (s8.bp n)).marked (_ && decide (k = 0)) _) (congrArg SampleView.clearLeft height.own).symm
  have hst : (u.bp n).prot.st = (s7.bp n).prot.st := congrArg SampleView.st hview
  refine ⟨hb8.trans (hu ▸ Beside.setBp ..), ?_, (serving_of_st hst).trans (hseven.serving.trans (serving_of_st hst4)),
    fun hk => hst.trans (hst7 hk), fun hz => hy.trans (if_pos ?_)⟩
  · intro v
    have hleft4 : (s4.bp n).flow.clearLeft = left := (congrArg SampleView.clearLeft hfour.own).trans hleft
    have hv : v = sampleView (s7.bp n) := by
      rw [hseven.own, gainedView_of_sourceView hin4.own hleft4]
      exact gainedView_congr (congrArg SampleView.step hview) (congrArg SampleView.ramp hview) hst
    rw [hv, hview]
  · rw [hshut]
    obtain hz | hz := hz
    · rw [hz, Bool.true_or]
    · have hst8 : (s8.bp n).prot.st = (s.bp n).prot.st := (congrArg SampleView.st height.own).trans (hst7 (.inl (silent_st hz)))
      have hat8 : (s8.bp n).prot.mutedAt = (s.bp n).prot.mutedAt :=
        (congrArg SampleView.mutedAt height.own).trans
          ((congrArg SampleView.mutedAt hseven.own).trans (congrArg SampleView.mutedAt hin4.own))
      rw [silent_of_own hb8.setting hst8 hat8, hz, Bool.or_true]

/-- The stages of a band sample in their order: what each of them keeps, and the two places where the sample's own marks and output are written. -/
theorem bandSample_sampled {s : State} (n : Nat) (h : s.rpl.st ≠ .replaying) :
    Sampled s n (s.source n).1 ((s.source n).2.bp n).flow.clearLeft (s.bandSample n) := by
  have hsource := Keeps.source n h
  unfold State.bandSample
  dsimp -zeta only
  generalize s.source n = q at hsource ⊢
  have hsix : Keeps sampleView n q.2 (if q.1.atSix = true then (q.1.x, q.2) else q.2.dcBlock n q.1.x).2 := by
    split
    · exact Keeps.refl _ n q.2
    · exact Keeps.dcBlock ..
  generalize (if q.1.atSix = true then (q.1.x, q.2) else q.2.dcBlock n q.1.x) = q6 at hsix ⊢
  extract_lets seq b valid closed gated s4 s7 valid' b8 p silent y src1 fl1 fl2 s9 full out w usable s10 s11 s12 s13 s14 s15
    b15 keep e bk src2 fl3 src3 s16 s17 s18 s19 s20
  have hfour : Keeps sampleView n q6.2 s4 := (Keeps.cancel ..).trans (Keeps.gateStep ..)
  clear_value s4
  have hseven : GainPart n s4 s7 := gainPart s4 n
  clear_value s7
  have hat : AtStageTen s n q.1 (q.2.bp n).flow.clearLeft s9 y :=
    atStageTen_of_stages (hsource.trans hsix.toSourceView) (congrArg SampleView.clearLeft hsix.own) hfour hseven
      (Keeps.gainStage ..) (by rfl) (by rfl)
  have hmark : (s9.bp n).flow.gatedOut = gated := by rw [setBp_bp_same]
  have hgated : gated = s.shut n := hmark.symm.trans (congrArg SampleView.gatedOut hat.own)
  have hb9 : Beside n s s9 := hat.toBeside
  refine sampled_of_putOut hat (hgated ▸ ?_)
  clear_value s9
  have hten : Keeps probeView n s9 s15 := (Keeps.probeChip ..).trans (Keeps.measures ..)
  clear_value s15
  refine putOut_of_stages hten (by rfl) (Keeps.sends ?_ ..)
  rwa [rplSt_of_setting ((hb9.trans hten.toBeside).trans (Beside.setBp ..)).setting]

end State

end Sys2Proof.Machine
end

section
/-! BAND_SAMPLE: where a sample passes, and what it leaves (R17, R59, R60, R72, R78, R126, R132, R404). -/

namespace Sys2Proof.Machine

theorem gainedView_clearLeft (b : Bp) (left : Nat) (c : Bp) :
    (gainedView b left c).clearLeft =
      if b.gain.lastStep + 10 < c.gain.step ∨ c.gain.step + 10 < b.gain.lastStep then Nat.max left 5 else left := by
  by_cases hfar : b.gain.lastStep + 10 < c.gain.step ∨ c.gain.step + 10 < b.gain.lastStep
  · rw [if_pos hfar]
    exact if_pos (decide_eq_true hfar)
  · rw [if_neg hfar]
    exact if_neg (fun h => hfar (of_decide_eq_true h))

/-- No sample is left to be cleared where none was and no gain step has opened a run (R60). -/
theorem no_run_left_iff {left : Nat} {far : Prop} [Decidable far] :
    left = 0 ∧ (if far then Nat.max left 5 else left) = 0 ↔ left = 0 ∧ ¬ far := by
  have hfive : 5 ≤ Nat.max left 5 := le_max_right left 5
  split
  next h => exact ⟨fun ⟨_, hmax⟩ => absurd (hmax ▸ hfive) (by decide), fun ⟨_, hn⟩ => absurd h hn⟩
  next h => exact ⟨fun ⟨hl, _⟩ => ⟨hl, h⟩, fun ⟨hl, _⟩ => ⟨hl, hl⟩⟩

theorem exec_bandSample {s : State} {bp : BpId} (hpresent : s.present bp.toNat = true) (hreplay : s.replayMode = false)
    (hoff : (s.bp bp.toNat).prot.st ≠ .off) (hbarred : (s.bp bp.toNat).prot.st ≠ .barred) :
    exec (.bandSample bp) s = .next (s.bandSample bp.toNat) := by
  have hpass : s.passing bp.toNat = true := by
    unfold State.passing
    split
    · exact absurd ‹_› hoff
    · exact absurd ‹_› hbarred
    · rfl
  change execBandSample bp s = _
  simp [execBandSample, hpresent, hreplay, hpass]

theorem exec_bandSample_of_not_passing {s : State} {bp : BpId} (h : s.passing bp.toNat = false) : exec (.bandSample bp) s = .next s := by
  change execBandSample bp s = _
  simp [execBandSample, h]

/-- In replay mode a sample passes only where a running replay has brought one (R404). -/
theorem exec_bandSample_of_not_injected {s : State} {bp : BpId} (hreplay : s.replayMode = true)
    (h : s.rpl.st ≠ .replaying ∨ bp.toNat ∉ s.selected ∨ s.injReady bp.toNat = false) : exec (.bandSample bp) s = .next s := by
  have hruns : (s.rpl.st == .replaying && s.selected.contains bp.toNat && s.injReady bp.toNat) = false := by
    obtain hst | hsel | hinj := h
    · simp [hst]
    · simp [hsel]
    · simp [hinj]
  change execBandSample bp s = _
  simp only [execBandSample, hreplay, if_true, hruns, Bool.and_false, Bool.false_eq_true, if_false]

theorem not_replaying_of_replayMode {s : State} (h : s.replayMode = false) : s.rpl.st ≠ .replaying := by
  intro hst
  rw [State.replayMode, hst] at h
  exact absurd h (by simp)

theorem shut_eq_true {s : State} {n : Nat} : s.shut n = true ↔ s.uplink n = true ∧ (s.bp n).gain.gate = .closed := by
  simp [State.shut]

/-- A muted band path carries no probe. -/
theorem probing_of_silent {s : State} {n : Nat} (h : s.silent n = true) : s.probing n = false := by
  have hserv : s.serving n = false := by
    simp only [State.silent, Bool.and_eq_true, Bool.or_eq_true, beq_iff_eq] at h
    obtain ⟨hst | hst, -⟩ := h <;> rw [State.serving, hst]
  rw [State.probing, hserv, Bool.false_and]

theorem silent_of_muted {s : State} {n : Nat} (hst : (s.bp n).prot.st = .muted ∨ (s.bp n).prot.st = .lockedOut)
    (hat : (s.bp n).prot.mutedAt + 40 ≤ s.setCyc) : s.silent n = true := by
  simpa [State.silent, hat] using hst

/-- Settles O32: each stage keeps the parts of the band path that it does not set, and every stage those of the other band paths. -/
theorem bandSampleAdvances : Obligations.BandSampleAdvances := by
  unfold Obligations.BandSampleAdvances
  intro s bp n b
  refine ⟨fun hpresent hreplay hoff hbarred => ⟨s.bandSample n, exec_bandSample hpresent hreplay hoff hbarred, ?_⟩, fun hst => ?_,
    exec_bandSample_of_not_injected⟩
  · obtain ⟨hbeside, hown, hserving, hst, hzero, hchip⟩ := State.bandSample_sampled n (not_replaying_of_replayMode hreplay)
    generalize s.bandSample n = t at *
    have hleft := gainedView_clearLeft b ((s.source n).2.bp n).flow.clearLeft (t.bp n)
    have hclear : (t.bp n).flow.clearLeft = (gainedView b _ (t.bp n)).clearLeft - 1 := congrArg SampleView.clearLeft hown
    have hvalid : (t.bp n).flow.validOut = _ := congrArg SampleView.validOut hown
    have hgated : (t.bp n).flow.gatedOut = s.shut n := congrArg SampleView.gatedOut hown
    have hbucket : (t.bp n).prot.bucket = _ := congrArg SampleView.bucket hown
    refine ⟨congrArg SampleView.seq hown, ⟨?_, hclear.trans (by rw [hleft]), by rw [hgated, shut_eq_true], fun hm hat => ?_,
      fun hup hgate => ⟨hzero (.inl (shut_eq_true.mpr ⟨hup, hgate⟩)), fun p => hchip p (shut_eq_true.mpr ⟨hup, hgate⟩)⟩⟩,
      hst, hserving, congrArg Bucket.total hbucket, congrArg Bucket.emit hbucket, fun m hm => ?_⟩
    · rw [hvalid]
      change (_ && _ && decide ((gainedView b _ (t.bp n)).clearLeft = 0)) = true ↔ _
      rw [Bool.and_eq_true, Bool.and_eq_true, decide_eq_true_iff, decide_eq_true_iff, and_assoc, hleft, no_run_left_iff]
    · have hsil := silent_of_muted hm hat
      exact hzero (.inr hsil) (probing_of_silent hsil)
    · have hsame := hbeside.others m hm
      simp only [service, Prod.mk.injEq] at hsame
      exact hsame
  · refine exec_bandSample_of_not_passing ?_
    obtain hst | hst := hst <;> rw [State.passing, hst]

end Sys2Proof.Machine
end

section
/-! What lies beside the band paths: reports, counts, reads of the protected store, the journal and the decisions of a replay (R255, R365, R400, R405). -/

namespace Sys2Proof.Machine.State

/-! ### The relations -/

/-- The register belongs to the block of a band path (R432). -/
def inBpBlock (a : Nat) : Prop := 4096 ≤ a ∧ a < 6144

/-- Band paths, plan, resamplers and the registers of the band paths' blocks stand as they were. -/
structure Spares (s t : State) : Prop where
  bps : t.bps = s.bps
  img : t.img = s.img
  rsmp : t.rsmp = s.rsmp
  reg : ∀ a, inBpBlock a → t.reg a = s.reg a

theorem Spares.refl (s : State) : Spares s s := ⟨rfl, rfl, rfl, fun _ _ => rfl⟩

theorem Spares.trans {s t u : State} (h : Spares s t) (g : Spares t u) : Spares s u :=
  ⟨g.bps.trans h.bps, g.img.trans h.img, g.rsmp.trans h.rsmp, fun a ha => (g.reg a ha).trans (h.reg a ha)⟩

/-! ### Counts, reports and the protected store -/

theorem Spares.inc (s : State) {c o : Fld} (hc : ¬ inBpBlock c.addr) (ho : ¬ inBpBlock o.addr) : Spares s (s.inc c o) := by
  refine ⟨by rw [inc_eq], by rw [inc_eq], by rw [inc_eq], fun a ha => inc_reg_ne s ?_ ?_⟩
  · rintro rfl; exact hc ha
  · rintro rfl; exact ho ha

theorem Spares.wr (s : State) {f : Fld} (v : Nat) (hf : ¬ inBpBlock f.addr) : Spares s (s.wr f v) :=
  ⟨rfl, rfl, rfl, fun a ha => wr_reg_ne s v (by rintro rfl; exact hf ha)⟩

theorem Spares.report (s : State) (src kind hint : Nat) (ctx : Word) : Spares s (s.report src kind hint ctx) := by
  refine ⟨by rw [report_eq], by rw [report_eq], by rw [report_eq], fun a ha => report_reg_ne s _ _ _ _ ?_⟩
  rintro rfl
  exact absurd ha.1 (by decide)

theorem Spares.countCorr (s : State) (k : MemSel) (a : Nat) : Spares s (s.countCorr k a) := by
  unfold State.countCorr
  split
  · exact Spares.inc s (by simp only [inBpBlock, F.quayMemCorrCnt]; omega) (by simp only [inBpBlock, F.quayMemCorrOvf]; omega)
  · exact Spares.inc s (fun h => absurd h.1 (by decide)) (fun h => absurd h.1 (by decide))
  · exact Spares.refl s

theorem Spares.countUnc (s : State) (k : MemSel) (a : Nat) : Spares s (s.countUnc k a) := by
  unfold State.countUnc
  split
  · exact Spares.inc s (by simp only [inBpBlock, F.quayMemUncCnt]; omega) (by simp only [inBpBlock, F.quayMemUncOvf]; omega)
  · exact Spares.inc s (fun h => absurd h.1 (by decide)) (fun h => absurd h.1 (by decide))
  · exact Spares.refl s

theorem Spares.setCell (s : State) (k : MemSel) (a : Nat) (c : Cell) : Spares s (s.setCell k a c) := ⟨rfl, rfl, rfl, fun _ _ => rfl⟩

theorem Spares.memRead (s : State) (k : MemSel) (a src : Nat) : Spares s (s.memRead k a src).2 := by
  unfold State.memRead
  dsimp only
  split
  · exact Spares.countUnc ..
  · split
    · exact Spares.refl s
    · exact ((Spares.countCorr s k a).trans (Spares.report ..)).trans ⟨rfl, rfl, rfl, fun _ _ => rfl⟩
    · exact (Spares.setCell ..).trans (Spares.countUnc ..)

theorem Spares.memWrites (s : State) (k : MemSel) (a : Nat) (l : List Word) : Spares s (s.memWrites k a l) := by
  refine ⟨?_, ?_, ?_, fun b _ => ?_⟩
  iterate 3 rw [memWrites_eq]
  rw [State.reg, memWrites_eq]; rfl

theorem Spares.readRun (s : State) (k : MemSel) (lo hi src : Nat) : Spares s (s.readRun k lo hi src).2 := by
  refine List.foldlRecOn (motive := fun acc : Option Nat × State => Spares s acc.2) _ _ (Spares.refl s) fun acc h a _ => ?_
  dsimp only
  split
  · exact h
  · exact h.trans (Spares.memRead ..)

/-! ### Channels, the journal and the decisions of a replay -/

theorem Spares.setLighter (s : State) (n : Nat) (l : Lighter) : Spares s (s.setLighter n l) := ⟨rfl, rfl, rfl, fun _ _ => rfl⟩

theorem Spares.withRpl (s : State) (r : Replay) : Spares s { s with rpl := r } := ⟨rfl, rfl, rfl, fun _ _ => rfl⟩

theorem Spares.devServe (s : State) (n a count : Nat) : Spares s (s.devServe n a count) := Spares.setLighter ..

theorem Spares.ltrStop (s : State) (n code : Nat) (side : Bool) (a : Int) : Spares s (s.ltrStop n code side a) :=
  (Spares.setLighter s n _).trans (Spares.report ..)

theorem Spares.jPlace (s : State) (ty : Nat) (cyc : Word) (k i : Nat) : Spares s (s.jPlace ty cyc k i).1 := by
  induction k generalizing s i with
  | zero => exact Spares.refl s
  | succ k ih =>
    rw [State.jPlace]
    refine iteInduction (motive := fun r : State × Nat => Spares s r.1) (fun _ => ?_) (fun _ => ?_)
    · refine Spares.trans ?_ (ih _ _)
      exact List.foldlRecOn (motive := Spares s) _ _ (Spares.refl s) fun _ h _ _ => h.trans (Spares.setCell ..)
    · exact Spares.refl s

theorem Spares.journal (s : State) (ty detail : Nat) (cyc w2 w3 : Word) : Spares s (s.journal ty detail cyc w2 w3) := by
  unfold State.journal
  split
  · exact (((Spares.jPlace ..).trans (Spares.memWrites ..)).trans (Spares.withRpl ..)).trans (Spares.devServe ..)
  · exact Spares.refl s

theorem Spares.jTake (s : State) : Spares s s.jTake.2 := by
  unfold State.jTake
  extract_lets a r s1
  have h1 : Spares s s1 := Spares.withRpl ..
  split
  · exact h1
  · have hrun := h1.trans (Spares.readRun s1 .hold a (a + 4) srcHold)
    split
    next heq => rw [heq] at hrun; exact hrun.trans (Spares.devServe ..)
    next heq => rw [heq] at hrun; exact hrun.trans (Spares.ltrStop ..)

theorem Spares.diverge (s : State) (kind unit pos : Nat) : Spares s (s.diverge kind unit pos) := by
  unfold State.diverge
  have hinc : Spares s (s.inc F.rplStatDivCnt F.rplStatDivOvf) := Spares.inc s (fun h => absurd h.1 (by decide)) (fun h => absurd h.1 (by decide))
  dsimp only
  split
  · exact hinc
  · exact hinc.trans (Spares.withRpl ..)

theorem Spares.decision (s : State) (e : Nat) (mailbox : Bool) (w2 w3 : Word) : Spares s (s.decision e mailbox w2 w3) := by
  unfold State.decision
  dsimp only
  split
  · exact Spares.refl s
  · split
    · split
      · split
        · exact Spares.jTake s
        · exact (Spares.jTake s).trans (Spares.diverge ..)
      · exact Spares.diverge ..
    · exact Spares.journal ..

theorem Spares.liveEntry (s : State) (who a : Nat) (w mask : Word) : Spares s (s.liveEntry who a w mask) := by
  unfold State.liveEntry
  split
  · exact Spares.journal ..
  · split
    · exact Spares.refl s
    · exact Spares.journal ..

/-! ### Coexistence demand and the note of the first service -/

theorem Spares.cxDemand (s : State) {k : Nat} (hk : k < 4) : Spares s (s.cxDemand k) := by
  have hset : ∀ x, Spares s (s.setCx k x) := fun _ => ⟨rfl, rfl, rfl, fun _ _ => rfl⟩
  unfold State.cxDemand
  dsimp only
  split
  · split
    · split
      · exact hset _
      · exact Spares.refl s
    · split
      · exact hset _
      · exact (hset _).trans (Spares.inc _ (by simp only [inBpBlock, F.cxStatGrantCnt]; omega) (by simp only [inBpBlock, F.cxStatGrOvf]; omega))
  · exact Spares.refl s

theorem cxBound_lt {s : State} {n k : Nat} (h : s.cxBound n = some k) : k < 4 := by
  unfold cxBound at h
  dsimp only at h
  split at h
  · injection h; omega
  · exact absurd h (by simp)

theorem Spares.cxOf (s : State) (n : Nat) : Spares s (s.cxOf n) := by
  unfold State.cxOf
  split
  next k h => exact Spares.cxDemand s (cxBound_lt h)
  · exact Spares.refl s

theorem Spares.noteActive (s : State) : Spares s s.noteActive := by
  unfold State.noteActive
  split
  · exact Spares.wr s _ (fun h => absurd h.1 (by decide))
  · exact Spares.refl s

end Sys2Proof.Machine.State
end

section
/-! An accepted write of a band path's datapath register: what it leaves to its effect, and the word a writer of some fields sends (R432, R434, R436). -/

namespace Sys2Proof.Machine.State

/-! ### The word sent -/

/-- A self-acting bit that the writer does not set is sent as zero (R435, R436). -/
theorem restWord_selfActing (s : State) (who : Nat) {a i : Nat} (h : (selfActing a).getLsbD i = true) :
    (s.restWord who a).getLsbD i = false := by
  unfold restWord
  split
  · simp [h]
  · simp

/-! ### The registers of a band path -/

/-- The datapath registers whose writes act: BP_CTRL, BP_NCO, BP_PATH, BP_RSMP_STEP and BP_BW_CTRL. -/
def actingOffsets : List Nat := [0, 1, 2, 3, 8]

theorem actingOffsets_lt {j : Nat} (hj : j ∈ actingOffsets) : j < 12 := by
  revert j
  decide

theorem rowsNow_bp (s : State) {n j : Nat} (hn : n < 128) (hj : j < 12) : s.rowsNow (4096 + 16 * n + j) = some (rowsOfBp j) := by
  have hoff : (4096 + 16 * n + j - 4096) % 16 = j := by omega
  rw [rowsNow, if_neg (by omega), layout]
  iterate 9 rw [if_neg (by omega)]
  rw [if_pos (by omega), if_pos (by omega), hoff]

theorem rowsOfBp_acc {j : Nat} (hj : j ∈ actingOffsets) : ∀ r ∈ rowsOfBp j, r.acc ≠ .w1c := by
  revert j
  decide

theorem clearW1c_of_none (s : State) (a : Nat) (w : Word) {rows : List Row} (h : ∀ r ∈ rows, r.acc ≠ .w1c) :
    s.clearW1c a w rows = s := by
  induction rows with
  | nil => rfl
  | cons r t ih =>
    have hr : ¬ (r.acc = .w1c ∧ w.getLsbD r.lo = true) := fun hw => h r List.mem_cons_self hw.1
    cases t with
    | nil => rw [clearW1c, if_neg hr]
    | cons q t =>
      rw [clearW1c, if_neg hr]
      exact ih fun x hx => h x (List.mem_cons_of_mem r hx)

theorem writeFx_bp (s : State) (who : Nat) {n j : Nat} (w : Word) (hn : n < 128) (hj : j < 12) :
    s.writeFx who (4096 + 16 * n + j) w = s.writeBp n j w := by
  have hbp : (4096 + 16 * n + j - 4096) / 16 = n := by omega
  have hoff : (4096 + 16 * n + j - 4096) % 16 = j := by omega
  rw [writeFx]
  iterate 4 rw [if_neg (by omega)]
  iterate 9 rw [if_neg (by omega)]
  rw [if_pos (by omega), hbp, hoff]

/-! ### An accepted write -/

/-- A write of `w` to register `j` of band path `n` has acted on `q`, what the journal and a replay's decision leave of `s`; the parity of the register is good again (R434, R438). -/
structure Written (s : State) (n j : Nat) (w : Word) (q t : State) : Prop where
  spares : Spares s q
  effect : t = { q.writeBp n j w with parBad := t.parBad }

namespace Written
variable {s q t : State} {n j : Nat} {w : Word} (h : Written s n j w q t)
include h

theorem bps : t.bps = (q.writeBp n j w).bps := by rw [h.effect]
theorem bp (m : Nat) : t.bp m = (q.writeBp n j w).bp m := by rw [State.bp, h.bps]; rfl
theorem rsmp : t.rsmp = (q.writeBp n j w).rsmp := by rw [h.effect]
theorem rd (f : Fld) : t.rd f = (q.writeBp n j w).rd f := by rw [h.effect]; rfl

end Written

/-- The journal entry, then the effect on the band path. -/
theorem acceptWrite_bp (s : State) (who : Nat) {n j : Nat} (w : Word) (hn : n < 128) (hj : j ∈ actingOffsets) :
    let a := 4096 + 16 * n + j
    s.acceptWrite who a w = { (s.liveEntry who a w (s.effMask a w (rowsOfBp j))).writeBp n j w with
      parBad := (s.acceptWrite who a w).parBad } := by
  have hj12 := actingOffsets_lt hj
  dsimp only
  rw [acceptWrite, rowsNow_bp s hn hj12, Option.getD_some, writeFx_bp _ _ _ hn hj12, clearW1c_of_none _ _ _ (rowsOfBp_acc hj)]

theorem reqWrite_written {s : State} {who : Requester} {n j a : Nat} {w : Word} (ha : a = 4096 + 16 * n + j) (hn : n < 128)
    (hj : j ∈ actingOffsets) (h : s.takesWord who a w = true) : ∃ q, Written s n j w q (s.reqWrite (reqCode who) a w).2 := by
  have hj12 : j < 12 := actingOffsets_lt hj
  obtain ⟨hreach, hans⟩ : s.canReach (reqCode who) = true ∧ s.writeAns a w = .ok := by
    simpa only [takesWord, Bool.and_eq_true, beq_iff_eq] using h
  obtain ⟨d, hd, hwrite⟩ : ∃ d, Spares s d ∧ (s.reqWrite (reqCode who) a w).2 = d.acceptWrite (reqCode who) a w := by
    rw [reqWrite, if_pos hreach, hans]
    refine ⟨_, ?_, rfl⟩
    split
    · exact Spares.decision ..
    · exact Spares.refl s
  subst ha
  rw [hwrite]
  exact ⟨_, hd.trans (Spares.liveEntry ..), acceptWrite_bp _ _ _ hn hj⟩

/-- An accepted write of some fields sends the word of R436. -/
theorem fieldWrite_written {s : State} {who : Requester} {n j a : Nat} {l : List (Fld × Nat)} (ha : a = 4096 + 16 * n + j) (hn : n < 128)
    (hj : j ∈ actingOffsets) (h : s.takes who a l = true) : ∃ q, Written s n j (s.wordOf who a l) q (s.fieldWrite who a l) :=
  reqWrite_written ha hn hj h

end Sys2Proof.Machine.State
end

section
/-! What a change inside one band path leaves, and the change of band rate (R60, R61, R76, R85, R87, R139 to R142). -/

namespace Sys2Proof.Machine.State

/-! ### Changes inside one band path -/

/-- Only band path `n` changes, and neither its plan, the resamplers nor, MARGIN_MUTE's register apart, the registers of the band paths' blocks. -/
structure Within (n : Nat) (s t : State) : Prop where
  img : t.img = s.img
  rsmp : t.rsmp = s.rsmp
  others : s.otherBps t n
  reg : ∀ a, inBpBlock a → a ≠ (F.bpBwStatMarginMute n).addr → t.reg a = s.reg a

section
variable {n : Nat} {s t u : State}

theorem Within.refl (n : Nat) (s : State) : Within n s s := ⟨rfl, rfl, fun _ _ => rfl, fun _ _ _ => rfl⟩

theorem Within.trans (h : Within n s t) (g : Within n t u) : Within n s u :=
  ⟨g.img.trans h.img, g.rsmp.trans h.rsmp, fun m hm => (g.others m hm).trans (h.others m hm),
    fun a ha hne => (g.reg a ha hne).trans (h.reg a ha hne)⟩

theorem Spares.bp (h : Spares s t) (m : Nat) : t.bp m = s.bp m := by rw [State.bp, h.bps]; rfl

theorem Spares.within (h : Spares s t) : Within n s t := ⟨h.img, h.rsmp, fun m _ => h.bp m, fun a ha _ => h.reg a ha⟩

theorem Within.setBp (s : State) (n : Nat) (b : Bp) : Within n s (s.setBp n b) :=
  ⟨rfl, rfl, fun _ hm => setBp_bp_ne _ _ hm, fun _ _ _ => rfl⟩

theorem Within.clearMore (s : State) (n k : Nat) : Within n s (s.clearMore n k) := Within.setBp ..
theorem Within.clearFloor (s : State) (n : Nat) : Within n s (s.clearFloor n) := Within.setBp ..

end

/-- A change inside band path `n` that goes on with its samples: its flow stands, and a closed gate, an ISO_SRC of 3 and no armed swap stay so. -/
structure Settles (n : Nat) (s t : State) : Prop extends Within n s t where
  flow : (t.bp n).flow = (s.bp n).flow
  gate : (s.bp n).gain.gate = .closed → (t.bp n).gain.gate = .closed
  isoSrc : (s.bp n).bw.isoSrc = 3 → (t.bp n).bw.isoSrc = 3
  armed : (s.bp n).bw.armed = false → (t.bp n).bw.armed = false

section
variable {n : Nat} {s t u : State}

theorem Settles.refl (n : Nat) (s : State) : Settles n s s := ⟨Within.refl n s, rfl, id, id, id⟩

theorem Settles.trans (h : Settles n s t) (g : Settles n t u) : Settles n s u :=
  ⟨h.toWithin.trans g.toWithin, g.flow.trans h.flow, g.gate ∘ h.gate, g.isoSrc ∘ h.isoSrc, g.armed ∘ h.armed⟩

theorem Spares.settles (h : Spares s t) : Settles n s t := by
  have hbp := h.bp n
  exact ⟨h.within, by rw [hbp], by rw [hbp]; exact id, by rw [hbp]; exact id, by rw [hbp]; exact id⟩

theorem Settles.setBp {b : Bp} (hflow : b.flow = (s.bp n).flow) (hgate : (s.bp n).gain.gate = .closed → b.gain.gate = .closed)
    (hiso : (s.bp n).bw.isoSrc = 3 → b.bw.isoSrc = 3) (harmed : (s.bp n).bw.armed = false → b.bw.armed = false) :
    Settles n s (s.setBp n b) := by
  refine ⟨Within.setBp .., ?_, ?_, ?_, ?_⟩ <;> rwa [setBp_bp_same]

end

/-! ### What a change of rate clears -/

theorem Settles.zeroBank (s : State) (n : Nat) (b : Bool) : Settles n s (s.zeroBank n b) :=
  ⟨⟨rfl, rfl, fun _ _ => rfl, fun _ _ _ => rfl⟩, rfl, id, id, id⟩

theorem Settles.dropSwap (s : State) (n r : Nat) : Settles n s (s.dropSwap n r) := Settles.setBp rfl id id fun _ => rfl

theorem Settles.cancelSwap (s : State) (n : Nat) : Settles n s (s.cancelSwap n) := by
  unfold State.cancelSwap
  split
  · exact Settles.dropSwap ..
  · exact Settles.refl n s

theorem cancelSwap_armed (s : State) (n : Nat) : ((s.cancelSwap n).bp n).bw.armed = false := by
  unfold State.cancelSwap
  split
  · rw [dropSwap, setBp_bp_same]
  · exact Bool.eq_false_iff.mpr ‹_›

theorem Settles.gateReset (s : State) (n : Nat) : Settles n s (s.gateReset n) := Settles.setBp rfl (fun _ => rfl) id id

theorem gateReset_gate (s : State) (n : Nat) : ((s.gateReset n).bp n).gain.gate = .closed := by
  rw [State.gateReset, setBp_bp_same]

theorem Settles.dropProbe (s : State) (n : Nat) : Settles n s (s.dropProbe n) := Settles.setBp rfl id id id
theorem Settles.clearFloor (s : State) (n : Nat) : Settles n s (s.clearFloor n) := Settles.setBp rfl id id id
theorem Settles.restartTrip (s : State) (n : Nat) : Settles n s (s.restartTrip n) := Settles.setBp rfl id id id

theorem Spares.setTap (s : State) (n : Nat) (x : Taps) : Spares s (s.setTap n x) := ⟨rfl, rfl, rfl, fun _ _ => rfl⟩

theorem Settles.dropCapture (s : State) (n : Nat) : Settles n s (s.dropCapture n) := by
  unfold State.dropCapture
  dsimp only
  split
  · exact Settles.refl n s
  · refine Settles.trans ?_ (Spares.setTap ..).settles
    exact Settles.setBp rfl id id id

/-! ### The margin check -/

theorem Settles.setSt (s : State) (n : Nat) (st : BpSt) : Settles n s (s.setSt n st) := Settles.setBp rfl id id id

theorem Settles.settleSt (s : State) (n : Nat) : Settles n s (s.settleSt n) := by
  unfold State.settleSt
  dsimp only
  split
  · exact Settles.refl n s
  · split
    · split
      · exact (Settles.setSt ..).trans ((Spares.noteActive _).trans (Spares.cxOf ..)).settles
      · exact Settles.refl n s
    · split
      · exact Settles.refl n s
      · exact Settles.setSt ..
    · split
      · exact Settles.setSt ..
      · exact Settles.refl n s
    · exact Settles.refl n s

theorem Settles.ceilGain (s : State) (n : Nat) : Settles n s (s.ceilGain n) := by
  unfold State.ceilGain
  dsimp only
  split <;> exact Settles.setBp rfl id id id

theorem Settles.leaveService (s : State) (n : Nat) : Settles n s (s.leaveService n) :=
  ((Settles.gateReset s n).trans (Settles.dropProbe ..)).trans (Settles.dropCapture ..)

theorem Settles.tripped (s : State) (n code : Nat) : Settles n s (s.tripped n code) := by
  unfold State.tripped
  extract_lets b p cause counted locks secs p1 p2
  split
  · split
    · exact Settles.setBp rfl id id id
    · exact Settles.refl n s
  · split
    iterate 3 exact Settles.refl n s
    extract_lets p3 p4 s1 s2
    have h1 : Settles n s s1 := Settles.setBp rfl id id id
    have h2 : Settles n s s2 := by
      refine h1.trans (Settles.trans ?_ (Spares.cxOf ..).settles)
      split
      · exact Settles.refl n s1
      · exact Settles.leaveService ..
    split
    · exact h2.trans (Spares.report ..).settles
    · exact h2

theorem Settles.wrMarginMute (s : State) (n v : Nat) : Settles n s (s.wr (F.bpBwStatMarginMute n) v) :=
  ⟨⟨rfl, rfl, fun _ _ => rfl, fun _ _ hne => wr_reg_ne s v hne⟩, rfl, id, id, id⟩

theorem Settles.marginCheck (s : State) (n : Nat) : Settles n s (s.marginCheck n).2 := by
  unfold State.marginCheck
  extract_lets b f m bw s1 c b1 bw1 s2 s3 s4
  have h1 : Settles n s s1 := Settles.setBp rfl id id id
  clear_value s1
  have h2 : Settles n s1 s2 := Settles.setBp rfl id id id
  have h4 : Settles n s1 s4 := Settles.setBp rfl id id id
  clear_value s2 s4
  have h3 : Settles n s2 s3 := ((Settles.wrMarginMute ..).trans (Settles.ceilGain ..)).trans (Settles.tripped ..)
  clear_value s3
  split
  · split
    · exact ((h1.trans h2).trans h3).trans (Spares.report ..).settles
    · exact (((h1.trans h4).trans (Settles.ceilGain ..)).trans (Settles.settleSt ..)).trans (Spares.report ..).settles
  · exact h1

/-! ### The change of rate -/

/-- The band path goes on at a new rate (R76): its samples' bookkeeping stands, its gate is closed, ISO_SRC says a rate change and no swap is armed. -/
structure Rerated (n : Nat) (s t : State) : Prop extends Within n s t where
  flow : (t.bp n).flow = (s.bp n).flow
  gate : (t.bp n).gain.gate = .closed
  isoSrc : (t.bp n).bw.isoSrc = 3
  armed : (t.bp n).bw.armed = false

theorem rateChange_rerated (s : State) (n : Nat) : Rerated n s (s.rateChange n) := by
  unfold State.rateChange
  extract_lets s1 s2 s3 b iso bw bw1 fast bw2 s4
  have harmed : (s1.bp n).bw.armed = false := cancelSwap_armed ..
  have h1 : Settles n s s1 := ((Settles.zeroBank ..).trans (Settles.zeroBank ..)).trans (Settles.cancelSwap ..)
  clear_value s1
  obtain ⟨hgate, h3⟩ : (s3.bp n).gain.gate = .closed ∧ Settles n s1 s3 := by
    have hrest : Settles n ((s1.dropProbe n).gateReset n) s3 :=
      ((Settles.clearFloor ..).trans (Settles.restartTrip ..)).trans (Settles.dropCapture ..)
    exact ⟨hrest.gate (gateReset_gate ..), ((Settles.dropProbe ..).trans (Settles.gateReset ..)).trans hrest⟩
  clear_value s3
  have h4 : Settles n s3 s4 := Settles.setBp rfl id (fun _ => rfl) id
  have hiso : (s4.bp n).bw.isoSrc = 3 := by rw [setBp_bp_same]
  clear_value s4
  have hrerated : ∀ {t}, Settles n s4 t → Rerated n s t := fun {t} h5 =>
    have h := (h3.trans h4).trans h5
    ⟨h1.toWithin.trans h.toWithin, h.flow.trans h1.flow, (h4.trans h5).gate hgate, h5.isoSrc hiso, h.armed harmed⟩
  split
  · have hmargin := Settles.marginCheck s4 n
    generalize s4.marginCheck n = r at hmargin ⊢
    obtain ⟨moved, s5⟩ := r
    dsimp only at hmargin ⊢
    split
    · exact hrerated (hmargin.trans (Settles.setBp rfl id id id))
    · exact hrerated hmargin
  · exact hrerated (Settles.refl n s4)

end Sys2Proof.Machine.State
end

section
/-! The effects of the datapath registers on their band path (R39, R44, R47, R53, R55, R60 to R62, R72, R74). -/

namespace Sys2Proof.Machine.State

/-! ### What an effect reads where only what lies beside the band paths has changed -/

section
variable {s q : State} (h : Spares s q)
include h

theorem Spares.passing (n : Nat) : q.passing n = s.passing n := by rw [State.passing, h.bp]; rfl

theorem Spares.planN (n i : Nat) : q.planN n i = s.planN n i := by rw [State.planN, State.plan, h.img]; rfl

theorem Spares.pathMode (n : Nat) : q.pathMode n = s.pathMode n := by
  have hgv : q.gvSource n = s.gvSource n := by rw [State.gvSource, State.plan, h.img]; rfl
  rw [State.pathMode, hgv, h.planN, h.bp]; rfl

theorem Spares.freeResampler : q.freeResampler = s.freeResampler := by
  unfold State.freeResampler State.resampler
  rw [h.rsmp]

theorem Spares.rd {f : Fld} (hf : inBpBlock f.addr) : q.rd f = s.rd f := by rw [State.rd, h.reg _ hf]; rfl

end

theorem Within.rd {n : Nat} {s t : State} (h : Within n s t) {f : Fld} (hf : inBpBlock f.addr)
    (hne : f.addr ≠ (F.bpBwStatMarginMute n).addr) : t.rd f = s.rd f := by
  rw [State.rd, h.reg _ hf hne]; rfl

/-- A value that fits its field reads as written. -/
theorem rd_wr_of_lt (s : State) (a : Nat) {hi lo v : Nat} (hlo : lo ≤ hi) (hhi : hi < 40) (hv : v < 2 ^ (hi - lo + 1)) :
    (s.wr ⟨a, hi, lo⟩ v).rd ⟨a, hi, lo⟩ = v := by
  rw [rd_wr_same s _ v hlo hhi, Nat.mod_eq_of_lt hv]

/-! ### VALID-clear runs and the floor history -/

theorem clearMore_bp (s : State) (n k : Nat) :
    (s.clearMore n k).bp n = { s.bp n with flow := { (s.bp n).flow with clearLeft := Nat.max (s.bp n).flow.clearLeft k } } :=
  setBp_bp_same ..

theorem clearFloor_flow (s : State) (n : Nat) : ((s.clearFloor n).bp n).flow = (s.bp n).flow := by rw [State.clearFloor, setBp_bp_same]

theorem clearFloor_blocks (s : State) (n : Nat) : ((s.clearFloor n).bp n).floor.blocks = [] := by rw [State.clearFloor, setBp_bp_same]

/-! ### FREQ and BP_PATH -/

theorem freqFx_within (s : State) (n f : Nat) : Within n (s.wr (F.bpNcoFreq n) f) (s.freqFx n f) := by
  unfold freqFx
  dsimp only
  split
  · exact (Within.clearFloor ..).trans (Within.clearMore ..)
  · exact Within.clearFloor ..

/-- A FREQ write never shortens a VALID-clear run, and clears the floor history (R60, R112). -/
theorem freqFx_bp (s : State) (n f : Nat) :
    (s.bp n).flow.clearLeft ≤ ((s.freqFx n f).bp n).flow.clearLeft ∧ ((s.freqFx n f).bp n).floor.blocks = [] := by
  have hflow := clearFloor_flow (s.wr (F.bpNcoFreq n) f) n
  have hblocks := clearFloor_blocks (s.wr (F.bpNcoFreq n) f) n
  rw [wr_bp_frame] at hflow
  unfold freqFx
  dsimp only
  split
  · rw [clearMore_bp, hflow]
    exact ⟨Nat.le_max_left .., hblocks⟩
  · exact ⟨by rw [hflow], hblocks⟩

/-- On a resampler path the half-band fields and CF are stored, CF last, and the rest of the effect lies inside the band path (R62). -/
theorem pathFx_within {s : State} {n : Nat} (w : Word) (h : s.pathMode n = 0) :
    ∃ r : State, r.bps = s.bps ∧ Within n (r.wr (F.bpPathCf n) (bitsOf w 20 17)) (s.pathFx n w) := by
  unfold pathFx
  rw [if_neg (not_not.mpr h)]
  extract_lets old used s1 s2 ks cf s3 s4
  have h1 : s1.bps = s.bps := List.foldlRecOn (motive := fun t : State => t.bps = s.bps) _ _ rfl fun _ h _ _ => h
  refine ⟨s1, h1, ?_⟩
  have h3 : Within n s2 s3 := List.foldlRecOn (motive := Within n s2) _ _ (Within.refl n s2) fun _ h _ _ => h.trans (Within.clearMore ..)
  have h4 : Within n s2 s4 := by
    simp only [s4]
    split
    · split
      · exact h3.trans (Within.clearMore ..)
      · exact h3
    · exact Within.refl n s2
  split
  · exact h4.trans (Within.clearFloor ..)
  · exact h4

/-! ### STEP -/

/-- A new STEP on a resampler path opens its VALID-clear run and changes the rate (R44, R76). -/
theorem stepFx_rerated {s : State} {n stp : Nat} (hmode : s.pathMode n = 0) (hnew : s.rd (F.bpRsmpStepStep n) ≠ stp) :
    ∃ r, Within n (s.wr (F.bpRsmpStepStep n) stp) r ∧ Rerated n r (s.stepFx n stp) := by
  unfold stepFx
  rw [if_neg (not_or.mpr ⟨not_not.mpr hmode, hnew⟩)]
  refine ⟨_, ?_, rateChange_rerated ..⟩
  split
  · exact Within.clearMore ..
  · exact Within.refl ..

/-- STEP is ignored on a path without a resampler, and an equal one changes nothing (R44). -/
theorem stepFx_of_ignored {s : State} {n stp : Nat} (h : s.pathMode n ≠ 0 ∨ s.rd (F.bpRsmpStepStep n) = stp) : s.stepFx n stp = s := if_pos h

/-! ### BP_CTRL -/

theorem rdB_wrB_dcFreeze (s : State) (n : Nat) (x : Bool) : (s.wrB (F.bpCtrlDcFreeze n) x).rdB (F.bpCtrlDcFreeze n) = x := by
  have hrd : (s.wrB (F.bpCtrlDcFreeze n) x).rd (F.bpCtrlDcFreeze n) = if x then 1 else 0 :=
    rd_wr_of_lt s _ (by decide) (by decide) (by cases x <;> decide)
  rw [rdB, hrd]
  cases x <;> rfl

/-- DC_FREEZE touches no resampler, and of the band paths only the VALID-clear run of its own. -/
theorem dcFreezeFx_bp (s : State) (n : Nat) (f : Bool) :
    (s.dcFreezeFx n f).rsmp = s.rsmp ∧ s.otherBps (s.dcFreezeFx n f) n ∧
      ∃ k, (s.dcFreezeFx n f).bp n = { s.bp n with flow := { (s.bp n).flow with clearLeft := k } } := by
  unfold dcFreezeFx
  dsimp only
  split
  · have h := Within.clearMore (s.wrB (F.bpCtrlDcFreeze n) f) n ((s.wrB (F.bpCtrlDcFreeze n) f).clearDc n)
    exact ⟨h.rsmp, h.others, _, clearMore_bp ..⟩
  · exact ⟨rfl, fun _ _ => rfl, (s.bp n).flow.clearLeft, rfl⟩

theorem dcFreezeFx_true (s : State) (n : Nat) : s.dcFreezeFx n true = s.wrB (F.bpCtrlDcFreeze n) true := by
  simp [dcFreezeFx]

/-- The estimate moves on: the VALID-clear run of R60. -/
theorem dcFreezeFx_false {s : State} {n : Nat} (hwas : s.rdB (F.bpCtrlDcFreeze n) = true) (hpass : s.passing n = true) :
    s.dcFreezeFx n false = (s.wrB (F.bpCtrlDcFreeze n) false).clearMore n (s.clearDc n) := by
  have hpass' : (s.wrB (F.bpCtrlDcFreeze n) false).passing n = true := hpass
  simp only [dcFreezeFx, hwas, hpass', Bool.not_false, Bool.and_self, if_true]
  rfl

/-- Band path `n` holds resampler `k` (R46, R47). -/
structure HoldsResampler (n k : Nat) (s t : State) : Prop where
  held : t.resampler k = .held (BitVec.ofNat 7 n)
  others : s.otherBps t n
  inst : (t.bp n).flow.inst = some (BitVec.ofNat 6 k)
  fallback : (t.bp n).flow.fallback = false

theorem takeResampler_of_free {s : State} (n : Nat) {k : Nat} (h : s.freeResampler = some k) : HoldsResampler n k s (s.takeResampler n) := by
  simp only [takeResampler, h]
  refine ⟨?_, fun m hm => ?_, ?_, ?_⟩
  · rw [setBp_resampler_frame, setResampler_resampler_same]
  · rw [setBp_bp_ne _ _ hm]; rfl
  · rw [setBp_bp_same]
  · rw [setBp_bp_same]

/-- A fallback path moves to the lowest free resampler, and its rate changes with it (R47, R61). -/
theorem rsmpRetryFx_of_free {s : State} {n k : Nat} (hmode : s.pathMode n = 2) (hfree : s.freeResampler = some k) :
    HoldsResampler n k s (s.rsmpRetryFx n) := by
  have htake := takeResampler_of_free n hfree
  rw [rsmpRetryFx, if_pos ⟨hmode, by rw [hfree]; rfl⟩]
  generalize s.takeResampler n = m at htake
  extract_lets r b flow s2
  have hrate := rateChange_rerated s2 n
  have hown : s2.bp n = { b with flow := { b.flow with clearLeft := r.clearMove n } } := setBp_bp_same ..
  refine ⟨?_, fun j hj => ?_, ?_, ?_⟩
  · rw [State.resampler, hrate.rsmp]; exact htake.held
  · rw [hrate.others j hj, setBp_bp_ne _ _ hj, htake.others j hj]
  · rw [hrate.flow, hown]; exact htake.inst
  · rw [hrate.flow, hown]; exact htake.fallback

theorem rsmpRetryFx_of_none {s : State} (n : Nat) (h : s.freeResampler = none) : s.rsmpRetryFx n = s := by
  rw [rsmpRetryFx, if_neg (by simp [h])]

/-! ### BP_BW_CTRL -/

/-- The canceller's state once a swap has been asked for at sample `seq`: busy, off, armed, or late (R72, R74). -/
def swapAsked (s : State) (n : Nat) (seq : BitVec 24) : BpBw :=
  let b := s.bp n
  let lead := (seq - (b.flow.seq - 1)).toNat
  if b.bw.armed then { b.bw with swapResult := 3 }
  else if !s.passing n then { b.bw with swapResult := 7 }
  else if 1 ≤ lead ∧ lead < 2 ^ 23 then { b.bw with armed := true, scan := none }
  else { b.bw with swapResult := 2 }

section
variable {s : State} {n : Nat} {seq : BitVec 24}

theorem swapAsked_of_armed (h : (s.bp n).bw.armed = true) : s.swapAsked n seq = { (s.bp n).bw with swapResult := 3 } := if_pos h

theorem swapAsked_of_off (h : (s.bp n).bw.armed = false) (hoff : s.passing n = false) :
    s.swapAsked n seq = { (s.bp n).bw with swapResult := 7 } := by
  simp only [swapAsked, h, hoff, Bool.false_eq_true, if_false, Bool.not_false, if_true]

theorem swapAsked_of_passing (h : (s.bp n).bw.armed = false) (hpass : s.passing n = true) :
    s.swapAsked n seq =
      if 1 ≤ (seq - ((s.bp n).flow.seq - 1)).toNat ∧ (seq - ((s.bp n).flow.seq - 1)).toNat < 2 ^ 23 then
        { (s.bp n).bw with armed := true, scan := none }
      else { (s.bp n).bw with swapResult := 2 } := by
  simp only [swapAsked, h, hpass, Bool.false_eq_true, if_false, Bool.not_true]

end

theorem swapArmFx_bps (s : State) (n : Nat) (seq : BitVec 24) :
    (s.swapArmFx n seq.toNat).bps = (s.setBp n { s.bp n with bw := s.swapAsked n seq }).bps := by
  have hseq : BitVec.ofNat 24 seq.toNat = seq := by simp
  have hpass : (s.wr (F.bpBwCtrlSwapSeq n) seq.toNat).passing n = s.passing n := rfl
  unfold swapArmFx swapAsked
  simp only [hseq, hpass]
  split
  · rfl
  · split
    · rfl
    · split <;> rfl

/-- A swap that is not refused as busy leaves its sample number in SWAP_SEQ. -/
theorem swapArmFx_seq {s : State} {n : Nat} (seq : BitVec 24) (h : (s.bp n).bw.armed = false) :
    (s.swapArmFx n seq.toNat).rd (F.bpBwCtrlSwapSeq n) = seq.toNat := by
  have hrd : (s.wr (F.bpBwCtrlSwapSeq n) seq.toNat).rd (F.bpBwCtrlSwapSeq n) = seq.toNat :=
    rd_wr_of_lt s _ (by decide) (by decide) seq.isLt
  unfold swapArmFx
  simp only [h, Bool.false_eq_true, if_false]
  split
  · exact hrd
  · split <;> exact hrd

end Sys2Proof.Machine.State
end

section
/-! What an accepted write of each datapath register does (R39, R44, R47, R53, R55, R62, R72, R74, R84). -/

namespace Sys2Proof.Machine.State

/-! ### The word of a write of fields -/

section
variable (s : State) (who : Requester) (a x : Nat) {hi lo v : Nat}

theorem wordOf_single : s.wordOf who a [(⟨x, hi, lo⟩, v)] = putBits (s.restWord (reqCode who) a) hi lo v := rfl

/-- A field is sent as written. -/
theorem bitsOf_wordOf (hlo : lo ≤ hi) (hhi : hi < 40) (hv : v < 2 ^ (hi - lo + 1)) : bitsOf (s.wordOf who a [(⟨x, hi, lo⟩, v)]) hi lo = v := by
  rw [wordOf_single, bitsOf_putBits_same _ v hlo hhi, Nat.mod_eq_of_lt hv]

/-- A one-bit field is sent as written. -/
theorem getLsbD_wordOf_same (v : Nat) (hlo : lo < 40) : (s.wordOf who a [(⟨x, lo, lo⟩, v)]).getLsbD lo = v.testBit 0 := by
  rw [wordOf_single, getLsbD_putBits _ _ _ _ _ hlo, if_pos (by omega), Nat.sub_self]

/-- A self-acting bit beside the field written is sent as zero. -/
theorem getLsbD_wordOf_selfActing (v : Nat) {i : Nat} (hout : i < lo ∨ hi < i) (hlo : lo ≤ hi) (hi' : i < 40)
    (hself : (selfActing a).getLsbD i = true) : (s.wordOf who a [(⟨x, hi, lo⟩, v)]).getLsbD i = false := by
  rw [wordOf_single, getLsbD_putBits _ _ _ _ _ hi', if_neg (by omega)]
  exact restWord_selfActing s _ hself

end

/-- RSMP_RETRY and METER_RESTART act by themselves (R436). -/
theorem selfActing_ctrl {n : Nat} (hn : n < 128) : selfActing (4096 + 16 * n) = maskOf 2 1 := by
  rw [selfActing]
  exact if_pos (by omega)

/-- SWAP_ARM acts by itself (R436). -/
theorem selfActing_bwCtrl {n : Nat} (hn : n < 128) : selfActing (4104 + 16 * n) = maskOf 39 39 := by
  rw [selfActing]
  exact (if_neg (by omega)).trans (if_pos (by omega))

/-- A self-acting bit of BP_CTRL beside the one written is sent as zero. -/
theorem wordOf_ctrl_idle (s : State) (who : Requester) {n : Nat} (hn : n < 128) (x v : Nat) {k i : Nat} (hi : i = 1 ∨ i = 2) (hk : i ≠ k) :
    (s.wordOf who (4096 + 16 * n) [(⟨x, k, k⟩, v)]).getLsbD i = false := by
  refine getLsbD_wordOf_selfActing s who _ x v (by omega) (Nat.le_refl k) (by omega) ?_
  rw [selfActing_ctrl hn]
  obtain rfl | rfl := hi <;> decide

/-! ### From the effect to the write -/

namespace Written
variable {s q t : State} {n j : Nat} {w : Word}

theorem otherBps (h : Written s n j w q t) (ho : q.otherBps (q.writeBp n j w) n) : s.otherBps t n := fun m hm => by
  rw [h.bp, ho m hm, h.spares.bp]

theorem bps_of_same (h : Written s n j w q t) (hb : (q.writeBp n j w).bps = q.bps) : t.bps = s.bps := by rw [h.bps, hb, h.spares.bps]

/-! ### FREQ, BP_PATH and STEP -/

theorem freq_taken {f : BitVec 32} (h : Written s n 1 w q t) (hn : n < 128) (hw : bitsOf w 31 0 = f.toNat) :
    t.rd (F.bpNcoFreq n) = f.toNat ∧ s.otherBps t n ∧ (s.bp n).flow.clearLeft ≤ (t.bp n).flow.clearLeft ∧ (t.bp n).floor.blocks = [] := by
  have heff : q.writeBp n 1 w = q.freqFx n f.toNat := congrArg (q.freqFx n) hw
  have hin := freqFx_within q n f.toNat
  obtain ⟨hclear, hblocks⟩ := freqFx_bp q n f.toNat
  refine ⟨?_, h.otherBps ?_, ?_, ?_⟩
  · rw [h.rd, heff, hin.rd (by simp only [inBpBlock, F.bpNcoFreq]; omega) (by simp only [F.bpNcoFreq, F.bpBwStatMarginMute]; omega)]
    exact rd_wr_of_lt q _ (by decide) (by decide) f.isLt
  · rw [heff]; exact hin.others
  · rw [h.bp, heff, ← h.spares.bp]; exact hclear
  · rw [h.bp, heff]; exact hblocks

theorem path_ignored (h : Written s n 2 w q t) (hn : n < 128) (hmode : s.pathMode n ≠ 0) :
    t.bps = s.bps ∧ t.rd (F.bpPathCf n) = s.rd (F.bpPathCf n) := by
  rw [← h.spares.pathMode] at hmode
  have heff : q.writeBp n 2 w = q := if_pos hmode
  refine ⟨h.bps_of_same (by rw [heff]), ?_⟩
  rw [h.rd, heff, h.spares.rd (by simp only [inBpBlock, F.bpPathCf]; omega)]

theorem path_taken (h : Written s n 2 w q t) (hn : n < 128) (hmode : s.pathMode n = 0) :
    t.rd (F.bpPathCf n) = bitsOf w 20 17 ∧ s.otherBps t n := by
  have heff : q.writeBp n 2 w = q.pathFx n w := rfl
  obtain ⟨r, hbps, hin⟩ := pathFx_within w ((h.spares.pathMode n).trans hmode)
  refine ⟨?_, h.otherBps fun m hm => ?_⟩
  · rw [h.rd, heff, hin.rd (by simp only [inBpBlock, F.bpPathCf]; omega) (by simp only [F.bpPathCf, F.bpBwStatMarginMute]; omega)]
    exact rd_wr_of_lt r _ (by decide) (by decide) (Nat.mod_lt _ (by decide))
  · rw [heff, hin.others m hm, wr_bp_frame, State.bp, hbps]; rfl

theorem step_taken {v : BitVec 34} (h : Written s n 3 w q t) (hn : n < 128) (hw : bitsOf w 33 0 = v.toNat) :
    s.otherBps t n ∧ (s.pathMode n = 0 → t.rd (F.bpRsmpStepStep n) = v.toNat) ∧ (s.pathMode n ≠ 0 → t.bps = s.bps) ∧
      (s.pathMode n = 0 → s.rd (F.bpRsmpStepStep n) ≠ v.toNat → s.passing n = true →
        (t.bp n).gain.gate = .closed ∧ (t.bp n).bw.isoSrc = 3 ∧ (t.bp n).bw.armed = false) := by
  have heff : q.writeBp n 3 w = q.stepFx n v.toNat := congrArg (q.stepFx n) hw
  have hblock : inBpBlock (F.bpRsmpStepStep n).addr := by simp only [inBpBlock, F.bpRsmpStepStep]; omega
  rw [← h.spares.pathMode, ← h.spares.rd hblock]
  by_cases hact : q.pathMode n ≠ 0 ∨ q.rd (F.bpRsmpStepStep n) = v.toNat
  · rw [stepFx_of_ignored hact] at heff
    refine ⟨h.otherBps ?_, fun hmode => ?_, fun _ => h.bps_of_same (by rw [heff]), fun hmode hnew => (hact.elim (absurd hmode) hnew).elim⟩
    · rw [heff]; exact fun _ _ => rfl
    · rw [h.rd, heff]; exact hact.resolve_left (not_not.mpr hmode)
  · obtain ⟨hmode, hnew⟩ := not_or.mp hact
    obtain ⟨r, hin, hrate⟩ := stepFx_rerated (not_not.mp hmode) hnew
    have hall := hin.trans hrate.toWithin
    refine ⟨h.otherBps ?_, fun _ => ?_, fun hmode' => absurd hmode' hmode, fun _ _ _ => ?_⟩
    · rw [heff]; exact hall.others
    · rw [h.rd, heff, hall.rd hblock (by simp only [F.bpRsmpStepStep, F.bpBwStatMarginMute]; omega)]
      exact rd_wr_of_lt q _ (by decide) (by decide) v.isLt
    · rw [h.bp, heff]
      exact ⟨hrate.gate, hrate.isoSrc, hrate.armed⟩

/-! ### BP_CTRL -/

/-- DC_FREEZE alone. -/
theorem ctrl_freeze (h2 : w.getLsbD 2 = false) (h1 : w.getLsbD 1 = false) : q.writeBp n 0 w = q.dcFreezeFx n (w.getLsbD 0) := by
  simp only [writeBp, h2, h1, Bool.false_eq_true, if_false]

theorem freeze_set (h : Written s n 0 w q t) (h2 : w.getLsbD 2 = false) (h1 : w.getLsbD 1 = false) (h0 : w.getLsbD 0 = true) :
    t.rdB (F.bpCtrlDcFreeze n) = true ∧ t.bps = s.bps := by
  have heff : q.writeBp n 0 w = q.wrB (F.bpCtrlDcFreeze n) true := by rw [ctrl_freeze h2 h1, h0, dcFreezeFx_true]
  refine ⟨?_, h.bps_of_same (by rw [heff]; rfl)⟩
  rw [rdB, h.rd, heff]
  exact rdB_wrB_dcFreeze q n true

theorem freeze_cleared (h : Written s n 0 w q t) (hn : n < 128) (h2 : w.getLsbD 2 = false) (h1 : w.getLsbD 1 = false) (h0 : w.getLsbD 0 = false)
    (hwas : s.rdB (F.bpCtrlDcFreeze n) = true) (hpass : s.passing n = true) :
    t.rdB (F.bpCtrlDcFreeze n) = false ∧ s.otherBps t n ∧
      (s.bp n).flow.clearLeft ≤ (t.bp n).flow.clearLeft ∧ 2 ^ s.planN n plDcK + 3 ≤ (t.bp n).flow.clearLeft := by
  rw [rdB, ← h.spares.rd (by simp only [inBpBlock, F.bpCtrlDcFreeze]; omega)] at hwas
  rw [← h.spares.passing] at hpass
  have heff : q.writeBp n 0 w = (q.wrB (F.bpCtrlDcFreeze n) false).clearMore n (q.clearDc n) := by
    rw [ctrl_freeze h2 h1, h0, dcFreezeFx_false hwas hpass]
  have hbp : t.bp n = { s.bp n with flow := { (s.bp n).flow with clearLeft := Nat.max (s.bp n).flow.clearLeft (s.clearDc n) } } := by
    rw [h.bp, heff, clearMore_bp, clearDc, h.spares.planN, ← h.spares.bp]
    rfl
  refine ⟨?_, h.otherBps (by rw [heff]; exact (Within.clearMore ..).others), ?_, ?_⟩
  · rw [rdB, h.rd, heff]
    exact rdB_wrB_dcFreeze q n false
  · rw [hbp]; exact Nat.le_max_left ..
  · rw [hbp]; exact Nat.le_max_right ..

theorem meter_restarted (h : Written s n 0 w q t) (h2 : w.getLsbD 2 = false) (h1 : w.getLsbD 1 = true) :
    s.otherBps t n ∧ (t.bp n).flow.meterIn.window = [] ∧ (t.bp n).flow.meterIn.blocks = [] ∧ (t.bp n).flow.meterIn.fineReady = false ∧
      (t.bp n).flow.meterOut = (s.bp n).flow.meterOut := by
  have heff : q.writeBp n 0 w = (q.meterRestartFx n).dcFreezeFx n (w.getLsbD 0) := by
    simp only [writeBp, h2, h1, Bool.false_eq_true, if_false, if_true]
  obtain ⟨-, hothers, k, hown⟩ := dcFreezeFx_bp (q.meterRestartFx n) n (w.getLsbD 0)
  refine ⟨h.otherBps fun m hm => ?_, ?_⟩
  · rw [heff, hothers m hm]
    exact setBp_bp_ne _ _ hm
  · rw [h.bp, heff, hown, meterRestartFx, setBp_bp_same, ← h.spares.bp]
    exact ⟨rfl, rfl, rfl, rfl⟩

/-- RSMP_RETRY, and DC_FREEZE written beside it. -/
theorem ctrl_retry (h2 : w.getLsbD 2 = true) (h1 : w.getLsbD 1 = false) : q.writeBp n 0 w = (q.rsmpRetryFx n).dcFreezeFx n (w.getLsbD 0) := by
  simp only [writeBp, h2, h1, Bool.false_eq_true, if_false, if_true]

theorem retry_granted {k : Nat} (h : Written s n 0 w q t) (h2 : w.getLsbD 2 = true) (h1 : w.getLsbD 1 = false)
    (hmode : s.pathMode n = 2) (hfree : s.freeResampler = some k) : HoldsResampler n k s t := by
  rw [← h.spares.pathMode] at hmode
  rw [← h.spares.freeResampler] at hfree
  have hretry := rsmpRetryFx_of_free hmode hfree
  obtain ⟨hrsmp, hothers, c, hown⟩ := dcFreezeFx_bp (q.rsmpRetryFx n) n (w.getLsbD 0)
  have heff : q.writeBp n 0 w = _ := ctrl_retry h2 h1
  refine ⟨?_, h.otherBps fun m hm => ?_, ?_, ?_⟩
  · rw [State.resampler, h.rsmp, heff, hrsmp]; exact hretry.held
  · rw [heff, hothers m hm, hretry.others m hm]
  · rw [h.bp, heff, hown]; exact hretry.inst
  · rw [h.bp, heff, hown]; exact hretry.fallback

theorem retry_refused (h : Written s n 0 w q t) (h2 : w.getLsbD 2 = true) (h1 : w.getLsbD 1 = false) (hfree : s.freeResampler = none) :
    (t.bp n).flow.inst = (s.bp n).flow.inst ∧ t.rsmp = s.rsmp ∧ s.otherBps t n := by
  have heff : q.writeBp n 0 w = q.dcFreezeFx n (w.getLsbD 0) := by
    rw [ctrl_retry h2 h1, rsmpRetryFx_of_none n (h.spares.freeResampler.trans hfree)]
  obtain ⟨hrsmp, hothers, c, hown⟩ := dcFreezeFx_bp q n (w.getLsbD 0)
  refine ⟨?_, ?_, h.otherBps (by rw [heff]; exact hothers)⟩
  · rw [h.bp, heff, hown, ← h.spares.bp]
  · rw [h.rsmp, heff, hrsmp, h.spares.rsmp]

/-! ### BP_BW_CTRL -/

theorem floor_taken {v : BitVec 11} (h : Written s n 8 w q t) (harm : w.getLsbD 39 = false) (hw : bitsOf w 34 24 = v.toNat) :
    t.rd (F.bpBwCtrlFloor n) = v.toNat ∧ t.bps = s.bps := by
  have heff : q.writeBp n 8 w = q.wr (F.bpBwCtrlFloor n) v.toNat := by
    simp only [writeBp, harm, hw, Bool.false_eq_true, if_false]
  refine ⟨?_, h.bps_of_same (by rw [heff]; rfl)⟩
  rw [h.rd, heff]
  exact rd_wr_of_lt q _ (by decide) (by decide) v.isLt

theorem swap_asked {x : BitVec 24} (h : Written s n 8 w q t) (harm : w.getLsbD 39 = true) (hw : bitsOf w 23 0 = x.toNat) :
    s.otherBps t n ∧ t.bp n = { s.bp n with bw := s.swapAsked n x } ∧ ((s.bp n).bw.armed = false → t.rd (F.bpBwCtrlSwapSeq n) = x.toNat) := by
  obtain ⟨r, hr, heff⟩ : ∃ r : State, r.bps = q.bps ∧ q.writeBp n 8 w = r.swapArmFx n x.toNat :=
    ⟨q.wr (F.bpBwCtrlFloor n) (bitsOf w 34 24), rfl, by simp only [writeBp, harm, hw, if_true]⟩
  have hbp : ∀ m, r.bp m = s.bp m := fun m => by rw [State.bp, hr, h.spares.bps]; rfl
  have hasked : r.swapAsked n x = s.swapAsked n x := by simp only [swapAsked, State.passing, hbp]
  have hafter : ∀ m, (q.writeBp n 8 w).bp m = (r.setBp n { s.bp n with bw := s.swapAsked n x }).bp m := fun m => by
    rw [State.bp, heff, swapArmFx_bps, hasked, hbp]; rfl
  refine ⟨fun m hm => ?_, ?_, fun hfree => ?_⟩
  · rw [h.bp, hafter, setBp_bp_ne _ _ hm, hbp]
  · rw [h.bp, hafter, setBp_bp_same]
  · rw [h.rd, heff]
    exact swapArmFx_seq x (by rw [hbp]; exact hfree)

end Written

end Sys2Proof.Machine.State
end

section
/-! O29, assembled: each datapath instruction is a write of its register. -/

namespace Sys2Proof.Machine

open State

section
variable {s : State} {who : Requester} {n : Nat} (hn : n < 128)
include hn

/-- What an accepted write of one bit of BP_CTRL sends in the register's other two bits and in its own. -/
theorem ctrl_written {k v : Nat} (hk : k < 40) (h : s.takes who (4096 + 16 * n) [(⟨4096 + 16 * n, k, k⟩, v)] = true) :
    ∃ w q, Written s n 0 w q (s.fieldWrite who (4096 + 16 * n) [(⟨4096 + 16 * n, k, k⟩, v)]) ∧
      w.getLsbD k = v.testBit 0 ∧ ∀ i, i = 1 ∨ i = 2 → i ≠ k → w.getLsbD i = false := by
  obtain ⟨q, ht⟩ := fieldWrite_written (j := 0) rfl hn (by decide) h
  exact ⟨_, q, ht, getLsbD_wordOf_same s who _ _ v hk, fun i hi => wordOf_ctrl_idle s who hn _ v hi⟩

theorem swap_written {x : BitVec 24} (h : s.takes who (4104 + 16 * n) [(F.bpBwCtrlSwapArm n, 1), (F.bpBwCtrlSwapSeq n, x.toNat)] = true) :
    ∃ w q, Written s n 8 w q (s.fieldWrite who (4104 + 16 * n) [(F.bpBwCtrlSwapArm n, 1), (F.bpBwCtrlSwapSeq n, x.toNat)]) ∧
      w.getLsbD 39 = true ∧ bitsOf w 23 0 = x.toNat := by
  have hword : s.wordOf who (4104 + 16 * n) [(F.bpBwCtrlSwapArm n, 1), (F.bpBwCtrlSwapSeq n, x.toNat)] =
    putBits (putBits (s.restWord (reqCode who) (4104 + 16 * n)) 39 39 1) 23 0 x.toNat := rfl
  obtain ⟨q, ht⟩ := fieldWrite_written (j := 8) (by omega) hn (by decide) h
  refine ⟨_, q, ht, ?_, ?_⟩
  · rw [hword, getLsbD_putBits _ _ _ _ _ (by decide), if_neg (by decide), getLsbD_putBits _ _ _ _ _ (by decide), if_pos (by decide)]
    rfl
  · rw [hword, bitsOf_putBits_same _ _ (by decide) (by decide)]
    exact Nat.mod_eq_of_lt x.isLt

end

/-- Settles O29: an accepted write leaves its band path to the effect of the register, after what the journal takes of it, and each effect stays inside the band path. -/
theorem datapathWrites : Obligations.DatapathWrites := by
  unfold Obligations.DatapathWrites
  intro s who bp n b ctrl bwc
  have hn : n < 128 := bp.isLt
  refine ⟨fun f h => ?_, fun w h hmode => ?_, fun w h hmode => ?_, fun v h => ?_, fun h => ?_, fun h hwas hpass => ?_, fun h => ?_, fun h => ?_,
    fun x h => ?_, fun v h => ?_⟩
  · obtain ⟨q, ht⟩ := fieldWrite_written (n := n) (j := 1) (by simp only [F.bpNcoFreq]; omega) hn (by decide) h
    exact ⟨_, rfl, ht.freq_taken hn (bitsOf_wordOf s who _ _ (by decide) (by decide) f.isLt)⟩
  · obtain ⟨q, ht⟩ := reqWrite_written (n := n) (j := 2) (by simp only [F.bpPathMode]; omega) hn (by decide) h
    exact ⟨_, rfl, ht.path_ignored hn hmode⟩
  · obtain ⟨q, ht⟩ := reqWrite_written (n := n) (j := 2) (by simp only [F.bpPathMode]; omega) hn (by decide) h
    exact ⟨_, rfl, ht.path_taken hn hmode⟩
  · obtain ⟨q, ht⟩ := fieldWrite_written (n := n) (j := 3) (by simp only [F.bpRsmpStepStep]; omega) hn (by decide) h
    exact ⟨_, rfl, ht.step_taken hn (bitsOf_wordOf s who _ _ (by decide) (by decide) v.isLt)⟩
  · obtain ⟨w, q, ht, h0, hidle⟩ := ctrl_written hn (by decide) h
    exact ⟨_, rfl, ht.freeze_set (hidle 2 (by decide) (by decide)) (hidle 1 (by decide) (by decide)) h0⟩
  · obtain ⟨w, q, ht, h0, hidle⟩ := ctrl_written hn (by decide) h
    exact ⟨_, rfl, ht.freeze_cleared hn (hidle 2 (by decide) (by decide)) (hidle 1 (by decide) (by decide)) h0 hwas hpass⟩
  · obtain ⟨w, q, ht, h1, hidle⟩ := ctrl_written hn (by decide) h
    exact ⟨_, rfl, ht.meter_restarted (hidle 2 (by decide) (by decide)) h1⟩
  · obtain ⟨w, q, ht, h2, hidle⟩ := ctrl_written hn (by decide) h
    have h1 := hidle 1 (by decide) (by decide)
    refine ⟨fun k hmode hfree => ?_, fun _ hfree => ⟨_, rfl, ht.retry_refused h2 h1 hfree⟩⟩
    obtain ⟨hheld, hothers, hinst, hfallback⟩ := ht.retry_granted h2 h1 hmode hfree
    exact ⟨_, rfl, hinst, hfallback, hheld, hothers⟩
  · obtain ⟨w, q, ht, harm, hseq⟩ := swap_written hn h
    obtain ⟨hothers, hown, hrd⟩ := ht.swap_asked harm hseq
    have hflow := congrArg Bp.flow hown
    have hgain := congrArg Bp.gain hown
    have hbw := congrArg Bp.bw hown
    exact ⟨_, rfl, hothers, hflow, hgain, fun hbusy => hbw.trans (swapAsked_of_armed hbusy),
      fun hfree hoff => hbw.trans (swapAsked_of_off hfree hoff),
      fun hfree hpass hlo hhi => ⟨hbw.trans ((swapAsked_of_passing hfree hpass).trans (if_pos ⟨hlo, hhi⟩)), hrd hfree⟩,
      fun hfree hpass hlate => hbw.trans ((swapAsked_of_passing hfree hpass).trans
        (if_neg fun ⟨hlo, hhi⟩ => hlate.elim (Nat.pos_iff_ne_zero.mp hlo) (Nat.not_le.mpr hhi)))⟩
  · obtain ⟨q, ht⟩ := fieldWrite_written (n := n) (j := 8) (by simp only [F.bpBwCtrlFloor]; omega) hn (by decide) h
    have hself : (selfActing (4104 + 16 * n)).getLsbD 39 = true := by rw [selfActing_bwCtrl hn]; decide
    exact ⟨_, rfl, ht.floor_taken (getLsbD_wordOf_selfActing s who _ _ _ (.inr (by decide)) (by decide) (by decide) hself)
      (bitsOf_wordOf s who _ _ (by decide) (by decide) v.isLt)⟩

end Sys2Proof.Machine
end

section
/-! The scan of a coefficient swap and its sample (R72 to R74). -/

namespace Sys2Proof.Machine.State

theorem bpOnly_setBp (s : State) (n : Nat) (b : Bp) : s.bpOnly (s.setBp n b) n := ⟨rfl, fun _ hm => setBp_bp_ne s b hm⟩

theorem bpOnly_thenSetBp {s t : State} {n : Nat} (h : s.bpOnly t n) (b : Bp) : s.bpOnly (t.setBp n b) n := by
  obtain ⟨heq, hothers⟩ := h
  refine ⟨?_, fun m hm => (setBp_bp_ne t b hm).trans (hothers m hm)⟩
  rw [setBp, heq]

theorem cell_of_clean {s : State} {k : MemSel} {a : Nat} (h : s.clean k a = true) : s.cell k a = ⟨s.memPeek k a, 0, false⟩ := by
  obtain ⟨hpoison, hflips⟩ : (s.cell k a).poison = false ∧ (s.cell k a).flips = 0 := by simpa [clean] using h
  rw [memPeek, ← hpoison, ← hflips]

/-- A bank of clean words is read as it stands, without a trace (R72, R255). -/
theorem readBank_of_clean {s : State} {n : Nat} {b : Bool}
    (h : ∀ k, k < s.planN n plTaps → s.clean (bankSel b) (16384 * n + k) = true) :
    s.readBank n b =
      ((List.range (s.planN n plTaps)).map (fun k => (cOf (s.memPeek (bankSel b) (16384 * n + k)), false)), s) := by
  unfold readBank
  generalize s.planN n plTaps = c at h ⊢
  induction c with
  | zero => rfl
  | succ c ih =>
    have hread := memRead_of_clean s (bankSel b) (srcBp n) (cell_of_clean (h c (Nat.lt_succ_self c)))
    rw [List.range_succ, List.foldl_append, ih fun k hk => h k (Nat.lt_succ_of_lt hk), List.map_append]
    simp [hread]

theorem swapScan_of_clean {s : State} {n : Nat} (harm : (s.bp n).bw.armed = true) (hscan : (s.bp n).bw.scan = none)
    (h : ∀ k, k < s.planN n plTaps → s.clean (bankSel (!(s.bp n).bw.bankB)) (16384 * n + k) = true) :
    s.swapScan n = s.setBp n { s.bp n with bw := { (s.bp n).bw with
      scan := some (scanOf (((List.range (s.planN n plTaps)).map
        (fun k => s.memPeek (bankSel (!(s.bp n).bw.bankB)) (16384 * n + k))).map (fun x => (cOf x, false)))) } } := by
  simp only [swapScan, harm, hscan, Option.isNone_none, and_self, if_true, readBank_of_clean h, List.map_map, Function.comp_def]

/-! ### At the named sample -/

section
variable {s : State} {n : Nat} (harm : (s.bp n).bw.armed = true) (hdue : s.swapDue n = true)
include harm hdue

theorem swapNow_of_unscanned (hscan : (s.bp n).bw.scan = none) : s.swapNow n = s.dropSwap n 2 := by
  simp only [swapNow, harm, hdue, and_self, if_true, hscan]

theorem swapNow_of_poison {sc : SwapScan} (hscan : (s.bp n).bw.scan = some sc) (h : sc.poison = true) :
    s.swapNow n = s.dropSwap n 6 := by
  simp only [swapNow, harm, hdue, and_self, if_true, hscan, h]

theorem swapNow_of_high {sc : SwapScan} (hscan : (s.bp n).bw.scan = some sc) (h : sc.poison = false)
    (hhigh : sc.energy ≠ 0 ∧ s.planDb n plEnergyMax < ratioDb sc.energy (2 ^ 38)) : s.swapNow n = s.dropSwap n 4 := by
  simp only [swapNow, harm, hdue, and_self, if_true, hscan, h, Bool.false_eq_true, if_false, if_pos hhigh]

/-- The swap takes effect: the banks change places, and three samples go without VALID (R60, R73). -/
theorem swapNow_of_taken {sc : SwapScan} (hscan : (s.bp n).bw.scan = some sc) (h : sc.poison = false)
    (hhigh : ¬ (sc.energy ≠ 0 ∧ s.planDb n plEnergyMax < ratioDb sc.energy (2 ^ 38))) :
    ∃ ls, s.swapNow n = (s.setBp n { s.bp n with bw := { (s.bp n).bw with
      bankB := !(s.bp n).bw.bankB, armed := false, scan := none, swapResult := 1, peakNext := some ls, coefBad := [] } }).clearMore n 3 := by
  simp only [swapNow, harm, hdue, and_self, if_true, hscan, h, Bool.false_eq_true, if_false, if_neg hhigh]
  exact ⟨_, rfl⟩

end

end Sys2Proof.Machine.State

namespace Sys2Proof.Machine

open State in
/-- Settles O35: the scan reads the words of the inactive bank, and at the named sample the swap is judged by it. -/
theorem coefficientSwap : Obligations.CoefficientSwap := by
  unfold Obligations.CoefficientSwap
  intro s bp n b w words
  refine ⟨fun harm hscan hclean => ?_, fun harm hdue => ?_⟩
  · exact ⟨_, congrArg Host.Outcome.next (swapScan_of_clean harm hscan hclean), bpOnly_setBp .., setBp_bp_same ..⟩
  · intro refused
    have hrefused : ∀ code, s.swapNow n = s.dropSwap n code → refused (BitVec.ofNat 3 code) := fun code h =>
      ⟨_, congrArg Host.Outcome.next h, bpOnly_setBp .., setBp_bp_same ..⟩
    refine ⟨fun hscan => hrefused 2 (swapNow_of_unscanned harm hdue hscan), fun sc hscan => ?_⟩
    intro high
    refine ⟨fun hp => ?_, fun hp hhigh => ?_, fun hp hhigh => ?_⟩
    · exact hrefused 6 (swapNow_of_poison harm hdue hscan hp)
    · exact hrefused 4 (swapNow_of_high harm hdue hscan hp hhigh)
    · obtain ⟨ls, htaken⟩ := swapNow_of_taken harm hdue hscan hp hhigh
      refine ⟨_, congrArg Host.Outcome.next htaken, bpOnly_thenSetBp (bpOnly_setBp ..) _, ?_⟩
      rw [clearMore_bp, setBp_bp_same]
      exact ⟨rfl, rfl, rfl, rfl, rfl, rfl, rfl⟩

end Sys2Proof.Machine
end

section
/-! What an evaluation leaves as it was: the plan, the limits, the number of the interval, and the time its messages are stamped with (R82, R136, R362). -/

namespace Sys2Proof.Machine.State

/-- The plan, the limits with those that wait, the number of the interval, and cycle and time. -/
def terms (s : State) : Image × Tbl (Option Db) × List LimPend × BitVec 24 × Nat × TimeBase :=
  (s.img, s.limits, s.limPend, s.evalSeq, s.cyc, s.time)

/-! ### Single updates, counts, messages and the protected store -/

@[simp] theorem setBp_terms (s : State) (n : Nat) (b : Bp) : (s.setBp n b).terms = s.terms := rfl
@[simp] theorem setTap_terms (s : State) (n : Nat) (x : Taps) : (s.setTap n x).terms = s.terms := rfl
@[simp] theorem setCx_terms (s : State) (k : Nat) (x : CxPort) : (s.setCx k x).terms = s.terms := rfl
@[simp] theorem setResampler_terms (s : State) (k : Nat) (x : RsmpSt) : (s.setResampler k x).terms = s.terms := rfl
@[simp] theorem setBpTherm_terms (s : State) (n : Nat) (x : BpTherm) : (s.setBpTherm n x).terms = s.terms := rfl
@[simp] theorem wr_terms (s : State) (f : Fld) (v : Nat) : (s.wr f v).terms = s.terms := rfl
@[simp] theorem clearMore_terms (s : State) (n k : Nat) : (s.clearMore n k).terms = s.terms := rfl

@[simp] theorem inc_terms (s : State) (c o : Fld) : (s.inc c o).terms = s.terms := by rw [inc_eq]; rfl

@[simp] theorem report_terms (s : State) (src kind hint : Nat) (ctx : Word) : (s.report src kind hint ctx).terms = s.terms := by
  rw [report_eq]; rfl

@[simp] theorem memRead_terms (s : State) (k : MemSel) (a src : Nat) : (s.memRead k a src).2.terms = s.terms := by
  rw [memRead_eq]; rfl

@[simp] theorem memWrites_terms (s : State) (k : MemSel) (a : Nat) (l : List Word) : (s.memWrites k a l).terms = s.terms := by
  rw [memWrites_eq]; rfl

@[simp] theorem readBank_terms (s : State) (n : Nat) (b : Bool) : (s.readBank n b).2.terms = s.terms :=
  List.foldlRecOn (motive := fun acc : List (Cplx × Bool) × State => acc.2.terms = s.terms) _ _ rfl
    fun _ h _ _ => (memRead_terms ..).trans h

/-! ### Coexistence demand and the states of a band path -/

@[simp] theorem cxDemand_terms (s : State) (k : Nat) : (s.cxDemand k).terms = s.terms := by
  unfold cxDemand; dsimp only; repeat' split
  all_goals simp

@[simp] theorem cxOf_terms (s : State) (n : Nat) : (s.cxOf n).terms = s.terms := by
  unfold cxOf; split <;> simp

@[simp] theorem noteActive_terms (s : State) : s.noteActive.terms = s.terms := by
  unfold noteActive; split <;> simp

@[simp] theorem setSt_terms (s : State) (n : Nat) (st : BpSt) : (s.setSt n st).terms = s.terms := rfl

@[simp] theorem settleSt_terms (s : State) (n : Nat) : (s.settleSt n).terms = s.terms := by
  unfold settleSt; dsimp only; repeat' split
  all_goals simp

@[simp] theorem gateReset_terms (s : State) (n : Nat) : (s.gateReset n).terms = s.terms := rfl
@[simp] theorem dropProbe_terms (s : State) (n : Nat) : (s.dropProbe n).terms = s.terms := rfl
@[simp] theorem clearFloor_terms (s : State) (n : Nat) : (s.clearFloor n).terms = s.terms := rfl
@[simp] theorem restartTrip_terms (s : State) (n : Nat) : (s.restartTrip n).terms = s.terms := rfl
@[simp] theorem zeroBank_terms (s : State) (n : Nat) (b : Bool) : (s.zeroBank n b).terms = s.terms := rfl

@[simp] theorem dropCapture_terms (s : State) (n : Nat) : (s.dropCapture n).terms = s.terms := by
  unfold dropCapture; dsimp only; split <;> simp

@[simp] theorem leaveService_terms (s : State) (n : Nat) : (s.leaveService n).terms = s.terms := by simp [leaveService]

@[simp] theorem cancelSwap_terms (s : State) (n : Nat) : (s.cancelSwap n).terms = s.terms := by
  unfold cancelSwap; split <;> rfl

@[simp] theorem lagSpread_terms (s : State) (n : Nat) : (s.lagSpread n).2.terms = s.terms := by
  have h : (if s.canceller n then s.readBank n (s.bp n).bw.bankB else ([], s)).2.terms = s.terms := by split <;> simp
  unfold lagSpread
  generalize (if s.canceller n then s.readBank n (s.bp n).bw.bankB else ([], s)) = r at h
  dsimp only
  split <;> exact h

@[simp] theorem enterStarting_terms (s : State) (n : Nat) (fromOff : Bool) : (s.enterStarting n fromOff).terms = s.terms := by
  unfold enterStarting
  extract_lets s1 s2 s3 b bw s4
  have h4 : s4.terms = s.terms := by
    simp only [s4, s3, s2, s1, apply_ite terms, setBp_terms, memWrites_terms, zeroBank_terms, cancelSwap_terms, ite_self]
  clear_value s4
  generalize hl : s4.lagSpread n = l
  have h5 : l.2.terms = s.terms := by rw [← hl, lagSpread_terms, h4]
  obtain ⟨ls, s5⟩ := l
  simp only [apply_ite terms, cxOf_terms, setTap_terms, clearMore_terms, setBp_terms, dropProbe_terms, restartTrip_terms,
    clearFloor_terms, gateReset_terms, ite_self]
  exact h5

@[simp] theorem release_terms (s : State) (n : Nat) : (s.release n).terms = s.terms := by
  unfold release; dsimp only; repeat' split
  all_goals simp

@[simp] theorem setHeld_terms (s : State) (n : Nat) (f : Held → Held) : (s.setHeld n f).terms = s.terms := by
  unfold setHeld; dsimp only; repeat' split
  all_goals simp

@[simp] theorem tripped_terms (s : State) (n code : Nat) : (s.tripped n code).terms = s.terms := by
  unfold tripped
  extract_lets b p cause counted locks secs p1 p2
  split
  · split <;> simp
  · split
    iterate 3 rfl
    extract_lets p3 p4 s1 s2
    have h2 : s2.terms = s.terms := by
      simp only [s2, s1, cxOf_terms, apply_ite terms, leaveService_terms, setBp_terms, ite_self]
    split
    · rw [report_terms, h2]
    · exact h2

/-! ### Barring -/

@[simp] theorem nextReset_terms (s : State) : s.nextReset.terms = s.terms := by
  unfold nextReset; dsimp only; repeat' split
  all_goals simp

@[simp] theorem moveTaps_terms (s : State) (u : Nat) (take : Bool) : (s.moveTaps u take).terms = s.terms := by
  unfold moveTaps; split <;> rfl

@[simp] theorem returnPools_terms (s : State) (n : Nat) : (s.returnPools n).terms = s.terms := by
  unfold returnPools; dsimp only; split <;> simp

@[simp] theorem refuseGrant_terms (s : State) (g : Nat) : (s.refuseGrant g).terms = s.terms := by
  unfold refuseGrant; dsimp only; repeat' split
  all_goals simp

theorem govServe_terms (s : State) (k : Nat) : (s.govServe k).terms = s.terms := by
  induction k generalizing s with
  | zero => rfl
  | succ k ih =>
    rw [govServe]
    split
    · rfl
    · split
      · rfl
      · dsimp only
        split
        · rfl
        · split
          · rw [ih, refuseGrant_terms]; rfl
          · rfl

@[simp] theorem govAsk_terms (s : State) (g amount : Nat) (rel : Bool) : (s.govAsk g amount rel).terms = s.terms :=
  govServe_terms ..

@[simp] theorem returnCredits_terms (s : State) (n : Nat) : (s.returnCredits n).terms = s.terms := by
  unfold returnCredits; dsimp only; split <;> simp

@[simp] theorem donorLost_terms (s : State) (n : Nat) : (s.donorLost n).terms = s.terms := by simp [donorLost]

@[simp] theorem enterIdle_terms (s : State) (n : Nat) (st : BpSt) : (s.enterIdle n st).terms = s.terms := by
  unfold enterIdle
  extract_lets s1 s2 t left s3 b p p1 held p2 s4
  have h4 : s4.terms = s.terms := by
    simp only [s4, s3, s2, s1, cxOf_terms, setBp_terms, setBpTherm_terms, returnCredits_terms, returnPools_terms, cancelSwap_terms,
      leaveService_terms]
  exact List.foldlRecOn (motive := fun t : State => t.terms = s.terms) _ _ h4 fun _ h _ _ => (donorLost_terms ..).trans h

@[simp] theorem flashPut_terms (s : State) (alt : Bool) (f : Flash → Flash) : (s.flashPut alt f).terms = s.terms := by
  unfold flashPut flashErr setFlash
  split
  · exact report_terms ..
  · split <;> rfl

@[simp] theorem enterBarred_terms (s : State) (n code : Nat) : (s.enterBarred n code).terms = s.terms := by simp [enterBarred]

/-! ### The margin -/

@[simp] theorem ceilGain_terms (s : State) (n : Nat) : (s.ceilGain n).terms = s.terms := by
  unfold ceilGain; dsimp only; split <;> rfl

@[simp] theorem marginCheck_terms (s : State) (n : Nat) : (s.marginCheck n).2.terms = s.terms := by
  unfold marginCheck; dsimp only; repeat' split
  all_goals simp

end Sys2Proof.Machine.State
end

section
/-! Messages where the intake queue has room, and changes that stay inside one band path (R85 to R90, R139 to R142, R365). -/

namespace Sys2Proof.Machine

theorem mem_queued {m x : FMsg} {l : List FMsg} : x ∈ queued m l ↔ x = m ∨ x ∈ l := by
  induction l with
  | nil => simp [queued]
  | cons y t ih =>
    rw [queued]
    split
    · simp
    · simp only [List.mem_cons, ih]; tauto

theorem length_queued (m : FMsg) (l : List FMsg) : (queued m l).length = l.length + 1 := by
  induction l with
  | nil => rfl
  | cons y t ih =>
    rw [queued]
    split
    · rfl
    · simp [ih]

/-! ### The ceiling and what it is judged by -/

/-- What a back-off, a rise and a trip are judged by and change. -/
structure CeilingView where
  isoBw : Db
  isoSrc : BitVec 2
  margin : Db
  ceiling : Db
  ceilFifths : Nat
  holdOff : Nat
  backoffCnt : Sat
  tripCnt : Sat

/-- The view of a band path. -/
def ceilingView (b : Bp) : CeilingView :=
  ⟨b.bw.isoBw, b.bw.isoSrc, b.bw.margin, b.bw.ceiling, b.bw.ceilFifths, b.bw.holdOff, b.bw.backoffCnt, b.bw.tripCnt⟩

/-- M: the margin that I_bw leaves over the ceiling, whose fifths round it down (R85). -/
def CeilingView.left (v : CeilingView) : Db := v.isoBw - v.ceiling - (if v.ceilFifths = 0 then 0 else 1)

/-- The view after a back-off. -/
def CeilingView.backedOff (v : CeilingView) (m c : Db) : CeilingView := { v with
  margin := m, ceiling := c, ceilFifths := 0, holdOff := 1, backoffCnt := v.backoffCnt.inc 39 }
/-- The view after a margin mute. -/
def CeilingView.marginMuted (v : CeilingView) (m c : Db) : CeilingView := { v with
  margin := m, ceiling := c, ceilFifths := 0, holdOff := 1, tripCnt := v.tripCnt.inc 39 }

/-- The view after an interval whose margin is met against `f`: held after a back-off, or raised where the margin allows (R86). -/
def CeilingView.rested (v : CeilingView) (f cm : Db) : CeilingView :=
  if 0 < v.holdOff then { v with holdOff := v.holdOff - 1 }
  else if v.ceiling < cm ∧ (v.ceilFifths : Int) + 2 ^ 23 ≤ 5 * (v.isoBw - v.ceiling - f - dB1) then
    { v with ceiling := (State.ceilRise v.ceiling v.ceilFifths cm).1, ceilFifths := (State.ceilRise v.ceiling v.ceilFifths cm).2 }
  else v

section
variable {v : CeilingView} (f cm : Db)

theorem CeilingView.rested_of_held (h : 0 < v.holdOff) : v.rested f cm = { v with holdOff := v.holdOff - 1 } := if_pos h

variable {f cm}

theorem CeilingView.rested_of_rise (h : ¬ 0 < v.holdOff)
    (hrise : v.ceiling < cm ∧ (v.ceilFifths : Int) + 2 ^ 23 ≤ 5 * (v.isoBw - v.ceiling - f - dB1)) :
    v.rested f cm = { v with
      ceiling := (State.ceilRise v.ceiling v.ceilFifths cm).1, ceilFifths := (State.ceilRise v.ceiling v.ceilFifths cm).2 } := by
  rw [rested, if_neg h, if_pos hrise]

theorem CeilingView.rested_of_still (h : ¬ 0 < v.holdOff)
    (hstill : ¬ (v.ceiling < cm ∧ (v.ceilFifths : Int) + 2 ^ 23 ≤ 5 * (v.isoBw - v.ceiling - f - dB1))) : v.rested f cm = v := by
  rw [rested, if_neg h, if_neg hstill]

theorem CeilingView.rested_kept (v : CeilingView) (f cm : Db) :
    (v.rested f cm).isoBw = v.isoBw ∧ (v.rested f cm).isoSrc = v.isoSrc ∧ (v.rested f cm).margin = v.margin := by
  unfold rested
  split
  · exact ⟨rfl, rfl, rfl⟩
  · split <;> exact ⟨rfl, rfl, rfl⟩

end

namespace State

/-! ### Messages within the room of the queue -/

/-- Where the queue has room for `k` messages, at most so many have entered it and none of those in it is gone. -/
structure Sends (k : Nat) (s t : State) : Prop where
  room : ∀ j, s.intakeRoom (j + k) = true → t.intakeRoom j = true
  kept : s.intakeRoom k = true → ∀ m ∈ s.fc.queue, m ∈ t.fc.queue

theorem intakeRoom_iff {s : State} {k : Nat} : s.intakeRoom k = true ↔ s.fc.heldBack = [] ∧ s.fc.queue.length + k ≤ 64 := by
  simp [intakeRoom]

theorem intakeRoom_mono {s : State} {j k : Nat} (h : s.intakeRoom k = true) (hjk : j ≤ k) : s.intakeRoom j = true := by
  rw [intakeRoom_iff] at h ⊢
  exact ⟨h.1, by omega⟩

theorem intakeRoom_of_fc {s t : State} (h : t.fc = s.fc) (k : Nat) : t.intakeRoom k = s.intakeRoom k := by rw [intakeRoom, h]; rfl

theorem Sends.of_fc {s t : State} (h : t.fc = s.fc) : Sends 0 s t :=
  ⟨fun j hj => (intakeRoom_of_fc h j).trans hj, fun _ m hm => by rwa [h]⟩

theorem Sends.mono {s t : State} {j k : Nat} (h : Sends j s t) (hjk : j ≤ k) : Sends k s t :=
  ⟨fun i hi => h.room i (intakeRoom_mono hi (by omega)), fun hk => h.kept (intakeRoom_mono hk hjk)⟩

theorem Sends.trans {s t u : State} {j k : Nat} (h : Sends j s t) (g : Sends k t u) : Sends (j + k) s u := by
  refine ⟨fun i hi => g.room i (h.room (i + k) (intakeRoom_mono hi (by omega))), fun hroom m hm => ?_⟩
  exact g.kept (h.room k (intakeRoom_mono hroom (by omega))) m (h.kept (intakeRoom_mono hroom (by omega)) m hm)

theorem report_fc {s : State} (src kind hint : Nat) (ctx : Word) (h : s.intakeRoom 1 = true) :
    (s.report src kind hint ctx).fc.queue = queued (s.mkMsg src kind hint ctx false) s.fc.queue ∧
      (s.report src kind hint ctx).fc.heldBack = [] := by
  obtain ⟨hheld, hlen⟩ := intakeRoom_iff.mp h
  rw [report, offer_room _ _ hheld (by omega)]
  exact ⟨rfl, hheld⟩

theorem Sends.report (s : State) (src kind hint : Nat) (ctx : Word) : Sends 1 s (s.report src kind hint ctx) := by
  refine ⟨fun j hj => ?_, fun h m hm => ?_⟩
  · obtain ⟨hqueue, hheld⟩ := report_fc src kind hint ctx (intakeRoom_mono hj (Nat.le_add_left 1 j))
    have hlen := (intakeRoom_iff.mp hj).2
    rw [intakeRoom_iff, hqueue, length_queued]
    exact ⟨hheld, by omega⟩
  · rw [(report_fc src kind hint ctx h).1, mem_queued]
    exact .inr hm

theorem cyc_of_terms {s t : State} (h : t.terms = s.terms) : t.cyc = s.cyc := congrArg (·.2.2.2.2.1) h
theorem time_of_terms {s t : State} (h : t.terms = s.terms) : t.time = s.time := congrArg (·.2.2.2.2.2) h

/-- A message is stamped with the cycle and the time alone (R362). -/
theorem mkMsg_of_terms {s t : State} (h : t.terms = s.terms) (src kind hint : Nat) (ctx : Word) (inj : Bool) :
    t.mkMsg src kind hint ctx inj = s.mkMsg src kind hint ctx inj := by
  simp only [mkMsg, cycW, nowHi, nowLo, cyc_of_terms h, time_of_terms h]

theorem sentNow_of_terms {r s t : State} {src kind hint : Nat} {ctx : Word} (hterms : s.terms = r.terms)
    (h : s.sentNow t src kind hint ctx) : r.sentNow t src kind hint ctx := by
  rwa [sentNow, ← mkMsg_of_terms hterms]

theorem sentNow_report {s t : State} (hterms : t.terms = s.terms) (src kind hint : Nat) (ctx : Word) (h : t.intakeRoom 1 = true) :
    s.sentNow (t.report src kind hint ctx) src kind hint ctx := by
  rw [sentNow, (report_fc src kind hint ctx h).1, mem_queued, mkMsg_of_terms hterms]
  exact .inl rfl

theorem Sends.sentNow {r s t : State} {k src kind hint : Nat} {ctx : Word} (h : Sends k s t) (hroom : s.intakeRoom k = true)
    (hsent : r.sentNow s src kind hint ctx) : r.sentNow t src kind hint ctx := h.kept hroom _ hsent

/-! ### Changes inside one band path -/

/-- Only band path `n` changes, and of it not what `p` shows; the registers of the band paths' blocks and the terms of the evaluation stand, and at most `k` messages are sent. -/
structure Inside {α : Type} (p : Bp → α) (n k : Nat) (s t : State) : Prop extends Sends k s t where
  terms : t.terms = s.terms
  others : s.otherBps t n
  reg : ∀ a, inBpBlock a → t.reg a = s.reg a
  own : p (t.bp n) = p (s.bp n)

section
variable {α β : Type} {p : Bp → α} {n j k : Nat} {s t u : State}

theorem Inside.trans (h : Inside p n j s t) (g : Inside p n k t u) : Inside p n (j + k) s u :=
  ⟨h.toSends.trans g.toSends, g.terms.trans h.terms, fun m hm => (g.others m hm).trans (h.others m hm),
    fun a ha => (g.reg a ha).trans (h.reg a ha), g.own.trans h.own⟩

theorem Inside.mono (h : Inside p n j s t) (hjk : j ≤ k) : Inside p n k s t := ⟨h.toSends.mono hjk, h.terms, h.others, h.reg, h.own⟩

theorem Inside.map (f : α → β) (h : Inside p n k s t) : Inside (fun b => f (p b)) n k s t :=
  ⟨h.toSends, h.terms, h.others, h.reg, congrArg f h.own⟩

/-- A change that reaches neither band paths nor their registers, the collector nor the terms. -/
theorem Inside.of_spares (h : Spares s t) (hterms : t.terms = s.terms) (hfc : t.fc = s.fc) : Inside p n 0 s t :=
  ⟨Sends.of_fc hfc, hterms, fun m _ => h.bp m, h.reg, by rw [h.bp]⟩

theorem Inside.refl (p : Bp → α) (n : Nat) (s : State) : Inside p n 0 s s := Inside.of_spares (Spares.refl s) rfl rfl

theorem Inside.setBp {b : Bp} (h : p b = p (s.bp n)) : Inside p n 0 s (s.setBp n b) :=
  ⟨Sends.of_fc rfl, rfl, fun _ hm => setBp_bp_ne s b hm, fun _ _ => rfl, by rw [setBp_bp_same]; exact h⟩

theorem Inside.report (s : State) (src kind hint : Nat) (ctx : Word) : Inside p n 1 s (s.report src kind hint ctx) :=
  have h := Spares.report s src kind hint ctx
  ⟨Sends.report .., report_terms .., fun m _ => h.bp m, h.reg, by rw [h.bp]⟩

end

/-! ### What leaves the collector alone -/

theorem inc_fc (s : State) (c o : Fld) : (s.inc c o).fc = s.fc := by rw [inc_eq]

theorem cxDemand_fc (s : State) (k : Nat) : (s.cxDemand k).fc = s.fc := by
  unfold cxDemand
  dsimp only
  split
  · split
    · split <;> rfl
    · split
      · rfl
      · exact inc_fc ..
  · rfl

theorem cxOf_fc (s : State) (n : Nat) : (s.cxOf n).fc = s.fc := by
  unfold cxOf
  split
  · exact cxDemand_fc ..
  · rfl

theorem noteActive_fc (s : State) : s.noteActive.fc = s.fc := by
  unfold noteActive
  split <;> rfl

/-! ### The parts of a trip and of a back-off -/

section
variable {α : Type} {p : Bp → α} (n : Nat) (s : State)

theorem Inside.cxOf (m : Nat) : Inside p n 0 s (s.cxOf m) := Inside.of_spares (Spares.cxOf s m) (cxOf_terms ..) (cxOf_fc ..)
theorem Inside.noteActive : Inside p n 0 s s.noteActive := Inside.of_spares (Spares.noteActive s) (noteActive_terms s) (noteActive_fc s)
theorem Inside.setTap (m : Nat) (x : Taps) : Inside p n 0 s (s.setTap m x) := Inside.of_spares (Spares.setTap ..) rfl rfl

end

theorem Inside.leaveService (n : Nat) (s : State) : Inside (fun b => (ceilingView b, b.prot)) n 0 s (s.leaveService n) := by
  have hgate : Inside (fun b => (ceilingView b, b.prot)) n 0 s (s.gateReset n) := Inside.setBp rfl
  have hprobe : Inside (fun b => (ceilingView b, b.prot)) n 0 (s.gateReset n) ((s.gateReset n).dropProbe n) := Inside.setBp rfl
  refine Inside.trans (j := 0) (k := 0) (hgate.trans hprobe) ?_
  unfold State.leaveService State.dropCapture
  dsimp only
  split
  · exact Inside.refl ..
  · refine Inside.trans (j := 0) (k := 0) ?_ (Inside.setTap ..)
    exact Inside.setBp rfl

/-- The ceiling acts on the gain alone (R85, R99). -/
theorem ceilGain_eq (s : State) (n : Nat) : ∃ g, s.ceilGain n = s.setBp n { s.bp n with gain := g } := by
  unfold ceilGain
  dsimp only
  split <;> exact ⟨_, rfl⟩

theorem Inside.ceilGain (n : Nat) (s : State) : Inside (fun b => (ceilingView b, b.prot)) n 0 s (s.ceilGain n) := by
  obtain ⟨g, hg⟩ := ceilGain_eq s n
  rw [hg]
  exact Inside.setBp rfl

theorem Inside.settleSt (n : Nat) (s : State) : Inside ceilingView n 0 s (s.settleSt n) := by
  have hset : ∀ st, Inside ceilingView n 0 s (s.setSt n st) := fun _ => Inside.setBp rfl
  unfold State.settleSt
  dsimp only
  split
  · exact Inside.refl ..
  · split
    · split
      · exact ((hset _).trans (Inside.noteActive ..)).trans (Inside.cxOf ..)
      · exact Inside.refl ..
    · split
      · exact Inside.refl ..
      · exact hset _
    · split
      · exact hset _
      · exact Inside.refl ..
    · exact Inside.refl ..

end State

end Sys2Proof.Machine
end

section
/-! What the terms of an evaluation decide, and a tripped cause of a band path in service (R84, R86, R130, R139, R142). -/

namespace Sys2Proof.Machine.State

/-! ### What the terms decide -/

section
variable {s t : State} (h : t.terms = s.terms) (n : Nat)
include h

theorem img_of_terms : t.img = s.img := congrArg (·.1) h
theorem limits_of_terms : t.limits = s.limits := congrArg (·.2.1) h
theorem evalSeq_of_terms : t.evalSeq = s.evalSeq := congrArg (·.2.2.2.1) h

theorem limPend_of_terms : t.limPend = s.limPend := congrArg (·.2.2.1) h

theorem planN_of_terms (i : Nat) : t.planN n i = s.planN n i := by rw [planN, plan, img_of_terms h]; rfl

theorem planned_of_terms : t.planned = s.planned := by
  have hpresent : t.present = s.present := by
    funext n
    rw [present, plan, img_of_terms h]
    rfl
  rw [planned, hpresent]
  rfl

theorem gChain_of_terms : t.gChain n = s.gChain n := by simp only [gChain, figIn, figOut, planN_of_terms h]

theorem gBottom_of_terms : t.gBottom n = s.gBottom n := by rw [gBottom, gChain_of_terms h]; rfl

theorem limVal_of_terms (e item : Nat) : t.limVal e item = s.limVal e item := by
  rw [limVal, limEntry, limWord, limits_of_terms h, img_of_terms h]; rfl

theorem limIdx_of_terms : t.limIdx n = s.limIdx n := planN_of_terms h n _

theorem planDb_of_terms (i : Nat) : t.planDb n i = s.planDb n i := by rw [planDb, plan, img_of_terms h]; rfl

theorem cMax_of_terms : t.cMax n = s.cMax n := by
  simp only [cMax, limGain, planDb_of_terms h, limIdx_of_terms h, limVal_of_terms h, gChain_of_terms h]

theorem floorEff_of_terms (fl : BitVec 11) : t.floorEff n fl = s.floorEff n fl := by
  simp only [floorEff, limFloor, limIdx_of_terms h, limVal_of_terms h]

theorem limPower_of_terms : t.limPower n = s.limPower n := by simp only [limPower, limIdx_of_terms h, limVal_of_terms h]

theorem nMax_of_terms : t.nMax n = s.nMax n := by
  have hhas : t.planHas n plNoiseMax = s.planHas n plNoiseMax := by rw [planHas, plan, img_of_terms h]; rfl
  simp only [nMax, limNoise, hhas, planDb_of_terms h, limIdx_of_terms h, limVal_of_terms h]

theorem uplink_of_terms : t.uplink n = s.uplink n := by rw [uplink, planN_of_terms h]; rfl

end

/-! ### Service -/

theorem serving_iff {s : State} {n : Nat} :
    s.serving n = true ↔ (s.bp n).prot.st = .starting ∨ (s.bp n).prot.st = .active ∨ (s.bp n).prot.st = .backedOff := by
  unfold serving
  cases (s.bp n).prot.st <;> simp

theorem serving_of_prot {s t : State} {n : Nat} (h : (t.bp n).prot = (s.bp n).prot) : t.serving n = s.serving n :=
  serving_of_st (congrArg BpProt.st h)

/-- MUTED or LOCKED_OUT. -/
def mutes (s : State) (n : Nat) : Prop := (s.bp n).prot.st = .muted ∨ (s.bp n).prot.st = .lockedOut

/-! ### A tripped cause -/

/-- Band path `n` has tripped with a cause in this interval, and is muted or locked out (R139, R142). -/
structure Trips (n code : Nat) (s t : State) : Prop extends Inside ceilingView n 1 s t where
  cause : (t.bp n).prot.cause = BitVec.ofNat 4 code
  mutes : t.mutes n
  counted : (t.bp n).prot.tripIv = some s.evalSeq
  nDonor : (t.bp n).prot.nDonor = (s.bp n).prot.nDonor

/-- In service a cause is counted and taken up; it leaves service with a retry timer, or with a lock-out and its message. -/
theorem tripped_eq_of_serving {s : State} {n : Nat} (code : Nat) (h : s.serving n = true) :
    ∃ (p : BpProt) (locks : Bool),
      p.cause = BitVec.ofNat 4 code ∧ (p.st = .muted ∨ p.st = .lockedOut) ∧ p.tripIv = some s.evalSeq ∧ p.nDonor = (s.bp n).prot.nDonor ∧
      let t := ((s.setBp n { s.bp n with prot := p }).leaveService n).cxOf n
      s.tripped n code = if locks then t.report (srcBp n) 14 1 (Config.msgContext (srcBp n) 14 0) else t := by
  have hst := serving_iff.mp h
  unfold tripped
  extract_lets b p cause counted locks secs p1 p2
  have hcounted : ¬ counted = true := by
    rcases hst with hst | hst | hst <;> simp [counted, p, b, hst]
  have hout : p.st ≠ .off ∧ p.st ≠ .lockedOut ∧ p.st ≠ .barred ∧ p.st ≠ .muted := by
    rcases hst with hst | hst | hst <;> simp [p, b, hst]
  obtain ⟨hoff, hlocked, hbarred, hmuted⟩ := hout
  rw [if_neg hcounted]
  split
  next hs => exact absurd hs hoff
  next hs => exact absurd hs hlocked
  next hs => exact absurd hs hbarred
  next =>
    simp only [if_neg hmuted]
    refine ⟨_, locks, ?_, ?_, ?_, ?_, rfl⟩
    case refine_2 =>
      cases locks
      · exact .inl rfl
      · exact .inr rfl
    all_goals cases locks <;> rfl

theorem tripped_of_serving {s : State} {n : Nat} (code : Nat) (h : s.serving n = true) : Trips n code s (s.tripped n code) := by
  obtain ⟨p, locks, hcause, hst, hcounted, hnoise, heq⟩ := tripped_eq_of_serving code h
  dsimp only at heq
  have hleave := (Inside.leaveService n (s.setBp n { s.bp n with prot := p })).trans (Inside.cxOf n _ n)
  have hrest : Inside (fun b => (ceilingView b, b.prot)) n 1 (s.setBp n { s.bp n with prot := p }) (s.tripped n code) := by
    rw [heq]
    split
    · exact hleave.trans (Inside.report ..)
    · exact hleave.mono (by decide)
  have hprot : ((s.tripped n code).bp n).prot = p := by
    have hown := congrArg Prod.snd hrest.own
    rwa [setBp_bp_same] at hown
  have hset : Inside ceilingView n 0 s (s.setBp n { s.bp n with prot := p }) := Inside.setBp rfl
  exact ⟨hset.trans (hrest.map Prod.fst), by rw [hprot, hcause], by rwa [mutes, hprot], by rw [hprot, hcounted], by rw [hprot, hnoise]⟩

/-- A second cause of an interval is counted no more, and a higher code leaves the lower one (R142). -/
theorem tripped_of_counted {s : State} {n code : Nat} (hiv : (s.bp n).prot.tripIv = some s.evalSeq) (hmutes : s.mutes n)
    (hcause : (s.bp n).prot.cause.toNat ≤ code) : s.tripped n code = s := by
  have hcounted : ((s.bp n).prot.tripIv == some s.evalSeq &&
      ((s.bp n).prot.st == .muted || (s.bp n).prot.st == .lockedOut)) = true := by
    simpa [hiv, mutes] using hmutes
  simp only [tripped, hcounted, if_true, if_neg (Nat.not_lt.mpr hcause)]

end Sys2Proof.Machine.State
end

section
/-! A trip of the breakwater with its bit and its message, and the margin check (R85, R87, R90). -/

namespace Sys2Proof.Machine.State

/-! ### A trip of the breakwater -/

/-- Band path `n` has tripped with a cause and its message, and `f` of BP_BW_STAT shows it; the ceiling stands (R87, R90). -/
structure SignedTrip (n code : Nat) (f : Fld) (s t : State) : Prop extends Sends 2 s t where
  terms : t.terms = s.terms
  others : s.otherBps t n
  view : ceilingView (t.bp n) = ceilingView (s.bp n)
  cause : (t.bp n).prot.cause = BitVec.ofNat 4 code
  mutes : t.mutes n
  counted : (t.bp n).prot.tripIv = some s.evalSeq
  sign : t.rdB f = true
  sent : s.intakeRoom 2 = true → s.sentNow t n code 1 (Config.msgContext n code 0)

/-- The bit is set, the ceiling acts on the gain, and the band path trips (R85, R87, R90). -/
theorem signedTrip {s : State} {n : Nat} (code : Nat) {f : Fld} (hserv : s.serving n = true) (hone : f.hi = f.lo) (hhi : f.hi < 40)
    (haddr : inBpBlock f.addr) :
    SignedTrip n code f s
      ((((s.wr f 1).ceilGain n).tripped n code).report (srcBp n) code 1 (Config.msgContext (srcBp n) code 0)) := by
  have hgain := Inside.ceilGain n (s.wr f 1)
  have htrip := tripped_of_serving (s := (s.wr f 1).ceilGain n) code ((serving_of_prot (congrArg Prod.snd hgain.own)).trans hserv)
  have hwr : Sends 0 s (s.wr f 1) := Sends.of_fc rfl
  have hin := (hgain.map Prod.fst).trans htrip.toInside
  have hall := hin.trans (Inside.report _ (srcBp n) code 1 (Config.msgContext (srcBp n) code 0))
  have hbp := (Quiet.report (((s.wr f 1).ceilGain n).tripped n code) (srcBp n) code 1 (Config.msgContext (srcBp n) code 0)).bp n
  refine ⟨hwr.trans hall.toSends, hall.terms, hall.others, hall.own, ?_, ?_, ?_, ?_, fun hroom => ?_⟩
  · rw [hbp, htrip.cause]
  · rw [mutes, hbp]; exact htrip.mutes
  · rw [hbp, htrip.counted, evalSeq_of_terms hgain.terms]; rfl
  · have hbit : (s.wr f 1).rd f = 1 := rd_wr_of_lt s f.addr (hi := f.hi) (lo := f.lo) hone.ge hhi (by simp [hone])
    have hrd := congrArg (fun w => bitsOf w f.hi f.lo) (hall.reg _ haddr)
    exact bne_iff_ne.mpr (ne_of_eq_of_ne (hrd.trans hbit) one_ne_zero)
  · exact sentNow_report hin.terms _ _ _ _ (hin.room 1 hroom)

/-! ### The margin check -/

/-- The ceiling a back-off sets (R85). -/
def backTo (s : State) (n : Nat) : Db := (s.bp n).bw.isoBw - s.floorEff n (s.bp n).bw.floorUse - dB1

section
variable {s : State} {n : Nat}

theorem marginCheck_of_met (h : s.floorEff n (s.bp n).bw.floorUse ≤ (ceilingView (s.bp n)).left) :
    s.marginCheck n = (false, s.setBp n { s.bp n with bw := { (s.bp n).bw with margin := (ceilingView (s.bp n)).left } }) :=
  if_neg (not_lt.mpr h)

/-- A back-off: the ceiling falls to what the margin allows, with a message (R85). -/
structure BacksOff (n : Nat) (s t : State) : Prop extends Inside (fun _ => ()) n 1 s t where
  view : ceilingView (t.bp n) = (ceilingView (s.bp n)).backedOff (ceilingView (s.bp n)).left (s.backTo n)
  serving : t.serving n = s.serving n
  sent : s.intakeRoom 1 = true → s.sentNow t n 3 0 (Config.msgContext n 3 0)

theorem marginCheck_of_backOff (h : (ceilingView (s.bp n)).left < s.floorEff n (s.bp n).bw.floorUse) (hback : s.gBottom n ≤ s.backTo n) :
    (s.marginCheck n).1 = true ∧ BacksOff n s (s.marginCheck n).2 := by
  unfold marginCheck
  extract_lets b f m bw s1 c b1 bw1 s2 s3 s4
  have hlow : m < f := h
  have hlift : ¬ c < s1.gBottom n := not_lt.mpr hback
  rw [if_pos hlow, if_neg hlift]
  have hb1 : b1 = { s.bp n with bw := { (s.bp n).bw with margin := (ceilingView (s.bp n)).left } } := setBp_bp_same ..
  have hset : Inside (fun _ => ()) n 0 s s4 := Inside.trans (j := 0) (k := 0) (Inside.setBp rfl) (Inside.setBp rfl)
  have hview : ceilingView (s4.bp n) = (ceilingView (s.bp n)).backedOff (ceilingView (s.bp n)).left (s.backTo n) := by
    simp only [s4, bw1, hb1, setBp_bp_same]
    rfl
  have hst : s4.serving n = s.serving n := serving_of_st (by simp only [s4, hb1, setBp_bp_same])
  clear_value s4
  have hgain := Inside.ceilGain n s4
  have hsettle := Inside.settleSt n (s4.ceilGain n)
  have hown := (hgain.map Prod.fst).trans hsettle
  refine ⟨rfl, (hset.trans (hown.map fun _ => ())).trans (Inside.report ..), ?_, ?_, fun hroom => ?_⟩
  · exact ((hown.trans (Inside.report ..)).own).trans hview
  · rw [serving_of_prot (congrArg Bp.prot ((Quiet.report ..).bp n)), settleSt_serving, serving_of_prot (congrArg Prod.snd hgain.own), hst]
  · exact sentNow_report (hset.trans (hown.map fun _ => ())).terms _ _ _ _ ((hset.trans (hown.map fun _ => ())).room 1 hroom)

/-- A margin mute: not even the bottom of the range leaves the margin, and the band path trips (R87). -/
theorem marginCheck_of_mute (hn : n < 128) (hserv : s.serving n = true) (h : (ceilingView (s.bp n)).left < s.floorEff n (s.bp n).bw.floorUse)
    (hback : s.backTo n < s.gBottom n) :
    (s.marginCheck n).1 = true ∧ ∃ u, Inside (fun _ => ()) n 0 s u ∧
      ceilingView (u.bp n) = (ceilingView (s.bp n)).marginMuted (ceilingView (s.bp n)).left (s.gBottom n) ∧
      SignedTrip n 2 (F.bpBwStatMarginMute n) u (s.marginCheck n).2 := by
  unfold marginCheck
  extract_lets b f m bw s1 c b1 bw1 s2 s3 s4
  have hlow : m < f := h
  have hdeep : c < s1.gBottom n := hback
  rw [if_pos hlow, if_pos hdeep]
  have hb1 : b1 = { s.bp n with bw := { (s.bp n).bw with margin := (ceilingView (s.bp n)).left } } := setBp_bp_same ..
  have hset : Inside (fun _ => ()) n 0 s s2 := Inside.trans (j := 0) (k := 0) (Inside.setBp rfl) (Inside.setBp rfl)
  have hview : ceilingView (s2.bp n) = (ceilingView (s.bp n)).marginMuted (ceilingView (s.bp n)).left (s.gBottom n) := by
    simp only [s2, bw1, hb1, setBp_bp_same]
    rfl
  have hst : s2.serving n = true := (serving_of_st (by simp only [s2, hb1, setBp_bp_same])).trans hserv
  clear_value s2
  have hsigned := signedTrip 2 (f := F.bpBwStatMarginMute n) hst rfl (show 6 < 40 by decide)
    (by simp only [inBpBlock, F.bpBwStatMarginMute]; omega)
  exact ⟨rfl, s2, hset, hview, hsigned⟩

end

end Sys2Proof.Machine.State
end

section
/-! The estimate, the ceiling and the margin of a band path in service at the end of its interval (R82 to R87). -/

namespace Sys2Proof.Machine.State

/-! ### The interval's estimate -/

/-- The ceiling no higher than a C_max, with what it holds above it (R86). -/
def ceilUnder (w : BpBw) (cm : Db) : Db × Nat := (if w.ceiling < cm then w.ceiling else cm, if w.ceiling < cm then w.ceilFifths else 0)

/-- The ceiling stands under C_max and I_bw is the interval's, which is I_p where no sample of it was usable (R82, R84, R86). -/
structure Estimated (n : Nat) (s t : State) : Prop extends Inside (fun b => b.prot) n 0 s t where
  bw : (t.bp n).bw = { (s.bp n).bw with
    ceiling := (ceilUnder (s.bp n).bw (s.cMax n)).1, ceilFifths := (ceilUnder (s.bp n).bw (s.cMax n)).2
    fastQual := (t.bp n).bw.fastQual, isoFast := (t.bp n).bw.isoFast, isoBw := (t.bp n).bw.isoBw, isoSrc := (t.bp n).bw.isoSrc }
  unused : (s.bp n).bw.fast.usable = 0 → (t.bp n).bw.isoBw = (s.bp n).bw.isoP ∧ (t.bp n).bw.isoSrc = (s.bp n).bw.pSrc

/-- Where the margin is met the ceiling is held after a back-off, or rises where the margin allows it (R86). -/
def holdOrRise (s : State) (n : Nat) (cm : Db) : State :=
  let b := s.bp n
  if 0 < b.bw.holdOff then (s.setBp n { b with bw := { b.bw with holdOff := b.bw.holdOff - 1 } }).settleSt n
  else if b.bw.ceiling < cm ∧ (b.bw.ceilFifths : Int) + 2 ^ 23 ≤ 5 * (b.bw.isoBw - b.bw.ceiling - s.floorEff n b.bw.floorUse - dB1) then
    let c := ceilRise b.bw.ceiling b.bw.ceilFifths cm
    (s.setBp n { b with bw := { b.bw with ceiling := c.1, ceilFifths := c.2 } }).settleSt n
  else s.settleSt n

theorem drawIso_frame (s : State) (r : IsoRes) : (s.drawIso r).2 = { s with freeCtr := (s.drawIso r).2.freeCtr } := by
  unfold drawIso
  split <;> rfl

theorem bwJudge_eq (s : State) (n : Nat) : ∃ t, Estimated n s t ∧
    s.bwJudge n = if (t.marginCheck n).1 then (t.marginCheck n).2 else (t.marginCheck n).2.holdOrRise n (s.cMax n) := by
  unfold bwJudge
  extract_lets b cm bw b1 s1 f r whole enough
  have hb1 : b1 = { b with bw := { b.bw with ceiling := (ceilUnder b.bw cm).1, ceilFifths := (ceilUnder b.bw cm).2 } } := by
    simp only [b1, ceilUnder]
    split <;> rfl
  have h1 : Inside (fun b => b.prot) n 0 s s1 := Inside.setBp (by rw [hb1])
  generalize hq : (if enough = true then s1.drawIso (isolation 0 f.corr f.refPow f.pow f.usable none b1.bw.spread (s1.gChain n))
    else (⟨false, 0, false⟩, s1)) = q
  have hq2 : q.2 = { s1 with freeCtr := q.2.freeCtr } := by
    rw [← hq]
    split
    · exact drawIso_frame ..
    · rfl
  obtain ⟨iso, s2⟩ := q
  dsimp only at hq2
  have h2 : Inside (fun b => b.prot) n 0 s1 s2 := by
    rw [hq2]
    exact Inside.of_spares ⟨rfl, rfl, rfl, fun _ _ => rfl⟩ rfl rfl
  have hown : s2.bp n = b1 := by rw [hq2]; exact setBp_bp_same ..
  refine ⟨_, ?_, rfl⟩
  refine ⟨Inside.trans (j := 0) (k := 0) (Inside.trans (j := 0) (k := 0) h1 h2) (Inside.setBp ?_), ?_, fun hunused => ?_⟩
  · rfl
  · simp only [setBp_bp_same, hown, hb1]
    rfl
  · have hnone : enough = false := by
      have hf : f.usable = 0 := (congrArg (fun x : Bp => x.bw.fast.usable) hb1).trans hunused
      simp only [enough, hf, Nat.lt_irrefl, decide_false, Bool.and_false]
    simp only [setBp_bp_same, hown, hnone, hb1, Bool.false_and, Bool.false_eq_true, if_false]
    exact ⟨rfl, rfl⟩

/-! ### The margin met -/

theorem holdOrRise_inside (s : State) (n : Nat) (cm : Db) : Inside (fun _ => ()) n 0 s (s.holdOrRise n cm) := by
  have hset : ∀ b : Bp, Inside (fun _ => ()) n 0 s ((s.setBp n b).settleSt n) := fun b =>
    Inside.trans (j := 0) (k := 0) (Inside.setBp rfl) ((Inside.settleSt n (s.setBp n b)).map fun _ => ())
  unfold holdOrRise
  dsimp only
  split
  · exact hset _
  · split
    · exact hset _
    · exact (Inside.settleSt n s).map fun _ => ()

theorem holdOrRise_serving (s : State) (n : Nat) (cm : Db) : (s.holdOrRise n cm).serving n = s.serving n := by
  unfold holdOrRise
  dsimp only
  split
  · exact (settleSt_serving ..).trans (serving_of_prot (by rw [setBp_bp_same]))
  · split
    · exact (settleSt_serving ..).trans (serving_of_prot (by rw [setBp_bp_same]))
    · exact settleSt_serving ..

theorem holdOrRise_view (s : State) (n : Nat) (cm : Db) :
    ceilingView ((s.holdOrRise n cm).bp n) = (ceilingView (s.bp n)).rested (s.floorEff n (s.bp n).bw.floorUse) cm := by
  have hsettle : ∀ u : State, ceilingView ((u.settleSt n).bp n) = ceilingView (u.bp n) := fun u => (Inside.settleSt n u).own
  unfold holdOrRise
  dsimp only
  split
  next hheld => exact (hsettle _).trans (by rw [setBp_bp_same, CeilingView.rested_of_held _ _ hheld]; rfl)
  next hfree =>
    split
    next hrise => exact (hsettle _).trans (by rw [setBp_bp_same, CeilingView.rested_of_rise hfree hrise]; rfl)
    next hstill => exact (hsettle s).trans (CeilingView.rested_of_still hfree hstill).symm

/-! ### The judgement -/

/-- The view a judgement begins with: I_bw and its source, and the ceiling under C_max. -/
def estimatedView (w : BpBw) (cm i : Db) (src : BitVec 2) : CeilingView :=
  ⟨i, src, w.margin, (ceilUnder w cm).1, (ceilUnder w cm).2, w.holdOff, w.backoffCnt, w.tripCnt⟩

/-- What a judgement leaves, by the margin `v.left` against F: met, backed off, or muted with cause 2 (R85 to R87). -/
inductive JudgedTo (n : Nat) (v : CeilingView) (s t : State) : Prop where
  | met (hmargin : s.floorEff n (s.bp n).bw.floorUse ≤ v.left) (inside : Inside (fun _ => ()) n 0 s t)
      (view : ceilingView (t.bp n) = { v with margin := v.left }.rested (s.floorEff n (s.bp n).bw.floorUse) (s.cMax n))
      (serving : t.serving n = true)
  | backedOff (hmargin : v.left < s.floorEff n (s.bp n).bw.floorUse)
      (hback : s.gBottom n ≤ v.isoBw - s.floorEff n (s.bp n).bw.floorUse - dB1) (inside : Inside (fun _ => ()) n 1 s t)
      (view : ceilingView (t.bp n) = v.backedOff v.left (v.isoBw - s.floorEff n (s.bp n).bw.floorUse - dB1))
      (serving : t.serving n = true) (sent : s.intakeRoom 1 = true → s.sentNow t n 3 0 (Config.msgContext n 3 0))
  | muted (hmargin : v.left < s.floorEff n (s.bp n).bw.floorUse)
      (hback : v.isoBw - s.floorEff n (s.bp n).bw.floorUse - dB1 < s.gBottom n) (u : State) (inside : Inside (fun _ => ()) n 0 s u)
      (view : ceilingView (u.bp n) = v.marginMuted v.left (s.gBottom n)) (trip : SignedTrip n 2 (F.bpBwStatMarginMute n) u t)

theorem bwJudge_judges {s : State} {n : Nat} (hn : n < 128) (hserv : s.serving n = true) : ∃ i src,
    ((s.bp n).bw.fast.usable = 0 → i = (s.bp n).bw.isoP ∧ src = (s.bp n).bw.pSrc) ∧
      JudgedTo n (estimatedView (s.bp n).bw (s.cMax n) i src) s (s.bwJudge n) := by
  obtain ⟨e, hest, heq⟩ := bwJudge_eq s n
  refine ⟨(e.bp n).bw.isoBw, (e.bp n).bw.isoSrc, hest.unused, ?_⟩
  have hin : Inside (fun _ => ()) n 0 s e := hest.toInside.map fun _ => ()
  have hview : ceilingView (e.bp n) = estimatedView (s.bp n).bw (s.cMax n) (e.bp n).bw.isoBw (e.bp n).bw.isoSrc := by
    rw [ceilingView, hest.bw]
    rfl
  have huse : (e.bp n).bw.floorUse = (s.bp n).bw.floorUse := by rw [hest.bw]
  have hfloor : e.floorEff n (e.bp n).bw.floorUse = s.floorEff n (s.bp n).bw.floorUse := by rw [huse, floorEff_of_terms hin.terms]
  have hbottom := gBottom_of_terms hin.terms n
  have hst : e.serving n = true := (serving_of_prot hest.own).trans hserv
  have hback : e.backTo n = (e.bp n).bw.isoBw - s.floorEff n (s.bp n).bw.floorUse - dB1 := by rw [backTo, hfloor]
  rw [heq, ← hview]
  rcases lt_or_ge (ceilingView (e.bp n)).left (e.floorEff n (e.bp n).bw.floorUse) with hlow | hmet
  · rcases lt_or_ge (e.backTo n) (e.gBottom n) with hdeep | hlift
    · obtain ⟨hmoved, u, hu, huview, htrip⟩ := marginCheck_of_mute hn hst hlow hdeep
      rw [if_pos hmoved]
      exact .muted (hfloor ▸ hlow) (hback ▸ hbottom ▸ hdeep) u (hin.trans hu) (hbottom ▸ huview) htrip
    · obtain ⟨hmoved, hoff⟩ := marginCheck_of_backOff hlow hlift
      rw [if_pos hmoved]
      have hsent := fun hroom : s.intakeRoom 1 = true =>
        sentNow_of_terms hin.terms (hoff.sent (hin.room 1 hroom))
      exact .backedOff (hfloor ▸ hlow) (hback ▸ hbottom ▸ hlift) (hin.trans hoff.toInside) (hback ▸ hoff.view) (hoff.serving.trans hst) hsent
  · rw [marginCheck_of_met hmet, if_neg Bool.false_ne_true]
    have hset : Inside (fun _ => ()) n 0 e (e.setBp n { e.bp n with bw := { (e.bp n).bw with margin := (ceilingView (e.bp n)).left } }) :=
      Inside.setBp rfl
    refine .met (hfloor ▸ hmet) ((hin.trans hset).trans (holdOrRise_inside ..)) ?_ ?_
    · rw [holdOrRise_view, setBp_bp_same]
      exact congrArg (fun f => CeilingView.rested _ f _) ((floorEff_of_terms hset.terms n _).trans hfloor)
    · exact (holdOrRise_serving ..).trans ((serving_of_prot (by rw [setBp_bp_same])).trans hst)

end Sys2Proof.Machine.State
end

section
/-! The noise at the donor, and all that the end of an interval judges of a band path in service (R82 to R87, R130). -/

namespace Sys2Proof.Machine.State

/-! ### The noise at the donor -/

/-- N_donor is noted, and an uplink band path over N_MAX trips, one that the margin has just muted too (R130, R142). -/
def noiseCheck (s : State) (n : Nat) (noise : Db) : State :=
  let b := s.bp n
  let s := s.setBp n { b with prot := { b.prot with nDonor := noise } }
  if s.uplink n && decide (s.nMax n < noise) && (s.serving n || (s.bp n).prot.tripIv == some s.evalSeq) then
    (s.tripped n 4).report (srcBp n) 12 1 (Config.msgContext (srcBp n) 12 0)
  else s

/-- The noise at the donor of a band path in service has been judged. -/
structure NoiseChecked (n : Nat) (noise : Db) (s t : State) : Prop extends Inside ceilingView n 2 s t where
  nDonor : (t.bp n).prot.nDonor = noise
  exceeds : s.uplink n = true → s.nMax n < noise → (t.bp n).prot.cause = 4 ∧ t.mutes n
  sent : s.uplink n = true → s.nMax n < noise → s.intakeRoom 2 = true → s.sentNow t n 12 1 (Config.msgContext n 12 0)

theorem noiseCheck_of_serving {s : State} {n : Nat} (noise : Db) (hserv : s.serving n = true) :
    NoiseChecked n noise s (s.noiseCheck n noise) := by
  unfold noiseCheck
  extract_lets b p s1
  have hset : Inside ceilingView n 0 s s1 := Inside.setBp rfl
  have hnoise : (s1.bp n).prot.nDonor = noise := by rw [setBp_bp_same]
  have hst : s1.serving n = true := (serving_of_st (by rw [setBp_bp_same])).trans hserv
  clear_value s1
  have htrip := tripped_of_serving 4 hst
  have hbp := (Quiet.report (s1.tripped n 4) (srcBp n) 12 1 (Config.msgContext (srcBp n) 12 0)).bp n
  have hin := hset.trans htrip.toInside
  rw [uplink_of_terms hset.terms, nMax_of_terms hset.terms, hst, Bool.true_or, Bool.and_true]
  split
  · refine ⟨hin.trans (Inside.report ..), by rw [hbp, htrip.nDonor, hnoise], fun _ _ => ⟨(congrArg (·.prot.cause) hbp).trans htrip.cause, ?_⟩, fun _ _ hroom => ?_⟩
    · rw [mutes, hbp]
      exact htrip.mutes
    · exact sentNow_report hin.terms _ _ _ _ (hin.room 1 hroom)
  next hnot =>
    have hquiet : s.uplink n = true → s.nMax n < noise → False := fun hup hover => hnot (by simp [hup, hover])
    exact ⟨hset.mono (by decide), hnoise, fun hup hover => (hquiet hup hover).elim, fun hup hover => (hquiet hup hover).elim⟩

/-- A band path that has tripped in the interval with a lower code keeps its cause (R142). -/
theorem noiseCheck_of_counted {s : State} {n : Nat} (noise : Db) (hiv : (s.bp n).prot.tripIv = some s.evalSeq) (hmutes : s.mutes n)
    (hcause : (s.bp n).prot.cause.toNat ≤ 4) :
    Inside (fun b => (ceilingView b, b.prot.cause, b.prot.st)) n 1 s (s.noiseCheck n noise) ∧
      ((s.noiseCheck n noise).bp n).prot.nDonor = noise := by
  unfold noiseCheck
  extract_lets b p s1
  have hset : Inside (fun b => (ceilingView b, b.prot.cause, b.prot.st)) n 0 s s1 := Inside.setBp rfl
  have hnoise : (s1.bp n).prot.nDonor = noise := by rw [setBp_bp_same]
  have hsame : s1.tripped n 4 = s1 := by
    refine tripped_of_counted ?_ ?_ ?_
    · rw [setBp_bp_same]; exact hiv
    · rw [mutes, setBp_bp_same]; exact hmutes
    · rw [setBp_bp_same]; exact hcause
  rw [hsame]
  split
  · exact ⟨hset.trans (Inside.report ..), by rw [(Quiet.report ..).bp n, hnoise]⟩
  · exact ⟨hset.mono (by decide), hnoise⟩

/-! ### The whole judgement -/

/-- What an evaluation makes of a band path in service: its view, its protection state, MARGIN_MUTE and the messages, by the state before it (R82 to R87, R130). -/
structure Judgement (s : State) (n : Nat) (noise : Db) (v : CeilingView) (p : BpProt) (mute : Bool) (q : List FMsg) : Prop where
  nDonor : p.nDonor = noise
  margin : v.margin = (estimatedView (s.bp n).bw (s.cMax n) v.isoBw v.isoSrc).left
  unused : (s.bp n).bw.fast.usable = 0 → v.isoBw = (s.bp n).bw.isoP ∧ v.isoSrc = (s.bp n).bw.pSrc
  backOff : v.margin < s.floorEff n (s.bp n).bw.floorUse → s.gBottom n ≤ v.isoBw - s.floorEff n (s.bp n).bw.floorUse - dB1 →
    v.ceiling = v.isoBw - s.floorEff n (s.bp n).bw.floorUse - dB1 ∧ v.ceilFifths = 0 ∧ v.holdOff = 1 ∧
      v.backoffCnt = (s.bp n).bw.backoffCnt.inc 39 ∧ s.mkMsg n 3 0 (Config.msgContext n 3 0) false ∈ q
  marginMute : v.margin < s.floorEff n (s.bp n).bw.floorUse → v.isoBw - s.floorEff n (s.bp n).bw.floorUse - dB1 < s.gBottom n →
    v.ceiling = s.gBottom n ∧ v.ceilFifths = 0 ∧ v.tripCnt = (s.bp n).bw.tripCnt.inc 39 ∧ mute = true ∧ p.cause = 2 ∧
      (p.st = .muted ∨ p.st = .lockedOut) ∧ s.mkMsg n 2 1 (Config.msgContext n 2 0) false ∈ q
  rise : s.floorEff n (s.bp n).bw.floorUse ≤ v.margin → (s.bp n).bw.holdOff = 0 → (ceilUnder (s.bp n).bw (s.cMax n)).1 < s.cMax n →
    ((ceilUnder (s.bp n).bw (s.cMax n)).2 : Int) + 2 ^ 23 ≤
      5 * (v.isoBw - (ceilUnder (s.bp n).bw (s.cMax n)).1 - s.floorEff n (s.bp n).bw.floorUse - dB1) →
    (v.ceiling, v.ceilFifths) = ceilRise (ceilUnder (s.bp n).bw (s.cMax n)).1 (ceilUnder (s.bp n).bw (s.cMax n)).2 (s.cMax n)
  hold : s.floorEff n (s.bp n).bw.floorUse ≤ v.margin → 0 < (s.bp n).bw.holdOff →
    v.ceiling = (ceilUnder (s.bp n).bw (s.cMax n)).1 ∧ v.holdOff = (s.bp n).bw.holdOff - 1
  noisy : s.floorEff n (s.bp n).bw.floorUse ≤ v.margin → s.uplink n = true → s.nMax n < noise →
    p.cause = 4 ∧ (p.st = .muted ∨ p.st = .lockedOut) ∧ s.mkMsg n 12 1 (Config.msgContext n 12 0) false ∈ q

section
variable {s : State} {n : Nat} {noise i : Db} {src : BitVec 2} {p : BpProt} {mute : Bool} {q : List FMsg}
  (hunused : (s.bp n).bw.fast.usable = 0 → i = (s.bp n).bw.isoP ∧ src = (s.bp n).bw.pSrc) (hnoise : p.nDonor = noise)
include hunused hnoise

theorem Judgement.of_met (hmargin : s.floorEff n (s.bp n).bw.floorUse ≤ (estimatedView (s.bp n).bw (s.cMax n) i src).left)
    (hnoisy : s.uplink n = true → s.nMax n < noise →
      p.cause = 4 ∧ (p.st = .muted ∨ p.st = .lockedOut) ∧ s.mkMsg n 12 1 (Config.msgContext n 12 0) false ∈ q) :
    Judgement s n noise ({ estimatedView (s.bp n).bw (s.cMax n) i src with
      margin := (estimatedView (s.bp n).bw (s.cMax n) i src).left }.rested (s.floorEff n (s.bp n).bw.floorUse) (s.cMax n)) p mute q := by
  generalize hv : { estimatedView (s.bp n).bw (s.cMax n) i src with margin := (estimatedView (s.bp n).bw (s.cMax n) i src).left } = v
  obtain ⟨hiso, hsrc, hleft⟩ := v.rested_kept (s.floorEff n (s.bp n).bw.floorUse) (s.cMax n)
  have hmet : s.floorEff n (s.bp n).bw.floorUse ≤ v.margin := by rw [← hv]; exact hmargin
  refine ⟨hnoise, ?_, fun h => ?_, fun hlow => ?_, fun hlow => ?_, fun _ hfree hunder hroom => ?_, fun _ hheld => ?_, fun _ => hnoisy⟩
  · rw [hleft, hiso, hsrc, ← hv]
    rfl
  · rw [hiso, hsrc, ← hv]
    exact hunused h
  · rw [hleft] at hlow
    exact absurd hlow (not_lt.mpr hmet)
  · rw [hleft] at hlow
    exact absurd hlow (not_lt.mpr hmet)
  · rw [hiso] at hroom
    have hzero : ¬ 0 < v.holdOff := by rw [← hv]; exact Nat.not_lt.mpr (Nat.le_of_eq hfree)
    rw [CeilingView.rested_of_rise hzero (by rw [← hv] at hroom ⊢; exact ⟨hunder, hroom⟩), ← hv]
    rfl
  · have hpos : 0 < v.holdOff := by rw [← hv]; exact hheld
    rw [CeilingView.rested_of_held _ _ hpos, ← hv]
    exact ⟨rfl, rfl⟩

theorem Judgement.of_backedOff (hmargin : (estimatedView (s.bp n).bw (s.cMax n) i src).left < s.floorEff n (s.bp n).bw.floorUse)
    (hback : s.gBottom n ≤ i - s.floorEff n (s.bp n).bw.floorUse - dB1)
    (hsent : s.mkMsg n 3 0 (Config.msgContext n 3 0) false ∈ q) :
    Judgement s n noise ((estimatedView (s.bp n).bw (s.cMax n) i src).backedOff (estimatedView (s.bp n).bw (s.cMax n) i src).left
      (i - s.floorEff n (s.bp n).bw.floorUse - dB1)) p mute q :=
  ⟨hnoise, rfl, hunused, fun _ _ => ⟨rfl, rfl, rfl, rfl, hsent⟩, fun _ hdeep => absurd hdeep (not_lt.mpr hback),
    fun hmet => absurd hmargin (not_lt.mpr hmet), fun hmet => absurd hmargin (not_lt.mpr hmet), fun hmet => absurd hmargin (not_lt.mpr hmet)⟩

theorem Judgement.of_muted (hmargin : (estimatedView (s.bp n).bw (s.cMax n) i src).left < s.floorEff n (s.bp n).bw.floorUse)
    (hback : i - s.floorEff n (s.bp n).bw.floorUse - dB1 < s.gBottom n) (hmute : mute = true) (hcause : p.cause = 2)
    (hst : p.st = .muted ∨ p.st = .lockedOut) (hsent : s.mkMsg n 2 1 (Config.msgContext n 2 0) false ∈ q) :
    Judgement s n noise ((estimatedView (s.bp n).bw (s.cMax n) i src).marginMuted (estimatedView (s.bp n).bw (s.cMax n) i src).left
      (s.gBottom n)) p mute q :=
  ⟨hnoise, rfl, hunused, fun _ hlift => absurd hback (not_lt.mpr hlift), fun _ _ => ⟨rfl, rfl, rfl, hmute, hcause, hst, hsent⟩,
    fun hmet => absurd hmargin (not_lt.mpr hmet), fun hmet => absurd hmargin (not_lt.mpr hmet), fun hmet => absurd hmargin (not_lt.mpr hmet)⟩

end

/-- The judgement of a state. -/
def judgedIn (s : State) (n : Nat) (noise : Db) (t : State) : Prop :=
  Judgement s n noise (ceilingView (t.bp n)) (t.bp n).prot (t.rdB (F.bpBwStatMarginMute n)) t.fc.queue

theorem bwJudge_noiseCheck {s : State} {n : Nat} (noise : Db) (hn : n < 128) (hserv : s.serving n = true) (hroom : s.intakeRoom 3 = true) :
    s.judgedIn n noise ((s.bwJudge n).noiseCheck n noise) ∧ s.otherBps ((s.bwJudge n).noiseCheck n noise) n ∧
      ((s.bwJudge n).noiseCheck n noise).terms = s.terms := by
  obtain ⟨i, src, hunused, hjudged⟩ := bwJudge_judges hn hserv
  cases hjudged with
  | met hmargin inside view serving =>
    have hnoise := noiseCheck_of_serving noise serving
    refine ⟨?_, fun m hm => (hnoise.others m hm).trans (inside.others m hm), hnoise.terms.trans inside.terms⟩
    rw [judgedIn, hnoise.own, view]
    refine .of_met hunused hnoise.nDonor hmargin fun hup hover => ?_
    rw [← uplink_of_terms inside.terms] at hup
    rw [← nMax_of_terms inside.terms] at hover
    obtain ⟨hcause, hmutes⟩ := hnoise.exceeds hup hover
    exact ⟨hcause, hmutes, sentNow_of_terms inside.terms (hnoise.sent hup hover (intakeRoom_mono (inside.room 3 hroom) (by decide)))⟩
  | backedOff hmargin hback inside view serving sent =>
    have hnoise := noiseCheck_of_serving noise serving
    refine ⟨?_, fun m hm => (hnoise.others m hm).trans (inside.others m hm), hnoise.terms.trans inside.terms⟩
    rw [judgedIn, hnoise.own, view]
    exact .of_backedOff hunused hnoise.nDonor hmargin hback
      (hnoise.toSends.sentNow (inside.room 2 hroom) (sent (intakeRoom_mono hroom (by decide))))
  | muted hmargin hback u inside view trip =>
    have hiv : ((s.bwJudge n).bp n).prot.tripIv = some (s.bwJudge n).evalSeq := by rw [trip.counted, evalSeq_of_terms trip.terms]
    have hlow : ((s.bwJudge n).bp n).prot.cause.toNat ≤ 4 := by rw [trip.cause]; decide
    obtain ⟨hnoise, hdonor⟩ := noiseCheck_of_counted noise hiv trip.mutes hlow
    have hview := congrArg Prod.fst hnoise.own
    have hcause := congrArg (·.2.1) hnoise.own
    have hst := congrArg (·.2.2) hnoise.own
    dsimp only at hview hcause hst
    refine ⟨?_, fun m hm => (hnoise.others m hm).trans ((trip.others m hm).trans (inside.others m hm)),
      hnoise.terms.trans (trip.terms.trans inside.terms)⟩
    have hmute : ((s.bwJudge n).noiseCheck n noise).rdB (F.bpBwStatMarginMute n) = true := by
      have hreg := hnoise.reg (F.bpBwStatMarginMute n).addr (by simp only [inBpBlock, F.bpBwStatMarginMute]; omega)
      rw [rdB, rd, hreg]
      exact trip.sign
    have hu : u.intakeRoom 3 = true := inside.room 3 hroom
    rw [judgedIn, hview, trip.view, view]
    refine .of_muted hunused hdonor hmargin hback hmute (hcause.trans trip.cause) (by rw [hst]; exact trip.mutes) ?_
    exact hnoise.toSends.sentNow (trip.room 1 hu) (sentNow_of_terms inside.terms (trip.sent (intakeRoom_mono hu (by decide))))

end Sys2Proof.Machine.State
end

section
/-! Barring a band path whose watchers are out of service: nothing but it changes its state (R131, R140, R141). -/

namespace Sys2Proof.Machine.State

/-- No band path has changed its state, and the collector and the terms of the evaluation stand. -/
structure Still (s t : State) : Prop where
  terms : t.terms = s.terms
  fc : t.fc = s.fc
  st : ∀ m, (t.bp m).prot.st = (s.bp m).prot.st

section
variable {s t u : State} {n : Nat}

theorem Still.refl (s : State) : Still s s := ⟨rfl, rfl, fun _ => rfl⟩

theorem Still.trans (h : Still s t) (g : Still t u) : Still s u :=
  ⟨g.terms.trans h.terms, g.fc.trans h.fc, fun m => (g.st m).trans (h.st m)⟩

theorem Still.of_quiet (h : Quiet s t) (hterms : t.terms = s.terms) (hfc : t.fc = s.fc) : Still s t :=
  ⟨hterms, hfc, fun m => by rw [h.bp]⟩

theorem Still.setBp {b : Bp} (h : b.prot.st = (s.bp n).prot.st) : Still s (s.setBp n b) := by
  refine ⟨rfl, rfl, fun m => ?_⟩
  rw [setBp_bp]
  split
  next hm => rw [hm, h]
  · rfl

theorem Still.setBpTherm (s : State) (n : Nat) (x : BpTherm) : Still s (s.setBpTherm n x) := ⟨rfl, rfl, fun _ => rfl⟩

theorem passing_of_st (h : (t.bp n).prot.st = (s.bp n).prot.st) : t.passing n = s.passing n := by rw [passing, h]; rfl

theorem idle_iff : s.passing n = false ↔ (s.bp n).prot.st = .off ∨ (s.bp n).prot.st = .barred := by
  unfold passing
  cases (s.bp n).prot.st <;> simp

theorem serving_of_idle (h : s.passing n = false) : s.serving n = false := by
  rcases idle_iff.mp h with hst | hst <;> rw [serving, hst]

end

/-! ### A held cause out of service -/

theorem release_of_idle {s : State} {n : Nat} (h : s.passing n = false) : s.release n = s := by
  unfold release
  rcases idle_iff.mp h with hst | hst <;> simp [hst]

theorem Still.cxOf (s : State) (n : Nat) : Still s (s.cxOf n) := Still.of_quiet (Quiet.cxOf ..) (cxOf_terms ..) (cxOf_fc ..)

theorem Still.setHeld_of_idle {s : State} {n : Nat} (h : s.passing n = false) (f : Held → Held) : Still s (s.setHeld n f) := by
  unfold State.setHeld
  extract_lets b held serving p s1
  have hset : Still s s1 := Still.setBp rfl
  have hidle : s1.passing n = false := (passing_of_st (hset.st n)).trans h
  have hserving : serving = false := serving_of_idle h
  rw [hserving, Bool.false_and, release_of_idle hidle]
  split
  · exact Still.refl s
  · exact hset.trans (Still.cxOf ..)

theorem Still.donorLost_of_idle {s : State} {n : Nat} (h : s.passing n = false) : Still s (s.donorLost n) := by
  unfold State.donorLost
  have hset : Still s (s.setBp n { s.bp n with prot := { (s.bp n).prot with donorLost := true, donorOk := none } }) := Still.setBp rfl
  exact hset.trans (Still.setHeld_of_idle ((passing_of_st (hset.st n)).trans h) _)

/-! ### What a band path gives back -/

theorem dropCapture_fc_thermal (s : State) (n : Nat) : (s.dropCapture n).fc = s.fc ∧ (s.dropCapture n).thermal = s.thermal := by
  unfold dropCapture
  dsimp only
  split <;> exact ⟨rfl, rfl⟩

theorem leaveService_fc_thermal (s : State) (n : Nat) : (s.leaveService n).fc = s.fc ∧ (s.leaveService n).thermal = s.thermal :=
  dropCapture_fc_thermal ((s.gateReset n).dropProbe n) n

theorem Still.leaveService (s : State) (n : Nat) : Still s (s.leaveService n) := by
  have h := Inside.leaveService n s
  have hprot := congrArg Prod.snd h.own
  refine ⟨h.terms, (leaveService_fc_thermal s n).1, fun m => ?_⟩
  by_cases hm : m = n
  · rw [hm]
    exact congrArg BpProt.st hprot
  · rw [h.others m hm]

theorem Still.cancelSwap (s : State) (n : Nat) : Still s (s.cancelSwap n) := by
  unfold State.cancelSwap
  split
  · exact Still.setBp rfl
  · exact Still.refl s

theorem cancelSwap_thermal (s : State) (n : Nat) : (s.cancelSwap n).thermal = s.thermal := by
  unfold cancelSwap
  split <;> rfl

/-- A released resampler starts its reset or waits for it, and nothing else changes (R26, R46). -/
theorem nextReset_frame (s : State) : s.nextReset = { s with rsmp := s.nextReset.rsmp } := by
  unfold nextReset
  dsimp only
  split
  · split <;> rfl
  · rfl

theorem moveTaps_frame (s : State) (u : Nat) (take : Bool) : s.moveTaps u take = { s with tapFlight := (s.moveTaps u take).tapFlight } := by
  unfold moveTaps
  split <;> rfl

/-- The pools take back what a band path held: its resampler and its tap-units go their way, and its flow notes it (R26). -/
theorem returnPools_frame (s : State) (n : Nat) : ∃ (r : State) (fl : BpFlow), r = { s with rsmp := r.rsmp, tapFlight := r.tapFlight } ∧
    s.returnPools n = r.setBp n { s.bp n with flow := fl } := by
  unfold returnPools
  extract_lets b s1 s2
  have h1 : s1 = { s with rsmp := s1.rsmp } := by
    simp only [s1]
    split
    · rw [nextReset_frame]; rfl
    · rfl
  have h2 : s2 = { s with rsmp := s2.rsmp, tapFlight := s2.tapFlight } := by
    simp only [s2]
    rw [moveTaps_frame, h1]
  exact ⟨s2, _, h2, rfl⟩

theorem Still.returnPools (s : State) (n : Nat) : Still s (s.returnPools n) := by
  obtain ⟨r, fl, hr, heq⟩ := returnPools_frame s n
  have hbp : ∀ m, r.bp m = s.bp m := fun m => by rw [hr]; rfl
  have hstill : Still s r := ⟨by rw [hr]; rfl, by rw [hr], fun m => by rw [hbp]⟩
  rw [heq]
  exact hstill.trans (Still.setBp (by rw [hbp]))

theorem returnPools_thermal (s : State) (n : Nat) : (s.returnPools n).thermal = s.thermal := by
  obtain ⟨r, fl, hr, heq⟩ := returnPools_frame s n
  rw [heq, setBp_thermal, hr]

/-- Where no transfer waits the governor takes a release at once or lets it wait: the ledger alone changes (R354). -/
theorem returnCredits_frame {s : State} (n : Nat) (h : s.thermal.waiting = []) :
    s.returnCredits n = { s with thermal := (s.returnCredits n).thermal } := by
  unfold returnCredits
  dsimp only
  split
  · rfl
  · rw [govAsk]
    simp only [h, List.nil_append, List.length_singleton, govServe]
    split
    · rfl
    · simp

theorem Still.returnCredits {s : State} (n : Nat) (h : s.thermal.waiting = []) : Still s (s.returnCredits n) := by
  rw [returnCredits_frame n h]
  exact ⟨rfl, rfl, fun _ => rfl⟩

/-! ### Barring -/

/-- Band path `n` has gone to `st`; the others keep their states, and no message is sent. -/
structure GoesIdle (n : Nat) (st : BpSt) (s t : State) : Prop where
  terms : t.terms = s.terms
  fc : t.fc = s.fc
  own : (t.bp n).prot.st = st
  others : ∀ m, m ≠ n → (t.bp m).prot.st = (s.bp m).prot.st

theorem enterIdle_goesIdle {s : State} {n : Nat} (hwait : s.thermal.waiting = [])
    (hidle : ∀ m ∈ s.planned, m ≠ n → s.passing m = false) : GoesIdle n .barred s (s.enterIdle n .barred) := by
  unfold enterIdle
  extract_lets s1 s2 t left s3 b p p1 held p2 s4
  have h1 : Still s s1 := (Still.leaveService s n).trans (Still.cancelSwap ..)
  have hwait1 : (s1.returnPools n).thermal.waiting = [] := by
    rw [returnPools_thermal, cancelSwap_thermal, (leaveService_fc_thermal s n).2, hwait]
  have h2 : Still s s2 := (h1.trans (Still.returnPools ..)).trans (Still.returnCredits n hwait1)
  have h3 : Still s s3 := h2.trans (Still.setBpTherm ..)
  clear_value s3
  have h4 : GoesIdle n .barred s s4 := by
    have hcx := Still.cxOf (s3.setBp n { b with prot := p2 }) n
    refine ⟨hcx.terms.trans ((setBp_terms ..).trans h3.terms), hcx.fc.trans h3.fc, (hcx.st n).trans ?_, fun m hm => (hcx.st m).trans ?_⟩
    · rw [setBp_bp_same]
    · rw [setBp_bp_ne _ _ hm, h3.st]
  clear_value s4
  have hwatch : Still s4 ((s4.watchers n).foldl (fun s w => s.donorLost w) s4) := by
    refine List.foldlRecOn (motive := Still s4) _ _ (Still.refl s4) fun t h w hw => h.trans (Still.donorLost_of_idle ?_)
    rw [passing_of_st (h.st w)]
    by_cases hwn : w = n
    · exact idle_iff.mpr (.inr (hwn ▸ h4.own))
    · have hplan : w ∈ s.planned := by
        have hw4 : w ∈ s4.planned := List.mem_of_mem_filter hw
        rwa [planned_of_terms h4.terms] at hw4
      rw [passing_of_st (h4.others w hwn)]
      exact hidle w hplan hwn
  exact ⟨hwatch.terms.trans h4.terms, hwatch.fc.trans h4.fc, (hwatch.st n).trans h4.own,
    fun m hm => (hwatch.st m).trans (h4.others m hm)⟩

theorem Sends.flashPut (s : State) (alt : Bool) (f : Flash → Flash) : Sends 1 s (s.flashPut alt f) := by
  unfold State.flashPut
  split
  · exact Sends.report ..
  · refine (Sends.of_fc ?_).mono (by decide)
    unfold setFlash
    split <;> rfl

theorem Quiet.flashPut (s : State) (alt : Bool) (f : Flash → Flash) : Quiet s (s.flashPut alt f) := by
  unfold State.flashPut
  split
  · exact Quiet.report ..
  · unfold setFlash
    split <;> exact ⟨rfl, rfl⟩

/-- Band path `n` is barred with a cause and its message; the others keep their states. -/
structure Bars (n code : Nat) (s t : State) : Prop where
  own : (t.bp n).prot.st = .barred
  cause : (t.bp n).prot.cause = BitVec.ofNat 4 code
  others : ∀ m, m ≠ n → (t.bp m).prot.st = (s.bp m).prot.st
  sent : s.intakeRoom 2 = true → s.sentNow t n 13 2 (Config.msgContext n 13 code)

theorem enterBarred_bars {s : State} {n : Nat} (code : Nat) (hwait : s.thermal.waiting = [])
    (hidle : ∀ m ∈ s.planned, m ≠ n → s.passing m = false) : Bars n code s (s.enterBarred n code) := by
  have hgo := enterIdle_goesIdle hwait hidle
  unfold enterBarred
  extract_lets s1 b p s2 id s3
  have hquiet : Quiet s2 (s3.report (srcBp n) 13 2 (Config.msgContext (srcBp n) 13 code)) := (Quiet.flashPut ..).trans (Quiet.report ..)
  have h2 : s2.bp n = { s1.bp n with prot := { (s1.bp n).prot with cause := BitVec.ofNat 4 code } } := setBp_bp_same ..
  refine ⟨?_, ?_, fun m hm => ?_, fun hroom => ?_⟩
  · rw [hquiet.bp, h2]
    exact hgo.own
  · rw [hquiet.bp, h2]
  · rw [hquiet.bp, setBp_bp_ne _ _ hm]
    exact hgo.others m hm
  · have hidled : Sends 0 s s2 := Sends.of_fc hgo.fc
    have hsends : Sends 1 s s3 := Sends.trans (j := 0) (k := 1) hidled (Sends.flashPut s2 _ _)
    have hterms : s3.terms = s.terms := (flashPut_terms ..).trans hgo.terms
    exact sentNow_report hterms _ _ _ _ (hsends.room 1 hroom)

end Sys2Proof.Machine.State
end

section
/-! The end of an evaluation interval: limits first, then each band path of the plan, its records and what its next interval starts from (R82, R91, R94, R125, R136, R144). -/

namespace Sys2Proof.Machine.State

/-! ### Limits that come into force -/

/-- An accepted limit comes into force (R136). -/
def limitSet (s : State) (p : LimPend) : State :=
  { s with limits := Tbl.set (fun _ => none) s.limits (8 * p.entry + p.item) (some p.value) }

theorem limitsNow_eq (s : State) : s.limitsNow = { s.limPend.foldl limitSet s with limPend := [] } := rfl

theorem limitsNow_frame (s : State) : s.limitsNow = { s with limits := s.limitsNow.limits, limPend := [] } := by
  have h : s.limPend.foldl limitSet s = { s with limits := (s.limPend.foldl limitSet s).limits } :=
    List.foldlRecOn (motive := fun t : State => t = { s with limits := t.limits }) _ _ rfl fun t h p _ => by rw [limitSet, h]
  rw [limitsNow_eq, h]

theorem limVal_limitSet (s : State) {p : LimPend} {item : Nat} (e : Nat) (hp : p.item < 8) (hitem : item < 8) :
    (s.limitSet p).limVal e item = if p.entry = e ∧ p.item = item then p.value else s.limVal e item := by
  have hkey : 8 * e + item = 8 * p.entry + p.item ↔ p.entry = e ∧ p.item = item := by omega
  simp only [limVal, limitSet, Tbl.get_set, hkey]
  by_cases h : p.entry = e ∧ p.item = item
  · rw [if_pos h, if_pos h]
  · rw [if_neg h, if_neg h]
    rfl

/-- Of several limits of one item the last comes into force. -/
theorem limVal_limitSets {l : List LimPend} (s : State) {item : Nat} (e : Nat) (hl : ∀ p ∈ l, p.item < 8) (hitem : item < 8) :
    (l.foldl limitSet s).limVal e item =
      l.foldl (fun v p => if p.entry = e ∧ p.item = item then p.value else v) (s.limVal e item) := by
  induction l generalizing s with
  | nil => rfl
  | cons p t ih =>
    rw [List.foldl_cons, List.foldl_cons, ih _ fun q hq => hl q (List.mem_cons_of_mem p hq),
      limVal_limitSet s e (hl p List.mem_cons_self) hitem]

theorem limitsNow_limVal {s : State} {item : Nat} (e : Nat) (h : ∀ p ∈ s.limPend, p.item < 8) (hitem : item < 8) :
    s.limitsNow.limVal e item = s.limLatest e item := limVal_limitSets s e h hitem

/-! ### The end of one band path's interval -/

/-- The egress power is judged at the end of an interval of a band path whose samples pass: more than 1 dB over P_OUT_MAX (R133). -/
def overPower (s : State) (n : Nat) : Bool :=
  decide ((s.bp n).flow.meterOut.window.length = 64) && decide (s.limPower n + dB1 < s.pOut n) && s.passing n

/-- What the end of an interval makes of a band path before its records are written. -/
def judgeInterval (s : State) (n : Nat) : State :=
  if s.overPower n then s.enterBarred n 8
  else if s.serving n then (s.bwJudge n).noiseCheck n (s.nDonorNow n (s.bandGain n))
  else s

/-- The records are written and the next interval starts: of band path `n` what it is judged by stands, and of its protection all but the count of this interval's trips. -/
structure Recorded (n : Nat) (s t : State) : Prop where
  frame : t = { s with bps := t.bps, mem := t.mem, writeBacks := t.writeBacks }
  others : s.otherBps t n
  view : ceilingView (t.bp n) = ceilingView (s.bp n)
  prot : (t.bp n).prot = { (s.bp n).prot with tripIv := none }

theorem nextInterval_recorded (s : State) (n : Nat) : Recorded n s (s.nextInterval n) := by
  unfold nextInterval
  refine ⟨rfl, fun m hm => setBp_bp_ne _ _ hm, ?_, ?_⟩ <;> rw [setBp_bp_same]
  rfl

theorem Recorded.of_records {n a : Nat} {l : List Word} {s t : State} (h : Recorded n (s.holdPuts a l) t) : Recorded n s t := by
  have hbp : ∀ m, (s.holdPuts a l).bp m = s.bp m := fun m => by rw [holdPuts, memWrites_eq]; rfl
  refine ⟨h.frame.trans (by rw [holdPuts, memWrites_eq]), fun m hm => (h.others m hm).trans (hbp m), ?_, ?_⟩
  · rw [h.view, hbp]
  · rw [h.prot, hbp]

theorem intervalEnd_recorded (s : State) (n : Nat) : Recorded n (s.judgeInterval n) (s.intervalEnd n) := by
  have hrecords : ∃ a b c la lb lc,
      s.intervalEnd n = ((((s.judgeInterval n).holdPuts a la).holdPuts b lb).holdPuts c lc).nextInterval n := by
    unfold judgeInterval overPower noiseCheck intervalEnd
    exact ⟨_, _, _, _, _, _, rfl⟩
  obtain ⟨a, b, c, la, lb, lc, heq⟩ := hrecords
  rw [heq]
  exact (nextInterval_recorded ..).of_records.of_records.of_records

theorem judgeInterval_of_idle {s : State} {n : Nat} (h : s.passing n = false) : s.judgeInterval n = s := by
  rw [judgeInterval, overPower, h, Bool.and_false, if_neg Bool.false_ne_true, serving_of_idle h, if_neg Bool.false_ne_true]

/-! ### The terms stand -/

theorem judgeInterval_terms (s : State) (n : Nat) : (s.judgeInterval n).terms = s.terms := by
  have hjudge : (s.bwJudge n).terms = s.terms := by
    obtain ⟨e, hest, heq⟩ := bwJudge_eq s n
    rw [heq]
    split
    · rw [marginCheck_terms, hest.terms]
    · rw [(holdOrRise_inside ..).terms, marginCheck_terms, hest.terms]
  have hnoise : ∀ x : Db, ((s.bwJudge n).noiseCheck n x).terms = s.terms := fun x => by
    unfold noiseCheck
    dsimp only
    split
    · rw [report_terms, tripped_terms, setBp_terms, hjudge]
    · rw [setBp_terms, hjudge]
  unfold judgeInterval
  split
  · exact enterBarred_terms ..
  · split
    · exact hnoise _
    · rfl

theorem Recorded.terms {n : Nat} {s t : State} (h : Recorded n s t) : t.terms = s.terms := by rw [h.frame]; rfl

theorem intervalEnds_terms (l : List Nat) (s : State) : (l.foldl (fun s n => s.intervalEnd n) s).terms = s.terms :=
  List.foldlRecOn (motive := fun t : State => t.terms = s.terms) _ _ rfl fun t h n _ =>
    ((intervalEnd_recorded t n).terms.trans (judgeInterval_terms t n)).trans h

/-! ### A single band path through which samples pass -/

/-- Band path `n` and the states of all band paths stand; beside band paths only records have been written. -/
structure Aside (n : Nat) (s t : State) : Prop where
  frame : t = { s with bps := t.bps, mem := t.mem, writeBacks := t.writeBacks }
  own : t.bp n = s.bp n
  st : ∀ m, (t.bp m).prot.st = (s.bp m).prot.st

theorem Aside.refl (n : Nat) (s : State) : Aside n s s := ⟨rfl, rfl, fun _ => rfl⟩

theorem Aside.trans {n : Nat} {s t u : State} (h : Aside n s t) (g : Aside n t u) : Aside n s u :=
  ⟨g.frame.trans (by rw [h.frame]), g.own.trans h.own, fun m => (g.st m).trans (h.st m)⟩

theorem Aside.terms {n : Nat} {s t : State} (h : Aside n s t) : t.terms = s.terms := by rw [h.frame]; rfl

theorem intervalEnd_aside {s : State} {n m : Nat} (hm : m ≠ n) (h : s.passing m = false) : Aside n s (s.intervalEnd m) := by
  have hrec := intervalEnd_recorded s m
  rw [judgeInterval_of_idle h] at hrec
  refine ⟨hrec.frame, hrec.others n hm.symm, fun k => ?_⟩
  by_cases hk : k = m
  · rw [hk, hrec.prot]
  · rw [hrec.others k hk]

theorem intervalEnds_aside {s : State} {n : Nat} {l : List Nat} (hl : ∀ m ∈ l, m ≠ n ∧ s.passing m = false) :
    Aside n s (l.foldl (fun s m => s.intervalEnd m) s) :=
  List.foldlRecOn (motive := Aside n s) _ _ (Aside.refl n s) fun _ h m hm =>
    h.trans (intervalEnd_aside (hl m hm).1 ((passing_of_st (h.st m)).trans (hl m hm).2))

/-- The interval has ended for all band paths, band path `n` as `r` leaves it. -/
structure Concluded (n : Nat) (r t : State) : Prop where
  view : ceilingView (t.bp n) = ceilingView (r.bp n)
  prot : (t.bp n).prot = { (r.bp n).prot with tripIv := none }
  regs : t.regs = r.regs
  fc : t.fc = r.fc

/-- Where samples pass through no other band path the end of an interval is what it makes of this one: the others, before it and after it, have records written alone. -/
theorem bwIntervalEnd_single {s : State} {n : Nat} (hcyc : s.cyc % intervalCyc = 0) (hn : n ∈ s.planned)
    (hidle : ∀ m ∈ s.planned, m ≠ n → s.passing m = false) :
    ∃ u, Aside n s.limitsNow u ∧ ((∀ m, m ≠ n → ((u.judgeInterval n).bp m).prot.st = (u.bp m).prot.st) →
      ∃ t, exec .bwIntervalEnd s = .next t ∧ Concluded n (u.judgeInterval n) t) := by
  have hplan : s.limitsNow.planned = s.planned := by rw [limitsNow_frame]; rfl
  have hpass : ∀ m, s.limitsNow.passing m = s.passing m := fun m => by rw [limitsNow_frame]; rfl
  obtain ⟨l1, l2, hl⟩ := List.append_of_mem hn
  have hnodup : (l1 ++ n :: l2).Nodup := hl ▸ List.nodup_range.filter _
  have hout : ∀ m ∈ l1 ++ l2, m ≠ n ∧ s.passing m = false := by
    intro m hm
    have hne : m ≠ n := by
      rintro rfl
      exact (List.nodup_cons.mp (List.nodup_middle.mp hnodup)).1 hm
    refine ⟨hne, hidle m ?_ hne⟩
    rw [hl]
    exact List.perm_middle.symm.mem_iff.mp (List.mem_cons_of_mem n hm)
  have h1 : Aside n s.limitsNow (l1.foldl (fun s m => s.intervalEnd m) s.limitsNow) :=
    intervalEnds_aside fun m hm => by
      rw [hpass]
      exact hout m (List.mem_append_left l2 hm)
  generalize hu : l1.foldl (fun s m => s.intervalEnd m) s.limitsNow = u at h1
  refine ⟨u, h1, fun hst => ?_⟩
  have hrec := intervalEnd_recorded u n
  have h2 : Aside n (u.intervalEnd n) (l2.foldl (fun s m => s.intervalEnd m) (u.intervalEnd n)) := intervalEnds_aside fun m hm => by
    obtain ⟨hne, hoff⟩ := hout m (List.mem_append_right l1 hm)
    have hkeep : ((u.intervalEnd n).bp m).prot.st = (s.limitsNow.bp m).prot.st := by rw [hrec.others m hne, hst m hne, h1.st]
    exact ⟨hne, (passing_of_st hkeep).trans ((hpass m).trans hoff)⟩
  generalize hv : l2.foldl (fun s m => s.intervalEnd m) (u.intervalEnd n) = v at h2
  refine ⟨{ v with evalSeq := v.evalSeq + 1 }, ?_, ?_⟩
  · have hfold : s.planned.foldl (fun s m => s.intervalEnd m) s.limitsNow = v := by
      rw [hl, List.foldl_append, List.foldl_cons, hu, hv]
    show execBwIntervalEnd s = _
    rw [execBwIntervalEnd, if_pos hcyc]
    dsimp only
    rw [hplan, hfold]
  · have hregs : v.regs = (u.judgeInterval n).regs := by rw [h2.frame, hrec.frame]
    have hfc : v.fc = (u.judgeInterval n).fc := by rw [h2.frame, hrec.frame]
    exact ⟨(congrArg ceilingView h2.own).trans hrec.view, (congrArg Bp.prot h2.own).trans hrec.prot, hregs, hfc⟩

end Sys2Proof.Machine.State
end

section
/-! The end of a probe measurement, and the closing of a sub-window of the oscillation trip (R81, R83, R89, R90). -/

namespace Sys2Proof.Machine.State

/-! ### A probe measurement -/

/-- What a measurement leaves of the breakwater: its two results with their time, and I_p moved (R81, R83). -/
def measuredBw (s : State) (w : BpBw) (u r : IsoRes) : BpBw := { w with
  probe := none, isoUnc := u.iso, isoRes := r.iso, uncBound := !u.resolved, resBound := !r.resolved
  measSeq := w.measSeq + 1, probeHi := timeHi s.time.now, probeLo := timeLo s.time.now, pSrc := 1
  uncResolved := if u.resolved then some u.iso else w.uncResolved
  isoP := if r.resolved then r.iso else Max.max r.iso w.isoP }

/-- A value that the rules give is no open one. -/
theorem drawIso_of_given (s : State) {r : IsoRes} (h : r.open_ = false) : s.drawIso r = (r, s) := by
  rw [drawIso, h, if_neg Bool.false_ne_true]

theorem probeDone_of_whole {s : State} {n : Nat} {p : Probe} (hprobe : (s.bp n).bw.probe = some p) (hcount : 2 ^ 20 ≤ p.count)
    (hu : (isolation probeBits p.corrIn p.refPow p.powIn p.nValid (some p.level) p.spread (s.gChain n)).open_ = false)
    (hr : (isolation probeBits p.corrOut p.refPow p.powOut p.nValid (some p.level) p.spread (s.gChain n)).open_ = false) :
    s.probeDone n = s.setBp n { s.bp n with bw := (s.measuredBw (s.bp n).bw
      (isolation probeBits p.corrIn p.refPow p.powIn p.nValid (some p.level) p.spread (s.gChain n))
      (isolation probeBits p.corrOut p.refPow p.powOut p.nValid (some p.level) p.spread (s.gChain n))) } := by
  simp only [probeDone, hprobe, if_neg (Nat.not_lt.mpr hcount), drawIso_of_given _ hu, drawIso_of_given _ hr]
  rfl

/-! ### The oscillation trip -/

/-- The point of the history that a whole sub-window gives (R89). -/
def tripPoint (w : TripWin) : TripPt :=
  ⟨w.endAt, powerDb w.outSum (w.n * 2 ^ 38),
    powerDb w.outSum (w.n * 2 ^ 38) - w.endGain - powerDb w.inSum (w.n * 2 ^ 38)⟩

/-- The points of the last 4 µs before the end of a sub-window (R90). -/
def tripNear (s : State) (n : Nat) (w : TripWin) : List TripPt :=
  (s.bp n).bw.tripHist.filter (fun p => decide ((w.endAt - p.at_) * (s.rate n).num * 10 ≤ 24576 * (s.rate n).den))

/-- Output and loop power have both risen by more than 3 dB over one of these points (R90). -/
def rises (s : State) (n : Nat) (w : TripWin) : Bool :=
  (s.tripNear n w).any (fun p => decide (p.out + 3 * dB1 < (tripPoint w).out) && decide (p.loop + 3 * dB1 < (tripPoint w).loop))

theorem rises_iff {s : State} {n : Nat} {w : TripWin} :
    s.rises n w = true ↔ ∃ p ∈ s.tripNear n w, p.out + 3 * dB1 < (tripPoint w).out ∧ p.loop + 3 * dB1 < (tripPoint w).loop := by
  simp [rises]

/-- The canceller's state as a trip leaves it: the ceiling 6 dB below the gain, no lower than the range (R90). -/
def trippedBw (s : State) (n : Nat) (w : TripWin) : BpBw := { (s.bp n).bw with
  ceiling := Max.max (s.gBottom n) (w.endGain - 6 * dB1), ceilFifths := 0, tripCnt := (s.bp n).bw.tripCnt.inc 39 }

/-- The period of the samples is the flow's and the plan's. -/
theorem rate_setBp (s : State) (n : Nat) {b : Bp} (h : b.flow = (s.bp n).flow) : (s.setBp n b).rate n = s.rate n := by
  have hmode : (s.setBp n b).pathMode n = s.pathMode n := by
    rw [pathMode, setBp_bp_same, h]
    rfl
  unfold rate ladder
  rw [hmode]
  rfl

section
variable {s : State} {n : Nat} {w : TripWin} {rest : List TripWin} (hdone : (s.bp n).bw.tripDone = w :: rest)
include hdone

theorem tripClose_of_tainted (htaint : w.tainted = true) :
    s.tripClose n = s.setBp n { s.bp n with bw := { (s.bp n).bw with tripDone := rest } } := by
  simp only [tripClose, hdone, htaint, if_true]

/-- A sub-window that is not tainted enters the history; in service a rise over it trips (R90). -/
theorem tripClose_of_clean (hclean : w.tainted = false) : ∃ t, s.bpOnly t n ∧
    t.bp n = { s.bp n with bw := { (s.bp n).bw with tripDone := rest, tripHist := tripPoint w :: s.tripNear n w } } ∧
    s.tripClose n = if s.rises n w && t.serving n then
        ((((t.setBp n { t.bp n with bw := t.trippedBw n w }).wr (F.bpBwStatOscTrip n) 1).ceilGain n).tripped n 1).report
          (srcBp n) 1 1 (Config.msgContext (srcBp n) 1 0)
      else t := by
  unfold tripClose
  simp only [hdone, hclean, Bool.false_eq_true, if_false]
  rw [rate_setBp _ _ (by rfl)]
  exact ⟨_, bpOnly_thenSetBp (bpOnly_setBp ..) _, by simp only [setBp_bp_same]; rfl, rfl⟩

/-- The trip of a sub-window in service, from the state with the sub-window in its history (R90). -/
theorem tripClose_of_rise (hn : n < 128) (hclean : w.tainted = false) (hrise : s.rises n w = true) (hserv : s.serving n = true) :
    ∃ u, Inside (fun _ => ()) n 0 s u ∧ (u.bp n).bw.ceiling = Max.max (s.gBottom n) (w.endGain - 6 * dB1) ∧
      (u.bp n).bw.ceilFifths = 0 ∧ (u.bp n).bw.tripCnt = (s.bp n).bw.tripCnt.inc 39 ∧
      SignedTrip n 1 (F.bpBwStatOscTrip n) u (s.tripClose n) := by
  obtain ⟨t, hbps, hown, heq⟩ := tripClose_of_clean hdone hclean
  have hst : t.serving n = true := (serving_of_st (by rw [hown])).trans hserv
  obtain ⟨hframe, hothers⟩ := hbps
  have hterms : t.terms = s.terms := by rw [hframe]; rfl
  have hin : Inside (fun _ => ()) n 0 s t := ⟨Sends.of_fc (by rw [hframe]), hterms, hothers, fun a _ => by rw [hframe]; rfl, rfl⟩
  rw [heq, hrise, hst, Bool.and_self, if_pos rfl]
  have hset : Inside (fun _ => ()) n 0 t (t.setBp n { t.bp n with bw := t.trippedBw n w }) := Inside.setBp rfl
  have hst' : (t.setBp n { t.bp n with bw := t.trippedBw n w }).serving n = true := (serving_of_st (by rw [setBp_bp_same])).trans hst
  have htrip := signedTrip 1 (f := F.bpBwStatOscTrip n) hst' rfl (show 7 < 40 by decide)
    (by simp only [inBpBlock, F.bpBwStatOscTrip]; omega)
  refine ⟨_, hin.trans hset, ?_, ?_, ?_, htrip⟩
  · rw [setBp_bp_same, trippedBw, gBottom_of_terms hterms]
  · rw [setBp_bp_same, trippedBw]
  · rw [setBp_bp_same, trippedBw, hown]

end

end Sys2Proof.Machine.State
end

section
/-! O36, assembled: the probe, the end of the interval and the sub-windows of the oscillation trip (R81 to R90, R130, R133, R136). -/

namespace Sys2Proof.Machine.State

/-! ### The state with the limits in force -/

section
variable (s : State) (n : Nat)

theorem limitsNow_bp : s.limitsNow.bp n = s.bp n := by rw [limitsNow_frame]; rfl
theorem limitsNow_uplink : s.limitsNow.uplink n = s.uplink n := by rw [limitsNow_frame]; rfl
theorem limitsNow_fc : s.limitsNow.fc = s.fc := by rw [limitsNow_frame]
theorem limitsNow_planned : s.limitsNow.planned = s.planned := by rw [limitsNow_frame]; rfl
theorem limitsNow_thermal : s.limitsNow.thermal = s.thermal := by rw [limitsNow_frame]

theorem limitsNow_mkMsg (src kind hint : Nat) (ctx : Word) (inj : Bool) :
    s.limitsNow.mkMsg src kind hint ctx inj = s.mkMsg src kind hint ctx inj := by
  rw [limitsNow_frame]; rfl

theorem mem_planned (bp : BpId) (h : s.present bp.toNat = true) : bp.toNat ∈ s.planned :=
  List.mem_filter.mpr ⟨List.mem_range.mpr bp.isLt, h⟩

end

/-! ### The state when the interval of the band path ends -/

section
variable {s t : State} {n : Nat} (hterms : t.terms = s.terms) (hbp : t.bp n = s.bp n)
include hterms hbp

theorem overPower_of_terms : t.overPower n = s.overPower n := by
  rw [overPower, hbp, limPower_of_terms hterms, pOut, hbp, figOut, planN_of_terms hterms, passing_of_st (congrArg (·.prot.st) hbp)]
  rfl

theorem nDonorNow_of_terms : t.nDonorNow n (t.bandGain n) = s.nDonorNow n (s.bandGain n) := by
  simp only [nDonorNow, floorDbm, figIn, bandGain, hbp, uplink_of_terms hterms, planN_of_terms hterms, gChain_of_terms hterms]

theorem Judgement.of_terms {noise : Db} {v : CeilingView} {p : BpProt} {mute : Bool} {q : List FMsg} (h : Judgement t n noise v p mute q) :
    Judgement s n noise v p mute q := by
  obtain ⟨hnoise, hmargin, hunused, hoff, hmute, hrise, hhold, hnoisy⟩ := h
  simp only [hbp, cMax_of_terms hterms, floorEff_of_terms hterms, gBottom_of_terms hterms, nMax_of_terms hterms, uplink_of_terms hterms,
    mkMsg_of_terms hterms] at hmargin hunused hoff hmute hrise hhold hnoisy
  exact ⟨hnoise, hmargin, hunused, hoff, hmute, hrise, hhold, hnoisy⟩

end

/-- The records keep what has been judged. -/
theorem Judgement.of_concluded {s r t : State} {n : Nat} {noise : Db} (h : s.judgedIn n noise r) (hend : Concluded n r t) :
    s.judgedIn n noise t := by
  obtain ⟨hnoise, hmargin, hunused, hoff, hmute, hrise, hhold, hnoisy⟩ := h
  have hbit : t.rdB (F.bpBwStatMarginMute n) = r.rdB (F.bpBwStatMarginMute n) := by rw [rdB, rd, State.reg, hend.regs]; rfl
  rw [judgedIn, hend.view, hend.prot, hbit, hend.fc]
  exact ⟨hnoise, hmargin, hunused, hoff, hmute, hrise, hhold, hnoisy⟩

/-! ### The end of an interval for the only band path through which samples pass -/

section
variable {s : State} {n : Nat} (hcyc : s.cyc % intervalCyc = 0) (hn : n ∈ s.planned)
  (hidle : ∀ m ∈ s.planned, m ≠ n → s.passing m = false) (hroom : s.intakeRoom 3 = true)
include hcyc hn hidle hroom

/-- Egress power over P_OUT_MAX bars the band path (R133). -/
theorem bwIntervalEnd_bars (hover : s.limitsNow.overPower n = true) (hwait : s.thermal.waiting = []) :
    ∃ t, exec .bwIntervalEnd s = .next t ∧ (t.bp n).prot.st = .barred ∧ (t.bp n).prot.cause = 8 ∧
      s.sentNow t n 13 2 (Config.msgContext n 13 8) := by
  obtain ⟨u, haside, hend⟩ := bwIntervalEnd_single hcyc hn hidle
  have hjudged : u.judgeInterval n = u.enterBarred n 8 := if_pos ((overPower_of_terms haside.terms haside.own).trans hover)
  have hthermal : u.thermal = s.thermal := by rw [haside.frame]; exact limitsNow_thermal s
  have hfc : u.fc = s.fc := by rw [haside.frame]; exact limitsNow_fc s
  have hbars : Bars n 8 u (u.enterBarred n 8) := enterBarred_bars 8 (by rw [hthermal, hwait]) fun m hm hne => by
    rw [planned_of_terms haside.terms, limitsNow_planned] at hm
    rw [passing_of_st (haside.st m), passing, limitsNow_bp]
    exact hidle m hm hne
  rw [hjudged] at hend
  obtain ⟨t, hexec, hconcl⟩ := hend hbars.others
  have hsent := hbars.sent ((intakeRoom_of_fc hfc 2).trans (intakeRoom_mono hroom (by decide)))
  rw [sentNow, mkMsg_of_terms haside.terms, limitsNow_mkMsg, ← hconcl.fc] at hsent
  exact ⟨t, hexec, by rw [hconcl.prot]; exact hbars.own, by rw [hconcl.prot]; exact hbars.cause, hsent⟩

/-- In service the margin and the noise at the donor are judged (R82 to R87, R130). -/
theorem bwIntervalEnd_judges (hclear : s.limitsNow.overPower n = false) (hserv : s.serving n = true) :
    ∃ t, exec .bwIntervalEnd s = .next t ∧ s.limitsNow.judgedIn n (s.limitsNow.nDonorNow n (s.limitsNow.bandGain n)) t := by
  obtain ⟨u, haside, hend⟩ := bwIntervalEnd_single hcyc hn hidle
  have hclear' : ¬ u.overPower n = true := by rw [overPower_of_terms haside.terms haside.own, hclear]; exact Bool.false_ne_true
  have hserv' : u.serving n = true := (serving_of_st (by rw [haside.own, limitsNow_bp])).trans hserv
  have hjudged : u.judgeInterval n = (u.bwJudge n).noiseCheck n (s.limitsNow.nDonorNow n (s.limitsNow.bandGain n)) := by
    rw [judgeInterval, if_neg hclear', if_pos hserv', nDonorNow_of_terms haside.terms haside.own]
  have hfc : u.fc = s.fc := by rw [haside.frame]; exact limitsNow_fc s
  have hlt : n < 128 := List.mem_range.mp (List.mem_of_mem_filter hn)
  obtain ⟨hjudge, hothers, -⟩ := bwJudge_noiseCheck (s.limitsNow.nDonorNow n (s.limitsNow.bandGain n)) hlt hserv'
    ((intakeRoom_of_fc hfc 3).trans hroom)
  rw [← hjudged] at hjudge hothers
  obtain ⟨t, hexec, hconcl⟩ := hend fun m hm => by rw [hothers m hm]
  exact ⟨t, hexec, .of_terms haside.terms haside.own (.of_concluded hjudge hconcl)⟩

end

theorem overPower_limitsNow_iff {s : State} {n : Nat} : s.limitsNow.overPower n = true ↔
    ((s.bp n).flow.meterOut.window.length = 64 ∧ s.limitsNow.limPower n + dB1 < s.limitsNow.pOut n) ∧ s.passing n = true := by
  have hpass : s.limitsNow.passing n = s.passing n := passing_of_st (by rw [limitsNow_bp])
  simp only [overPower, limitsNow_bp, hpass, Bool.and_eq_true, decide_eq_true_eq]

end Sys2Proof.Machine.State

namespace Sys2Proof.Machine

open State in
/-- Settles O36: each event is an update of its band path, and the end of an interval is, beside records, what it makes of the one band path through which samples pass. -/
theorem breakwaterEvents : Obligations.BreakwaterEvents := by
  unfold Obligations.BreakwaterEvents
  refine ⟨fun s bp p => ?_, fun s => ⟨fun h => ?_, fun hitems hcyc => ?_⟩, fun s bp => ?_, fun s bp w rest => ?_⟩
  · intro n b u r hprobe hcount hu hr
    refine ⟨_, congrArg Host.Outcome.next (probeDone_of_whole hprobe hcount hu hr), bpOnly_setBp .., ?_⟩
    rw [setBp_bp_same]
    exact ⟨rfl, rfl, rfl, rfl, rfl, rfl, rfl, rfl, rfl, rfl, rfl, rfl⟩
  · exact if_neg h
  · have hterms := intervalEnds_terms s.limitsNow.planned s.limitsNow
    refine ⟨_, if_pos hcyc, ?_, ?_, fun e item hitem => ?_⟩
    · dsimp only
      rw [evalSeq_of_terms hterms, limitsNow_frame]
    · dsimp only
      rw [limPend_of_terms hterms, limitsNow_frame]
    · exact (limVal_of_terms hterms e item).trans (limitsNow_limVal e hitems hitem)
  · intro n u b w cm c k f high noise out hcyc hpresent hidle hroom
    have hn := mem_planned s bp hpresent
    have hover : s.limitsNow.overPower n = true ↔ high ∧ s.passing n = true := overPower_limitsNow_iff
    refine ⟨fun hhigh hpass hwait => bwIntervalEnd_bars hcyc hn hidle hroom (hover.mpr ⟨hhigh, hpass⟩) hwait, fun hlow hserv => ?_⟩
    have hclear : s.limitsNow.overPower n = false := Bool.eq_false_iff.mpr fun h => hlow (hover.mp h).1
    obtain ⟨t, hexec, hjudged⟩ := bwIntervalEnd_judges hcyc hn hidle hroom hclear hserv
    obtain ⟨hnoise, hmargin, hunused, hoff, hmute, hrise, hhold, hnoisy⟩ := hjudged
    simp only [limitsNow_bp, limitsNow_mkMsg, limitsNow_uplink] at hmargin hunused hoff hmute hrise hhold hnoisy
    refine ⟨t, hexec, hnoise, hmargin, hunused, fun hm => hoff (hmargin.trans_lt hm), fun hm => hmute (hmargin.trans_lt hm),
      fun hm => hrise (hm.trans_eq hmargin.symm), fun hm => hhold (hm.trans_eq hmargin.symm), fun hm => hnoisy (hm.trans_eq hmargin.symm)⟩
  · intro n b out l near hdone
    refine ⟨fun htaint => ?_, fun hclean hcalm => ?_, fun hclean hrise hserv hroom => ?_⟩
    · exact ⟨_, congrArg Host.Outcome.next (tripClose_of_tainted hdone htaint), bpOnly_setBp .., setBp_bp_same ..⟩
    · obtain ⟨t, hbps, hown, heq⟩ := tripClose_of_clean hdone hclean
      have hnot : ¬ s.rises n w = true := fun h => by
        obtain ⟨p, hp, hup⟩ := rises_iff.mp h
        exact hcalm p hp hup
      rw [Bool.not_eq_true] at hnot
      rw [hnot, Bool.false_and, if_neg Bool.false_ne_true] at heq
      exact ⟨t, congrArg Host.Outcome.next heq, hbps, hown⟩
    · obtain ⟨u, hin, hceil, hfifths, hcnt, htrip⟩ := tripClose_of_rise hdone bp.isLt hclean (rises_iff.mpr hrise) hserv
      have hview := htrip.view
      refine ⟨_, rfl, sentNow_of_terms hin.terms (htrip.sent (hin.room 2 hroom)), htrip.sign, ?_, ?_, ?_, fun m hm => ?_⟩
      · exact (congrArg CeilingView.tripCnt hview).trans hcnt
      · exact (congrArg CeilingView.ceiling hview).trans hceil
      · exact (congrArg CeilingView.ceilFifths hview).trans hfifths
      · exact (htrip.others m hm).trans (hin.others m hm)

end Sys2Proof.Machine
end

section
/-! O33: the gate of a band path (R102 to R110). Each transition replaces the gain of its band path alone. -/

namespace Sys2Proof.Machine.State

/-! ### The reference sequences in turn (R103, R104) -/

/-- Reference sequence `m` is tried unless one before it has matched. -/
def refTry (n : Nat) (acc : Bool × State) (m : Nat) : Bool × State :=
  if acc.1 then acc
  else match acc.2.readRef n m with
    | (some a, s') => if s'.refMatches n a then (true, s'.gateOpen n (4 + m)) else (false, s')
    | (none, s') => (false, s')

/-- A sequence that is disabled, or that does not match, is passed over. -/
theorem refTry_of_unmatched {s : State} {n m : Nat} {x : Option (List Cplx)} (hread : s.readRef n m = (x, s))
    (hmiss : ∀ c, x = some c → s.refMatches n c = false) : refTry n (false, s) m = (false, s) := by
  cases x with
  | none => simp [refTry, hread]
  | some c => simp [refTry, hread, hmiss c rfl]

theorem refTry_of_matched {s : State} {n m : Nat} {a : List Cplx} (hread : s.readRef n m = (some a, s)) (hmatch : s.refMatches n a = true) :
    refTry n (false, s) m = (true, s.gateOpen n (4 + m)) := by
  simp [refTry, hread, hmatch]

theorem refTries_of_unmatched {s : State} {n m : Nat}
    (h : ∀ j, j < m → ∃ x, s.readRef n j = (x, s) ∧ ∀ c, x = some c → s.refMatches n c = false) :
    (List.range m).foldl (refTry n) (false, s) = (false, s) := by
  induction m with
  | zero => rfl
  | succ m ih =>
    obtain ⟨x, hread, hmiss⟩ := h m (Nat.lt_succ_self m)
    rw [List.range_succ, List.foldl_append, ih fun j hj => h j (Nat.lt_succ_of_lt hj), List.foldl_cons,
      refTry_of_unmatched hread hmiss, List.foldl_nil]

theorem refTries_of_found (n : Nat) (l : List Nat) (t : State) : l.foldl (refTry n) (true, t) = (true, t) := by
  induction l with
  | nil => rfl
  | cons m l ih => exact ih

/-- The lowest sequence that matches opens the gate. -/
theorem refTries_of_lowest {s : State} {n m k : Nat} {a : List Cplx} (hm : m < k)
    (hbelow : ∀ j, j < m → ∃ x, s.readRef n j = (x, s) ∧ ∀ c, x = some c → s.refMatches n c = false)
    (hread : s.readRef n m = (some a, s)) (hmatch : s.refMatches n a = true) :
    (List.range k).foldl (refTry n) (false, s) = (true, s.gateOpen n (4 + m)) := by
  obtain ⟨d, rfl⟩ := Nat.exists_eq_add_of_lt hm
  rw [Nat.add_right_comm, List.range_add, List.range_succ, List.foldl_append, List.foldl_append, refTries_of_unmatched hbelow,
    List.foldl_cons, refTry_of_matched hread hmatch, List.foldl_nil, refTries_of_found]

/-! ### Freezing (R108) -/

/-- On uplink the AGC freezes or goes on with the gate; on downlink it stays as it is. -/
theorem gateFreeze_setBp (s : State) (n : Nat) (b : Bp) (f : Bool) :
    s.bpOnly ((s.setBp n b).gateFreeze n f) n ∧ ((s.setBp n b).gateFreeze n f).bp n =
      { b with gain := { b.gain with frozen := if s.uplink n then f else b.gain.frozen } } := by
  have hup : (s.setBp n b).uplink n = s.uplink n := rfl
  unfold gateFreeze
  rw [hup]
  split
  · exact ⟨bpOnly_thenSetBp (bpOnly_setBp ..) _, by rw [setBp_bp_same, setBp_bp_same]⟩
  · exact ⟨bpOnly_setBp .., setBp_bp_same ..⟩

/-- The confirmation of an opening freezes the AGC with the mean of its window (R105, R108). -/
theorem gateConfirm_bp (s : State) (n : Nat) :
    let g := (s.bp n).gain
    let w := g.recent.take (s.countOf n plConfirm)
    s.bpOnly (s.gateConfirm n) n ∧ (s.gateConfirm n).bp n = { s.bp n with gain := { g with
      gate := .confirmed, capRun := 0, frozen := s.uplink n || g.frozen
      pFrz := powerDb (w.foldl (fun p x => p + x.pow) 0) (w.length * 2 ^ 38) } } := by
  obtain ⟨honly, hown⟩ := gateFreeze_setBp s n { s.bp n with gain := { (s.bp n).gain with
    gate := .confirmed, capRun := 0
    pFrz := powerDb (((s.bp n).gain.recent.take (s.countOf n plConfirm)).foldl (fun p x => p + x.pow) 0)
      (((s.bp n).gain.recent.take (s.countOf n plConfirm)).length * 2 ^ 38) } } true
  refine ⟨honly, hown.trans ?_⟩
  cases s.uplink n <;> rfl

/-- The end of a re-settle freezes the AGC again, with the mean of its span (R110). -/
theorem gateRefreeze_bp {s : State} {n : Nat} (h : (s.bp n).gain.rsN ≠ 0) :
    let g := (s.bp n).gain
    s.bpOnly (s.gateRefreeze n) n ∧ (s.gateRefreeze n).bp n = { s.bp n with gain := { g with
      gate := .confirmed, capRun := 0, rsLeft := 0, frozen := s.uplink n || g.frozen
      pFrz := powerDb g.rsSum (g.rsN * 2 ^ 38) } } := by
  obtain ⟨honly, hown⟩ := gateFreeze_setBp s n { s.bp n with gain := { (s.bp n).gain with
    gate := .confirmed, pFrz := powerDb (s.bp n).gain.rsSum ((s.bp n).gain.rsN * 2 ^ 38), capRun := 0, rsLeft := 0 } } true
  simp only [gateRefreeze, if_neg h]
  refine ⟨honly, hown.trans ?_⟩
  cases s.uplink n <;> rfl

theorem captures_iff {s : State} {n : Nat} : s.captures n = true ↔
    ((s.uplink n = true ∧ (s.bp n).gain.gate = .confirmed) ∧ s.agcHold n = false) ∧ 16 ≤ (s.bp n).gain.capRun := by
  simp [captures]

end Sys2Proof.Machine.State

namespace Sys2Proof.Machine

open State in
/-- Settles O33: each transition, where its condition holds, is one update of the gain of its band path. -/
theorem gateTransitions : Obligations.GateTransitions := by
  unfold Obligations.GateTransitions
  intro s bp n b g energy window confirmed quiet
  have hnoCapture : ¬ (s.uplink n = true ∧ s.agcHold n = false ∧ 16 ≤ g.capRun) → s.captures n = false := fun h =>
    Bool.eq_false_iff.mpr fun hc => by
      obtain ⟨⟨⟨hup, -⟩, hhold⟩, hrun⟩ := captures_iff.mp hc
      exact h ⟨hup, hhold, hrun⟩
  have hconfirms : s.confirms n = true ↔ confirmed := decide_eq_true_iff
  refine ⟨fun hgate hserv hrun => ?_, fun m a hgate hserv hrun hm hbelow hread hmatch => ?_, fun hgate hconf => ?_, fun hgate hconf hverify => ?_,
    fun hup hgate hhold hrun => ?_, fun hgate hleft hspan => ?_, fun hgate hcalm hquiet => ?_⟩
  · exact ⟨_, if_pos ⟨hgate, hserv, hrun⟩, bpOnly_setBp .., setBp_bp_same ..⟩
  · have htries := refTries_of_lowest hm hbelow hread hmatch
    have hexec : exec (.gateRefMatch bp) s = .next ((List.range 4).foldl (refTry n) (false, s)).2 :=
      if_pos ⟨hgate, hserv, congrArg not (decide_eq_false hrun)⟩
    rw [htries] at hexec
    exact ⟨_, hexec, bpOnly_setBp .., setBp_bp_same ..⟩
  · obtain ⟨honly, hown⟩ := gateConfirm_bp s n
    exact ⟨_, if_pos ⟨hgate, hconfirms.mpr hconf⟩, honly, hown⟩
  · have hnot : s.confirms n = false := Bool.eq_false_iff.mpr (hconf ∘ hconfirms.mp)
    exact ⟨_, if_pos ⟨hgate, hverify, by rw [hnot]; rfl⟩, bpOnly_setBp .., setBp_bp_same ..⟩
  · intro rs
    refine ⟨_, if_pos (captures_iff.mpr ⟨⟨⟨hup, hgate⟩, hhold⟩, hrun⟩), bpOnly_thenSetBp (bpOnly_setBp ..) _, ?_, ?_⟩
    · rw [clearMore_bp, setBp_bp_same]
    · rw [clearMore_bp, setBp_bp_same]
  · obtain ⟨honly, hown⟩ := gateRefreeze_bp hspan
    exact ⟨_, if_pos ⟨hgate, hleft⟩, honly, hown⟩
  · obtain ⟨honly, hown⟩ := gateFreeze_setBp s n { b with gain := { g with gate := .closed, run := 0 } } false
    exact ⟨_, if_pos ⟨hgate, by rw [hnoCapture hcalm]; rfl, hquiet⟩, honly, hown⟩

end Sys2Proof.Machine
end

section
/-! An accepted write of a band path's gain register: the word sent, and what the journal leaves (R100, R120, R400, R436). -/

namespace Sys2Proof.Machine.State

/-! ### The journal -/

theorem jPlace_fc_terms (s : State) (ty : Nat) (cyc : Word) (k i : Nat) :
    (s.jPlace ty cyc k i).1.fc = s.fc ∧ (s.jPlace ty cyc k i).1.terms = s.terms := by
  induction k generalizing s i with
  | zero => exact ⟨rfl, rfl⟩
  | succ k ih =>
    rw [jPlace]
    refine iteInduction (motive := fun r : State × Nat => r.1.fc = s.fc ∧ r.1.terms = s.terms) (fun _ => ?_) (fun _ => ⟨rfl, rfl⟩)
    obtain ⟨hfc, hterms⟩ := ih ((List.range 4).foldl (fun t j => t.setCell .hold (jAddr i + j)
      (s.cell .hold (jAddr ((i + 49151) % 49152) + j))) s) ((i + 49151) % 49152)
    have hcells := List.foldlRecOn (motive := fun t : State => t.fc = s.fc ∧ t.terms = s.terms) (List.range 4)
      (fun t j => t.setCell .hold (jAddr i + j) (s.cell .hold (jAddr ((i + 49151) % 49152) + j))) ⟨rfl, rfl⟩ fun _ h _ _ => h
    exact ⟨hfc.trans hcells.1, hterms.trans hcells.2⟩

/-- A journal entry leaves the collector and the terms of an evaluation alone. -/
theorem journal_fc_terms (s : State) (ty detail : Nat) (cyc w2 w3 : Word) :
    (s.journal ty detail cyc w2 w3).fc = s.fc ∧ (s.journal ty detail cyc w2 w3).terms = s.terms := by
  unfold journal
  split
  · extract_lets i r s1 s2
    obtain ⟨hfc, hterms⟩ : r.1.fc = s.fc ∧ r.1.terms = s.terms := jPlace_fc_terms ..
    clear_value r
    have hentry : s1 = { r.1 with mem := s1.mem, writeBacks := s1.writeBacks } := memWrites_eq r.1 .hold _ _
    have hfc1 : s1.fc = s.fc := by rw [hentry]; exact hfc
    have hterms1 : s1.terms = s.terms := by rw [hentry]; exact hterms
    clear_value s1
    exact ⟨hfc1, hterms1⟩
  · exact ⟨rfl, rfl⟩

theorem liveEntry_fc_terms (s : State) (who a : Nat) (w mask : Word) :
    (s.liveEntry who a w mask).fc = s.fc ∧ (s.liveEntry who a w mask).terms = s.terms := by
  unfold liveEntry
  split
  · exact journal_fc_terms ..
  · split
    · exact ⟨rfl, rfl⟩
    · exact journal_fc_terms ..

/-! ### The word sent -/

/-- A one-bit field reads as its bit. -/
theorem bitsOf_bit (w : Word) (i : Nat) : bitsOf w i i = (w.getLsbD i).toNat := by
  rw [bitsOf, Nat.sub_self, zero_add, pow_one, BitVec.getLsbD, Nat.testBit_eq_decide_div_mod_eq]
  rcases Nat.mod_two_eq_zero_or_one (w.toNat / 2 ^ i) with h | h <;> simp [h]

theorem bitsOf_eq_zero {w : Word} {hi lo : Nat} (h : ∀ i, lo ≤ i → i < lo + (hi - lo + 1) → w.getLsbD i = false) : bitsOf w hi lo = 0 := by
  refine Nat.eq_of_testBit_eq fun i => ?_
  rw [testBit_bitsOf, Nat.zero_testBit]
  by_cases hi' : i < hi - lo + 1
  · rw [h _ (by omega) (by omega), Bool.and_false]
  · rw [decide_eq_false hi', Bool.false_and]

theorem agcHold_eq (s : State) (n : Nat) : s.agcHold n = (s.reg (4106 + 16 * n)).getLsbD 7 := by
  rw [agcHold, rdB, rd, F.bpGainAgcHold, bitsOf_bit]
  cases (s.reg (4106 + 16 * n)).getLsbD 7 <;> rfl

/-- NR_CAPTURE, EG_METER_RESTART and MASK_VERDICT act by themselves (R436). -/
theorem selfActing_gain {n : Nat} (hn : n < 128) : selfActing (4106 + 16 * n) = maskOf 6 0 := by
  rw [selfActing]
  exact (if_neg (by omega)).trans ((if_neg (by omega)).trans (if_pos (by omega)))

/-- AGC_HOLD reads as stored, and is sent so beside another field. -/
theorem restWord_agcHold (s : State) (who : Nat) {n : Nat} (hn : n < 128) : (s.restWord who (4106 + 16 * n)).getLsbD 7 = s.agcHold n := by
  have hoff : (4106 + 16 * n - 4096) % 16 = 10 := by omega
  have hbp : (4106 + 16 * n - 4096) / 16 = n := by omega
  have hview : s.regView who (4106 + 16 * n) = s.viewBp n 10 (s.reg (4106 + 16 * n)) := by
    rw [regView]
    iterate 15 rw [if_neg (by omega)]
    rw [if_pos (by omega), hoff, hbp]
    rfl
  have hrows : s.rowsNow (4106 + 16 * n) = some rowsBpGain := by
    rw [show 4106 + 16 * n = 4096 + 16 * n + 10 by omega, rowsNow_bp s hn (by decide)]
    rfl
  have hstored : (s.viewBp n 10 (s.reg (4106 + 16 * n))).getLsbD 7 = (s.reg (4106 + 16 * n)).getLsbD 7 := by
    simp only [viewBp, puts, List.foldl_cons, List.foldl_nil, F.bpGainGainStep, F.bpGainGateState, F.bpGainAgcFrozen, F.bpGainRampDone,
      F.bpGainNrCapture, F.bpGainEgMeterRestart]
    iterate 6 rw [getLsbD_putBits _ _ _ _ _ (by decide), if_neg (by decide)]
  have hmask : (rowMask rowsBpGain (fun r => r.acc.takes) &&& ~~~ maskOf 6 0).getLsbD 7 = true := by decide
  rw [restWord, hrows, hview, selfActing_gain hn, agcHold_eq]
  dsimp only
  rw [BitVec.and_assoc, BitVec.getLsbD_and, hmask, Bool.and_true, hstored]

end Sys2Proof.Machine.State
end

section
/-! An accepted write of a field of a band path's gain register (R100, R115, R120, R400, R436). -/

namespace Sys2Proof.Machine.State

/-- A write of the field at bits `hi` to `lo` of BP_GAIN has acted on `q`: the word holds its value, AGC_HOLD as it stands where another field is written, and the self-acting bits beside it idle; a plain writer's write has left collector and terms alone before its effect. -/
structure GainWritten (s : State) (who : Requester) (n hi lo v : Nat) (w : Word) (q t : State) : Prop extends Written s n 10 w q t where
  plain : s.plainWriter who → q.fc = s.fc ∧ q.terms = s.terms
  sent : bitsOf w hi lo = v % 2 ^ (hi - lo + 1)
  hold : hi < 7 ∨ 7 < lo → w.getLsbD 7 = s.agcHold n
  idle : ∀ i ≤ 6, i < lo ∨ hi < i → w.getLsbD i = false

/-- A plain writer's decision is nobody's to judge (R405). -/
theorem decision_of_plain {s : State} {who : Requester} (h : s.plainWriter who) (hwho : 10 ≤ reqCode who) (mailbox : Bool) (w2 w3 : Word) :
    s.decision (reqCode who - 10) mailbox w2 w3 = s := by
  have hquay : s.inReplayQuay (reqCode who - 10) = false := h.resolve_left (Nat.not_lt.mpr hwho)
  rw [decision, hquay]
  rfl

section
variable {s : State} {who : Requester} {n hi lo v : Nat} (hn : n < 128)
include hn

theorem acceptWrite_gain (s : State) (who : Nat) (w : Word) :
    let a := 4096 + 16 * n + 10
    s.acceptWrite who a w = { (s.liveEntry who a w (s.effMask a w (rowsOfBp 10))).writeBp n 10 w with
      parBad := (s.acceptWrite who a w).parBad } := by
  dsimp only
  rw [acceptWrite, rowsNow_bp s hn (by decide), Option.getD_some, writeFx_bp _ _ _ hn (by decide), clearW1c_of_none _ _ _ (by decide)]

theorem gainWrite_written (hlo : lo ≤ hi) (hhi : hi < 40)
    (h : s.takes who (4106 + 16 * n) [(⟨4106 + 16 * n, hi, lo⟩, v)] = true) :
    ∃ w q, GainWritten s who n hi lo v w q (s.fieldWrite who (4106 + 16 * n) [(⟨4106 + 16 * n, hi, lo⟩, v)]) := by
  have ha : 4106 + 16 * n = 4096 + 16 * n + 10 := by omega
  generalize hw : s.wordOf who (4106 + 16 * n) [(⟨4106 + 16 * n, hi, lo⟩, v)] = w
  obtain ⟨hreach, hans⟩ : s.canReach (reqCode who) = true ∧ s.writeAns (4106 + 16 * n) w = .ok := by
    simpa only [takes, takesWord, hw, Bool.and_eq_true, beq_iff_eq] using h
  obtain ⟨d, hd, hplain, hwrite⟩ : ∃ d, Spares s d ∧ (s.plainWriter who → d = s) ∧
      (s.reqWrite (reqCode who) (4106 + 16 * n) w).2 = d.acceptWrite (reqCode who) (4106 + 16 * n) w := by
    rw [reqWrite, if_pos hreach, hans]
    refine ⟨_, ?_, fun hp => ?_, rfl⟩
    · split
      · exact Spares.decision ..
      · exact Spares.refl s
    · split
      next hwho => exact decision_of_plain hp hwho.1 ..
      · rfl
  have hfield : s.fieldWrite who (4106 + 16 * n) [(⟨4106 + 16 * n, hi, lo⟩, v)] = d.acceptWrite (reqCode who) (4096 + 16 * n + 10) w := by
    rw [← ha, ← hwrite, ← hw]
    rfl
  have hrest : ∀ i < 40, i < lo ∨ hi < i → w.getLsbD i = (s.restWord (reqCode who) (4106 + 16 * n)).getLsbD i := fun i hi40 hout => by
    rw [← hw, wordOf_single, getLsbD_putBits _ _ _ _ _ hi40, if_neg (by omega)]
  rw [hfield]
  refine ⟨w, _, ⟨hd.trans (Spares.liveEntry ..), acceptWrite_gain hn d _ w⟩, fun hp => ?_, ?_, fun hout => ?_, fun i hi6 hout => ?_⟩
  · rw [hplain hp]
    exact liveEntry_fc_terms ..
  · rw [← hw, wordOf_single, bitsOf_putBits_same _ _ hlo hhi]
  · rw [hrest 7 (by decide) hout.symm, restWord_agcHold s _ hn]
  · rw [hrest i (by omega) hout]
    refine restWord_selfActing s _ ?_
    rw [selfActing_gain hn]
    exact (by decide : ∀ i ≤ 6, (maskOf 6 0).getLsbD i = true) i hi6

end

end Sys2Proof.Machine.State
end

section
/-! The effects of AGC_HOLD and GAIN_SET: the gain of one band path and its register (R100, R110, R122, R124). -/

namespace Sys2Proof.Machine.State

/-! ### Changes of the gain -/

/-- What the AGC's settings leave of a band path: all but its gain, of which the references of the floor stand. -/
def beyondGain (b : Bp) : BpFlow × BpBw × BpFloor × BpMask × BpProt × Db × Db :=
  (b.flow, b.bw, b.floor, b.mask, b.prot, b.gain.enablePwr, b.gain.nrRef)

/-- Registers, open values and the gain of band path `n` alone have changed. -/
structure Regains (n : Nat) (s t : State) : Prop where
  frame : t = { s with bps := t.bps, regs := t.regs, freeCtr := t.freeCtr }
  others : s.otherBps t n
  own : beyondGain (t.bp n) = beyondGain (s.bp n)

section
variable {n : Nat} {s t u : State}

theorem Regains.refl (n : Nat) (s : State) : Regains n s s := ⟨rfl, fun _ _ => rfl, rfl⟩

theorem Regains.trans (h : Regains n s t) (g : Regains n t u) : Regains n s u :=
  ⟨g.frame.trans (by rw [h.frame]), fun m hm => (g.others m hm).trans (h.others m hm), g.own.trans h.own⟩

theorem Regains.setBp {b : Bp} (h : beyondGain b = beyondGain (s.bp n)) : Regains n s (s.setBp n b) :=
  ⟨rfl, fun _ hm => setBp_bp_ne s b hm, by rw [setBp_bp_same]; exact h⟩

theorem Regains.wr (n : Nat) (s : State) (f : Fld) (v : Nat) : Regains n s (s.wr f v) := ⟨rfl, fun _ _ => rfl, rfl⟩

theorem Regains.of_bpOnly (h : s.bpOnly t n) (hown : beyondGain (t.bp n) = beyondGain (s.bp n)) : Regains n s t :=
  ⟨h.1.trans (by rw [h.1]), h.2, hown⟩

theorem Regains.fc (h : Regains n s t) : t.fc = s.fc := by rw [h.frame]
theorem Regains.terms (h : Regains n s t) : t.terms = s.terms := by rw [h.frame]; rfl

theorem Regains.flow (h : Regains n s t) : (t.bp n).flow = (s.bp n).flow := congrArg (·.1) h.own
theorem Regains.floor (h : Regains n s t) : (t.bp n).floor = (s.bp n).floor := congrArg (·.2.2.1) h.own
theorem Regains.mask (h : Regains n s t) : (t.bp n).mask = (s.bp n).mask := congrArg (·.2.2.2.1) h.own
theorem Regains.prot (h : Regains n s t) : (t.bp n).prot = (s.bp n).prot := congrArg (·.2.2.2.2.1) h.own
theorem Regains.enablePwr (h : Regains n s t) : (t.bp n).gain.enablePwr = (s.bp n).gain.enablePwr := congrArg (·.2.2.2.2.2.1) h.own
theorem Regains.nrRef (h : Regains n s t) : (t.bp n).gain.nrRef = (s.bp n).gain.nrRef := congrArg (·.2.2.2.2.2.2) h.own

theorem Regains.idle (h : Regains n s t) : (t.bp n).idle = (s.bp n).idle := by rw [Bp.idle, Bp.idle, h.floor, h.enablePwr]

theorem Regains.floorDbm (h : Regains n s t) : t.floorDbm n = s.floorDbm n := by
  simp only [State.floorDbm, figIn, h.idle, planN_of_terms h.terms]

end

/-! ### Re-settles (R110) -/

/-- A re-settle ends in CONFIRMED whatever its span has seen. -/
theorem gateRefreeze_regains (s : State) (n : Nat) : Regains n s (s.gateRefreeze n) ∧ (s.gateRefreeze n).regs = s.regs ∧
    ((s.gateRefreeze n).bp n).gain.gate = .confirmed := by
  obtain ⟨p, u, hu, hregs, heq⟩ : ∃ p u, Regains n s u ∧ u.regs = s.regs ∧
      s.gateRefreeze n = (u.setBp n { s.bp n with gain := { (s.bp n).gain with
        gate := .confirmed, pFrz := p, capRun := 0, rsLeft := 0 } }).gateFreeze n true := by
    unfold gateRefreeze
    dsimp only
    split
    · exact ⟨_, { s with freeCtr := s.freeCtr + 1 }, ⟨rfl, fun _ _ => rfl, rfl⟩, rfl, rfl⟩
    · exact ⟨_, s, Regains.refl n s, rfl, rfl⟩
  obtain ⟨honly, hown⟩ := gateFreeze_setBp u n { s.bp n with gain := { (s.bp n).gain with
    gate := .confirmed, pFrz := p, capRun := 0, rsLeft := 0 } } true
  have hfreeze := Regains.of_bpOnly honly (by rw [hown, hu.own]; rfl)
  rw [← heq] at honly hown hfreeze
  exact ⟨hu.trans hfreeze, by rw [honly.1, hregs], by rw [hown]⟩

/-! ### AGC_HOLD (R100) -/

/-- AGC_HOLD is written. -/
def holdFx (s : State) (n : Nat) (hold : Bool) : State := if hold then s.agcHoldFx n else s.wr (F.bpGainAgcHold n) 0

theorem agcHoldFx_of_still {s : State} {n : Nat} (h : ¬ (s.agcHold n = false ∧ (s.bp n).gain.gate = .resettle)) :
    s.agcHoldFx n = s.wr (F.bpGainAgcHold n) 1 := if_neg (by simpa using h)

theorem agcHoldFx_of_resettle {s : State} {n : Nat} (hwas : s.agcHold n = false) (hgate : (s.bp n).gain.gate = .resettle) :
    s.agcHoldFx n = (s.wr (F.bpGainAgcHold n) 1).gateRefreeze n := if_pos ⟨by rw [hwas]; rfl, hgate⟩

theorem holdFx_regains (s : State) (n : Nat) (hold : Bool) :
    Regains n s (s.holdFx n hold) ∧ (s.holdFx n hold).regs = (s.wrB (F.bpGainAgcHold n) hold).regs := by
  cases hold with
  | false => exact ⟨Regains.wr .., rfl⟩
  | true =>
    rw [holdFx, if_pos rfl]
    by_cases h : s.agcHold n = false ∧ (s.bp n).gain.gate = .resettle
    · obtain ⟨hin, hregs, -⟩ := gateRefreeze_regains (s.wr (F.bpGainAgcHold n) 1) n
      rw [agcHoldFx_of_resettle h.1 h.2]
      exact ⟨(Regains.wr ..).trans hin, hregs⟩
    · rw [agcHoldFx_of_still h]
      exact ⟨Regains.wr .., rfl⟩

/-- Only AGC_HOLD newly set in a re-settle touches the gain. -/
theorem holdFx_bp_of_still {s : State} {n : Nat} {hold : Bool}
    (h : hold = true → ¬ (s.agcHold n = false ∧ (s.bp n).gain.gate = .resettle)) : (s.holdFx n hold).bp n = s.bp n := by
  cases hold with
  | false => rfl
  | true => rw [holdFx, if_pos rfl, agcHoldFx_of_still (h rfl)]; rfl

theorem holdFx_bp_of_same {s : State} {n : Nat} {hold : Bool} (h : hold = s.agcHold n) : (s.holdFx n hold).bp n = s.bp n :=
  holdFx_bp_of_still fun ht hc => absurd (h.symm.trans ht) (by rw [hc.1]; exact Bool.false_ne_true)

/-! ### GAIN_SET (R122, R124) -/

theorem gainSetFx_eq (s : State) (n v : Nat) : s.gainSetFx n v =
    let u := s.wr (F.bpGainGainSet n) v
    if (s.bp n).gain.frozen && !u.agcHold n && decide (u.setBound n < (s.bp n).gain.g) then
      u.setGain n (Max.max (-30 * dB1) (u.setBound n))
    else u := rfl

theorem gainSetFx_regains (s : State) (n v : Nat) : Regains n s (s.gainSetFx n v) ∧
    (s.gainSetFx n v).regs = (s.wr (F.bpGainGainSet n) v).regs ∧
    ((s.gainSetFx n v).bp n).gain.gate = (s.bp n).gain.gate := by
  rw [gainSetFx_eq]
  dsimp only
  split
  · refine ⟨(Regains.wr ..).trans (Regains.setBp rfl), rfl, ?_⟩
    rw [State.setGain, setBp_bp_same]
    rfl
  · exact ⟨Regains.wr .., rfl, rfl⟩

/-- GAIN_SET acts at once on a frozen gain alone. -/
theorem gainSetFx_bp_of_tracking {s : State} {n : Nat} (v : Nat) (h : (s.bp n).gain.frozen = false) : (s.gainSetFx n v).bp n = s.bp n := by
  rw [gainSetFx_eq, h]
  rfl

/-! ### Both -/

/-- AGC_HOLD and GAIN_SET, which every write of the register carries. -/
def gainTaken (s : State) (n : Nat) (w : Word) : State := (s.holdFx n (w.getLsbD 7)).gainSetFx n (bitsOf w 39 24)

theorem gainTaken_regains (s : State) (n : Nat) (w : Word) : Regains n s (s.gainTaken n w) :=
  (holdFx_regains ..).1.trans (gainSetFx_regains ..).1

theorem gainTaken_regs (s : State) (n : Nat) (w : Word) :
    (s.gainTaken n w).regs = ((s.wrB (F.bpGainAgcHold n) (w.getLsbD 7)).wr (F.bpGainGainSet n) (bitsOf w 39 24)).regs := by
  obtain ⟨-, hset, -⟩ := gainSetFx_regains (s.holdFx n (w.getLsbD 7)) n (bitsOf w 39 24)
  rw [gainTaken, hset, wr, setReg, reg, (holdFx_regains s n (w.getLsbD 7)).2]
  rfl

theorem gainTaken_gainSet (s : State) (n : Nat) (w : Word) : (s.gainTaken n w).rd (F.bpGainGainSet n) = bitsOf w 39 24 := by
  rw [rd, reg, gainTaken_regs]
  exact rd_wr_of_lt _ _ (by decide) (by decide) (Nat.mod_lt _ (by decide))

theorem gainTaken_agcHold (s : State) (n : Nat) (w : Word) : (s.gainTaken n w).rdB (F.bpGainAgcHold n) = w.getLsbD 7 := by
  have hrd : (s.gainTaken n w).rd (F.bpGainAgcHold n) = if w.getLsbD 7 then 1 else 0 := by
    rw [rd, reg, gainTaken_regs]
    refine (rd_wr_ne (s.wrB (F.bpGainAgcHold n) (w.getLsbD 7)) (F.bpGainGainSet n) (F.bpGainAgcHold n) _
      (.inr (.inr (show 7 < 24 by decide))) (show 24 ≤ 39 by decide) (Nat.le_refl 7) (show 7 < 40 by decide)).trans ?_
    exact rd_wr_of_lt s _ (by decide) (by decide) (by cases w.getLsbD 7 <;> decide)
  rw [rdB, hrd]
  cases w.getLsbD 7 <;> rfl

theorem gainTaken_gate (s : State) (n : Nat) (w : Word) :
    ((s.gainTaken n w).bp n).gain.gate = ((s.holdFx n (w.getLsbD 7)).bp n).gain.gate := (gainSetFx_regains ..).2.2

end Sys2Proof.Machine.State
end

section
/-! A failed spectrum: 1 dB of back-off, or at the third in a row a mute (R121, R139, R142). -/

namespace Sys2Proof.Machine.State

/-! ### Out of service -/

theorem Inside.leaveService_consec (n : Nat) (s : State) : Inside (fun b => (b.mask.consec, b.prot)) n 0 s (s.leaveService n) := by
  have hgate : Inside (fun b => (b.mask.consec, b.prot)) n 0 s (s.gateReset n) := Inside.setBp rfl
  have hprobe : Inside (fun b => (b.mask.consec, b.prot)) n 0 (s.gateReset n) ((s.gateReset n).dropProbe n) := Inside.setBp rfl
  refine Inside.trans (j := 0) (k := 0) (hgate.trans hprobe) ?_
  unfold State.leaveService State.dropCapture
  dsimp only
  split
  · exact Inside.refl ..
  · refine Inside.trans (j := 0) (k := 0) ?_ (Inside.setTap ..)
    exact Inside.setBp rfl

/-- A cause that trips in service or in MUTED leaves the band path in MUTED or LOCKED_OUT, its count of failed spectra as it stands (R139, R142). -/
theorem tripped_mutes {s : State} {n : Nat} (code : Nat) (h : s.serving n = true ∨ (s.bp n).prot.st = .muted) :
    Inside (fun b => b.mask.consec) n 1 s (s.tripped n code) ∧ (s.tripped n code).mutes n := by
  unfold tripped
  extract_lets b p cause counted locks secs p1 p2
  split
  next hcounted =>
    have hout : s.mutes n := by simpa [counted, p, b, mutes] using (Bool.and_eq_true_iff.mp hcounted).2
    split
    · exact ⟨Inside.mono (j := 0) (Inside.setBp rfl) (by decide), by rw [mutes, setBp_bp_same]; exact hout⟩
    · exact ⟨(Inside.refl ..).mono (by decide), hout⟩
  · have hon : p.st ≠ .off ∧ p.st ≠ .lockedOut ∧ p.st ≠ .barred := by
      rw [serving_iff] at h
      rcases h with (hst | hst | hst) | hst <;> simp [p, b, hst]
    obtain ⟨hoff, hlocked, hbarred⟩ := hon
    split
    next hs => exact absurd hs hoff
    next hs => exact absurd hs hlocked
    next hs => exact absurd hs hbarred
    extract_lets p3 p4 s1 s2
    have hst : p4.st = .muted ∨ p4.st = .lockedOut := by
      simp only [p4]
      split
      · exact .inr rfl
      · exact .inl rfl
    have h1 : Inside (fun b => b.mask.consec) n 0 s s1 := Inside.setBp rfl
    have hown : (s1.bp n).prot = p4 := by rw [setBp_bp_same]
    have h2 : Inside (fun b => (b.mask.consec, b.prot)) n 0 s1 s2 := by
      refine Inside.trans (j := 0) (k := 0) ?_ (Inside.cxOf ..)
      split
      · exact Inside.refl ..
      · exact Inside.leaveService_consec ..
    clear_value s2
    have hrest : ∀ {t}, Inside (fun b => (b.mask.consec, b.prot)) n 1 s1 t →
        Inside (fun b => b.mask.consec) n 1 s t ∧ t.mutes n := fun {t} ht => by
      have hprot : (t.bp n).prot = p4 := (congrArg Prod.snd ht.own).trans hown
      exact ⟨h1.trans (ht.map Prod.fst), by rw [mutes, hprot]; exact hst⟩
    split
    · exact hrest (h2.trans (Inside.report ..))
    · exact hrest (h2.mono (by decide))

/-! ### A failed spectrum -/

/-- The monitor after a fail that is not the third in a row. -/
def failedMask (m : BpMask) : BpMask := { m with
  violCnt := m.violCnt.inc 19, passRun := 0, consec := m.consec + 1, backoff := Nat.min (m.backoff + 1) 30 }

theorem maskFail_of_fewer {s : State} {n : Nat} (h : (s.bp n).mask.consec < 2) :
    Inside (fun _ => ()) n 0 s (s.maskFail n) ∧ ((s.maskFail n).bp n).mask = failedMask (s.bp n).mask := by
  let u := s.setBp n { s.bp n with mask := failedMask (s.bp n).mask }
  have heq : s.maskFail n = if u.gainStill n && decide ((s.bp n).mask.backoff < 30) then u.dropGain n dB1 else u :=
    if_neg (Nat.not_le.mpr h)
  have hu : Inside (fun _ => ()) n 0 s u := Inside.setBp rfl
  have hmask : (u.bp n).mask = failedMask (s.bp n).mask := by rw [setBp_bp_same]
  rw [heq]
  clear_value u
  split
  · exact ⟨hu.trans (Inside.setBp (p := fun _ => ()) rfl), by rw [dropGain, setGain, setBp_bp_same, hmask]⟩
  · exact ⟨hu, hmask⟩

/-- Band path `n` has failed a third spectrum in a row: it is muted with its message, and the count starts anew (R121). -/
structure MaskMutes (n : Nat) (s t : State) : Prop extends Inside (fun _ => ()) n 2 s t where
  consec : (t.bp n).mask.consec = 0
  mutes : t.mutes n
  sent : s.intakeRoom 2 = true → s.sentNow t n 9 1 (Config.msgContext n 9 0)

theorem maskFail_of_third {s : State} {n : Nat} (h : 2 ≤ (s.bp n).mask.consec) (hup : s.serving n = true ∨ (s.bp n).prot.st = .muted) :
    MaskMutes n s (s.maskFail n) := by
  let u := s.setBp n { s.bp n with mask := { (s.bp n).mask with violCnt := (s.bp n).mask.violCnt.inc 19, passRun := 0, consec := 0 } }
  have heq : s.maskFail n = if u.serving n || (u.bp n).prot.st == .muted then
      (u.tripped n 3).report (srcBp n) 9 1 (Config.msgContext (srcBp n) 9 0) else u := if_pos h
  have hu : Inside (fun _ => ()) n 0 s u := Inside.setBp rfl
  have hconsec : (u.bp n).mask.consec = 0 := by rw [setBp_bp_same]
  have hprot : (u.bp n).prot = (s.bp n).prot := by rw [setBp_bp_same]
  clear_value u
  rw [← serving_of_prot hprot, ← hprot] at hup
  obtain ⟨htrip, hmutes⟩ := tripped_mutes 3 hup
  have hall := hu.trans (htrip.map fun _ => ())
  have hbp := (Quiet.report (u.tripped n 3) (srcBp n) 9 1 (Config.msgContext (srcBp n) 9 0)).bp n
  rw [heq, if_pos (by simpa using hup)]
  exact ⟨hall.trans (Inside.report ..), by rw [hbp, htrip.own, hconsec], by rw [mutes, hbp]; exact hmutes,
    fun hroom => sentNow_report hall.terms _ _ _ _ (hall.room 1 hroom)⟩

/-- A passed spectrum ends a row of failed ones (R121). -/
theorem maskPass_bp (s : State) (n : Nat) : s.otherBps (s.maskPass n) n ∧ ∃ k o,
    ((s.maskPass n).bp n).mask = { (s.bp n).mask with consec := 0, passRun := k, backoff := o } :=
  ⟨fun _ hm => setBp_bp_ne _ _ hm, _, _, by rw [maskPass, setBp_bp_same]⟩

end Sys2Proof.Machine.State
end

section
/-! What an accepted write of each field of the gain register does (R100, R114, R115, R120, R121, R124). -/

namespace Sys2Proof.Machine.State

/-- The captured spectrum has been judged, and its verdict is noted (R120). -/
def judgedBy (s : State) (n v : Nat) : State :=
  (s.setBp n { s.bp n with mask := { (s.bp n).mask with judged := true, maskSeq := (s.bp n).mask.maskSeq + 1 } }).wr (F.bpGainMaskVerdict n) v

theorem judgedBy_bp (s : State) (n v : Nat) :
    (s.judgedBy n v).bp n = { s.bp n with mask := { (s.bp n).mask with judged := true, maskSeq := (s.bp n).mask.maskSeq + 1 } } :=
  setBp_bp_same ..

theorem judgedBy_otherBps (s : State) (n v : Nat) : s.otherBps (s.judgedBy n v) n := fun _ hm => setBp_bp_ne s _ hm

theorem judgedBy_fc_terms (s : State) (n v : Nat) : (s.judgedBy n v).fc = s.fc ∧ (s.judgedBy n v).terms = s.terms := ⟨rfl, rfl⟩

/-- A verdict of a complete capture, not judged yet, counts in the period whose tag it carries (R120). -/
theorem verdictCounts_of_tag {s : State} {n v : Nat} (hdone : (s.bp n).mask.done = true) (hjudged : (s.bp n).mask.judged = false)
    (htag : v / 4 = (s.bp n).mask.period % 8) (hkind : v % 4 = 1 ∨ v % 4 = 2) : s.verdictCounts n v = true := by
  have htag8 : v / 4 % 8 = (s.bp n).mask.period % 8 := by omega
  rcases hkind with hk | hk <;> simp [verdictCounts, hdone, hjudged, htag8, hk]

section
variable {s : State} {n v : Nat} (hcounts : s.verdictCounts n v = true)
include hcounts

theorem maskVerdictFx_of_pass (hk : v % 4 = 1) : s.maskVerdictFx n v = (s.judgedBy n v).maskPass n := by
  simp only [maskVerdictFx, hcounts, hk, Nat.one_ne_zero, if_false, if_true, Bool.not_true, Bool.false_eq_true]
  rfl

theorem maskVerdictFx_of_fail (hk : v % 4 = 2) : s.maskVerdictFx n v = (s.judgedBy n v).maskFail n := by
  simp only [maskVerdictFx, hcounts, hk, Bool.not_true, Bool.false_eq_true, if_false, OfNat.ofNat_ne_zero, OfNat.ofNat_ne_one]
  rfl

end

namespace GainWritten
variable {s q t : State} {who : Requester} {n hi lo v : Nat} {w : Word}

/-! ### From the effect to the write -/

theorem agcHold_kept (h : GainWritten s who n hi lo v w q t) (hn : n < 128) : q.agcHold n = s.agcHold n := by
  rw [agcHold, agcHold, rdB, h.spares.rd (by simp only [inBpBlock, F.bpGainAgcHold]; omega)]
  rfl

/-- A one-bit field is sent as written. -/
theorem bit_sent {k : Nat} (h : GainWritten s who n k k v w q t) : w.getLsbD k = v.testBit 0 := by
  have hsent : (w.getLsbD k).toNat = v % 2 := by simpa [bitsOf_bit] using h.sent
  rw [Nat.testBit_zero, ← hsent]
  cases w.getLsbD k <;> rfl

/-- No verdict is sent beside another field. -/
theorem verdict_idle (h : GainWritten s who n hi lo v w q t) (hlo : 5 ≤ lo) : bitsOf w 4 0 = 0 :=
  bitsOf_eq_zero fun i _ hi => h.idle i (by omega) (by omega)

/-- A write of GAIN_SET or AGC_HOLD does no more than these. -/
theorem settings_alone (h : GainWritten s who n hi lo v w q t) (hlo : 7 ≤ lo) : q.writeBp n 10 w = q.gainTaken n w := by
  have hcapture : w.getLsbD 6 = false := h.idle 6 (by decide) (by omega)
  have hmeter : w.getLsbD 5 = false := h.idle 5 (by decide) (by omega)
  simp only [writeBp, hcapture, hmeter, h.verdict_idle (by omega), Bool.false_eq_true, if_false]
  rfl

theorem capture_alone (h : GainWritten s who n 6 6 1 w q t) : q.writeBp n 10 w = (q.gainTaken n w).nrCaptureFx n := by
  have hcapture : w.getLsbD 6 = true := h.bit_sent
  have hmeter : w.getLsbD 5 = false := h.idle 5 (by decide) (by decide)
  simp only [writeBp, hcapture, hmeter, h.verdict_idle (by decide), Bool.false_eq_true, if_false, if_true]
  rfl

theorem restart_alone (h : GainWritten s who n 5 5 1 w q t) : q.writeBp n 10 w = (q.gainTaken n w).egRestartFx n := by
  have hcapture : w.getLsbD 6 = false := h.idle 6 (by decide) (by decide)
  have hmeter : w.getLsbD 5 = true := h.bit_sent
  simp only [writeBp, hcapture, hmeter, h.verdict_idle (by decide), Bool.false_eq_true, if_false, if_true]
  rfl

theorem verdict_alone (h : GainWritten s who n 4 0 v w q t) (hv : v < 32) : q.writeBp n 10 w = (q.gainTaken n w).maskVerdictFx n v := by
  have hcapture : w.getLsbD 6 = false := h.idle 6 (by decide) (by decide)
  have hmeter : w.getLsbD 5 = false := h.idle 5 (by decide) (by decide)
  have hverdict : bitsOf w 4 0 = v := h.sent.trans (Nat.mod_eq_of_lt hv)
  simp only [writeBp, hcapture, hmeter, hverdict, Bool.false_eq_true, if_false]
  rfl

/-! ### GAIN_SET and AGC_HOLD -/

theorem gainSet_taken {v : BitVec 16} (h : GainWritten s who n 39 24 v.toNat w q t) (hn : n < 128) :
    t.rd (F.bpGainGainSet n) = v.toNat ∧ s.otherBps t n ∧ ((s.bp n).gain.frozen = false → (t.bp n).gain = (s.bp n).gain) := by
  have heff := h.settings_alone (by decide)
  refine ⟨?_, h.otherBps (by rw [heff]; exact (gainTaken_regains q n w).others), fun htrack => ?_⟩
  · rw [h.rd, heff, gainTaken_gainSet]
    exact h.sent.trans (Nat.mod_eq_of_lt v.isLt)
  · have hsame : (q.holdFx n (w.getLsbD 7)).bp n = s.bp n := by
      rw [holdFx_bp_of_same ((h.hold (.inr (by decide))).trans (h.agcHold_kept hn).symm), h.spares.bp]
    rw [h.bp, heff, gainTaken, gainSetFx_bp_of_tracking _ (by rw [hsame]; exact htrack), hsame]

theorem hold_set (h : GainWritten s who n 7 7 1 w q t) (hn : n < 128) :
    t.rdB (F.bpGainAgcHold n) = true ∧ s.otherBps t n ∧
      ((s.bp n).gain.gate = .resettle → s.rdB (F.bpGainAgcHold n) = false → (t.bp n).gain.gate = .confirmed) ∧
      ((s.bp n).gain.gate ≠ .resettle → (t.bp n).gain.gate = (s.bp n).gain.gate) := by
  have heff := h.settings_alone (by decide)
  have hset : w.getLsbD 7 = true := h.bit_sent
  refine ⟨?_, h.otherBps (by rw [heff]; exact (gainTaken_regains q n w).others), fun hgate hwas => ?_, fun hgate => ?_⟩
  · rw [rdB, h.rd, heff]
    exact (gainTaken_agcHold q n w).trans hset
  · have hresettle : q.holdFx n true = (q.wr (F.bpGainAgcHold n) 1).gateRefreeze n :=
      agcHoldFx_of_resettle ((h.agcHold_kept hn).trans hwas) (by rw [h.spares.bp]; exact hgate)
    rw [h.bp, heff, gainTaken_gate, hset, hresettle]
    exact (gateRefreeze_regains ..).2.2
  · rw [h.bp, heff, gainTaken_gate, holdFx_bp_of_still fun _ hc => hgate (by rw [← h.spares.bp]; exact hc.2), h.spares.bp]

theorem hold_cleared (h : GainWritten s who n 7 7 0 w q t) :
    t.rdB (F.bpGainAgcHold n) = false ∧ s.otherBps t n ∧ (t.bp n).gain.gate = (s.bp n).gain.gate := by
  have heff := h.settings_alone (by decide)
  have hclear : w.getLsbD 7 = false := h.bit_sent
  refine ⟨?_, h.otherBps (by rw [heff]; exact (gainTaken_regains q n w).others), ?_⟩
  · rw [rdB, h.rd, heff]
    exact (gainTaken_agcHold q n w).trans hclear
  · rw [h.bp, heff, gainTaken_gate, hclear, holdFx_bp_of_still (fun hset => absurd hset Bool.false_ne_true), h.spares.bp]

/-! ### NR_CAPTURE and EG_METER_RESTART -/

theorem floor_captured (h : GainWritten s who n 6 6 1 w q t) (hfloor : (s.bp n).idle.2 = 1) :
    (t.bp n).gain.nrRef = s.floorDbm n ∧ (t.bp n).gain.nrValid = true ∧ s.otherBps t n := by
  have hin := gainTaken_regains q n w
  have hmeasured : ((q.gainTaken n w).bp n).idle.2 = 1 := by rw [hin.idle, h.spares.bp]; exact hfloor
  have heff : q.writeBp n 10 w = (q.gainTaken n w).setBp n { (q.gainTaken n w).bp n with
      gain := { ((q.gainTaken n w).bp n).gain with nrRef := (q.gainTaken n w).floorDbm n, nrValid := true } } := by
    rw [h.capture_alone]
    exact if_pos hmeasured
  have hdbm : q.floorDbm n = s.floorDbm n := by simp only [State.floorDbm, figIn, h.spares.bp, h.spares.planN]
  refine ⟨?_, ?_, h.otherBps fun m hm => ?_⟩
  · rw [h.bp, heff, setBp_bp_same, hin.floorDbm, hdbm]
  · rw [h.bp, heff, setBp_bp_same]
  · rw [heff, setBp_bp_ne _ _ hm, hin.others m hm]

theorem capture_refused (h : GainWritten s who n 6 6 1 w q t) (hfloor : (s.bp n).idle.2 ≠ 1) (hwho : s.plainWriter who)
    (hroom : s.intakeRoom 1 = true) :
    (t.bp n).gain.nrRef = (s.bp n).gain.nrRef ∧ s.otherBps t n ∧ s.sentNow t n 56 0 (Config.msgContext n 56 2) := by
  have hin := gainTaken_regains q n w
  obtain ⟨hfc, hterms⟩ := h.plain hwho
  have hopen : ¬ ((q.gainTaken n w).bp n).idle.2 = 1 := by rw [hin.idle, h.spares.bp]; exact hfloor
  have heff : q.writeBp n 10 w = (q.gainTaken n w).report n 56 0 (Config.msgContext n 56 2) := by
    rw [h.capture_alone]
    exact if_neg hopen
  have hbp := (Quiet.report (q.gainTaken n w) n 56 0 (Config.msgContext n 56 2)).bp
  refine ⟨?_, h.otherBps fun m hm => ?_, ?_⟩
  · rw [h.bp, heff, hbp, hin.nrRef, h.spares.bp]
  · rw [heff, hbp, hin.others m hm]
  · rw [sentNow, h.effect, heff]
    exact sentNow_report (hin.terms.trans hterms) _ _ _ _ ((intakeRoom_of_fc (hin.fc.trans hfc) 1).trans hroom)

theorem meters_restarted (h : GainWritten s who n 5 5 1 w q t) :
    s.otherBps t n ∧ (t.bp n).flow.meterOut.window = [] ∧ (t.bp n).flow.meterOut.blocks = [] ∧ (t.bp n).flow.meterOut.fineReady = false ∧
      (t.bp n).flow.meterIn = (s.bp n).flow.meterIn := by
  have hin := gainTaken_regains q n w
  have heff := h.restart_alone
  refine ⟨h.otherBps fun m hm => ?_, ?_⟩
  · rw [heff]
    exact (setBp_bp_ne _ _ hm).trans (hin.others m hm)
  · rw [h.bp, heff, egRestartFx, setBp_bp_same, hin.flow, h.spares.bp]
    exact ⟨rfl, rfl, rfl, rfl⟩

/-! ### MASK_VERDICT -/

/-- A verdict that counts acts on the band path as judged: the monitor has taken the verdict, and nothing else of it but the gain has changed. -/
theorem verdict_judges (h : GainWritten s who n 4 0 v w q t) (hv : v < 32) (hdone : (s.bp n).mask.done = true)
    (hjudged : (s.bp n).mask.judged = false) (htag : v / 4 = (s.bp n).mask.period % 8) :
    ∃ u, s.otherBps u n ∧ (u.bp n).prot = (s.bp n).prot ∧
      (u.bp n).mask = { (s.bp n).mask with judged := true, maskSeq := (s.bp n).mask.maskSeq + 1 } ∧
      (s.plainWriter who → u.fc = s.fc ∧ u.terms = s.terms) ∧
      (v % 4 = 1 → q.writeBp n 10 w = u.maskPass n) ∧ (v % 4 = 2 → q.writeBp n 10 w = u.maskFail n) := by
  have hin := gainTaken_regains q n w
  have hmask : ((q.gainTaken n w).bp n).mask = (s.bp n).mask := by rw [hin.mask, h.spares.bp]
  have hcounts := fun hkind => verdictCounts_of_tag (s := q.gainTaken n w) (n := n) (hmask ▸ hdone) (hmask ▸ hjudged) (hmask ▸ htag) hkind
  have hown := judgedBy_bp (q.gainTaken n w) n v
  refine ⟨(q.gainTaken n w).judgedBy n v, fun m hm => ?_, ?_, ?_, fun hwho => ?_, fun hk => ?_, fun hk => ?_⟩
  · rw [judgedBy_otherBps _ _ _ m hm, hin.others m hm, h.spares.bp]
  · rw [hown, hin.prot, h.spares.bp]
  · rw [hown, hmask]
  · obtain ⟨hfc, hterms⟩ := h.plain hwho
    obtain ⟨hfc', hterms'⟩ := judgedBy_fc_terms (q.gainTaken n w) n v
    exact ⟨hfc'.trans (hin.fc.trans hfc), hterms'.trans (hin.terms.trans hterms)⟩
  · rw [h.verdict_alone hv, maskVerdictFx_of_pass (hcounts (.inl hk)) hk]
  · rw [h.verdict_alone hv, maskVerdictFx_of_fail (hcounts (.inr hk)) hk]

section
variable (h : GainWritten s who n 4 0 v w q t) (hv : v < 32) (hdone : (s.bp n).mask.done = true) (hjudged : (s.bp n).mask.judged = false)
  (htag : v / 4 = (s.bp n).mask.period % 8)
include h hv hdone hjudged htag

theorem verdict_passed (hk : v % 4 = 1) :
    (t.bp n).mask.judged = true ∧ (t.bp n).mask.maskSeq = (s.bp n).mask.maskSeq + 1 ∧ (t.bp n).mask.consec = 0 ∧
      (t.bp n).mask.violCnt = (s.bp n).mask.violCnt ∧ s.otherBps t n := by
  obtain ⟨u, hothers, -, hmask, -, hpass, -⟩ := h.verdict_judges hv hdone hjudged htag
  obtain ⟨hrest, k, o, hown⟩ := maskPass_bp u n
  have hafter : (t.bp n).mask = { (s.bp n).mask with
      judged := true, maskSeq := (s.bp n).mask.maskSeq + 1, consec := 0, passRun := k, backoff := o } := by
    rw [h.bp, hpass hk, hown, hmask]
  rw [hafter]
  refine ⟨rfl, rfl, rfl, rfl, fun m hm => ?_⟩
  rw [h.bp, hpass hk, hrest m hm, hothers m hm]

theorem verdict_failed (hk : v % 4 = 2) (hfew : (s.bp n).mask.consec < 2) :
    (t.bp n).mask.judged = true ∧ (t.bp n).mask.maskSeq = (s.bp n).mask.maskSeq + 1 ∧
      (t.bp n).mask.consec = (s.bp n).mask.consec + 1 ∧ (t.bp n).mask.backoff = Nat.min ((s.bp n).mask.backoff + 1) 30 ∧
      (t.bp n).mask.violCnt = (s.bp n).mask.violCnt.inc 19 ∧ s.otherBps t n := by
  obtain ⟨u, hothers, -, hmask, -, -, hfail⟩ := h.verdict_judges hv hdone hjudged htag
  obtain ⟨hin, hown⟩ := maskFail_of_fewer (s := u) (n := n) (by rw [hmask]; exact hfew)
  rw [h.bp, hfail hk, hown, hmask]
  refine ⟨rfl, rfl, rfl, rfl, rfl, fun m hm => ?_⟩
  rw [h.bp, hfail hk, hin.others m hm, hothers m hm]

theorem verdict_mutes (hk : v % 4 = 2) (hthird : 2 ≤ (s.bp n).mask.consec)
    (hup : s.serving n = true ∨ (s.bp n).prot.st = .muted) (hwho : s.plainWriter who) (hroom : s.intakeRoom 2 = true) :
    (t.bp n).mask.consec = 0 ∧ t.mutes n ∧ s.sentNow t n 9 1 (Config.msgContext n 9 0) ∧ s.otherBps t n := by
  obtain ⟨u, hothers, hprot, hmask, hplain, -, hfail⟩ := h.verdict_judges hv hdone hjudged htag
  obtain ⟨hfc, hterms⟩ := hplain hwho
  have hmutes : MaskMutes n u (u.maskFail n) := maskFail_of_third (by rw [hmask]; exact hthird) (by rwa [serving_of_prot hprot, hprot])
  have hsent := sentNow_of_terms hterms (hmutes.sent ((intakeRoom_of_fc hfc 2).trans hroom))
  refine ⟨?_, ?_, ?_, fun m hm => ?_⟩
  · rw [h.bp, hfail hk, hmutes.consec]
  · rw [State.mutes, h.bp, hfail hk]
    exact hmutes.mutes
  · rw [sentNow, h.effect, hfail hk]
    exact hsent
  · rw [h.bp, hfail hk, hmutes.others m hm, hothers m hm]

end

end GainWritten

end Sys2Proof.Machine.State
end

section
/-! O30, assembled: each instruction of the gain register is a write of one of its fields. -/

namespace Sys2Proof.Machine

open State in
/-- Settles O30: an accepted write sets AGC_HOLD and GAIN_SET as they are sent, and then lets the one self-acting field it names act. -/
theorem gainWrites : Obligations.GainWrites := by
  unfold Obligations.GainWrites
  intro s who bp n b a
  have hn : n < 128 := bp.isLt
  refine ⟨fun v h => ?_, fun h => ?_, fun h => ?_, fun h hfloor => ?_, fun h hfloor hwho hroom => ?_, fun h => ?_,
    fun v h hdone hjudged htag => ?_⟩
  · obtain ⟨w, q, ht⟩ := gainWrite_written hn (by decide) (by decide) h
    exact ⟨_, rfl, ht.gainSet_taken hn⟩
  · obtain ⟨w, q, ht⟩ := gainWrite_written hn (by decide) (by decide) h
    exact ⟨_, rfl, ht.hold_set hn⟩
  · obtain ⟨w, q, ht⟩ := gainWrite_written hn (by decide) (by decide) h
    exact ⟨_, rfl, ht.hold_cleared⟩
  · obtain ⟨w, q, ht⟩ := gainWrite_written hn (by decide) (by decide) h
    exact ⟨_, rfl, ht.floor_captured hfloor⟩
  · obtain ⟨w, q, ht⟩ := gainWrite_written hn (by decide) (by decide) h
    exact ⟨_, rfl, ht.capture_refused hfloor hwho hroom⟩
  · obtain ⟨w, q, ht⟩ := gainWrite_written hn (by decide) (by decide) h
    exact ⟨_, rfl, ht.meters_restarted⟩
  · obtain ⟨w, q, ht⟩ := gainWrite_written hn (by decide) (by decide) h
    exact ⟨fun hk => ⟨_, rfl, ht.verdict_passed v.isLt hdone hjudged htag hk⟩,
      fun hk hfew => ⟨_, rfl, ht.verdict_failed v.isLt hdone hjudged htag hk hfew⟩,
      fun hk hthird hup hwho hroom => ⟨_, rfl, ht.verdict_mutes v.isLt hdone hjudged htag hk hthird hup hwho hroom⟩⟩

end Sys2Proof.Machine
end

section
/-! The resampler whose reset comes next: the one released first (R26, R46). -/

namespace Sys2Proof.Machine.State

/-- The earliest release found so far, with the band path and the resampler it is of, once resampler `k` has been looked at. -/
def earlierRelease (s : State) (m : Option (Nat × Nat × Nat)) (k : Nat) : Option (Nat × Nat × Nat) :=
  match s.resampler k, m with
  | .released bp t, none => some (t, bp.toNat, k)
  | .released bp t, some x => if t < x.1 ∨ (t = x.1 ∧ bp.toNat < x.2.1) then some (t, bp.toNat, k) else m
  | _, _ => m

/-- The earliest release among those of all resamplers. -/
def firstRelease (s : State) : Option (Nat × Nat × Nat) := (List.range 64).foldl s.earlierRelease none

/-- `m` is the earliest release of the resamplers in `l`. -/
structure EarliestIn (s : State) (l : List Nat) (m : Option (Nat × Nat × Nat)) : Prop where
  released : ∀ x, m = some x → x.2.2 ∈ l ∧ ∃ c, s.resampler x.2.2 = .released c x.1
  least : ∀ k ∈ l, ∀ c t, s.resampler k = .released c t → ∃ x, m = some x ∧ x.1 ≤ t

section
variable {s : State} {l : List Nat} {m : Option (Nat × Nat × Nat)} {k : Nat} (h : EarliestIn s l m)
include h

/-- A resampler that was released no earlier, or not at all, changes nothing. -/
theorem EarliestIn.keep (hk : ∀ c t, s.resampler k = .released c t → ∃ x, m = some x ∧ x.1 ≤ t) : EarliestIn s (l ++ [k]) m := by
  refine ⟨fun x hx => ⟨List.mem_append_left _ (h.released x hx).1, (h.released x hx).2⟩, fun j hj d u hd => ?_⟩
  obtain hj | hj := List.mem_append.mp hj
  · exact h.least j hj d u hd
  · exact hk d u (List.mem_singleton.mp hj ▸ hd)

/-- A resampler that was released as early as all before it takes their place. -/
theorem EarliestIn.take {c : BitVec 7} {t : Nat} (hk : s.resampler k = .released c t) (hm : ∀ x, m = some x → t ≤ x.1) :
    EarliestIn s (l ++ [k]) (some (t, c.toNat, k)) := by
  refine ⟨?_, fun j hj d u hd => ⟨_, rfl, ?_⟩⟩
  · rintro x ⟨⟩
    exact ⟨List.mem_append_right _ (List.mem_singleton_self k), c, hk⟩
  · obtain hj | hj := List.mem_append.mp hj
    · obtain ⟨x, hx, hle⟩ := h.least j hj d u hd
      exact Nat.le_trans (hm x hx) hle
    · rw [List.mem_singleton.mp hj, hk] at hd
      injection hd with _ hu
      exact Nat.le_of_eq hu

theorem EarliestIn.earlierRelease (k : Nat) : EarliestIn s (l ++ [k]) (s.earlierRelease m k) := by
  unfold State.earlierRelease
  split
  next c t hk => exact h.take hk nofun
  next c t y hk =>
    split
    next hearlier =>
      refine h.take hk fun x hx => ?_
      rw [← Option.some.inj hx]
      exact hearlier.elim Nat.le_of_lt fun he => Nat.le_of_eq he.1
    next hlater =>
      refine h.keep fun d u hd => ⟨y, rfl, ?_⟩
      rw [hk] at hd
      injection hd with _ hu
      exact hu ▸ Nat.not_lt.mp fun hlt => hlater (.inl hlt)
  next hnone hsome =>
    exact h.keep fun d u hd => (hnone d u hd (Option.eq_none_iff_forall_ne_some.mpr fun y => hsome d u y hd)).elim

end

theorem firstRelease_earliest (s : State) : EarliestIn s (List.range 64) s.firstRelease := by
  have h : ∀ m, EarliestIn s (List.range m) ((List.range m).foldl s.earlierRelease none) := fun m => by
    induction m with
    | zero => exact ⟨nofun, nofun⟩
    | succ m ih =>
      rw [List.range_succ, List.foldl_append]
      exact ih.earlierRelease m
  exact h 64

/-! ### The next reset -/

/-- A reset is in progress. -/
def resetting (s : State) : Bool := (List.range 64).any (fun k => match s.resampler k with | .resetting _ => true | _ => false)

theorem resetting_eq_false {s : State} (h : ∀ k, k < 64 → ∀ d, s.resampler k ≠ .resetting d) : s.resetting = false := by
  refine List.any_eq_false.mpr fun k hk => ?_
  have hk64 := List.mem_range.mp hk
  split
  next d hr => exact absurd hr (h k hk64 d)
  · exact Bool.false_ne_true

theorem nextReset_eq (s : State) : s.nextReset =
    s.firstRelease.elim s fun x => if s.resetting then s else s.setResampler x.2.2 (.resetting (s.cyc + 64)) := by
  have hdef : s.nextReset = match s.firstRelease with
    | some x => if s.resetting then s else s.setResampler x.2.2 (.resetting (s.cyc + 64))
    | none => s := rfl
  rw [hdef]
  cases s.firstRelease <;> rfl

/-- A resampler that does not wait for its reset stays as it is. -/
theorem nextReset_resampler_of_not_released {s : State} {j : Nat} (h : ∀ c t, s.resampler j ≠ .released c t) :
    s.nextReset.resampler j = s.resampler j := by
  rw [nextReset_eq]
  cases hx : s.firstRelease with
  | none => rfl
  | some x =>
    obtain ⟨-, c, hreleased⟩ := (firstRelease_earliest s).released x hx
    have hne : j ≠ x.2.2 := fun hj => h c x.1 (hj ▸ hreleased)
    rw [Option.elim_some]
    split
    · rfl
    · exact setResampler_resampler_ne s _ hne

/-- Where no reset is in progress the resampler released first begins its own. -/
theorem nextReset_resampler_of_first {s : State} {j a : Nat} {c : BitVec 7} (hj : j < 64) (hreleased : s.resampler j = .released c a)
    (hidle : s.resetting = false) (hfirst : ∀ k d t, k < 64 → k ≠ j → s.resampler k = .released d t → a < t) :
    s.nextReset.resampler j = .resetting (s.cyc + 64) := by
  have hearliest := firstRelease_earliest s
  obtain ⟨x, hx, hle⟩ := hearliest.least j (List.mem_range.mpr hj) c a hreleased
  obtain ⟨hmem, d, hd⟩ := hearliest.released x hx
  have heq : x.2.2 = j := by
    by_contra hne
    exact absurd hle (Nat.not_le.mpr (hfirst _ d x.1 (List.mem_range.mp hmem) hne hd))
  rw [nextReset_eq, hx, Option.elim_some, hidle, if_neg Bool.false_ne_true, heq, setResampler_resampler_same]

/-! ### The end of a reset -/

/-- The reset of resampler `i` has ended: it is free, and the next one begins. -/
def resetEnded (s : State) (i : Nat) : State := (s.setResampler i .free).nextReset

theorem resetEnded_free (s : State) (i : Nat) : (s.resetEnded i).resampler i = .free := by
  have hfree : (s.setResampler i .free).resampler i = .free := setResampler_resampler_same ..
  rw [resetEnded, nextReset_resampler_of_not_released (by simp [hfree]), hfree]

theorem resetEnded_frame (s : State) (i : Nat) : s.resetEnded i = { s with rsmp := (s.resetEnded i).rsmp } := by
  rw [resetEnded, nextReset_frame]
  rfl

section
variable {s : State} {i j : Nat}

theorem resetEnded_of_not_released (hj : j ≠ i) (h : ∀ c a, s.resampler j ≠ .released c a) :
    (s.resetEnded i).resampler j = s.resampler j := by
  have hsame : (s.setResampler i .free).resampler j = s.resampler j := setResampler_resampler_ne s _ hj
  rw [resetEnded, nextReset_resampler_of_not_released (by rwa [hsame]), hsame]

/-- Where no other reset is in progress the resampler released first begins its own. -/
theorem resetEnded_of_first {c : BitVec 7} {a d : Nat} (hreset : s.resampler i = .resetting d) (hj : j < 64)
    (hreleased : s.resampler j = .released c a) (hidle : ∀ k, k < 64 → k ≠ i → ∀ d, s.resampler k ≠ .resetting d)
    (hfirst : ∀ k d x, k < 64 → k ≠ j → s.resampler k = .released d x → a < x) :
    (s.resetEnded i).resampler j = .resetting (s.cyc + 64) := by
  have hne : j ≠ i := by
    rintro rfl
    exact absurd (hreset.symm.trans hreleased) nofun
  refine nextReset_resampler_of_first hj ((setResampler_resampler_ne s _ hne).trans hreleased)
    (resetting_eq_false fun k hk d => ?_) fun k d x hk hkj hd => ?_
  · rw [setResampler_resampler]
    split
    · exact nofun
    next hki => exact hidle k hk hki d
  · rw [setResampler_resampler] at hd
    split at hd
    · exact absurd hd nofun
    · exact hfirst k d x hk hkj hd

end

end Sys2Proof.Machine.State
end

section
/-! The soft start and the ramp: the gain of a band path in STARTING until RAMP_DONE (R97, R98, R101, R140). -/

namespace Sys2Proof.Machine.State

/-! ### Changes of state -/

/-- Beside band path `n` only coexistence ports and registers have changed. -/
structure Reaches (n : Nat) (s t : State) : Prop where
  frame : t = { s with bps := t.bps, cx := t.cx, regs := t.regs }
  others : s.otherBps t n

section
variable {n : Nat} {s t u : State}

theorem Reaches.refl (n : Nat) (s : State) : Reaches n s s := ⟨rfl, fun _ _ => rfl⟩

theorem Reaches.trans (h : Reaches n s t) (g : Reaches n t u) : Reaches n s u :=
  ⟨g.frame.trans (by rw [h.frame]), fun m hm => (g.others m hm).trans (h.others m hm)⟩

theorem Reaches.setBp (n : Nat) (s : State) (b : Bp) : Reaches n s (s.setBp n b) := ⟨rfl, fun _ hm => setBp_bp_ne s b hm⟩

theorem Reaches.of_bps (hframe : t = { s with cx := t.cx, regs := t.regs }) : Reaches n s t :=
  have hbps : t.bps = s.bps := by rw [hframe]
  ⟨hframe.trans (by rw [hbps]), fun m _ => by rw [State.bp, hbps]; rfl⟩

end

theorem cxDemand_frame (s : State) (k : Nat) : s.cxDemand k = { s with cx := (s.cxDemand k).cx, regs := (s.cxDemand k).regs } := by
  unfold cxDemand
  dsimp only
  split
  · split
    · split <;> rfl
    · split
      · rfl
      · rw [inc_eq]; rfl
  · rfl

theorem Reaches.cxOf (n : Nat) (s : State) (m : Nat) : Reaches n s (s.cxOf m) := by
  unfold State.cxOf
  split
  · exact Reaches.of_bps (cxDemand_frame ..)
  · exact Reaches.refl n s

theorem Reaches.noteActive (n : Nat) (s : State) : Reaches n s s.noteActive := by
  unfold State.noteActive
  split
  · exact Reaches.of_bps rfl
  · exact Reaches.refl n s

/-- A band path changes its state, and its gain stands (R140). -/
theorem settleSt_reaches (s : State) (n : Nat) : Reaches n s (s.settleSt n) ∧ ((s.settleSt n).bp n).gain = (s.bp n).gain := by
  have hset : ∀ st, Reaches n s (s.setSt n st) ∧ ((s.setSt n st).bp n).gain = (s.bp n).gain := fun _ =>
    ⟨Reaches.setBp .., by rw [setSt, setBp_bp_same]⟩
  unfold settleSt
  dsimp only
  split
  · exact ⟨Reaches.refl n s, rfl⟩
  · split
    · split
      · refine ⟨((hset _).1.trans (Reaches.noteActive ..)).trans (Reaches.cxOf ..), ?_⟩
        rw [((Quiet.noteActive _).trans (Quiet.cxOf ..)).bp, (hset _).2]
      · exact ⟨Reaches.refl n s, rfl⟩
    · split
      · exact ⟨Reaches.refl n s, rfl⟩
      · exact hset _
    · split
      · exact hset _
      · exact ⟨Reaches.refl n s, rfl⟩
    · exact ⟨Reaches.refl n s, rfl⟩

/-! ### RAMP_DONE -/

/-- A ramp that meets the other bounds ends, and is done; one below them goes on (R101). -/
theorem rampCheck_reaches {s : State} {n : Nat} {r : Db} (hst : (s.bp n).prot.st = .starting) (hramp : (s.bp n).gain.ramp = some r) :
    Reaches n s (s.rampCheck n) ∧ ((s.rampCheck n).bp n).gain =
      if s.wantOther n ≤ r then { (s.bp n).gain with ramp := none, rampDone := true } else (s.bp n).gain := by
  by_cases hmet : s.wantOther n ≤ r
  · have heq : s.rampCheck n = (s.setBp n { s.bp n with gain := { (s.bp n).gain with ramp := none, rampDone := true } }).settleSt n := by
      simp only [rampCheck, hramp, hst, hmet, and_self, if_true]
    obtain ⟨hin, hgain⟩ := settleSt_reaches (s.setBp n { s.bp n with gain := { (s.bp n).gain with ramp := none, rampDone := true } }) n
    rw [heq, if_pos hmet]
    exact ⟨(Reaches.setBp ..).trans hin, by rw [hgain, setBp_bp_same]⟩
  · have heq : s.rampCheck n = s := by simp only [rampCheck, hramp, hmet, and_false, if_false]
    rw [heq, if_neg hmet]
    exact ⟨Reaches.refl n s, rfl⟩

/-! ### What the bounds read -/

section
variable (s : State) (n : Nat) {b : Bp}

theorem cFifths_setBp (h : b.bw = (s.bp n).bw) : (s.setBp n b).cFifths n = s.cFifths n := by
  have hgain : (s.setBp n b).gChain n = s.gChain n := rfl
  rw [cFifths, cDigital, setBp_bp_same, h, hgain]
  rfl

/-- The bounds of R97 other than the ramp read the back-off, the ceiling and the detector of a band path alone. -/
theorem wantOther_setBp (hbw : b.bw = (s.bp n).bw) (hmask : b.mask = (s.bp n).mask) (hdet : b.gain.det = (s.bp n).gain.det) :
    (s.setBp n b).wantOther n = s.wantOther n := by
  have hset : (s.setBp n b).setBound n = s.setBound n := by
    rw [setBound, setBp_bp_same, hmask]
    rfl
  have hdetDb : (s.setBp n b).detDb n = s.detDb n := by rw [detDb, setBp_bp_same, hdet]; rfl
  have hceil : (s.setBp n b).cDigital n = s.cDigital n := by rw [cDigital, setBp_bp_same, hbw]; rfl
  rw [wantOther, hset, hdetDb, hceil]
  rfl

end

/-! ### SOFT_START_BEGIN and RAMP_STEP -/

/-- The gain a soft start begins at (R101). -/
def startGain (s : State) (n : Nat) : Db := Max.max (-30 * dB1) (Min.min (s.gWant n) (s.planDb n plStartLevel - (s.bp n).flow.meterIn.coarse))

/-- The band path as its soft start begins, before RAMP_DONE is judged. -/
def startedAt (s : State) (n : Nat) : State :=
  (s.setBp n { s.bp n with gain := { (s.bp n).gain with softStarted := true, ramp := some (s.startGain n), rampAt := s.setCyc, rampN := 0 } }).setGain n
    (s.startGain n)

theorem startedAt_bp (s : State) (n : Nat) : (s.startedAt n).bp n = { s.bp n with gain := { (s.bp n).gain with
    softStarted := true, ramp := some (s.startGain n), rampAt := s.setCyc, rampN := 0, g := s.startGain n
    step := stepFor (s.startGain n) (s.cFifths n) } } := by
  rw [startedAt, setGain, setBp_bp_same, setBp_bp_same, cFifths_setBp _ _ (by rfl)]

theorem softStart_begins {s : State} {n : Nat} (hst : (s.bp n).prot.st = .starting) :
    ∃ t, (s.startedAt n).rampCheck n = t ∧ Reaches n s t ∧ (t.bp n).gain.softStarted = true ∧ (t.bp n).gain.g = s.startGain n ∧
      (t.bp n).gain.step = stepFor (s.startGain n) (s.cFifths n) := by
  have hown := startedAt_bp s n
  have hstarted : Reaches n s (s.startedAt n) := (Reaches.setBp ..).trans (Reaches.setBp ..)
  obtain ⟨hin, hgain⟩ := rampCheck_reaches (s := s.startedAt n) (n := n) (by rw [hown]; exact hst) (by rw [hown])
  refine ⟨_, rfl, hstarted.trans hin, ?_⟩
  rw [hgain, hown]
  split <;> exact ⟨rfl, rfl, rfl⟩

/-- The band path after a rise of g_ramp, before RAMP_DONE is judged. -/
def risen (s : State) (n : Nat) (r : Db) : State :=
  s.setBp n { s.bp n with gain := { (s.bp n).gain with ramp := some (r + db005 (s.bp n).gain.rampN), rampN := (s.bp n).gain.rampN + 1 } }

theorem ramp_rises {s : State} {n : Nat} (r : Db) (hst : (s.bp n).prot.st = .starting) :
    Reaches n s ((s.risen n r).rampCheck n) ∧ (((s.risen n r).rampCheck n).bp n).gain =
      if s.wantOther n ≤ r + db005 (s.bp n).gain.rampN then
        { (s.bp n).gain with ramp := none, rampN := (s.bp n).gain.rampN + 1, rampDone := true }
      else { (s.bp n).gain with ramp := some (r + db005 (s.bp n).gain.rampN), rampN := (s.bp n).gain.rampN + 1 } := by
  have hown : (s.risen n r).bp n = { s.bp n with gain := { (s.bp n).gain with
      ramp := some (r + db005 (s.bp n).gain.rampN), rampN := (s.bp n).gain.rampN + 1 } } := setBp_bp_same ..
  have hwant : (s.risen n r).wantOther n = s.wantOther n := wantOther_setBp s n rfl rfl rfl
  obtain ⟨hin, hgain⟩ := rampCheck_reaches (s := s.risen n r) (n := n) (by rw [hown]; exact hst) (by rw [hown])
  rw [hwant, hown] at hgain
  exact ⟨(Reaches.setBp ..).trans hin, hgain⟩

end Sys2Proof.Machine.State

namespace Sys2Proof.Machine

open State

section
variable {s : State} {bp : BpId}

theorem exec_softStartBegin (hst : (s.bp bp.toNat).prot.st = .starting) (hstarted : (s.bp bp.toNat).gain.softStarted = false)
    (hmeter : 64 ≤ (s.bp bp.toNat).flow.meterIn.window.length) :
    exec (.softStartBegin bp) s = .next ((s.startedAt bp.toNat).rampCheck bp.toNat) := if_pos ⟨hst, congrArg not hstarted, hmeter⟩

theorem exec_rampStep_of_due {r : Db} (hst : (s.bp bp.toNat).prot.st = .starting) (hramp : (s.bp bp.toNat).gain.ramp = some r)
    (hdue : s.rampDue bp.toNat ((s.bp bp.toNat).gain.rampN + 1) ≤ s.setCyc) :
    exec (.rampStep bp) s = .next ((s.risen bp.toNat r).rampCheck bp.toNat) := by
  show execRampStep bp s = _
  simp only [execRampStep, hst, hramp, if_pos hdue]
  rfl

theorem exec_rampStep_of_early (hdue : s.setCyc < s.rampDue bp.toNat ((s.bp bp.toNat).gain.rampN + 1)) :
    exec (.rampStep bp) s = .next s := by
  show execRampStep bp s = _
  unfold execRampStep
  dsimp only
  split
  · exact if_neg (Nat.not_le.mpr hdue)
  · rfl

end

end Sys2Proof.Machine
end

section
/-! The idle floor, the mask periods and the meters of a band path (R54, R55, R111, R113, R118, R120, R121). -/

namespace Sys2Proof.Machine.State

/-! ### Messages alone -/

/-- With room at the queue a message changes the collector's intake alone. -/
theorem report_of_room {s : State} (src kind hint : Nat) (ctx : Word) (h : s.intakeRoom 1 = true) :
    s.report src kind hint ctx = { s with fc := (s.report src kind hint ctx).fc } := by
  obtain ⟨hheld, hlen⟩ := intakeRoom_iff.mp h
  rw [report, offer_room _ _ hheld (by omega)]
  rfl

theorem report_intakeOnly (s : State) (src kind hint : Nat) (ctx : Word) : s.intakeOnly (s.report src kind hint ctx) := by
  rw [intakeOnly, report_eq]

/-! ### An old floor (R113) -/

/-- The floor is marked old, and its message is sent. -/
def floorAged (s : State) (n : Nat) : State :=
  (s.setBp n { s.bp n with floor := { (s.bp n).floor with stale := true } }).report (srcBp n) 11 0 (Config.msgContext (srcBp n) 11 0)

theorem floorAged_reported {s : State} {n : Nat} (h : s.intakeRoom 1 = true) :
    (s.floorAged n).bp n = { s.bp n with floor := { (s.bp n).floor with stale := true } } ∧ s.otherBps (s.floorAged n) n ∧
      s.sentNow (s.floorAged n) n 11 0 (Config.msgContext n 11 0) ∧ s.intakeOnly (s.floorAged n) ∧
      s.floorAged n = { s with bps := (s.floorAged n).bps, fc := (s.floorAged n).fc } := by
  unfold floorAged
  generalize hu : s.setBp n { s.bp n with floor := { (s.bp n).floor with stale := true } } = u
  obtain ⟨hframe, hothers⟩ : s.bpOnly u n := hu ▸ bpOnly_setBp ..
  have hown : u.bp n = { s.bp n with floor := { (s.bp n).floor with stale := true } } := by rw [← hu, setBp_bp_same]
  have hterms : u.terms = s.terms := by rw [← hu, setBp_terms]
  have hfc : u.fc = s.fc := by rw [hframe]
  have hroom : u.intakeRoom 1 = true := (intakeRoom_of_fc hfc 1).trans h
  have hbp := (Quiet.report u (srcBp n) 11 0 (Config.msgContext (srcBp n) 11 0)).bp
  have hintake := report_intakeOnly u (srcBp n) 11 0 (Config.msgContext (srcBp n) 11 0)
  rw [intakeOnly, hfc] at hintake
  refine ⟨(hbp n).trans hown, fun j hj => (hbp j).trans (hothers j hj), sentNow_report hterms _ _ _ _ hroom, hintake, ?_⟩
  rw [report_of_room _ _ _ _ hroom, hframe]

/-! ### The end of a mask period (R118, R120) -/

theorem passing_iff {s : State} {n : Nat} : s.passing n = true ↔ (s.bp n).prot.st ≠ .off ∧ (s.bp n).prot.st ≠ .barred := by
  rw [← Bool.not_eq_false, idle_iff, not_or]

/-- The monitor at the start of the next period. -/
def endedMask (m : BpMask) : BpMask := { m with
  period := m.period + 1, periodStart := m.periodStart + 10 * msCyc, captured := 0, block := 0, done := false, judged := false }

/-- The next period begins with the monitor as `m`, its capture empty. -/
def periodEnded (s : State) (n : Nat) (m : BpMask) : State :=
  (s.setBp n { s.bp n with mask := m }).setTap n { s.tap n with mOut := [], mTags := [] }

section
variable (s : State) (n : Nat) (m : BpMask)

theorem periodEnded_bp : (s.periodEnded n m).bp n = { s.bp n with mask := m } := by rw [periodEnded, setTap_bp_frame, setBp_bp_same]

theorem periodEnded_inside : Inside (fun b => b.prot) n 0 s (s.periodEnded n m) := by
  refine Inside.trans (j := 0) (k := 0) ?_ (Inside.setTap ..)
  exact Inside.setBp rfl

theorem periodEnded_frame : s.periodEnded n m = { s with bps := (s.periodEnded n m).bps, taps := (s.periodEnded n m).taps } ∧
    (s.periodEnded n m).tap n = { s.tap n with mOut := [], mTags := [] } ∧ ∀ j, j ≠ n → (s.periodEnded n m).tap j = s.tap j :=
  ⟨rfl, setTap_tap_same .., fun _ hj => setTap_tap_ne _ _ hj⟩

end

/-- The monitor after a period whose complete capture has gone without a verdict, before it counts as a fail. -/
def missedMask (m : BpMask) : BpMask := { endedMask m with staleCnt := m.staleCnt.inc 15 }

/-- A period has ended without the verdict it was owed, and its message is sent (R120). -/
def verdictMissed (s : State) (n : Nat) : State :=
  (s.periodEnded n (missedMask (s.bp n).mask)).report (srcBp n) 10 1 (Config.msgContext (srcBp n) 10 0)

theorem verdictMissed_bp (s : State) (n : Nat) : (s.verdictMissed n).bp n = { s.bp n with mask := missedMask (s.bp n).mask } :=
  ((Quiet.report ..).bp n).trans (periodEnded_bp ..)

theorem verdictMissed_inside (s : State) (n : Nat) : Inside (fun b => b.prot) n 1 s (s.verdictMissed n) :=
  (periodEnded_inside ..).trans (Inside.report ..)

theorem verdictMissed_sent {s : State} {n : Nat} (h : s.intakeRoom 1 = true) :
    s.sentNow (s.verdictMissed n) n 10 1 (Config.msgContext n 10 0) := by
  have hin := periodEnded_inside s n (missedMask (s.bp n).mask)
  exact sentNow_report hin.terms _ _ _ _ (hin.room 1 h)

/-! ### Meters (R54, R55) -/

theorem meterBlock_of_block {m : Meter} {x : Nat} {rest : List Nat} (h : m.blocks = x :: rest) :
    (meterBlock m).blocks = rest ∧ (meterBlock m).fineReady = true ∧ (meterBlock m).coarse = m.coarse ∧
      (x = 0 → (meterBlock m).fine = -200 * dB1) := by
  unfold meterBlock
  rw [h]
  exact ⟨rfl, rfl, rfl, fun hx => if_pos hx⟩

theorem meterCleared_empty (m : Meter) : (meterCleared m).window = [] ∧ (meterCleared m).blocks = [] ∧ (meterCleared m).fineN = 0 ∧
    (meterCleared m).fineReady = false := ⟨rfl, rfl, rfl, rfl⟩

end Sys2Proof.Machine.State

namespace Sys2Proof.Machine

open State

section
variable {s : State} {bp : BpId}

/-- The oldest whole block joins the newest 64 where it qualifies (R111, R113). -/
theorem exec_floorBlockDone {v : Nat} {ok : Bool} {rest : List (Nat × Bool)} (h : (s.bp bp.toNat).floor.whole = (v, ok) :: rest) :
    let f := (s.bp bp.toNat).floor
    exec (.floorBlockDone bp) s = .next (s.setBp bp.toNat { s.bp bp.toNat with floor := { f with
      whole := rest
      blocks := if ok then (v :: f.blocks).take 64 else f.blocks
      since := if ok then s.setCyc else f.since
      stale := if ok then false else f.stale } }) := by
  show execFloorBlockDone bp s = _
  simp only [execFloorBlockDone, h]
  cases ok <;> rfl

theorem exec_maskPeriodEnd_of_judged (hup : s.passing bp.toNat = true) (hdue : (s.bp bp.toNat).mask.periodStart + 10 * msCyc ≤ s.setCyc)
    (h : ¬ ((s.bp bp.toNat).mask.done = true ∧ (s.bp bp.toNat).mask.judged = false)) :
    exec (.maskPeriodEnd bp) s = .next (s.periodEnded bp.toNat (endedMask (s.bp bp.toNat).mask)) := by
  have hmissed : ((s.bp bp.toNat).mask.done && !(s.bp bp.toNat).mask.judged) = false := by simpa using h
  refine (if_pos ⟨hup, hdue⟩).trans ?_
  dsimp only
  rw [hmissed]
  rfl

theorem exec_maskPeriodEnd_of_missed (hup : s.passing bp.toNat = true) (hdue : (s.bp bp.toNat).mask.periodStart + 10 * msCyc ≤ s.setCyc)
    (hdone : (s.bp bp.toNat).mask.done = true) (hjudged : (s.bp bp.toNat).mask.judged = false) :
    exec (.maskPeriodEnd bp) s = .next ((s.verdictMissed bp.toNat).maskFail bp.toNat) := by
  refine (if_pos ⟨hup, hdue⟩).trans ?_
  dsimp only
  rw [hdone, hjudged]
  rfl

/-- The end of a reset frees its resampler, and the one released first begins its own (R26, R46). -/
theorem exec_resamplerResetDone {i : BitVec 6} {at' : Nat} (h : s.resampler i.toNat = .resetting at') (hdone : at' ≤ s.cyc) :
    exec (.resamplerResetDone i) s = .next (s.resetEnded i.toNat) := by
  show execResamplerResetDone i s = _
  simp only [execResamplerResetDone, h, if_pos hdone]
  rfl

end

end Sys2Proof.Machine
end

section
/-! O34, assembled: the floor, the mask, the soft start, the meters and the end of a resampler's reset. -/

namespace Sys2Proof.Machine

open State

/-- Settles O34: each event is an update of its band path, followed by what a fail, a ramp's end or the next reset makes of it. -/
theorem gainPathEvents : Obligations.GainPathEvents := by
  unfold Obligations.GainPathEvents
  refine ⟨fun s bp => ?_, fun s bp => ?_⟩
  · intro n b m up ended
    refine ⟨fun v ok rest hwhole => ?_, fun hpresent hbegun hfresh hage hroom => ?_, fun hon hdone hsome hall => ?_,
      fun hup hdue hjudged => ?_, fun hup hdue hdone hjudged hfew hroom => ?_, fun hdue hdone hjudged hthird hroom hup => ?_⟩
    · exact ⟨_, exec_floorBlockDone hwhole, bpOnly_setBp .., setBp_bp_same ..⟩
    · obtain ⟨hown, hothers, hsent, hintake, hframe⟩ := floorAged_reported hroom
      exact ⟨_, if_pos ⟨hpresent, hbegun, congrArg not hfresh, hage⟩, hown, hothers, hsent, hintake, hframe⟩
    · exact ⟨_, if_pos ⟨hon, congrArg not hdone, hsome, hall⟩, bpOnly_setBp .., setBp_bp_same ..⟩
    · obtain ⟨hframe, htap, htaps⟩ := periodEnded_frame s n (endedMask m)
      exact ⟨_, exec_maskPeriodEnd_of_judged (passing_iff.mpr hup) hdue hjudged, periodEnded_bp .., (periodEnded_inside ..).others, hframe, htap, htaps⟩
    · have hown := verdictMissed_bp s n
      have hin := verdictMissed_inside s n
      obtain ⟨hfail, hmask⟩ := maskFail_of_fewer (s := s.verdictMissed n) (n := n) (by rw [hown]; exact hfew)
      refine ⟨_, exec_maskPeriodEnd_of_missed (passing_iff.mpr hup) hdue hdone hjudged, fun j hj => ?_, ?_, ?_⟩
      · rw [hfail.others j hj, hin.others j hj]
      · exact hfail.toSends.sentNow (hin.room 0 hroom) (verdictMissed_sent hroom)
      · rw [hmask, hown]
        rfl
    · have hown := verdictMissed_bp s n
      have hin := verdictMissed_inside s n
      have hon : s.passing n = true := passing_iff.mpr (by
        rw [serving_iff] at hup
        rcases hup with (hst | hst | hst) | hst <;> simp [show (s.bp n).prot.st = _ from hst])
      have hmutes : MaskMutes n (s.verdictMissed n) ((s.verdictMissed n).maskFail n) :=
        maskFail_of_third (by rw [hown]; exact hthird) (by rw [serving_of_prot hin.own, hin.own]; exact hup)
      have hroom2 := hin.room 2 hroom
      refine ⟨_, exec_maskPeriodEnd_of_missed hon hdue hdone hjudged, fun j hj => ?_, ?_, ?_, hmutes.consec, hmutes.mutes⟩
      · rw [hmutes.others j hj, hin.others j hj]
      · exact hmutes.toSends.sentNow hroom2 (verdictMissed_sent (intakeRoom_mono hroom (by decide)))
      · exact sentNow_of_terms hin.terms (hmutes.sent hroom2)
  · intro n b
    refine ⟨fun hst hstarted hmeter => ?_, fun r hst hramp hdue => ?_, fun _ hearly => exec_rampStep_of_early hearly, fun x rest hblocks => ?_,
      fun x rest hblocks => ?_, fun hrun hvalid => ?_, fun i at' hreset hdone => ?_⟩
    · intro g
      obtain ⟨t, hcheck, hin, hbegun, hgain, hstep⟩ := softStart_begins hst
      exact ⟨t, (exec_softStartBegin hst hstarted hmeter).trans (congrArg _ hcheck), hbegun, hgain, hstep, hin.others, hin.frame⟩
    · obtain ⟨hin, hgain⟩ := ramp_rises r hst
      refine ⟨_, exec_rampStep_of_due hst hramp hdue, hin.others, hin.frame, fun hmet => ?_, fun hshort => ?_⟩
      · rw [hgain, if_pos hmet]
        exact ⟨rfl, rfl⟩
      · rw [hgain, if_neg (not_le.mpr hshort)]
    · obtain ⟨hrest, hready, hcoarse, hfine⟩ := meterBlock_of_block hblocks
      refine ⟨_, rfl, bpOnly_setBp .., ?_⟩
      rw [setBp_bp_same]
      exact ⟨hrest, hready, hcoarse, rfl, hfine⟩
    · obtain ⟨hrest, hready, -, -⟩ := meterBlock_of_block hblocks
      refine ⟨_, rfl, bpOnly_setBp .., ?_⟩
      rw [setBp_bp_same]
      exact ⟨hrest, hready, rfl⟩
    · refine ⟨_, if_pos ⟨hrun, congrArg not hvalid⟩, bpOnly_setBp .., ?_⟩
      rw [setBp_bp_same]
      refine ⟨fun x hx => ?_, rfl, rfl, rfl⟩
      obtain rfl | rfl : x = meterCleared b.flow.meterIn ∨ x = meterCleared b.flow.meterOut := by simpa using hx
      · exact meterCleared_empty _
      · exact meterCleared_empty _
    · exact ⟨_, exec_resamplerResetDone hreset hdone, resetEnded_free .., resetEnded_frame .., fun j => resetEnded_of_not_released,
        fun j c a => resetEnded_of_first hreset⟩

end Sys2Proof.Machine
end

section
/-! What a restart leaves of a band path: its protection but the state, the tripped mark and the start of service (R139, R140). -/

namespace Sys2Proof.Machine

/-- Protection without what an end of a mute sets: the state, the tripped mark and the start of the present service. -/
def BpProt.unstarted (p : BpProt) : BpProt := { p with st := .off, tripped := false, serviceFrom := none }

namespace State

/-! ### Changes that stay inside one band path and leave a part of it -/

/-- Only band path `n` changes, and of it not what `p` shows. -/
structure Confined {α : Type} (p : Bp → α) (n : Nat) (s t : State) : Prop extends Within n s t where
  own : p (t.bp n) = p (s.bp n)

section
variable {α β : Type} {p : Bp → α} {n : Nat} {s t u : State}

theorem Confined.refl (p : Bp → α) (n : Nat) (s : State) : Confined p n s s := ⟨Within.refl n s, rfl⟩

theorem Confined.trans (h : Confined p n s t) (g : Confined p n t u) : Confined p n s u :=
  ⟨h.toWithin.trans g.toWithin, g.own.trans h.own⟩

theorem Confined.map (f : α → β) (h : Confined p n s t) : Confined (fun b => f (p b)) n s t := ⟨h.toWithin, congrArg f h.own⟩

theorem Confined.setBp {b : Bp} (h : p b = p (s.bp n)) : Confined p n s (s.setBp n b) :=
  ⟨Within.setBp .., by rw [setBp_bp_same]; exact h⟩

theorem Spares.confined (h : Spares s t) : Confined p n s t := ⟨h.within, by rw [h.bp]⟩

end

section
variable {n : Nat} {s t : State} (h : Confined (·.prot.unstarted) n s t)
include h

theorem Confined.held : (t.bp n).prot.held = (s.bp n).prot.held := (h.map BpProt.held).own
theorem Confined.retryAt : (t.bp n).prot.retryAt = (s.bp n).prot.retryAt := (h.map BpProt.retryAt).own

end

/-! ### Entry to STARTING -/

theorem Spares.readBank (s : State) (n : Nat) (b : Bool) : Spares s (s.readBank n b).2 :=
  List.foldlRecOn (motive := fun acc : List (Cplx × Bool) × State => Spares s acc.2) _ _ (Spares.refl s)
    fun _ h _ _ => h.trans (Spares.memRead ..)

theorem Spares.lagSpread (s : State) (n : Nat) : Spares s (s.lagSpread n).2 := by
  have h : Spares s (if s.canceller n then s.readBank n (s.bp n).bw.bankB else ([], s)).2 := by
    split
    · exact Spares.readBank ..
    · exact Spares.refl s
  unfold State.lagSpread
  generalize (if s.canceller n then s.readBank n (s.bp n).bw.bankB else ([], s)) = r at h
  dsimp only
  split <;> exact h

theorem Confined.cancelSwap (s : State) (n : Nat) : Confined (·.prot) n s (s.cancelSwap n) := by
  unfold State.cancelSwap
  split
  · exact Confined.setBp rfl
  · exact Confined.refl _ n s

theorem Confined.zeroBank {α : Type} {p : Bp → α} (s : State) (n : Nat) (b : Bool) : Confined p n s (s.zeroBank n b) :=
  ⟨(Settles.zeroBank s n b).toWithin, rfl⟩

theorem Confined.gateReset (s : State) (n : Nat) : Confined (·.prot) n s (s.gateReset n) := Confined.setBp rfl
theorem Confined.clearFloor (s : State) (n : Nat) : Confined (fun b => (b.prot, b.gain)) n s (s.clearFloor n) := Confined.setBp rfl
theorem Confined.restartTrip (s : State) (n : Nat) : Confined (fun b => (b.prot, b.gain)) n s (s.restartTrip n) := Confined.setBp rfl
theorem Confined.dropProbe (s : State) (n : Nat) : Confined (fun b => (b.prot, b.gain)) n s (s.dropProbe n) := Confined.setBp rfl

/-- Band path `n` has entered STARTING from MUTED: its gate is closed, its soft start is to come, and the rest of its protection stands. -/
structure Restarts (n : Nat) (s t : State) : Prop extends Confined (·.prot.unstarted) n s t where
  st : (t.bp n).prot.st = .starting
  softStarted : (t.bp n).gain.softStarted = false
  gate : (t.bp n).gain.gate = .closed

theorem Restarts.of_setBp {n : Nat} {s r t : State} {b : Bp} (hprot : Confined (·.prot) n s r) (hrest : Spares (r.setBp n b) t)
    (hview : b.prot.unstarted = (r.bp n).prot.unstarted) (hst : b.prot.st = .starting) (hsoft : b.gain.softStarted = false)
    (hgate : b.gain.gate = .closed) : Restarts n s t := by
  have hown : t.bp n = b := by rw [hrest.bp, setBp_bp_same]
  have hset : Confined (·.prot.unstarted) n r (r.setBp n b) := Confined.setBp hview
  exact ⟨((hprot.map BpProt.unstarted).trans hset).trans hrest.confined, by rw [hown, hst], by rw [hown, hsoft], by rw [hown, hgate]⟩

theorem enterStarting_restarts (s : State) (n : Nat) : Restarts n s (s.enterStarting n false) := by
  unfold enterStarting
  extract_lets s1 s2 s3 b bw s4
  have h2 : Confined (·.prot) n s s2 := ((Confined.cancelSwap s n).trans (Confined.zeroBank ..)).trans (Confined.zeroBank ..)
  have h3 : Confined (·.prot) n s2 s3 := by
    simp only [s3]
    split
    · exact (Spares.memWrites ..).confined
    · exact Confined.refl _ n s2
  have h4 : Confined (·.prot) n s s4 := (h2.trans h3).trans (Confined.setBp rfl)
  clear_value s4
  have h5 := Spares.lagSpread s4 n
  generalize s4.lagSpread n = l at h5 ⊢
  obtain ⟨ls, s5⟩ := l
  dsimp only at h5 ⊢
  have h6 := Confined.gateReset s5 n
  have hclosed := gateReset_gate s5 n
  generalize s5.gateReset n = s6 at h6 hclosed ⊢
  have h7 := ((Confined.clearFloor s6 n).trans (Confined.restartTrip ..)).trans (Confined.dropProbe ..)
  generalize ((s6.clearFloor n).restartTrip n).dropProbe n = s7 at h7 ⊢
  have hprot : Confined (·.prot) n s s7 := ((h4.trans h5.confined).trans h6).trans (h7.map Prod.fst)
  have hgate : (s7.bp n).gain.gate = .closed := (congrArg (·.2.gate) h7.own).trans hclosed
  simp only [Bool.false_eq_true, if_false]
  exact .of_setBp hprot ((Spares.setTap ..).trans (Spares.cxOf ..)) rfl rfl rfl hgate

/-! ### The end of a mute -/

theorem Confined.settleSt (s : State) (n : Nat) : Confined (·.prot.unstarted) n s (s.settleSt n) := by
  have hset : ∀ st, Confined (·.prot.unstarted) n s (s.setSt n st) := fun _ => Confined.setBp rfl
  unfold State.settleSt
  dsimp only
  split
  · exact Confined.refl _ n s
  · split
    · split
      · exact (hset _).trans ((Spares.noteActive _).trans (Spares.cxOf ..)).confined
      · exact Confined.refl _ n s
    · split
      · exact Confined.refl _ n s
      · exact hset _
    · split
      · exact hset _
      · exact Confined.refl _ n s
    · exact Confined.refl _ n s

/-- Whatever way a mute ends, causes, timers, donor and duty of the band path stand (R140). -/
theorem Confined.release (s : State) (n : Nat) : Confined (·.prot.unstarted) n s (s.release n) := by
  unfold State.release
  dsimp only
  split
  · split
    · exact (enterStarting_restarts s n).toConfined
    · refine Confined.trans ?_ ((Confined.settleSt ..).trans (Spares.cxOf ..).confined)
      exact Confined.setBp rfl
  · exact Confined.refl _ n s

section
variable {s : State} {n : Nat}

theorem release_of_blocked (h : (s.bp n).prot.st ≠ .muted ∨ anyHeld (s.bp n).prot.held = true) : s.release n = s := by
  rw [State.release]
  refine if_neg fun hfree => ?_
  simp only [Bool.and_eq_true, decide_eq_true_eq, Bool.not_eq_true'] at hfree
  obtain ⟨⟨⟨hst, hheld⟩, -⟩, -⟩ := hfree
  rcases h with h | h
  · exact h hst
  · exact absurd h (Bool.eq_false_iff.mp hheld)

/-- A tripped cause leaves MUTED for STARTING (R140). -/
theorem release_of_tripped (hst : (s.bp n).prot.st = .muted) (hheld : anyHeld (s.bp n).prot.held = false)
    (hretry : (s.bp n).prot.retryAt = none) (hmay : s.held4Service n = false) (htripped : (s.bp n).prot.tripped = true) :
    s.release n = s.enterStarting n false := by
  simp [State.release, hst, hheld, hretry, hmay, htripped]

end

end State

end Sys2Proof.Machine
end

section
/-! Held causes: what setting or removing one leaves (R127, R128, R131, R140). -/

namespace Sys2Proof.Machine

/-- What no held cause but its own event changes: whether the donor is lost, the ended duty buckets, and the duty. -/
def BpProt.lasting (p : BpProt) : Bool × List Bucket × Db := (p.donorLost, p.buckets, p.duty)

namespace State

theorem Confined.lasting {n : Nat} {s t : State} (h : Confined (·.prot.unstarted) n s t) : Confined (·.prot.lasting) n s t :=
  h.map BpProt.lasting

theorem Confined.leaveService (s : State) (n : Nat) : Confined (·.prot) n s (s.leaveService n) :=
  ⟨(Settles.leaveService s n).toWithin, congrArg Prod.snd (Inside.leaveService n s).own⟩

/-- The state with its held causes replaced, before the mute follows them. -/
def noteHeld (s : State) (n : Nat) (h : Held) : State := s.setBp n { s.bp n with prot := { (s.bp n).prot with held := h } }

theorem noteHeld_bp (s : State) (n : Nat) (h : Held) :
    (s.noteHeld n h).bp n = { s.bp n with prot := { (s.bp n).prot with held := h } } := setBp_bp_same ..

theorem Confined.noteHeld (s : State) (n : Nat) (h : Held) : Confined (·.prot.lasting) n s (s.noteHeld n h) := Confined.setBp rfl

/-- What a change of the held causes of band path `n` to `h` does: nothing where they are so already; in service a mute; else the mute may end. -/
inductive HeldCase (s : State) (n : Nat) (h : Held) : State → Prop
  | same (hsame : h = (s.bp n).prot.held) : HeldCase s n h s
  | mute (p : BpProt) (hst : p.st = .muted) (hheld : p.held = h) (hlast : p.lasting = (s.bp n).prot.lasting) :
      HeldCase s n h ((((s.noteHeld n h).setBp n { (s.noteHeld n h).bp n with prot := p }).leaveService n).cxOf n)
  | release (hout : ¬ (s.serving n = true ∧ anyHeld h = true)) : HeldCase s n h (((s.noteHeld n h).release n).cxOf n)

theorem setHeld_cases (s : State) (n : Nat) (f : Held → Held) : HeldCase s n (f (s.bp n).prot.held) (s.setHeld n f) := by
  have hb := noteHeld_bp s n (f (s.bp n).prot.held)
  unfold setHeld
  dsimp only
  split
  next hsame => exact .same hsame
  · split
    · exact .mute _ rfl (congrArg (·.prot.held) hb) (congrArg (·.prot.lasting) hb)
    next hout => exact .release (by simpa using hout)

/-- The held causes of band path `n` have become `h`; in service a new set of causes mutes it (R128). -/
structure SetsHeld (n : Nat) (h : Held) (s t : State) : Prop extends Confined (·.prot.lasting) n s t where
  held : (t.bp n).prot.held = h
  mutes : s.serving n = true → h ≠ (s.bp n).prot.held → anyHeld h = true → (t.bp n).prot.st = .muted

theorem HeldCase.sets {s t : State} {n : Nat} {h : Held} (hcase : HeldCase s n h t) : SetsHeld n h s t := by
  have hnote := Confined.noteHeld s n h
  have hb := noteHeld_bp s n h
  cases hcase with
  | same hsame => exact ⟨Confined.refl _ n s, hsame.symm, fun _ hne => absurd hsame hne⟩
  | mute p hst hheld hlast =>
    generalize s.noteHeld n h = r at hnote
    have hset : Confined (·.prot.lasting) n s (r.setBp n { r.bp n with prot := p }) :=
      hnote.trans (Confined.setBp (hlast.trans hnote.own.symm))
    have hleave : Confined (·.prot) n (r.setBp n { r.bp n with prot := p }) _ :=
      (Confined.leaveService ..).trans (Spares.cxOf _ n).confined
    have hprot := hleave.own
    rw [setBp_bp_same] at hprot
    exact ⟨hset.trans (hleave.map BpProt.lasting), by rw [hprot, hheld], fun _ _ _ => by rw [hprot, hst]⟩
  | release hout =>
    have hfree := (Confined.release (s.noteHeld n h) n).trans (Spares.cxOf _ n).confined
    exact ⟨hnote.trans hfree.lasting, hfree.held.trans (by rw [hb]), fun hserv _ hany => absurd ⟨hserv, hany⟩ hout⟩

theorem setHeld_sets (s : State) (n : Nat) (f : Held → Held) : SetsHeld n (f (s.bp n).prot.held) s (s.setHeld n f) :=
  (setHeld_cases s n f).sets

/-! ### The donor (R131) -/

/-- Protection of band path `n` with its donor lost, before DONOR is held. -/
def lostProt (s : State) (n : Nat) : BpProt := { (s.bp n).prot with donorLost := true, donorOk := none }

/-- DONOR is held of a band path whose donor is lost, and mutes it in service. -/
theorem donorLost_sets (s : State) (n : Nat) :
    ((s.donorLost n).bp n).prot.donorLost = true ∧ ((s.donorLost n).bp n).prot.held.donor = true ∧
      (s.serving n = true → (s.bp n).prot.held.donor = false → ((s.donorLost n).bp n).prot.st = .muted) ∧ s.otherBps (s.donorLost n) n := by
  have hset : SetsHeld n _ _ (s.donorLost n) :=
    setHeld_sets (s.setBp n { s.bp n with prot := s.lostProt n }) n fun h => { h with donor := true }
  have hin : Within n s (s.donorLost n) := (Within.setBp ..).trans hset.toWithin
  have hown := setBp_bp_same s n { s.bp n with prot := s.lostProt n }
  refine ⟨?_, ?_, fun hserv hdonor => hset.mutes ?_ (fun hsame => ?_) ?_, hin.others⟩
  · have hlost := congrArg Prod.fst hset.own
    rwa [hown] at hlost
  · rw [hset.held]
  · rwa [serving_of_st (t := s.setBp n _) (s := s) (by rw [hown]; rfl)]
  · have hwas := congrArg Held.donor hsame
    rw [hown] at hwas
    exact absurd (hwas.trans hdonor) (by simp)
  · simp [anyHeld]

/-! ### What a held cause and a journal entry leave alone -/

/-- The balls, and the state of recording and replay. -/
def apart (s : State) : Pins × RplSt := (s.pins, s.rpl.st)

@[simp] theorem setBp_apart (s : State) (n : Nat) (b : Bp) : (s.setBp n b).apart = s.apart := rfl

@[simp] theorem cxOf_apart (s : State) (n : Nat) : (s.cxOf n).apart = s.apart := by rw [(Reaches.cxOf n s n).frame]; rfl

@[simp] theorem dropCapture_apart (s : State) (n : Nat) : (s.dropCapture n).apart = s.apart := by
  unfold dropCapture
  dsimp only
  split <;> rfl

@[simp] theorem leaveService_apart (s : State) (n : Nat) : (s.leaveService n).apart = s.apart := by
  rw [leaveService, dropCapture_apart, dropProbe, setBp_apart, gateReset, setBp_apart]

/-- A cause that is set ends no mute. -/
theorem setHeld_apart {s : State} {n : Nat} {f : Held → Held} (h : anyHeld (f (s.bp n).prot.held) = true) :
    (s.setHeld n f).apart = s.apart := by
  have hcase := setHeld_cases s n f
  generalize f (s.bp n).prot.held = k at h hcase
  generalize s.setHeld n f = t at hcase ⊢
  cases hcase with
  | same => rfl
  | mute p => rw [cxOf_apart, leaveService_apart]; rfl
  | release =>
    have hblocked : anyHeld ((s.noteHeld n k).bp n).prot.held = true := by rw [noteHeld_bp]; exact h
    rw [cxOf_apart, release_of_blocked (.inr hblocked)]
    rfl

theorem jPlace_apart (s : State) (ty : Nat) (cyc : Word) (k i : Nat) : (s.jPlace ty cyc k i).1.apart = s.apart := by
  induction k generalizing s i with
  | zero => rfl
  | succ k ih =>
    rw [jPlace]
    refine iteInduction (motive := fun r : State × Nat => r.1.apart = s.apart) (fun _ => ?_) fun _ => rfl
    exact (ih ..).trans (List.foldlRecOn (motive := fun t : State => t.apart = s.apart) _ _ rfl fun _ h _ _ => h)

@[simp] theorem journal_apart (s : State) (ty detail : Nat) (cyc w2 w3 : Word) : (s.journal ty detail cyc w2 w3).apart = s.apart := by
  unfold journal
  split
  · extract_lets i r s1 s2
    have hplace : r.1.apart = s.apart := jPlace_apart ..
    clear_value r
    have hentry : s1 = { r.1 with mem := s1.mem, writeBacks := s1.writeBacks } := memWrites_eq r.1 .hold _ _
    have h1 : s1.apart = s.apart := by rw [hentry]; exact hplace
    clear_value s1
    exact h1
  · rfl

section
variable {s t : State} (h : t.apart = s.apart)
include h

theorem muteN_of_apart : t.pins.muteN = s.pins.muteN := congrArg (·.1.muteN) h
theorem replayMode_of_apart : t.replayMode = s.replayMode := by rw [replayMode, show t.rpl.st = s.rpl.st from congrArg (·.2) h]; rfl

end

end State

end Sys2Proof.Machine
end

section
/-! The retry timer, the donor and the duty bucket of a band path (R131, R132, R139, R140). -/

namespace Sys2Proof.Machine.State

section
variable {s : State} {bp : BpId} {at' : Nat}

/-! ### The retry timer and its exponent (R139) -/

/-- The state with the retry timer of band path `n` stopped, before the mute may end. -/
def retryStopped (s : State) (n : Nat) : State := s.setBp n { s.bp n with prot := { (s.bp n).prot with retryAt := none } }

theorem retryStopped_bp (s : State) (n : Nat) :
    (s.retryStopped n).bp n = { s.bp n with prot := { (s.bp n).prot with retryAt := none } } := setBp_bp_same ..

theorem exec_retryTimerExpiry_of_due (h : (s.bp bp.toNat).prot.retryAt = some at') (hdue : at' ≤ s.setCyc) :
    exec (.retryTimerExpiry bp) s = .next (((s.retryStopped bp.toNat).release bp.toNat).cxOf bp.toNat) := by
  have hexec : exec (.retryTimerExpiry bp) s = execRetryTimerExpiry bp s := rfl
  simp only [hexec, execRetryTimerExpiry, h, if_pos hdue]
  rfl

/-- The timer has stopped, and of the band paths only its own has changed. -/
theorem retryStopped_released (s : State) (n : Nat) :
    ((((s.retryStopped n).release n).cxOf n).bp n).prot.retryAt = none ∧ s.otherBps (((s.retryStopped n).release n).cxOf n) n := by
  have hfree : Confined (·.prot.unstarted) n (s.retryStopped n) (((s.retryStopped n).release n).cxOf n) :=
    (Confined.release ..).trans (Spares.cxOf ..).confined
  have hstop : Within n s (s.retryStopped n) := Within.setBp ..
  exact ⟨hfree.retryAt.trans (by rw [retryStopped_bp]), (hstop.trans hfree.toWithin).others⟩

theorem retryStopped_of_blocked {n : Nat} (h : (s.bp n).prot.st ≠ .muted ∨ anyHeld (s.bp n).prot.held = true) :
    (((s.retryStopped n).release n).cxOf n).bp n = { s.bp n with prot := { (s.bp n).prot with retryAt := none } } := by
  have hbp := retryStopped_bp s n
  rw [(Quiet.cxOf ..).bp, release_of_blocked (by rwa [hbp]), hbp]

theorem retryStopped_of_tripped {n : Nat} (hst : (s.bp n).prot.st = .muted) (hheld : anyHeld (s.bp n).prot.held = false)
    (hmay : s.held4Service n = false) (htripped : (s.bp n).prot.tripped = true) :
    Restarts n (s.retryStopped n) (((s.retryStopped n).release n).cxOf n) := by
  have hbp := retryStopped_bp s n
  have hmay' : (s.retryStopped n).held4Service n = false := hmay
  have hstart := enterStarting_restarts (s.retryStopped n) n
  have hcx := Spares.cxOf ((s.retryStopped n).enterStarting n false) n
  rw [release_of_tripped (by rwa [hbp]) (by rwa [hbp]) (by rw [hbp]) hmay' (by rwa [hbp])]
  exact ⟨hstart.trans hcx.confined, by rw [hcx.bp, hstart.st], by rw [hcx.bp, hstart.softStarted], by rw [hcx.bp, hstart.gate]⟩

theorem exec_retryExpReset_of_due (h : (s.bp bp.toNat).prot.serviceFrom = some at') (hdue : at' + 3600 * secCyc ≤ s.setCyc)
    (hserv : s.serving bp.toNat = true) :
    exec (.retryExpReset bp) s = .next (s.setBp bp.toNat { s.bp bp.toNat with prot := { (s.bp bp.toNat).prot with retryExp := 0 } }) := by
  have hexec : exec (.retryExpReset bp) s = execRetryExpReset bp s := rfl
  simp only [hexec, execRetryExpReset, h, if_pos (And.intro hdue hserv)]

/-! ### The donor (R131) -/

theorem Spares.crossEntry (s : State) (n event : Nat) : Spares s (s.crossEntry n event) := by
  unfold State.crossEntry
  split
  · exact Spares.journal ..
  · exact Spares.refl s

theorem exec_donorLoss_of_due (h : (s.bp bp.toNat).prot.donorLow = some at') (hplan : s.planHas bp.toNat plDonorBp = true)
    (hlost : (s.bp bp.toNat).prot.donorLost = false) (hdue : at' + s.planN bp.toNat plLossT * msCyc ≤ s.setCyc) :
    exec (.donorLoss bp) s = .next ((s.crossEntry bp.toNat 1).donorLost bp.toNat) := by
  have hexec : exec (.donorLoss bp) s = execDonorLoss bp s := rfl
  simp only [hexec, execDonorLoss, h]
  exact if_pos ⟨hplan, by rw [hlost]; rfl, hdue⟩

/-- The state with the donor of band path `n` found again, before DONOR is removed. -/
def donorFound (s : State) (n : Nat) : State :=
  (s.crossEntry n 2).setBp n { s.bp n with prot := { (s.bp n).prot with donorLost := false, donorLow := none } }

theorem exec_donorRestore_of_due (h : (s.bp bp.toNat).prot.donorOk = some at') (hplan : s.planHas bp.toNat plDonorBp = true)
    (hlost : (s.bp bp.toNat).prot.donorLost = true) (hdue : at' + 100 * msCyc ≤ s.setCyc)
    (hlane : s.donorLane (s.planN bp.toNat plDonorBp) = true) (hpass : s.passing (s.planN bp.toNat plDonorBp) = true) :
    exec (.donorRestore bp) s = .next ((s.donorFound bp.toNat).setHeld bp.toNat fun h => { h with donor := false }) := by
  have hexec : exec (.donorRestore bp) s = execDonorRestore bp s := rfl
  simp only [hexec, execDonorRestore, donorFound, h]
  exact if_pos ⟨hplan, hlost, hdue, hlane, hpass⟩

theorem donorFound_sets (s : State) (n : Nat) :
    let t := (s.donorFound n).setHeld n fun h => { h with donor := false }
    (t.bp n).prot.donorLost = false ∧ (t.bp n).prot.held.donor = false ∧ s.otherBps t n := by
  intro t
  have hset : SetsHeld n _ (s.donorFound n) t := setHeld_sets ..
  have hin : Within n s t := ((Spares.crossEntry s n 2).within.trans (Within.setBp ..)).trans hset.toWithin
  have hlost := congrArg Prod.fst hset.own
  rw [donorFound, setBp_bp_same] at hlost
  exact ⟨hlost, by rw [hset.held], hin.others⟩

/-! ### Duty buckets (R132) -/

theorem dutyEnd_of_early {n : Nat} (h : s.setCyc < s.bucketDue n ((s.bp n).prot.bucketN + 1)) : s.dutyEnd n = s := by
  simp only [dutyEnd, h, decide_true, Bool.or_true, if_true]

/-- The state with the bucket of band path `n` among the ended ones `bs` and its duty reckoned from them, before DUTY follows it. -/
def dutyTaken (s : State) (n : Nat) (bs : List Bucket) : State :=
  s.setBp n { s.bp n with prot := { (s.bp n).prot with
    buckets := bs, bucket := Bucket.zero, bucketN := (s.bp n).prot.bucketN + 1
    duty := roundEven (100 * dB1 * ((bs.foldl (fun k x => k + x.emit) 0 : Nat) : Int)) (bs.foldl (fun k x => k + x.total) 0) } }

/-- With all 64 buckets of samples and a limit of 100 percent the duty is their share, and DUTY is not held. -/
theorem dutyEnd_of_full {n : Nat} {bs : List Bucket} (hbs : bs = ((s.bp n).prot.bucket :: (s.bp n).prot.buckets).take 64)
    (hpass : s.passing n = true) (hdue : s.bucketDue n ((s.bp n).prot.bucketN + 1) ≤ s.setCyc) (hfull : bs.length = 64)
    (htotal : 0 < bs.foldl (fun k x => k + x.total) 0) (hlim : s.limDuty n = 100 * dB1) :
    s.dutyEnd n = (s.dutyTaken n bs).setHeld n fun h => { h with duty := false } := by
  have hon : ¬ (!s.passing n || decide (s.setCyc < s.bucketDue n ((s.bp n).prot.bucketN + 1))) = true := by
    simp [hpass, hdue]
  have hlim' : (s.dutyTaken n bs).limDuty n = 100 * dB1 := hlim
  unfold dutyEnd
  rw [if_neg hon]
  simp only [← hbs, hfull, Nat.sub_self, Nat.zero_mul, Nat.zero_div, if_neg htotal.ne']
  exact (if_neg fun h => absurd hlim' h.1.ne).trans (if_pos (.inl hlim'.ge))

theorem dutyTaken_sets (s : State) (n : Nat) (bs : List Bucket) :
    let t := (s.dutyTaken n bs).setHeld n fun h => { h with duty := false }
    (t.bp n).prot.buckets = bs ∧ (t.bp n).prot.held.duty = false ∧
      (t.bp n).prot.duty = roundEven (100 * dB1 * ((bs.foldl (fun k x => k + x.emit) 0 : Nat) : Int)) (bs.foldl (fun k x => k + x.total) 0) := by
  intro t
  have hset : SetsHeld n _ (s.dutyTaken n bs) t := setHeld_sets ..
  have hown := hset.own
  rw [dutyTaken, setBp_bp_same] at hown
  exact ⟨congrArg (·.2.1) hown, by rw [hset.held], congrArg (·.2.2) hown⟩

end

end Sys2Proof.Machine.State
end

section
/-! MUTE_N: the edge is counted and journalled, its cause follows on the bound band paths, and its rise has the cause removed later (R137, R400). -/

namespace Sys2Proof.Machine.State

/-- The band paths bound to MUTE_N. -/
def muteNBound (s : State) : List Nat := s.planned.filter fun m => s.planN m plMuteNBind == 1

theorem mem_muteNBound {s : State} {m : Nat} : m ∈ s.muteNBound ↔ m ∈ s.planned ∧ s.planN m plMuteNBind = 1 := by simp [muteNBound]

/-! ### The edge itself -/

/-- The state with the ball at a level, a fall of it counted. -/
def muteNCounted (s : State) (high : Bool) : State :=
  let r : State := { s with pins := { s.pins with muteN := high } }
  if high then r else r.inc F.protStatMnCnt F.protStatMnOvf

/-- The state with the edge journalled too. -/
def muteNEdge (s : State) (high : Bool) : State :=
  (s.muteNCounted high).journal 3 (5 + bit high * 16) (s.muteNCounted high).cycW 0 0

/-- What an edge of MUTE_N leaves before its cause follows: band paths and plan stand, and recording or replay goes on as it was. -/
structure MovesMuteN (high : Bool) (s t : State) : Prop where
  spares : Spares s t
  terms : t.terms = s.terms
  apart : t.apart = ({ s with pins := { s.pins with muteN := high } } : State).apart

theorem muteNCounted_moves (s : State) (high : Bool) : MovesMuteN high s (s.muteNCounted high) := by
  have hmoved : Spares s { s with pins := { s.pins with muteN := high } } := ⟨rfl, rfl, rfl, fun _ _ => rfl⟩
  have hcount := Spares.inc { s with pins := { s.pins with muteN := high } } (c := F.protStatMnCnt) (o := F.protStatMnOvf)
    (fun h => absurd h.1 (by decide)) fun h => absurd h.1 (by decide)
  unfold muteNCounted
  dsimp only
  split
  · exact ⟨hmoved, rfl, rfl⟩
  · exact ⟨hmoved.trans hcount, inc_terms .., by rw [inc_eq]; rfl⟩

theorem muteNEdge_moves (s : State) (high : Bool) : MovesMuteN high s (s.muteNEdge high) :=
  have h := muteNCounted_moves s high
  ⟨h.spares.trans (Spares.journal ..), (journal_fc_terms ..).2.trans h.terms, (journal_apart ..).trans h.apart⟩

/-! ### The cause on the bound band paths -/

/-- MUTE_N becomes a held cause of a band path, unless a replay keeps it. -/
def holdMuteN (s : State) (n : Nat) : State :=
  if s.replayMode && s.selected.contains n then s else s.setHeld n fun h => { h with muteN := true }

theorem holdMuteN_sets {s : State} (n : Nat) (h : s.replayMode = false) :
    (s.holdMuteN n).apart = s.apart ∧ ((s.holdMuteN n).bp n).prot.held.muteN = true ∧ s.otherBps (s.holdMuteN n) n := by
  have hlive : s.holdMuteN n = s.setHeld n fun h => { h with muteN := true } := if_neg (by simp [h])
  have hset := setHeld_sets s n fun h => { h with muteN := true }
  rw [hlive]
  exact ⟨setHeld_apart (by simp [anyHeld]), by rw [hset.held], hset.others⟩

theorem foldl_holdMuteN (l : List Nat) {s : State} (h : s.replayMode = false) :
    let t := l.foldl holdMuteN s
    t.apart = s.apart ∧ (∀ m ∈ l, (t.bp m).prot.held.muteN = true) ∧ ∀ m, m ∉ l → t.bp m = s.bp m := by
  induction l generalizing s with
  | nil => exact ⟨rfl, fun _ hm => absurd hm List.not_mem_nil, fun _ _ => rfl⟩
  | cons n l ih =>
    obtain ⟨hapart, hheld, hothers⟩ := holdMuteN_sets n h
    obtain ⟨htapart, htheld, htothers⟩ := ih ((replayMode_of_apart hapart).trans h)
    refine ⟨htapart.trans hapart, fun m hm => ?_, fun m hm => ?_⟩
    · by_cases hml : m ∈ l
      · exact htheld m hml
      · obtain rfl := (List.mem_cons.mp hm).resolve_right hml
        rw [List.foldl_cons, htothers m hml]
        exact hheld
    · obtain ⟨hmn, hml⟩ := not_or.mp (mt List.mem_cons.mpr hm)
      exact (htothers m hml).trans (hothers m hmn)

/-! ### The events -/

theorem exec_muteNFall_of_high {s : State} (h : s.pins.muteN = true) :
    exec .muteNFall s = .next ((s.muteNEdge false).muteNBound.foldl holdMuteN ((s.muteNEdge false).offNever none false)) :=
  congrArg Host.Outcome.next (if_neg (by simp [h]))

theorem exec_muteNRise_of_low {s : State} (h : s.pins.muteN = false) :
    exec .muteNRise s = .next ((s.muteNEdge true).offSoon none false) :=
  congrArg Host.Outcome.next (if_neg (by simp [h]))

/-- The cause follows the fall on every bound band path, and on no other. -/
theorem muteNFall_holds {s : State} (h : s.replayMode = false) :
    let t := (s.muteNEdge false).muteNBound.foldl holdMuteN ((s.muteNEdge false).offNever none false)
    t.pins.muteN = false ∧ (∀ m ∈ s.planned, s.planN m plMuteNBind = 1 → (t.bp m).prot.held.muteN = true) ∧
      ∀ m, (m ∉ s.planned ∨ s.planN m plMuteNBind ≠ 1) → t.bp m = s.bp m := by
  obtain ⟨hspares, hterms, hapart⟩ := muteNEdge_moves s false
  have hbound : ∀ m, m ∈ (s.muteNEdge false).muteNBound ↔ m ∈ s.planned ∧ s.planN m plMuteNBind = 1 := fun m => by
    rw [mem_muteNBound, planned_of_terms hterms, planN_of_terms hterms]
  have hlive : ((s.muteNEdge false).offNever none false).replayMode = false := (replayMode_of_apart hapart).trans h
  obtain ⟨htapart, hheld, hothers⟩ := foldl_holdMuteN (s.muteNEdge false).muteNBound hlive
  refine ⟨?_, fun m hm hbind => hheld m ((hbound m).mpr ⟨hm, hbind⟩), fun m hm => ?_⟩
  · exact (muteN_of_apart htapart).trans (muteN_of_apart hapart)
  · have hout : m ∉ (s.muteNEdge false).muteNBound := fun hin => by
      obtain ⟨hplanned, hbind⟩ := (hbound m).mp hin
      exact hm.elim (absurd hplanned) (absurd hbind)
    exact (hothers m hout).trans (hspares.bp m)

/-- The rise changes no band path: the cause is removed 2 CLK_S cycles later. -/
theorem muteNRise_removes (s : State) :
    let t := (s.muteNEdge true).offSoon none false
    t.pins.muteN = true ∧ t.bps = s.bps ∧ ⟨none, s.cyc + 16, false⟩ ∈ t.heldOff := by
  obtain ⟨hspares, hterms, hapart⟩ := muteNEdge_moves s true
  refine ⟨muteN_of_apart hapart, hspares.bps, ?_⟩
  rw [← cyc_of_terms hterms]
  exact List.mem_append_right _ (List.mem_singleton.mpr rfl)

end Sys2Proof.Machine.State

namespace Sys2Proof.Machine

open State

/-- Settles O37: each event, where it is due, is an update of its band path, followed by what a held cause or the end of a mute makes of it; an edge of MUTE_N sets the cause of each bound band path in turn. -/
theorem protectionEvents : Obligations.ProtectionEvents := by
  unfold Obligations.ProtectionEvents
  intro s bp
  dsimp only
  refine ⟨fun at' hretry hdue => ?_, fun at' hfrom hdue hserv => ?_, fun at' hlow hplan hlost hdue => ?_,
    fun at' hok hplan hlost hdue hlane hpass => ?_, fun hearly => ?_, ?_, fun hhigh hlive => ?_, fun hlow _ => ?_⟩
  · obtain ⟨hstopped, hothers⟩ := retryStopped_released s bp.toNat
    refine ⟨_, exec_retryTimerExpiry_of_due hretry hdue, hstopped, hothers, fun hblocked => ?_, fun hst hheld htripped hmay => ?_⟩
    · exact retryStopped_of_blocked hblocked
    · have hstart := retryStopped_of_tripped hst hheld hmay htripped
      exact ⟨hstart.st, hstart.softStarted, hstart.gate⟩
  · exact ⟨_, exec_retryExpReset_of_due hfrom hdue hserv, bpOnly_setBp .., setBp_bp_same ..⟩
  · have hcross := Spares.crossEntry s bp.toNat 1
    obtain ⟨hgone, hdonor, hmutes, hothers⟩ := donorLost_sets (s.crossEntry bp.toNat 1) bp.toNat
    rw [hcross.bp, serving_of_st (congrArg (·.prot.st) (hcross.bp _))] at hmutes
    exact ⟨_, exec_donorLoss_of_due hlow hplan hlost hdue, hgone, hdonor, hmutes, fun m hm => (hothers m hm).trans (hcross.bp m)⟩
  · exact ⟨_, exec_donorRestore_of_due hok hplan hlost hdue hlane hpass, donorFound_sets s _⟩
  · exact congrArg Host.Outcome.next (dutyEnd_of_early hearly)
  · intro hpass hdue hfull htotal hlim
    exact ⟨_, congrArg Host.Outcome.next (dutyEnd_of_full rfl hpass hdue hfull htotal hlim), dutyTaken_sets s _ _⟩
  · exact ⟨_, exec_muteNFall_of_high hhigh, muteNFall_holds hlive⟩
  · exact ⟨_, exec_muteNRise_of_low hlow, muteNRise_removes s⟩

end Sys2Proof.Machine
end

section
/-! A command of CH_FE_CMD while recording runs: the journal takes its entry at a hold word whose correction is still to be written back, and the write-back is dropped (R151, R255, R258, R400). -/

namespace Sys2Proof.Machine

/-- The device runs and records. Chain 0 is in POWERED_DOWN, as at reset, and the correction of the hold word that the next journal entry takes first waits to be written back. -/
def recordingWithWriteBack : State :=
  { State.reset with
    boot := { Boot.init with st := .running, locked := true }
    mgmt := { Mgmt.init with core := .running }
    rpl := { Replay.init with st := .recording }
    writeBacks := [⟨MemSel.hold.num, State.jAddr 0, 0, 0⟩] }

theorem recordingWithWriteBack_takes :
    recordingWithWriteBack.takes .mgmt (F.chFeCmdCmd 0).addr [(F.chFeCmdCmd 0, 1), (F.chFeCmdArg 0, 0)] = true ∧
      recordingWithWriteBack.latched = false ∧ (recordingWithWriteBack.chain 0).st = .poweredDown := by
  decide +kernel

/-- The entry of POWER_UP is a write of its hold words, and drops what waited for the first of them. -/
theorem recordingWithWriteBack_drops {t : State} (h : exec (.powerUp .mgmt 0) recordingWithWriteBack = .next t) : t.writeBacks = [] := by
  have hrun : (match exec (.powerUp .mgmt 0) recordingWithWriteBack with | .next t => t.writeBacks.isEmpty | _ => false) = true := by
    decide +kernel
  rw [h] at hrun
  exact List.isEmpty_iff.mp hrun

/-- Refutes O38: beside the chain a command leaves more than the parts of a register write's frame. While recording runs its LIVE_WRITE entry is written to hold memory (R400), and a device write drops a waiting write-back of the word it writes (R255): POWER_UP from POWERED_DOWN then changes the queue of write-backs. -/
theorem not_frontEndCommands : ¬ Obligations.FrontEndCommands := by
  intro h
  obtain ⟨htakes, hfree, hdown⟩ := recordingWithWriteBack_takes
  obtain ⟨-, hcommands⟩ := h recordingWithWriteBack .mgmt 0
  obtain ⟨hpowerUp, -⟩ := hcommands hfree
  obtain ⟨t, hexec, -, -, hframe⟩ := hpowerUp htakes hdown
  have hkept : t.writeBacks = recordingWithWriteBack.writeBacks := by rw [hframe]; rfl
  rw [recordingWithWriteBack_drops hexec] at hkept
  exact absurd hkept (by decide)

end Sys2Proof.Machine
end

section
/-! What an operation on one front-end chain leaves: the chain it sets, the sequence runs it starts, and the failure of a sequence (R146, R151, R168, R169). -/

namespace Sys2Proof.Machine.State

/-! ### Changes of one chain -/

/-- Of `s` nothing but chain `c` has changed, which is `x` now. -/
structure Moves (c : Nat) (x : Chain) (s t : State) : Prop where
  only : s.chainOnly t c
  own : t.chain c = x

section
variable {c : Nat} {x y : Chain} {s t u : State}

theorem Moves.setChain (s : State) (c : Nat) (x : Chain) : Moves c x s (s.setChain c x) :=
  ⟨⟨rfl, fun _ hd => setChain_chain_ne s x hd⟩, setChain_chain_same s c x⟩

theorem Moves.refl (s : State) (c : Nat) : Moves c (s.chain c) s s := ⟨⟨rfl, fun _ _ => rfl⟩, rfl⟩

theorem Moves.trans (h : Moves c y s t) (g : Moves c x t u) : Moves c x s u :=
  ⟨⟨g.only.1.trans (by rw [h.only.1]), fun d hd => (g.only.2 d hd).trans (h.only.2 d hd)⟩, g.own⟩

/-- A chain is set once more. -/
theorem Moves.thenSet (h : Moves c x s t) (f : Chain → Chain) : Moves c (f x) s (t.setChain c (f (t.chain c))) := by
  rw [h.own]
  exact h.trans (Moves.setChain ..)

theorem Moves.others (h : Moves c x s t) : ∀ d, d ≠ c → t.chain d = s.chain d := h.only.2

theorem Moves.terms (h : Moves c x s t) : t.terms = s.terms := by rw [h.only.1]; rfl

theorem Moves.fc (h : Moves c x s t) : t.fc = s.fc := by rw [h.only.1]

theorem Moves.latched (h : Moves c x s t) : t.latched = s.latched := by rw [State.latched, h.fc]; rfl

/-- A command that moves a chain, as the statements put it. -/
theorem Moves.done {i : Instr} (h : Moves c x s t) (hexec : exec i s = .next t) :
    ∃ t, exec i s = .next t ∧ s.chainOnly t c ∧ t.chain c = x := ⟨t, hexec, h.only, h.own⟩

end

/-! ### The runs of a sequence -/

section
variable {s t : State} {c : Nat} {x : Chain}

theorem chainCfg_congr (himg : t.img = s.img) (c : Nat) : t.chainCfg c = s.chainCfg c := by
  rw [chainCfg, himg]
  rfl

theorem leadOf_congr (himg : t.img = s.img) (c : Nat) : t.leadOf c = s.leadOf c := by rw [leadOf, chainCfg_congr himg]; rfl

theorem seqStart_congr (himg : t.img = s.img) (c slot : Nat) : t.seqStart c slot = s.seqStart c slot := by
  rw [seqStart, chainCfg_congr himg]
  rfl

theorem pointSeq_congr (himg : t.img = s.img) (c slot f : Nat) : t.pointSeq c slot f = s.pointSeq c slot f := by
  rw [pointSeq, seqDur, chainCfg_congr himg]
  rfl

theorem csRise_congr (hxfer : (t.chain c).xfer = (s.chain c).xfer) : t.csRise c = s.csRise c := by
  rw [csRise, hxfer]
  rfl

/-- What a run is reckoned from: the image, the cycle and the last transfer on the port. -/
theorem newRun_congr (himg : t.img = s.img) (hcyc : t.cyc = s.cyc) (hxfer : (t.chain c).xfer = (s.chain c).xfer) (slot lead : Nat)
    (point : Option Nat) : t.newRun c slot lead point = s.newRun c slot lead point := by
  have hbegin : t.seqBegin c slot lead point = s.seqBegin c slot lead point := by
    simp only [seqBegin, seqStart_congr himg, hxfer, csRise_congr hxfer, hcyc, pointSeq_congr himg]
  rw [newRun, hbegin, seqStart_congr himg]
  rfl

/-- The chain with a slot's sequence asked for now, which the C4 latch keeps from starting (R168, R372). -/
def runsFor (s : State) (c : Nat) (k : Chain) (slot lead : Nat) (point : Option Nat) : Chain :=
  { k with seq := if s.latched then none else some (s.newRun c slot lead point), settleAt := none }

/-- The chain on its way toward a target (R151, R156). -/
def switchingTo (s : State) (c : Nat) (k : Chain) (to' : ChSt) (point : Option Nat) : Chain :=
  s.runsFor c { k with st := .switching, target := to', calBusy := false } (toSlot to') (if to' = .receive then s.leadOf c else 0) point

section
variable (himg : t.img = s.img) (hcyc : t.cyc = s.cyc) (hlatched : t.latched = s.latched) (hxfer : (t.chain c).xfer = (s.chain c).xfer)
include himg hcyc hlatched hxfer

theorem runsFor_congr (k : Chain) (slot lead : Nat) (point : Option Nat) : t.runsFor c k slot lead point = s.runsFor c k slot lead point := by
  rw [runsFor, runsFor, hlatched, newRun_congr himg hcyc hxfer]

theorem switchingTo_congr (k : Chain) (to' : ChSt) (point : Option Nat) : t.switchingTo c k to' point = s.switchingTo c k to' point := by
  rw [switchingTo, leadOf_congr himg, runsFor_congr himg hcyc hlatched hxfer]
  rfl

end

theorem Moves.img (h : Moves c x s t) : t.img = s.img := by rw [h.only.1]

theorem Moves.cyc (h : Moves c x s t) : t.cyc = s.cyc := by rw [h.only.1]

theorem Moves.startSeqFor (s : State) (c slot lead : Nat) (point : Option Nat) :
    Moves c (s.runsFor c (s.chain c) slot lead point) s (s.startSeqFor c slot lead point) := Moves.setChain ..

/-- A chain is set, and a sequence of it started. -/
theorem Moves.thenStart (h : Moves c x s t) (hxfer : x.xfer = (s.chain c).xfer) (slot lead : Nat) (point : Option Nat) :
    Moves c (s.runsFor c x slot lead point) s (t.startSeqFor c slot lead point) := by
  have hstart := h.trans (Moves.startSeqFor t c slot lead point)
  rwa [runsFor_congr h.img h.cyc h.latched (by rw [h.own, hxfer]), h.own] at hstart

theorem Moves.enterSwitch (s : State) (c : Nat) (to' : ChSt) (point : Option Nat) :
    Moves c (s.switchingTo c (s.chain c) to' point) s (s.enterSwitch c to' point) :=
  Moves.thenStart (x := { s.chain c with st := .switching, target := to', calBusy := false }) (Moves.setChain ..) rfl ..

/-- A chain is set, and a switch of it begun. -/
theorem Moves.thenSwitch (h : Moves c x s t) (hxfer : x.xfer = (s.chain c).xfer) (to' : ChSt) (point : Option Nat) :
    Moves c (s.switchingTo c x to' point) s (t.enterSwitch c to' point) := by
  have hswitch := h.trans (Moves.enterSwitch t c to' point)
  rwa [switchingTo_congr h.img h.cyc h.latched (by rw [h.own, hxfer]), h.own] at hswitch

/-- While no C4 latch holds the sequence runs. -/
theorem Moves.runs {k : Chain} {slot lead : Nat} {point : Option Nat} (h : Moves c (s.runsFor c k slot lead point) s t)
    (hlive : s.latched = false) : Moves c { k with seq := some (s.newRun c slot lead point), settleAt := none } s t := by
  rwa [runsFor, hlive] at h

theorem Moves.setResult (s : State) (c n : Nat) : Moves c { s.chain c with result := BitVec.ofNat 4 n } s (s.setResult c n) := Moves.setChain ..

end

/-! ### Counts -/

/-- A SAT count with its overflow bit beside it (R435, R443). -/
structure Counter (cnt ovf : Fld) : Prop where
  addr : ovf.addr = cnt.addr
  span : cnt.lo ≤ cnt.hi ∧ cnt.hi < 40 ∧ ovf.lo ≤ ovf.hi
  apart : cnt.hi < ovf.lo ∨ ovf.hi < cnt.lo

theorem countsOne_inc {cnt ovf : Fld} (s : State) (h : Counter cnt ovf) : s.countsOne (s.inc cnt ovf) cnt := by
  obtain ⟨-, ⟨hlo, hhi, hovf⟩, hapart⟩ := h
  have hcount : ∀ n ≤ 2 ^ (cnt.hi - cnt.lo + 1) - 1, (s.wr cnt n).rd cnt = n := fun n hn => by
    rw [rd_wr_same s cnt n hlo hhi, Nat.mod_eq_of_lt (lt_of_le_of_lt hn (Nat.sub_lt (Nat.two_pow_pos _) Nat.one_pos))]
  unfold countsOne inc
  dsimp only
  split
  · rw [rd_wr_ne _ ovf cnt 1 (.inr hapart.symm) hovf hlo hhi, hcount _ (Nat.min_le_right _ _)]
  · rw [hcount _ (Nat.min_le_right _ _)]

/-- A chain is `x` now, the others stand, one event is counted in `f`, and beside the chains only registers have changed. -/
structure MovesCounting (c : Nat) (x : Chain) (f : Fld) (s t : State) : Prop where
  frame : t = { s with chains := t.chains, regs := t.regs }
  own : t.chain c = x
  others : ∀ d, d ≠ c → t.chain d = s.chain d
  counts : s.countsOne t f

section
variable {c : Nat} {x y : Chain} {s t u : State} {cnt ovf : Fld}

theorem Moves.thenCount (h : Moves c x s t) (hcnt : Counter cnt ovf) : MovesCounting c x cnt s (t.inc cnt ovf) := by
  have hchain : ∀ d, (t.inc cnt ovf).chain d = t.chain d := fun d => by rw [inc_eq]; rfl
  have hframe : t.inc cnt ovf = { s with chains := (t.inc cnt ovf).chains, regs := (t.inc cnt ovf).regs } := by
    rw [inc_eq, h.only.1]
  have hrd : t.rd cnt = s.rd cnt := by rw [h.only.1]; rfl
  have hcounts : t.countsOne (t.inc cnt ovf) cnt := countsOne_inc t hcnt
  rw [countsOne, hrd] at hcounts
  exact ⟨hframe, (hchain c).trans h.own, fun d hd => (hchain d).trans (h.others d hd), hcounts⟩

theorem MovesCounting.thenMoves (h : MovesCounting c y cnt s t) (g : Moves c x t u) : MovesCounting c x cnt s u := by
  have hregs : u.regs = t.regs := by rw [g.only.1]
  have hframe : u = { s with chains := u.chains, regs := u.regs } := g.only.1.trans (by rw [hregs, h.frame])
  have hrd : u.rd cnt = t.rd cnt := by rw [rd, reg, hregs]; rfl
  exact ⟨hframe, g.own, fun d hd => (g.others d hd).trans (h.others d hd), by rw [countsOne, hrd]; exact h.counts⟩

/-- An event of a chain is counted, and a switch of it begun. -/
theorem MovesCounting.thenSwitch (h : MovesCounting c x cnt s t) (hxfer : x.xfer = (s.chain c).xfer) (to' : ChSt) (point : Option Nat) :
    MovesCounting c (s.switchingTo c x to' point) cnt s (t.enterSwitch c to' point) := by
  have hlatched : t.latched = s.latched := by rw [State.latched, h.frame]; rfl
  have hswitch := h.thenMoves (Moves.enterSwitch t c to' point)
  rwa [switchingTo_congr (by rw [h.frame]) (by rw [h.frame]) hlatched (by rw [h.own, hxfer]), h.own] at hswitch

end

/-! ### The failure of a sequence (R151, R169) -/

/-- Chain `c` has gone to FE_FAULT with this kind and entry, the other chains stand, and the message of hint C2 is sent. -/
structure Faults (c kind slot entry : Nat) (s t : State) : Prop where
  state : (t.chain c).st = .feFault
  faultKind : (t.chain c).faultKind = BitVec.ofNat 3 kind
  faultEntry : (t.chain c).faultEntry = BitVec.ofNat 12 entry
  seq : (t.chain c).seq = none
  others : ∀ d, d ≠ c → t.chain d = s.chain d
  sent : s.sentNow t (srcCh c) kind 2 (feCtx c slot entry)

section
variable {c kind slot entry : Nat} {s t u : State}

theorem report_chain (s : State) (src kind hint : Nat) (ctx : Word) (d : Nat) : (s.report src kind hint ctx).chain d = s.chain d := by
  rw [report_eq]
  rfl

theorem Moves.thenFaults {x : Chain} (h : Moves c x s t) (g : Faults c kind slot entry t u) : Faults c kind slot entry s u :=
  ⟨g.state, g.faultKind, g.faultEntry, g.seq, fun d hd => (g.others d hd).trans (h.others d hd), sentNow_of_terms h.terms g.sent⟩

/-- The chain that a failure leaves, before its message is sent. -/
def failedChain (s : State) (c : Nat) (force : Bool) (kind entry : Nat) : Chain :=
  let k := s.chain c
  { k with
    st := if k.st = .poweredDown && !force then .poweredDown else .feFault
    held := none, seq := none, settleAt := none, calBusy := false, scratch := []
    faultKind := BitVec.ofNat 3 kind, faultEntry := BitVec.ofNat 12 entry }

/-- The state of a failure whose held command has been answered, before its message is sent. -/
def failedState (s : State) (c : Nat) (force : Bool) (kind entry : Nat) : State :=
  ({ s with boot := { s.boot with feAwait := s.boot.feAwait.erase c } } : State).setChain c (s.failedChain c force kind entry)

/-- The held command of a failing chain is answered (R158). -/
def heldAnswered (s : State) (c result : Nat) : State := if (s.chain c).held.isSome then s.setResult c result else s

theorem heldAnswered_moves (s : State) (c result : Nat) : ∃ x, Moves c x s (s.heldAnswered c result) ∧ x.st = (s.chain c).st := by
  unfold heldAnswered
  split
  · exact ⟨_, Moves.setResult s c result, rfl⟩
  · exact ⟨_, Moves.refl s c, rfl⟩

theorem feFailed_eq (s : State) (c : Nat) (force : Bool) (kind result slot entry : Nat) :
    s.feFailed c force kind result slot entry =
      ((s.heldAnswered c result).failedState c force kind entry).report (srcCh c) kind 2 (feCtx c slot entry) := rfl

theorem failedState_faults {force : Bool} (hst : (s.chain c).st ≠ .poweredDown ∨ force = true) (hroom : s.intakeRoom 1 = true) :
    Faults c kind slot entry s ((s.failedState c force kind entry).report (srcCh c) kind 2 (feCtx c slot entry)) := by
  have hown : (s.failedState c force kind entry).chain c = s.failedChain c force kind entry := setChain_chain_same ..
  have hfault : (s.failedChain c force kind entry).st = .feFault := if_neg fun h => by
    simp only [Bool.and_eq_true, decide_eq_true_eq, Bool.not_eq_true'] at h
    exact hst.elim (absurd h.1) fun hforce => absurd (h.2.symm.trans hforce) (by decide)
  refine ⟨?_, ?_, ?_, ?_, fun d hd => ?_, sentNow_report rfl _ _ _ _ hroom⟩
  · rw [report_chain, hown, hfault]
  · rw [report_chain, hown]; rfl
  · rw [report_chain, hown]; rfl
  · rw [report_chain, hown]; rfl
  · rw [report_chain, failedState, setChain_chain_ne _ _ hd]
    rfl

theorem feFailed_faults {force : Bool} (result : Nat) (hst : (s.chain c).st ≠ .poweredDown ∨ force = true) (hroom : s.intakeRoom 1 = true) :
    Faults c kind slot entry s (s.feFailed c force kind result slot entry) := by
  obtain ⟨x, hmoves, hx⟩ := heldAnswered_moves s c result
  rw [feFailed_eq]
  refine hmoves.thenFaults (failedState_faults ?_ ?_)
  · rwa [hmoves.own, hx]
  · rwa [intakeRoom_of_fc hmoves.fc]

/-- A sequence other than CAL fails in a state other than POWERED_DOWN (R151). -/
theorem seqFail_faults {r : SeqRun} (kind result : Nat) (hslot : r.slot.toNat < 8) (hst : (s.chain c).st ≠ .poweredDown)
    (hroom : s.intakeRoom 1 = true) : Faults c kind r.slot.toNat r.entry s (s.seqFail c kind result r) := by
  rw [seqFail, if_neg (by omega)]
  exact feFailed_faults result (.inl hst) hroom

/-- A command that fails a sequence, as the statements put it. -/
theorem Faults.done {i : Instr} (h : Faults c kind slot entry s t) (hexec : exec i s = .next t) :
    ∃ t, exec i s = .next t ∧ (t.chain c).st = .feFault ∧ (t.chain c).faultKind = BitVec.ofNat 3 kind ∧
      (t.chain c).faultEntry = BitVec.ofNat 12 entry ∧ (t.chain c).seq = none ∧ (∀ d, d ≠ c → t.chain d = s.chain d) ∧
      s.sentNow t (srcCh c) kind 2 (feCtx c slot entry) :=
  ⟨t, hexec, h.state, h.faultKind, h.faultEntry, h.seq, h.others, h.sent⟩

end

end Sys2Proof.Machine.State
end

section
/-! The entries of a running sequence: what each one leaves, at the cycle it starts (R146, R148). -/

namespace Sys2Proof.Machine.State

/-- The three words of entry `e` read clean, and its COND is "always" (R148, R255). -/
structure EntryReads (s : State) (e : Nat) (w0 w1 w2 : Word) : Prop where
  first : s.cell .seq (3 * e) = ⟨w0, 0, false⟩
  second : s.cell .seq (3 * e + 1) = ⟨w1, 0, false⟩
  third : s.cell .seq (3 * e + 2) = ⟨w2, 0, false⟩
  always : bitsOf w0 32 30 = 0

section
variable {s : State} {c : Nat} {r : SeqRun}

/-! ### What an entry leaves -/

/-- A chain is set, and its sequence goes on. -/
theorem Moves.thenAdvance {x : Chain} {t : State} (h : Moves c x s t) (r : SeqRun) (next done : Nat) :
    Moves c { x with seq := some { r with entry := r.entry + 1, pollFrom := none, nextAt := next, doneAt := done } } s
      (t.seqAdvance c r next done) :=
  h.thenSet fun k => { k with seq := some { r with entry := r.entry + 1, pollFrom := none, nextAt := next, doneAt := done } }

theorem Moves.seqXfer (s : State) (c : Nat) (y : FeXfer) : Moves c { s.chain c with xfer := some y } s (s.seqXfer c y) := Moves.setChain ..

/-- A chain is set, and its sequence goes on after a transfer (R146). -/
theorem Moves.thenAfter {x : Chain} {t : State} (h : Moves c x s t) (r : SeqRun) (y : FeXfer) :
    Moves c { x with
      xfer := some y
      seq := some { r with
        entry := r.entry + 1, pollFrom := none, nextAt := y.start + 16 * (y.len + 4), doneAt := y.start + 16 * (y.len + 2) } } s
      (t.seqAfter c r y) :=
  (h.thenSet fun k => { k with xfer := some y }).thenAdvance r _ _

theorem Moves.seqAfter (s : State) (c : Nat) (r : SeqRun) (y : FeXfer) :
    Moves c { s.chain c with
      xfer := some y
      seq := some { r with
        entry := r.entry + 1, pollFrom := none, nextAt := y.start + 16 * (y.len + 4), doneAt := y.start + 16 * (y.len + 2) } } s
      (s.seqAfter c r y) := (Moves.refl s c).thenAfter r y

/-! ### The entry at hand -/

variable {w0 w1 w2 : Word} (data : BitVec 32) (at_ n : Nat)

theorem seqWords_of_clean {e : Nat} (h : s.EntryReads e w0 w1 w2) (c : Nat) : s.seqWords c e = ((w0, w1, w2, false), s) := by
  simp only [seqWords, memRead_of_clean _ _ _ h.first, memRead_of_clean _ _ _ h.second, memRead_of_clean _ _ _ h.third, Bool.or_self]

/-- What a read of the entry returns, in the data bits of its device. -/
def entryData (s : State) (c : Nat) (w0 : Word) (data : BitVec 32) : Nat := data.toNat % 2 ^ s.feDataBits c (bitsOf w0 35 33)

/-- The bits of a read that its mask lets through agree with the entry's value. -/
def entryHits (s : State) (c : Nat) (w0 w1 w2 : Word) (data : BitVec 32) : Bool :=
  Nat.xor (s.entryData c w0 data) (w1.toNat % 2 ^ 32) &&& w2.toNat % 2 ^ 32 == 0

/-- The transfer of a write of `d` by the entry. -/
def entryWrite (s : State) (c : Nat) (w0 : Word) (d at_ : Nat) : FeXfer :=
  feTransfer (s.feDevice c (bitsOf w0 35 33)) false (bitsOf w0 29 15) d at_

/-- The transfer of a read by the entry. -/
def entryRead (s : State) (c : Nat) (w0 : Word) (data : BitVec 32) (at_ : Nat) : FeXfer :=
  feTransfer (s.feDevice c (bitsOf w0 35 33)) true (bitsOf w0 29 15) (s.entryData c w0 data) at_

section
variable {data at_ n} (h : s.EntryReads r.entry w0 w1 w2)
include h

/-- A reserved OP fails the sequence (R148). -/
theorem seqStep_reserved (hop : 8 ≤ bitsOf w0 39 36) : s.seqStep c r data at_ (n + 1) = s.seqFail c 4 4 r := by
  simp only [seqStep, seqWords_of_clean h, hop, or_true, if_true]

theorem seqStep_end (hop : bitsOf w0 39 36 = 0) :
    s.seqStep c r data at_ (n + 1) = s.setChain c { s.chain c with seq := some { r with ended := true, pollFrom := none, doneAt := at_ } } := by
  simp only [seqStep, seqWords_of_clean h, h.always, seqCond, hop]
  rfl

theorem seqStep_write (hop : bitsOf w0 39 36 = 1) :
    s.seqStep c r data at_ (n + 1) = s.seqAfter c r (s.entryWrite c w0 (w1.toNat % 2 ^ 32) at_) := by
  simp only [seqStep, seqWords_of_clean h, h.always, seqCond, hop]
  rfl

/-- A READ goes on where its bits agree, and fails the sequence where they do not. -/
theorem seqStep_read (hop : bitsOf w0 39 36 = 2) :
    s.seqStep c r data at_ (n + 1) = if s.entryHits c w0 w1 w2 data then s.seqAfter c r (s.entryRead c w0 data at_)
      else (s.seqXfer c (s.entryRead c w0 data at_)).seqFail c 1 4 r := by
  simp only [seqStep, seqWords_of_clean h, h.always, seqCond, hop]
  rfl

/-- A POLL goes on where its bits agree, and is read again a pitch later where they do not. -/
theorem seqStep_poll (hop : bitsOf w0 39 36 = 3) :
    let y := s.entryRead c w0 data at_
    s.seqStep c r data at_ (n + 1) = if s.entryHits c w0 w1 w2 data then s.seqAfter c r y
      else (s.seqXfer c y).setChain c { (s.seqXfer c y).chain c with
        seq := some { r with
          pollFrom := some (r.pollFrom.getD at_), nextAt := at_ + Nat.max (16 * bitsOf w0 14 0) (16 * (y.len + 4)) } } := by
  simp only [seqStep, seqWords_of_clean h, h.always, seqCond, hop]
  rfl

theorem seqStep_capture (hop : bitsOf w0 39 36 = 4) :
    s.seqStep c r data at_ (n + 1) = (s.setChain c { s.chain c with
      scratch := assocSet (s.chain c).scratch (bitsOf w1 39 32 % 8)
        (BitVec.ofNat 32 (s.entryData c w0 data &&& w2.toNat % 2 ^ 32)) }).seqAfter c r (s.entryRead c w0 data at_) := by
  simp only [seqStep, seqWords_of_clean h, h.always, seqCond, hop]
  rfl

theorem seqStep_wait (hop : bitsOf w0 39 36 = 5) :
    s.seqStep c r data at_ (n + 1) = s.seqAdvance c r (at_ + 16 * bitsOf w0 14 0) (at_ + 16 * bitsOf w0 14 0) := by
  simp only [seqStep, seqWords_of_clean h, h.always, seqCond, hop]
  rfl

theorem seqStep_event (hop : bitsOf w0 39 36 = 6) :
    s.seqStep c r data at_ (n + 1) = (s.setChain c { s.chain c with
      raised := (s.chain c).raised ||| (1#4 <<< (bitsOf w1 39 32 % 4)) }).seqAdvance c r at_ at_ := by
  simp only [seqStep, seqWords_of_clean h, h.always, seqCond, hop]
  rfl

/-- The eighth kind of entry writes a result of the calibrations back to its device. -/
theorem seqStep_restore (hop : bitsOf w0 39 36 = 7) :
    s.seqStep c r data at_ (n + 1) =
      s.seqAfter c r (s.entryWrite c w0 (s.rd (F.chFeResultValue c (bitsOf w1 39 32 % 8))) at_) := by
  simp only [seqStep, seqWords_of_clean h, h.always, seqCond, hop]
  rfl

end

end

end Sys2Proof.Machine.State
end

section
/-! What a chain leaves as it goes on from a calibration: its verdicts, the other chains, the time of the commitment, and the messages of hint C2 and above in the queue (R151, R158 to R163, R365). -/

namespace Sys2Proof.Machine

/-- The kind and entry of a chain's last failure. -/
def Chain.faults (k : Chain) : BitVec 3 × BitVec 12 := (k.faultKind, k.faultEntry)

/-- What the calibrations of a chain have come to, and its last failure. -/
def Chain.verdicts (k : Chain) : BitVec 8 × BitVec 8 × List Nat × BitVec 3 × BitVec 12 := (k.done, k.pending, k.failConsec, k.faults)

/-! ### Messages that no later one displaces (R365) -/

theorem mem_of_dropNewestLow {l l' : List FMsg} {h : Nat} {m : FMsg} (hdrop : dropNewestLow l = some (l', h)) (hm : m ∈ l)
    (hhint : 2 ≤ m.hint.toNat) : m ∈ l' := by
  induction l generalizing l' h with
  | nil => exact absurd hm List.not_mem_nil
  | cons x l ih =>
    rw [dropNewestLow] at hdrop
    split at hdrop
    next l'' h'' hlow =>
      obtain ⟨rfl, -⟩ := Prod.mk.inj (Option.some.inj hdrop)
      obtain rfl | hml := List.mem_cons.mp hm
      · exact List.mem_cons_self
      · exact List.mem_cons_of_mem _ (ih hlow hml)
    · split at hdrop
      next hlow =>
        obtain ⟨rfl, -⟩ := Prod.mk.inj (Option.some.inj hdrop)
        obtain rfl | hml := List.mem_cons.mp hm
        · omega
        · exact hml
      · exact absurd hdrop (by simp)

namespace State

theorem mem_offer {s : State} {m : FMsg} (x : FMsg) (hm : m ∈ s.fc.queue) (hhint : 2 ≤ m.hint.toNat) : m ∈ (s.offer x).fc.queue := by
  have hdropped : ∀ (t : State) h, (t.dropped h).fc = t.fc := fun t h => by rw [dropped_eq]
  unfold offer
  dsimp only
  split
  · rwa [hdropped]
  · split
    · exact mem_queued.mpr (.inr hm)
    · split
      · rwa [hdropped]
      · split
        next hdrop =>
          rw [hdropped]
          exact mem_queued.mpr (.inr (mem_of_dropNewestLow hdrop hm hhint))
        · exact hm

/-- A change around chain `c` that leaves what `p` shows of it, the other chains, the registers of its calibration time, and the messages that later ones do not displace. -/
structure Follows {α : Type} (p : Chain → α) (c : Nat) (s t : State) : Prop where
  own : p (t.chain c) = p (s.chain c)
  others : ∀ d, d ≠ c → t.chain d = s.chain d
  reg : ∀ a, a = (F.chFeCalTimeHiTime c).addr ∨ a = (F.chFeCalTimeLoTime c).addr → t.reg a = s.reg a
  urgent : ∀ m ∈ s.fc.queue, 2 ≤ m.hint.toNat → m ∈ t.fc.queue

section
variable {α β : Type} {p : Chain → α} {c : Nat} {x : Chain} {s t u : State}

theorem Follows.refl (p : Chain → α) (c : Nat) (s : State) : Follows p c s s := ⟨rfl, fun _ _ => rfl, fun _ _ => rfl, fun _ hm _ => hm⟩

theorem Follows.trans (h : Follows p c s t) (g : Follows p c t u) : Follows p c s u :=
  ⟨g.own.trans h.own, fun d hd => (g.others d hd).trans (h.others d hd), fun a ha => (g.reg a ha).trans (h.reg a ha),
    fun m hm hhint => g.urgent m (h.urgent m hm hhint) hhint⟩

theorem Follows.map (f : α → β) (h : Follows p c s t) : Follows (fun k => f (p k)) c s t :=
  ⟨congrArg f h.own, h.others, h.reg, h.urgent⟩

theorem Follows.toFaults (h : Follows Chain.verdicts c s t) : Follows Chain.faults c s t := h.map (·.2.2.2)

theorem Moves.follows (h : Moves c x s t) (hp : p x = p (s.chain c)) : Follows p c s t :=
  ⟨by rw [h.own, hp], h.others, fun a _ => by rw [h.only.1]; rfl, fun m hm _ => by rwa [h.fc]⟩

theorem Follows.setChain (hp : p x = p (s.chain c)) : Follows p c s (s.setChain c x) := (Moves.setChain s c x).follows hp

theorem Follows.report (s : State) (src kind hint : Nat) (ctx : Word) : Follows p c s (s.report src kind hint ctx) := by
  refine ⟨by rw [report_chain], fun d _ => report_chain .., fun a ha => report_reg_ne _ _ _ _ _ ?_, fun m hm hhint => mem_offer _ hm hhint⟩
  simp only [F.chFeCalTimeHiTime, F.chFeCalTimeLoTime] at ha
  simp only [F.fcQueueDrop0]
  omega

/-- A count in a register that is not the calibration time's. -/
theorem Follows.inc (s : State) {cnt ovf : Fld} (haddr : ovf.addr = cnt.addr)
    (hother : cnt.addr ≠ (F.chFeCalTimeHiTime c).addr ∧ cnt.addr ≠ (F.chFeCalTimeLoTime c).addr) : Follows p c s (s.inc cnt ovf) := by
  have hne : ∀ a, a = (F.chFeCalTimeHiTime c).addr ∨ a = (F.chFeCalTimeLoTime c).addr → a ≠ cnt.addr := by
    rintro a (rfl | rfl)
    · exact hother.1.symm
    · exact hother.2.symm
  refine ⟨?_, fun d _ => ?_, fun a ha => inc_reg_ne s (hne a ha) (by rw [haddr]; exact hne a ha), fun m hm _ => by rwa [inc_fc]⟩
  · rw [inc_eq]; rfl
  · rw [inc_eq]; rfl

/-! ### Answers and switches -/

theorem Follows.setResult (s : State) (c n : Nat) : Follows Chain.verdicts c s (s.setResult c n) := Follows.setChain rfl

theorem Follows.chNote (s : State) (c detail : Nat) : Follows p c s (s.chNote c detail) := Follows.report ..

theorem Follows.feRefuse (s : State) (c cmd : Nat) : Follows Chain.verdicts c s (s.feRefuse c cmd) :=
  (Follows.setResult ..).trans (Follows.chNote ..)

/-- The answer to a command that no switch point gave. -/
theorem Follows.answered (s : State) (c n : Nat) (point : Bool) : Follows Chain.verdicts c s (if point then s else s.setResult c n) := by
  split
  · exact Follows.refl ..
  · exact Follows.setResult ..

theorem Follows.startSeqFor (s : State) (c slot lead : Nat) (point : Option Nat) : Follows Chain.verdicts c s (s.startSeqFor c slot lead point) :=
  (Moves.startSeqFor ..).follows rfl

theorem Follows.enterSwitch (s : State) (c : Nat) (to' : ChSt) (point : Option Nat) : Follows Chain.verdicts c s (s.enterSwitch c to' point) :=
  (Moves.enterSwitch ..).follows rfl

theorem Follows.startCal (s : State) (c k : Nat) : Follows Chain.verdicts c s (s.startCal c k) :=
  Follows.trans (Follows.setChain (by rfl)) (Follows.startSeqFor ..)

/-- A switch taken late is counted as one. -/
theorem Follows.late (s : State) (c : Nat) (late : Bool) :
    Follows p c s (if late then s.inc (F.chFeCnt1SwitchLateCnt c) (F.chFeCnt1LtOvf c) else s) := by
  split
  · refine Follows.inc s rfl ?_
    simp only [F.chFeCnt1SwitchLateCnt, F.chFeCalTimeHiTime, F.chFeCalTimeLoTime]
    omega
  · exact Follows.refl ..

theorem Follows.skip (s : State) (c : Nat) : Follows p c s (s.inc (F.chFeCnt0SkipCnt c) (F.chFeCnt0SkOvf c)) := by
  refine Follows.inc s rfl ?_
  simp only [F.chFeCnt0SkipCnt, F.chFeCalTimeHiTime, F.chFeCalTimeLoTime]
  omega

theorem Follows.feHeldOr (s : State) (c : Nat) (dflt : ChSt) : Follows Chain.verdicts c s (s.feHeldOr c dflt) := by
  unfold State.feHeldOr
  dsimp only
  split
  · exact Follows.enterSwitch ..
  next h _ =>
    have hdrop : Follows Chain.verdicts c s (s.setChain c { s.chain c with held := none }) := Follows.setChain rfl
    generalize s.setChain c { s.chain c with held := none } = r at hdrop
    refine hdrop.trans ?_
    split
    · split
      · exact (Follows.enterSwitch ..).trans (Follows.answered ..)
      · split
        · exact (Follows.feRefuse ..).trans (Follows.enterSwitch ..)
        · exact (Follows.trans (Follows.setChain (by rfl)) (Follows.enterSwitch ..)).trans (Follows.answered ..)
    · split
      · split
        · exact (Follows.feRefuse ..).trans (Follows.enterSwitch ..)
        · split
          · exact (Follows.skip ..).trans (Follows.enterSwitch ..)
          · exact ((Follows.enterSwitch ..).trans (Follows.answered ..)).trans (Follows.late ..)
      · split
        · exact (Follows.trans (Follows.setChain (by rfl)) (Follows.enterSwitch ..)).trans (Follows.answered ..)
        · exact (Follows.enterSwitch ..).trans (Follows.setChain (by rfl))

theorem Follows.calNext (s : State) (c k : Nat) : Follows Chain.verdicts c s (s.calNext c k) := by
  unfold State.calNext
  dsimp only
  split
  · exact Follows.startCal ..
  · split
    · exact Follows.startSeqFor ..
    · exact Follows.feHeldOr ..

/-! ### A calibration that fails (R160, R169) -/

theorem Follows.refuseCal (s : State) (c k : Nat) : Follows Chain.faults c s (s.refuseCal c k) :=
  Follows.trans (Follows.setChain (by rfl)) (Follows.feRefuse ..).toFaults

theorem Follows.discardCal (s : State) (c k : Nat) : Follows Chain.faults c s (s.discardCal c k) := by
  unfold State.discardCal
  dsimp only
  split
  · split
    · exact Follows.trans (Follows.setChain (by rfl)) (Follows.refuseCal ..)
    · exact Follows.setChain (by rfl)
  · exact Follows.setChain (by rfl)

/-- Chain `c` shows this kind and entry, and no message of hint C2 is gone from the queue. -/
structure Records (c kind entry : Nat) (s t : State) : Prop where
  faults : (t.chain c).faults = (BitVec.ofNat 3 kind, BitVec.ofNat 12 entry)
  urgent : ∀ m ∈ s.fc.queue, 2 ≤ m.hint.toNat → m ∈ t.fc.queue

theorem feFailed_records (s : State) (c : Nat) (force : Bool) (kind result slot entry : Nat) :
    Records c kind entry s (s.feFailed c force kind result slot entry) := by
  obtain ⟨x, hmoves, -⟩ := heldAnswered_moves s c result
  have hsent := Follows.report (p := Chain.faults) (c := c) ((s.heldAnswered c result).failedState c force kind entry) (srcCh c) kind 2
    (feCtx c slot entry)
  refine ⟨?_, fun m hm hhint => hsent.urgent m ?_ hhint⟩
  · rw [feFailed_eq, hsent.own, failedState, setChain_chain_same]
    rfl
  · change m ∈ (s.heldAnswered c result).fc.queue
    rwa [hmoves.fc]

/-- A third failure in a row, and one while an abort waits, is FE_FAULT; after any other the chain goes on. -/
theorem calFail_records (s : State) (c k entry : Nat) : Records c 6 entry s (s.calFail c k entry) := by
  unfold calFail
  extract_lets ch n aborting s1 s2
  have hset : Records c 6 entry s s1 := ⟨by rw [setChain_chain_same]; rfl, fun m hm _ => hm⟩
  have hdiscard : Follows Chain.faults c s1 s2 := Follows.discardCal ..
  have hgo : ∀ {t}, Follows Chain.faults c s1 t → Records c 6 entry s t := fun h =>
    ⟨h.own.trans hset.faults, fun m hm hhint => h.urgent m (hset.urgent m hm hhint) hhint⟩
  split
  · exact ⟨(feFailed_records ..).faults, fun m hm hhint =>
      (feFailed_records ..).urgent m ((hgo hdiscard).urgent m hm hhint) hhint⟩
  · exact hgo ((hdiscard.trans (Follows.report ..)).trans (Follows.calNext ..).toFaults)

/-- A reserved OP or a poisoned entry in a CAL is reported beside the calibration's failure (R169). -/
theorem seqFail_reported {r : SeqRun} (hslot : 8 ≤ r.slot.toNat) (hroom : s.intakeRoom 1 = true) :
    let t := s.seqFail c 4 4 r
    s.sentNow t (srcCh c) 4 2 (feCtx c r.slot.toNat r.entry) ∧ (t.chain c).faults = (6, BitVec.ofNat 12 r.entry) := by
  intro t
  have hrecords := calFail_records (s.report (srcCh c) 4 2 (feCtx c r.slot.toNat r.entry)) c (r.slot.toNat - 8) r.entry
  have ht : t = (s.report (srcCh c) 4 2 (feCtx c r.slot.toNat r.entry)).calFail c (r.slot.toNat - 8) r.entry := if_pos hslot
  rw [ht]
  exact ⟨hrecords.urgent _ (sentNow_report rfl _ _ _ _ hroom) (by simp [mkMsg]), hrecords.faults⟩

end

end State

end Sys2Proof.Machine
end

section
/-! O39, assembled: the entries of a running sequence, its timeouts and its safe points (R145 to R149, R158, R159, R163, R169). -/

namespace Sys2Proof.Machine

open State

section
variable {s : State} {ch : ChainId} {r : SeqRun}

/-! ### An entry -/

theorem exec_seqEntry_of_due {data : BitVec 32} (hseq : (s.chain ch.toNat).seq = some r) (hended : r.ended = false) (habort : r.abort = none)
    (hdue : s.entryAt ch.toNat r ≤ s.cyc) :
    exec (.seqEntry ch data) s = .next (s.seqStep ch.toNat r data (s.entryAt ch.toNat r) 4096) := by
  have hexec : exec (.seqEntry ch data) s = execSeqEntry ch data s := rfl
  have hdue' : ¬ s.cyc < s.entryAt ch.toNat r := hdue.not_gt
  simp [hexec, execSeqEntry, hseq, hended, habort, hdue']

theorem exec_seqEntry_of_waiting {data : BitVec 32} (hseq : (s.chain ch.toNat).seq = some r)
    (hwait : s.cyc < s.entryAt ch.toNat r ∨ r.abort.isSome = true) : exec (.seqEntry ch data) s = .next s := by
  have hexec : exec (.seqEntry ch data) s = execSeqEntry ch data s := rfl
  simp only [hexec, execSeqEntry, hseq]
  exact congrArg Host.Outcome.next (if_pos (by obtain h | h := hwait <;> simp [h]))

/-! ### The timeouts (R148, R158) -/

/-- The sequence is LOCK or RETUNE, by its slot (R148). -/
def locksBySlot (r : SeqRun) : Bool := r.slot == 1 || r.slot == 6 || r.slot == 7

theorem locksBySlot_iff : locksBySlot r = true ↔ r.slot = 1 ∨ r.slot = 6 ∨ r.slot = 7 := by simp [locksBySlot, or_assoc]

/-- TIMEOUT of the POLL at hand, in units of 8 µs; 0 leaves it to LOCK_TIMEOUT (R148). -/
def pollUnits (s : State) (r : SeqRun) : Nat := bitsOf (s.memPeek .seq (3 * r.entry + 2)) 39 32

/-- The cycle at which a POLL first read at `t0` times out. -/
def pollDue (s : State) (c : Nat) (r : SeqRun) (t0 : Nat) : Nat :=
  if pollUnits s r ≠ 0 then t0 + usCyc (8 * pollUnits s r)
  else if locksBySlot r then (s.chain c).lockFrom + usCyc (s.rd (F.chFeCfgLockTimeout c))
  else r.startedAt + usCyc (s.rd (F.chFeCfgLockTimeout c))

theorem pollDue_of_units {c t0 : Nat} (h : pollUnits s r ≠ 0) : pollDue s c r t0 = t0 + usCyc (8 * pollUnits s r) := if_pos h

theorem pollDue_of_zero {c t0 : Nat} (h : pollUnits s r = 0) :
    pollDue s c r t0 = (if r.slot = 1 ∨ r.slot = 6 ∨ r.slot = 7 then (s.chain c).lockFrom else r.startedAt) +
      usCyc (s.rd (F.chFeCfgLockTimeout c)) := by
  rw [pollDue, if_neg (not_not.mpr h)]
  simp only [← locksBySlot_iff]
  split <;> rfl

section
variable {t0 : Nat} (hseq : (s.chain ch.toNat).seq = some r) (hpoll : r.pollFrom = some t0)
include hseq hpoll

theorem exec_pollTimeout_of_due (hdue : pollDue s ch.toNat r t0 ≤ s.cyc) :
    exec (.pollTimeout ch) s = .next (if locksBySlot r then s.seqFail ch.toNat 3 5 r else s.seqFail ch.toNat 2 4 r) := by
  have hexec : exec (.pollTimeout ch) s = execPollTimeout ch s := rfl
  simp only [hexec, execPollTimeout, hseq, hpoll]
  exact if_pos hdue

theorem exec_pollTimeout_of_early (hearly : s.cyc < pollDue s ch.toNat r t0) : exec (.pollTimeout ch) s = .next s := by
  have hexec : exec (.pollTimeout ch) s = execPollTimeout ch s := rfl
  simp only [hexec, execPollTimeout, hseq, hpoll]
  exact if_neg hearly.not_ge

/-- A POLL past its timeout fails its sequence, as one of lock by its slot. -/
theorem pollTimeout_faults (hslot : r.slot.toNat < 8) (hst : (s.chain ch.toNat).st ≠ .poweredDown) (hroom : s.intakeRoom 1 = true)
    (hdue : pollDue s ch.toNat r t0 ≤ s.cyc) : ∃ t, exec (.pollTimeout ch) s = .next t ∧
      Faults ch.toNat (if r.slot = 1 ∨ r.slot = 6 ∨ r.slot = 7 then 3 else 2) r.slot.toNat r.entry s t := by
  refine ⟨_, exec_pollTimeout_of_due hseq hpoll hdue, ?_⟩
  simp only [← locksBySlot_iff]
  split
  · exact seqFail_faults 3 5 hslot hst hroom
  · exact seqFail_faults 2 4 hslot hst hroom

end

theorem exec_lockTimeout_of_due (hseq : (s.chain ch.toNat).seq = some r) (hst : (s.chain ch.toNat).st = .synthLocking) (hended : r.ended = false)
    (hdue : (s.chain ch.toNat).lockFrom + usCyc (s.rd (F.chFeCfgLockTimeout ch.toNat)) ≤ s.cyc) :
    exec (.lockTimeout ch) s = .next (s.seqFail ch.toNat 3 5 r) := by
  have hexec : exec (.lockTimeout ch) s = execLockTimeout ch s := rfl
  simp only [hexec, execLockTimeout, hseq]
  exact if_pos ⟨hst, by rw [hended]; rfl, hdue⟩

/-! ### The safe point of an abort (R149, R163) -/

theorem exec_seqAbortSafePoint_of_transfer (hseq : (s.chain ch.toNat).seq = some r) (hbusy : s.inTransfer ch.toNat = true) :
    exec (.seqAbortSafePoint ch) s = .next s := by
  have hexec : exec (.seqAbortSafePoint ch) s = execSeqAbortSafePoint ch s := rfl
  simp only [hexec, execSeqAbortSafePoint, hseq]
  exact if_pos (by rw [hbusy]; rfl)

/-- The state with calibration `k` of chain `c` discarded, before the abort is counted. -/
def calDropped (s : State) (c k : Nat) : State :=
  s.setChain c { s.chain c with
    scratch := [], calBusy := false, seq := none, startup := (s.chain c).startup &&& ~~~(1#8 <<< k) }

theorem discardCal_of_no_request {c k : Nat} (h : assoc (s.chain c).reqDue k = none) : s.discardCal c k = calDropped s c k := by
  simp only [State.discardCal, h]
  rfl

/-- A calibration aborted for TRANSMIT is discarded, and counted, and the chain is on its way. -/
theorem exec_seqAbortSafePoint_of_transmit (hseq : (s.chain ch.toNat).seq = some r) (habort : r.abort = some .transmit) (hended : r.ended = false)
    (hfree : s.inTransfer ch.toNat = false) (hcal : 8 ≤ r.slot.toNat) (hreq : assoc (s.chain ch.toNat).reqDue (r.slot.toNat - 8) = none) :
    let c := ch.toNat
    exec (.seqAbortSafePoint ch) s =
      .next (((calDropped s c (r.slot.toNat - 8)).inc (F.chFeCnt1AbortCnt c) (F.chFeCnt1AbOvf c)).enterSwitch c .transmit none) := by
  have hexec : exec (.seqAbortSafePoint ch) s = execSeqAbortSafePoint ch s := rfl
  simp only [hexec, execSeqAbortSafePoint, hseq, hfree, hended, habort, if_pos hcal, discardCal_of_no_request hreq]
  rfl

end

section
variable {s : State} {ch : ChainId} {r : SeqRun}

theorem abortCounter (c : Nat) : Counter (F.chFeCnt1AbortCnt c) (F.chFeCnt1AbOvf c) := by
  constructor <;> simp [F.chFeCnt1AbortCnt, F.chFeCnt1AbOvf]

/-- What the abort leaves: nothing of the calibration is kept, and the switch toward TRANSMIT has begun. -/
theorem calDropped_counted (s : State) (c k : Nat) :
    MovesCounting c (s.switchingTo c { s.chain c with
      scratch := [], calBusy := false, seq := none, startup := (s.chain c).startup &&& ~~~(1#8 <<< k) } .transmit none)
      (F.chFeCnt1AbortCnt c) s (((calDropped s c k).inc (F.chFeCnt1AbortCnt c) (F.chFeCnt1AbOvf c)).enterSwitch c .transmit none) :=
  ((Moves.setChain s c { s.chain c with
    scratch := [], calBusy := false, seq := none, startup := (s.chain c).startup &&& ~~~(1#8 <<< k) }).thenCount (abortCounter c)).thenSwitch rfl ..

end

/-- Settles O39: an entry that is due is one step of its sequence, an update of its chain; every failure is FE_FAULT, or of a CAL the calibration's failure. -/
theorem sequenceEntries : Obligations.SequenceEntries := by
  unfold Obligations.SequenceEntries
  intro s ch r c k goes a next after fails plain hseq
  refine ⟨fun data hwait => exec_seqEntry_of_waiting hseq hwait, fun data w0 w1 w2 hended habort hdue h0 h1 h2 halways => ?_,
    fun t0 hpoll hplain => ?_, fun hplain hst hended hdue => ?_, fun hbusy => exec_seqAbortSafePoint_of_transfer hseq hbusy,
    fun habort hended hfree hlive hcal hreq => ?_⟩
  · intro op dev v mask delay sent got hit e
    have hreads : s.EntryReads r.entry w0 w1 w2 := ⟨h0, h1, h2, halways⟩
    have hexec : exec e s = .next (s.seqStep c r data a 4096) := exec_seqEntry_of_due hseq hended habort hdue
    have hhit : s.entryHits c w0 w1 w2 data = true ↔ hit := beq_iff_eq
    refine ⟨fun hop => ?_, fun hop => ?_, fun hop h => ?_, fun hop h hplain => ?_, fun hop h => ?_, fun hop h => ?_, fun hop => ?_, fun hop => ?_,
      fun hop => ?_, fun hop => ?_, fun hop hplain => ?_, fun hop hcal hroom => ?_⟩
    · rw [seqStep_end hreads hop] at hexec
      exact (Moves.setChain ..).done hexec
    · rw [seqStep_write hreads hop] at hexec
      exact (Moves.seqAfter ..).done hexec
    · rw [seqStep_read hreads hop, if_pos (hhit.mpr h)] at hexec
      exact (Moves.seqAfter ..).done hexec
    · obtain ⟨hslot, hst, hroom⟩ := hplain
      have hxfer := Moves.seqXfer s c (s.entryRead c w0 data a)
      rw [seqStep_read hreads hop, if_neg (mt hhit.mp h)] at hexec
      refine (hxfer.thenFaults (seqFail_faults 1 4 hslot ?_ hroom)).done hexec
      rw [hxfer.own]
      exact hst
    · rw [seqStep_poll hreads hop, if_pos (hhit.mpr h)] at hexec
      exact (Moves.seqAfter ..).done hexec
    · have hxfer := Moves.seqXfer s c (s.entryRead c w0 data a)
      rw [seqStep_poll hreads hop, if_neg (mt hhit.mp h), hxfer.own] at hexec
      exact (hxfer.trans (Moves.setChain ..)).done hexec
    · rw [seqStep_capture hreads hop] at hexec
      exact ((Moves.setChain ..).thenAfter r _).done hexec
    · rw [seqStep_wait hreads hop] at hexec
      exact ((Moves.refl ..).thenAdvance r _ _).done hexec
    · rw [seqStep_event hreads hop] at hexec
      exact ((Moves.setChain ..).thenAdvance r a a).done hexec
    · rw [seqStep_restore hreads hop] at hexec
      exact (Moves.seqAfter ..).done hexec
    · obtain ⟨hslot, hst, hroom⟩ := hplain
      rw [seqStep_reserved hreads hop] at hexec
      exact (seqFail_faults 4 4 hslot hst hroom).done hexec
    · obtain ⟨hsent, hfaults⟩ := seqFail_reported (c := c) hcal hroom
      rw [seqStep_reserved hreads hop] at hexec
      exact ⟨_, hexec, hsent, congrArg Prod.fst hfaults, congrArg Prod.snd hfaults⟩
  · obtain ⟨hslot, hst, hroom⟩ := hplain
    intro tmo lock code
    refine ⟨fun htmo hdue => ?_, fun htmo hdue => ?_, fun htmo hearly => ?_⟩
    · obtain ⟨t, hexec, hfaults⟩ := pollTimeout_faults hseq hpoll hslot hst hroom ((pollDue_of_units htmo).trans_le hdue)
      exact hfaults.done hexec
    · obtain ⟨t, hexec, hfaults⟩ := pollTimeout_faults hseq hpoll hslot hst hroom ((pollDue_of_zero htmo).trans_le hdue)
      exact hfaults.done hexec
    · exact exec_pollTimeout_of_early hseq hpoll (hearly.trans_eq (pollDue_of_units htmo).symm)
  · obtain ⟨hslot, -, hroom⟩ := hplain
    exact (seqFail_faults 3 5 hslot (by rw [hst]; decide) hroom).done (exec_lockTimeout_of_due hseq hst hended hdue)
  · have hdone := calDropped_counted s c (r.slot.toNat - 8)
    refine ⟨_, exec_seqAbortSafePoint_of_transmit hseq habort hended hfree hcal hreq, hdone.others, hdone.counts, hdone.frame, ?_⟩
    rw [hdone.own, State.switchingTo, State.runsFor, hlive]
    rfl

end Sys2Proof.Machine
end

section
/-! What follows the END of a sequence: a settle, the lock, and the commitment of a calibration (R151, R152, R155, R159). -/

namespace Sys2Proof.Machine

theorem atD_setAt'_default {α : Type} (l : List α) (i : Nat) (d : α) : atD (setAt' l i d) i d = d := by
  induction l generalizing i with
  | nil => rfl
  | cons x l ih => cases i with
    | zero => rfl
    | succ i => exact ih i

namespace State

section
variable {s : State} {c : Nat} {r : SeqRun}

/-! ### The END by the state of its chain -/

section
variable (hslot : r.slot.toNat < 8)
include hslot

/-- The switch settles from its point on, or from the END where it serves none, to the next CLK_S edge (R152, R156). -/
theorem seqDone_of_switching (hst : (s.chain c).st = .switching) :
    s.seqDone c r = s.setChain c { s.chain c with
      seq := none
      settleAt := some (8 * ceilDiv (r.point.getD r.doneAt +
        nsCyc (if (s.chain c).target = .transmit then (s.chainCfg c).settleTx else (s.chainCfg c).settleRx)) 8) } := by
  simp only [seqDone, if_neg hslot.not_ge, hst]

theorem seqDone_of_synthLocking (hst : (s.chain c).st = .synthLocking) :
    s.seqDone c r = s.setChain c { s.chain c with
      seq := none, settleAt := some (r.doneAt + usCyc (s.rd (F.chFeCfgSynthSettle c))) } := by
  simp only [seqDone, if_neg hslot.not_ge, hst]

theorem seqDone_of_biasing (hst : (s.chain c).st = .biasing) : s.seqDone c r = s.enterLock c 1 .poweredDown := by
  simp only [seqDone, if_neg hslot.not_ge, hst]

end

theorem Moves.enterLock (s : State) (c slot : Nat) (left : ChSt) :
    Moves c (s.runsFor c { s.chain c with st := .synthLocking, lockFrom := s.cyc, lockLeft := left } slot 0 none) s (s.enterLock c slot left) :=
  Moves.thenStart (x := { s.chain c with st := .synthLocking, lockFrom := s.cyc, lockLeft := left }) (Moves.setChain ..) rfl ..

/-! ### The commitment of a calibration (R159) -/

/-- The results of the calibration, written to the chain's result registers. -/
def resultsWritten (s : State) (c k : Nat) : State :=
  (s.chain c).scratch.foldl (fun s p => (s.wr (F.chFeResultValue c p.1) p.2.toNat).wr (F.chFeResultCal c p.1) k) s

theorem resultsWritten_frame (s : State) (c k : Nat) : s.resultsWritten c k = { s with regs := (s.resultsWritten c k).regs } :=
  List.foldlRecOn (motive := fun t : State => t = { s with regs := t.regs }) _ _ rfl fun t h p _ => by rw [h]; rfl

/-- The time of the commitment, in its two registers. -/
def timeWritten (s : State) (c : Nat) : State :=
  (s.wr (F.chFeCalTimeHiTime c) s.nowHi.toNat).wr (F.chFeCalTimeLoTime c) s.nowLo.toNat

theorem timeWritten_rd (s : State) (c : Nat) :
    (s.timeWritten c).rd (F.chFeCalTimeHiTime c) = s.nowHi.toNat ∧ (s.timeWritten c).rd (F.chFeCalTimeLoTime c) = s.nowLo.toNat := by
  have hsame : ∀ (t : State) (f : Fld) (w : Word), f.hi = 39 → f.lo = 0 → (t.wr f w.toNat).rd f = w.toNat := fun t f w hhi hlo => by
    rw [rd_wr_same t f _ (by omega) (by omega), hhi, hlo]
    exact Nat.mod_eq_of_lt w.isLt
  refine ⟨?_, hsame _ _ _ rfl rfl⟩
  rw [timeWritten, wr_rd_ne _ _ (by simp [F.chFeCalTimeHiTime, F.chFeCalTimeLoTime])]
  exact hsame _ _ _ rfl rfl

/-- A chain with calibration `k` committed at a cycle. -/
def committedChain (h : Chain) (k cyc : Nat) : Chain := { h with
  scratch := [], calBusy := false, seq := none, startup := h.startup &&& ~~~(1#8 <<< k), done := h.done ||| (1#8 <<< k)
  pending := h.pending &&& ~~~(1#8 <<< k), reqDue := h.reqDue.filter (fun p => p.1 != k)
  failConsec := setAt' h.failConsec k 0, committedAt := assocSet h.committedAt k cyc }

theorem commitCal_eq (s : State) (c k : Nat) :
    s.commitCal c k = ((s.resultsWritten c k).timeWritten c).setChain c (committedChain (s.chain c) k s.cyc) := by
  have hcyc : ((s.resultsWritten c k).timeWritten c).cyc = s.cyc := by
    change (s.resultsWritten c k).cyc = s.cyc
    rw [resultsWritten_frame]
  rw [← hcyc]
  rfl

/-- The verdicts of a committed calibration, the time in its registers, and the other chains. -/
structure Commits (c k : Nat) (s t : State) : Prop where
  done : (t.chain c).done.getLsbD k = true
  pending : (t.chain c).pending.getLsbD k = false
  fails : atD (t.chain c).failConsec k 0 = 0
  timeHi : t.rd (F.chFeCalTimeHiTime c) = s.nowHi.toNat
  timeLo : t.rd (F.chFeCalTimeLoTime c) = s.nowLo.toNat
  others : ∀ d, d ≠ c → t.chain d = s.chain d

theorem commitCal_commits (s : State) (c : Nat) {k : Nat} (hk : k < 8) : Commits c k s (s.commitCal c k) := by
  have hframe := resultsWritten_frame s c k
  obtain ⟨hhi, hlo⟩ := timeWritten_rd (s.resultsWritten c k) c
  have hnow : (s.resultsWritten c k).nowHi = s.nowHi ∧ (s.resultsWritten c k).nowLo = s.nowLo := by
    rw [hframe]
    exact ⟨rfl, rfl⟩
  have hown : (s.commitCal c k).chain c = committedChain (s.chain c) k s.cyc := by rw [commitCal_eq, setChain_chain_same]
  refine ⟨?_, ?_, ?_, ?_, ?_, fun d hd => ?_⟩
  · rw [hown]
    simp [committedChain, hk]
  · rw [hown]
    simp [committedChain, hk]
  · rw [hown]
    exact atD_setAt'_default ..
  · rw [commitCal_eq, ← hnow.1]
    exact hhi
  · rw [commitCal_eq, ← hnow.2]
    exact hlo
  · rw [commitCal_eq, setChain_chain_ne _ _ hd]
    change (s.resultsWritten c k).chain d = _
    rw [hframe]
    rfl

theorem Commits.follows {k : Nat} {t u : State} (h : Commits c k s t) (g : Follows Chain.verdicts c t u) : Commits c k s u := by
  obtain ⟨hdone, hpending, hfails, -⟩ : _ ∧ _ ∧ _ ∧ _ := by simpa only [Chain.verdicts, Prod.mk.injEq] using g.own
  have hrd : ∀ f : Fld, f.addr = (F.chFeCalTimeHiTime c).addr ∨ f.addr = (F.chFeCalTimeLoTime c).addr → u.rd f = t.rd f := fun f hf => by
    rw [rd, g.reg _ hf]
    rfl
  exact ⟨by rw [hdone]; exact h.done, by rw [hpending]; exact h.pending, by rw [hfails]; exact h.fails, (hrd _ (.inl rfl)).trans h.timeHi,
    (hrd _ (.inr rfl)).trans h.timeLo, fun d hd => (g.others d hd).trans (h.others d hd)⟩

/-- After the commitment the chain goes on as its abort asks, or to the next calibration. -/
theorem seqDone_of_cal (hcal : 8 ≤ r.slot.toNat) : Commits c (r.slot.toNat - 8) s (s.seqDone c r) := by
  have hcommit : Commits c (r.slot.toNat - 8) s (s.commitCal c (r.slot.toNat - 8)) := commitCal_commits s c (by have := r.slot.isLt; omega)
  rw [seqDone]
  dsimp only
  rw [if_pos hcal]
  split
  · exact hcommit.follows (Follows.enterSwitch ..)
  · exact hcommit.follows (Follows.startSeqFor ..)
  · exact hcommit.follows (Follows.calNext ..)

end

end State

end Sys2Proof.Machine
end

section
/-! O40, assembled: settles, the TDD schedule and the calibration timers of a chain (R151, R152, R155 to R157, R161, R162). -/

namespace Sys2Proof.Machine

open State

section
variable {s : State} {ch : ChainId} {r : SeqRun} {t0 : Nat}

/-! ### The END of a sequence -/

theorem exec_sequenceComplete_of_early (hseq : (s.chain ch.toNat).seq = some r) (hearly : s.cyc < r.doneAt) :
    exec (.sequenceComplete ch) s = .next s := by
  have hexec : exec (.sequenceComplete ch) s = execSequenceComplete ch s := rfl
  have hnot : decide (r.doneAt ≤ s.cyc) = false := decide_eq_false hearly.not_ge
  simp [hexec, execSequenceComplete, hseq, hnot]

theorem exec_sequenceComplete_of_due (hseq : (s.chain ch.toNat).seq = some r) (hended : r.ended = true) (hdue : r.doneAt ≤ s.cyc) :
    exec (.sequenceComplete ch) s = .next (s.seqDone ch.toNat r) := by
  have hexec : exec (.sequenceComplete ch) s = execSequenceComplete ch s := rfl
  simp [hexec, execSequenceComplete, hseq, hended, hdue]

/-! ### Settles (R151, R152, R155) -/

theorem lowCal_of_zero {m : BitVec 8} {k : Nat} {p : Nat → Bool} (h : m = 0) : lowCal m k p = none := by simp [lowCal, h]

theorem feHeldOr_of_none {c : Nat} {dflt : ChSt} (h : (s.chain c).held = none) : s.feHeldOr c dflt = s.enterSwitch c dflt none := by
  rw [feHeldOr, h]

/-- The state with a lock settled that runs no calibration. -/
def lockFreed (s : State) (c : Nat) : State :=
  let t := s.setChain c { s.chain c with settleAt := none }
  t.setChain c { t.chain c with calFromLock := false }

theorem lockFreed_moves (s : State) (c : Nat) : Moves c { s.chain c with settleAt := none, calFromLock := false } s (lockFreed s c) :=
  (Moves.setChain s c { s.chain c with settleAt := none }).thenSet fun k => { k with calFromLock := false }

/-- What the return from a lock is reckoned from is the chain's before its settle (R155). -/
theorem lockReturn_settled (s : State) (c : Nat) : (s.setChain c { s.chain c with settleAt := none }).lockReturn c = s.lockReturn c := by
  simp only [lockReturn, inForce, pointNow, setChain_chain_same]
  rfl

theorem exec_synthSettleElapsed_of_clear (hsettle : (s.chain ch.toNat).settleAt = some t0) (hdue : t0 ≤ s.cyc)
    (hst : (s.chain ch.toNat).st = .synthLocking) (hstartup : (s.chain ch.toNat).startup = 0) (hheld : (s.chain ch.toNat).held = none) :
    exec (.synthSettleElapsed ch) s = .next ((lockFreed s ch.toNat).enterSwitch ch.toNat (s.lockReturn ch.toNat) none) := by
  have hexec : exec (.synthSettleElapsed ch) s = execSynthSettleElapsed ch s := rfl
  have hnone : ((lockFreed s ch.toNat).chain ch.toNat).held = none := by rw [(lockFreed_moves ..).own]; exact hheld
  rw [← lockReturn_settled, ← feHeldOr_of_none hnone]
  simp only [hexec, execSynthSettleElapsed, hsettle]
  rw [if_pos ⟨hst, hdue⟩, lowCal_of_zero hstartup]
  rfl

theorem switchCounter (c : Nat) : Counter (F.chFeCnt0SwitchCnt c) (F.chFeCnt0SwOvf c) := by
  constructor <;> simp [F.chFeCnt0SwitchCnt, F.chFeCnt0SwOvf]

theorem skipCounter (c : Nat) : Counter (F.chFeCnt0SkipCnt c) (F.chFeCnt0SkOvf c) := by
  constructor <;> simp [F.chFeCnt0SkipCnt, F.chFeCnt0SkOvf]

/-- A chain in its target state, entered at the end of a settle. -/
def enteredChain (k : Chain) (t0 : Nat) : Chain := { k with st := k.target, settleAt := none, calFromLock := false, enteredAt := t0 }

/-- With no command held and no RECEIVE owed a switch ends in its target state, counted (R151). -/
theorem switchSettle_enters (hsettle : (s.chain ch.toNat).settleAt = some t0) (hdue : t0 ≤ s.cyc)
    (hst : (s.chain ch.toNat).st = .switching) (hheld : (s.chain ch.toNat).held = none) (howed : ch.toNat ∉ s.boot.feAwait) :
    let c := ch.toNat
    ∃ t, exec (.switchSettleElapsed ch) s = .next t ∧ MovesCounting c (enteredChain (s.chain c) t0) (F.chFeCnt0SwitchCnt c) s t := by
  intro c
  have hexec : exec (.switchSettleElapsed ch) s = execSwitchSettleElapsed ch s := rfl
  have hdone := (Moves.setChain s c (enteredChain (s.chain c) t0)).thenCount (switchCounter c)
  refine ⟨_, ?_, hdone⟩
  generalize hu : (s.setChain c (enteredChain (s.chain c) t0)).inc (F.chFeCnt0SwitchCnt c) (F.chFeCnt0SwOvf c) = u at hdone
  have hkept : u.feKept c = u := by
    have hnone : (u.chain c).held = none := by rw [hdone.own]; exact hheld
    rw [feKept, hnone]
  have hawaited : u.feAwaited c = u := by
    have hboot : u.boot = s.boot := by rw [hdone.frame]
    refine if_neg ?_
    rw [hboot]
    simp [show c ∉ s.boot.feAwait from howed]
  simp only [hexec, execSwitchSettleElapsed, hsettle]
  rw [if_pos ⟨hst, hdue⟩]
  exact congrArg Host.Outcome.next ((congrArg (fun v => (v.feKept c).feAwaited c) hu).trans (by rw [hkept, hawaited]))

/-! ### The TDD schedule (R156, R157) -/

section
variable (hsched : s.onSchedule ch.toNat = true)
include hsched

theorem exec_tddFrameStart_of_end {e : Nat} (hend : (s.chain ch.toNat).frameEnd = some e) :
    exec (.tddFrameStart ch) s =
      .next (if e ≤ s.cyc then s.setChain ch.toNat { s.chain ch.toNat with frameStart := e, frameEnd := none } else s) := by
  have hexec : exec (.tddFrameStart ch) s = execTddFrameStart ch s := rfl
  simp [hexec, execTddFrameStart, hsched, hend]

theorem exec_tddFrameStart_of_edge (hend : (s.chain ch.toNat).frameEnd = none) :
    exec (.tddFrameStart ch) s =
      .next (if s.frameCrossed ch.toNat then s.setChain ch.toNat { s.chain ch.toNat with frameStart := 32 * (s.cyc / 32) } else s) := by
  have hexec : exec (.tddFrameStart ch) s = execTddFrameStart ch s := rfl
  simp [hexec, execTddFrameStart, hsched, hend]

end

/-- The state with the switch point at cycle `f` taken (R156). -/
def pointTaken (s : State) (c f : Nat) : State := s.setChain c { s.chain c with lastPoint := f }

theorem pointTaken_moves (s : State) (c f : Nat) : Moves c { s.chain c with lastPoint := f } s (pointTaken s c f) := Moves.setChain ..

section
variable {point : BitVec 4} {p : TddPoint} (hpoint : (s.chainCfg ch.toNat).points[point.toNat]? = some p)
include hpoint

/-- A point whose PREROLL has not begun, began before the join, or has been taken is passed over. -/
theorem exec_switchPointPreroll_of_passed
    (h : s.cyc < s.prerollAt ch.toNat p (s.pointAt ch.toNat p) ∨ s.prerollAt ch.toNat p (s.pointAt ch.toNat p) < (s.chain ch.toNat).joinedAt ∨
      s.pointAt ch.toNat p = (s.chain ch.toNat).lastPoint) : exec (.switchPointPreroll ch point) s = .next s := by
  have hexec : exec (.switchPointPreroll ch point) s = execSwitchPointPreroll ch point s := rfl
  simp only [hexec, execSwitchPointPreroll, hpoint]
  refine if_neg fun hall => ?_
  simp only [Bool.and_eq_true, decide_eq_true_eq, bne_iff_ne] at hall
  obtain ⟨⟨⟨-, hbegun⟩, hjoined⟩, hnew⟩ := hall
  omega

theorem exec_switchPointPreroll_of_due (hsched : s.onSchedule ch.toNat = true) (hjoined : (s.chain ch.toNat).joined = true)
    (hbegun : s.prerollAt ch.toNat p (s.pointAt ch.toNat p) ≤ s.cyc)
    (hsince : (s.chain ch.toNat).joinedAt ≤ s.prerollAt ch.toNat p (s.pointAt ch.toNat p))
    (hnew : s.pointAt ch.toNat p ≠ (s.chain ch.toNat).lastPoint) :
    exec (.switchPointPreroll ch point) s =
      .next ((pointTaken s ch.toNat (s.pointAt ch.toNat p)).pointDue ch.toNat (s.pointAt ch.toNat p) p) := by
  have hexec : exec (.switchPointPreroll ch point) s = execSwitchPointPreroll ch point s := rfl
  simp only [hexec, execSwitchPointPreroll, hpoint]
  exact if_pos (by simp [hsched, hjoined, hbegun, hsince, hnew])

end

section
variable {c at_ : Nat} {p : TddPoint}

theorem pointDue_of_harbour (htx : p.toTx = true) (hharbour : s.boot.harbour = true) :
    s.pointDue c at_ p = s.inc (F.chFeCnt0SkipCnt c) (F.chFeCnt0SkOvf c) := if_pos (by simp [htx, hharbour])

/-- A chain in RECEIVE with nothing under way begins its switch at a point toward TRANSMIT. -/
theorem pointDue_of_receive (htx : p.toTx = true) (hharbour : s.boot.harbour = false) (hst : (s.chain c).st = .receive)
    (hseq : (s.chain c).seq = none) (hentered : (s.chain c).enteredAt ≤ s.prerollAt c p at_) :
    s.pointDue c at_ p = s.enterSwitch c .transmit (some at_) := by
  have hafter : ¬ s.prerollAt c p at_ < (s.chain c).enteredAt := hentered.not_gt
  simp [pointDue, htx, hharbour, lockHolds, calHolds, hst, hseq, hafter]

end

/-! ### Calibration timers (R161, R162) -/

theorem lowCal_eq_some {m : BitVec 8} {p : Nat → Bool} {j : Nat} (hj : j < 8) (hbit : m.getLsbD j = true) (hp : p j = true)
    (hlow : ∀ i, i < j → m.getLsbD i = false ∨ p i = false) : lowCal m 0 p = some j := by
  rw [lowCal, List.find?_eq_some_iff_getElem]
  refine ⟨by simp [hbit, hp], j, by simpa using hj, List.getElem_range _, fun i hi => ?_⟩
  rw [List.getElem_range]
  obtain h | h := hlow i hi <;> simp [h]

theorem Moves.startCal (s : State) (c k : Nat) :
    Moves c (s.runsFor c { s.chain c with
      st := if (s.chain c).st = .receive then .receive else .calibrating
      calBusy := true, calRun := BitVec.ofNat 3 k, scratch := [] } (8 + k) 0 none) s (s.startCal c k) :=
  Moves.thenStart (x := { s.chain c with
    st := if (s.chain c).st = .receive then .receive else .calibrating
    calBusy := true, calRun := BitVec.ofNat 3 k, scratch := [] }) (Moves.setChain ..) rfl ..

theorem exec_calGapStart_of_fit {j : Nat} (hseq : (s.chain ch.toNat).seq = none)
    (hst : (s.chain ch.toNat).st ≠ .calibrating) (hlow : lowCal (s.chain ch.toNat).pending 0 (s.calFits ch.toNat) = some j) :
    exec (.calGapStart ch) s = .next (s.startCal ch.toNat j) := by
  have hexec : exec (.calGapStart ch) s = execCalGapStart ch s := rfl
  simp [hexec, execCalGapStart, hseq, hst, hlow]

theorem exec_calReqTimeout_of_expired {j : BitVec 3} {d : Nat} (hreq : assoc (s.chain ch.toNat).reqDue j.toNat = some d) (hdue : d ≤ s.cyc)
    (hidle : ¬ ((s.chain ch.toNat).calBusy = true ∧ (s.chain ch.toNat).calRun = j)) :
    exec (.calReqTimeout ch j) s = .next (s.refuseCal ch.toNat j.toNat) := by
  have hexec : exec (.calReqTimeout ch j) s = execCalReqTimeout ch j s := rfl
  simp only [hexec, execCalReqTimeout, hreq, if_neg hdue.not_gt]
  exact if_neg (by simpa using hidle)

/-- A refused request is pending no longer, and the refusal is noted. -/
theorem refuseCal_answers {c k : Nat} (hroom : s.intakeRoom 1 = true) :
    let t := s.refuseCal c k
    (t.chain c = { s.chain c with
      pending := (s.chain c).pending &&& ~~~(1#8 <<< k), reqDue := (s.chain c).reqDue.filter (fun p => p.1 != k), result := 4 }) ∧
      (∀ d, d ≠ c → t.chain d = s.chain d) ∧ s.sentNow t (srcCh c) 56 0 (Config.msgContext (srcCh c) 56 (16 + k)) := by
  intro t
  have hanswer := (Moves.setChain s c { s.chain c with
    pending := (s.chain c).pending &&& ~~~(1#8 <<< k), reqDue := (s.chain c).reqDue.filter (fun p => p.1 != k) }).thenSet
      fun h => { h with result := 4 }
  refine ⟨(report_chain ..).trans hanswer.own, fun d hd => (report_chain ..).trans (hanswer.others d hd), ?_⟩
  exact sentNow_report hanswer.terms _ _ _ _ (by rwa [intakeRoom_of_fc hanswer.fc])

theorem exec_bgIntervalExpiry_of_due {j : BitVec 3} {n : Nat} (hdone : assoc (s.chain ch.toNat).committedAt j.toNat = some t0)
    (hint : assoc (s.chainCfg ch.toNat).bgInt j.toNat = some n) (hmode : s.rdB (F.chFeCfgCalMode ch.toNat) = true)
    (hback : (s.chainCfg ch.toNat).background.getLsbD j.toNat = true) (hdue : t0 + nsCyc n ≤ s.cyc) :
    let c := ch.toNat
    exec (.bgIntervalExpiry ch j) s = .next (s.setChain c { s.chain c with pending := (s.chain c).pending ||| (1#8 <<< j.toNat) }) := by
  intro c
  have hexec : exec (.bgIntervalExpiry ch j) s = execBgIntervalExpiry ch j s := rfl
  have hpend : s.pendCal c j.toNat = s.setChain c { s.chain c with pending := (s.chain c).pending ||| (1#8 <<< j.toNat) } := by
    rw [pendCal, if_pos hmode]
  simp only [hexec, execBgIntervalExpiry, hdone, hint]
  exact (if_pos (by simp [hmode, hback, hdue])).trans (by rw [hpend])

end

/-- Settles O40: where it is due, each event is one update of its chain, with the sequence it starts and the count of a switch or of a skipped point; a commitment's verdicts outlast what the chain goes on to. -/
theorem chainTransitions : Obligations.ChainTransitions := by
  unfold Obligations.ChainTransitions
  intro s ch c k goes
  refine ⟨fun r hseq _ hearly => exec_sequenceComplete_of_early hseq hearly, fun r hseq hended hdue => ?_,
    fun t0 hsettle hdue hst hstartup hheld hlive => ?_, fun t0 hsettle hdue hst hheld howed => ?_, fun hsched => ?_,
    fun point p hpoint htx hsched hjoined => ?_, fun j hseq hlive hst hj hbit hfits hlow => ?_, fun j d hreq hdue hidle hroom => ?_,
    fun j t0 n hdone hint hmode hback hdue => (Moves.setChain ..).done (exec_bgIntervalExpiry_of_due hdone hint hmode hback hdue)⟩
  · have hexec : exec (.sequenceComplete ch) s = .next (s.seqDone c r) := exec_sequenceComplete_of_due hseq hended hdue
    refine ⟨fun hslot hst => ?_, fun hslot hst => ?_, fun hslot hst hlive => ?_, fun hcal => ?_⟩
    · rw [seqDone_of_switching hslot hst] at hexec
      exact (Moves.setChain ..).done hexec
    · rw [seqDone_of_synthLocking hslot hst] at hexec
      exact (Moves.setChain ..).done hexec
    · rw [seqDone_of_biasing hslot hst] at hexec
      exact ((Moves.enterLock ..).runs hlive).done hexec
    · have hcommits : Commits c (r.slot.toNat - 8) s (s.seqDone c r) := seqDone_of_cal hcal
      exact ⟨_, hexec, hcommits.done, hcommits.pending, hcommits.fails, hcommits.timeHi, hcommits.timeLo, hcommits.others⟩
  · have hback : Moves c (s.switchingTo c { s.chain c with settleAt := none, calFromLock := false } (s.lockReturn c) none) s _ :=
      (lockFreed_moves s c).thenSwitch rfl ..
    exact (hback.runs hlive).done (exec_synthSettleElapsed_of_clear hsettle hdue hst hstartup hheld)
  · obtain ⟨t, hexec, henters⟩ := switchSettle_enters hsettle hdue hst hheld howed
    exact ⟨t, hexec, henters.own, henters.others, henters.counts, henters.frame⟩
  · refine ⟨fun e hend hdue => ?_, fun e hend hearly => ?_, fun hend hcrossed => ?_, fun hend hcrossed => ?_⟩
    · exact (Moves.setChain ..).done ((exec_tddFrameStart_of_end hsched hend).trans (by rw [if_pos hdue]))
    · rw [exec_tddFrameStart_of_end hsched hend, if_neg hearly.not_ge]
    · exact (Moves.setChain ..).done ((exec_tddFrameStart_of_edge hsched hend).trans (by rw [if_pos hcrossed]))
    · rw [exec_tddFrameStart_of_edge hsched hend, if_neg (by rw [hcrossed]; decide)]
  · intro f begins
    refine ⟨exec_switchPointPreroll_of_passed hpoint, fun hbegun hsince hnew => ?_⟩
    have hexec : exec (.switchPointPreroll ch point) s = .next ((pointTaken s c f).pointDue c f p) :=
      exec_switchPointPreroll_of_due hpoint hsched hjoined hbegun hsince hnew
    have htake := pointTaken_moves s c f
    refine ⟨fun hharbour => ?_, fun hharbour hst hseq hentered hlive => ?_⟩
    · rw [pointDue_of_harbour (s := pointTaken s c f) htx hharbour] at hexec
      have hskip := htake.thenCount (skipCounter c)
      exact ⟨_, hexec, hskip.own, hskip.others, hskip.counts⟩
    · have hbegins : (pointTaken s c f).pointDue c f p = (pointTaken s c f).enterSwitch c .transmit (some f) :=
        pointDue_of_receive htx hharbour (by rw [htake.own]; exact hst) (by rw [htake.own]; exact hseq) (by rw [htake.own]; exact hentered)
      rw [hbegins] at hexec
      exact ((htake.thenSwitch rfl .transmit (some f)).runs hlive).done hexec
  · have hcal : k.st ≠ .calibrating := by obtain h | h := hst <;> rw [h] <;> decide
    exact ((Moves.startCal s c j).runs hlive).done (exec_calGapStart_of_fit hseq hcal (lowCal_eq_some hj hbit hfits hlow))
  · obtain ⟨hown, hothers, hsent⟩ := refuseCal_answers (c := c) (k := j.toNat) hroom
    exact ⟨_, exec_calReqTimeout_of_expired hreq hdue hidle, hothers, hown, hsent⟩

end Sys2Proof.Machine
end

section
/-! The coexistence ports: what the demand at a port may touch, and the held cause of the band paths bound to it (R137, R165, R166, R400). -/

namespace Sys2Proof.Machine.State

/-! ### Demand at a port (R165) -/

/-- What a change of demand at port `k` may do: its REQ and PRI with their timers, the count of requests, and nothing at a port that is no requester. -/
structure Demands (k : Nat) (s t : State) : Prop where
  frame : t = { s with bps := t.bps, taps := t.taps, cx := t.cx, regs := t.regs }
  ports : ∀ j, j ≠ k → t.cxPort j = s.cxPort j
  gnt : (t.cxPort k).gnt = (s.cxPort k).gnt
  reg : ∀ a, a ≠ (F.cxStatGrantCnt k).addr → t.reg a = s.reg a
  withdrawn : t.rd (F.cxStatWdCnt k) = s.rd (F.cxStatWdCnt k)
  other : s.rd (F.cxCtrlRole k) ≠ 1 → t.cxPort k = s.cxPort k ∧ t.regs = s.regs

section
variable {k n : Nat} {s t u : State}

theorem Demands.refl (k : Nat) (s : State) : Demands k s s := ⟨rfl, fun _ _ => rfl, rfl, fun _ _ => rfl, rfl, fun _ => ⟨rfl, rfl⟩⟩

/-- Band paths and taps alone have changed. -/
theorem Demands.of_bps (h : t = { s with bps := t.bps, taps := t.taps }) : Demands k s t := by
  have hcx : t.cx = s.cx := by rw [h]
  have hregs : t.regs = s.regs := by rw [h]
  have hport : ∀ j, t.cxPort j = s.cxPort j := fun j => by rw [State.cxPort, hcx]; rfl
  have hreg : ∀ a, t.reg a = s.reg a := fun a => by rw [State.reg, hregs]; rfl
  exact ⟨h.trans (by rw [hcx, hregs]), fun j _ => hport j, by rw [hport], fun a _ => hreg a, by rw [State.rd, hreg]; rfl, fun _ => ⟨hport k, hregs⟩⟩

theorem Demands.role (h : Demands k s t) : t.rd (F.cxCtrlRole k) = s.rd (F.cxCtrlRole k) := by
  rw [State.rd, h.reg _ (by simp only [F.cxCtrlRole, F.cxStatGrantCnt]; omega)]
  rfl

theorem Demands.trans (h : Demands k s t) (g : Demands k t u) : Demands k s u := by
  refine ⟨g.frame.trans (by rw [h.frame]), fun j hj => (g.ports j hj).trans (h.ports j hj), g.gnt.trans h.gnt,
    fun a ha => (g.reg a ha).trans (h.reg a ha), g.withdrawn.trans h.withdrawn, fun hrole => ?_⟩
  obtain ⟨hport, hregs⟩ := h.other hrole
  obtain ⟨hport', hregs'⟩ := g.other (by rwa [h.role])
  exact ⟨hport'.trans hport, hregs'.trans hregs⟩

/-- A port's own record is replaced, but for its GNT. -/
theorem Demands.setCx {p : CxPort} (hrole : s.rd (F.cxCtrlRole k) = 1) (hgnt : p.gnt = (s.cxPort k).gnt) : Demands k s (s.setCx k p) :=
  ⟨rfl, fun _ hj => setCx_cxPort_ne s p hj, by rw [setCx_cxPort_same, hgnt], fun _ _ => rfl, rfl, fun h => absurd hrole h⟩

theorem inc_cxPort (s : State) (cnt ovf : Fld) (j : Nat) : (s.inc cnt ovf).cxPort j = s.cxPort j := by rw [inc_eq]; rfl

/-- The count of requests lies below that of withdrawals, in the same register. -/
theorem inc_requests_withdrawn (s : State) (k : Nat) :
    (s.inc (F.cxStatGrantCnt k) (F.cxStatGrOvf k)).rd (F.cxStatWdCnt k) = s.rd (F.cxStatWdCnt k) := by
  have hbelow : ∀ (r : State) (f : Fld) v, f.lo ≤ f.hi → f.hi < 20 → (r.wr f v).rd (F.cxStatWdCnt k) = r.rd (F.cxStatWdCnt k) :=
    fun r f v hlo hhi => rd_wr_ne r f _ v (.inr (.inl hhi)) hlo (by simp [F.cxStatWdCnt]) (by simp [F.cxStatWdCnt])
  have hcnt : ∀ v, (s.wr (F.cxStatGrantCnt k) v).rd (F.cxStatWdCnt k) = s.rd (F.cxStatWdCnt k) := fun v =>
    hbelow s _ v (by simp [F.cxStatGrantCnt]) (by simp [F.cxStatGrantCnt])
  unfold inc
  dsimp only
  split
  · rw [hbelow _ _ 1 (by simp [F.cxStatGrOvf]) (by simp [F.cxStatGrOvf]), hcnt]
  · exact hcnt _

/-- A request of a requester is counted. -/
theorem Demands.request (hrole : s.rd (F.cxCtrlRole k) = 1) : Demands k s (s.inc (F.cxStatGrantCnt k) (F.cxStatGrOvf k)) :=
  ⟨by rw [inc_eq], fun j _ => inc_cxPort s _ _ j, by rw [inc_cxPort], fun _ ha => inc_reg_ne s ha ha, inc_requests_withdrawn s k,
    fun h => absurd hrole h⟩

theorem cxDemand_demands (k : Nat) (s : State) : Demands k s (s.cxDemand k) := by
  unfold cxDemand
  dsimp only
  split
  next hrole =>
    split
    · split
      · exact Demands.setCx hrole rfl
      · exact Demands.refl k s
    · split
      · exact Demands.setCx hrole rfl
      · refine Demands.trans ?_ (Demands.request hrole)
        exact Demands.setCx hrole rfl
  · exact Demands.refl k s

/-! ### A cause is held -/

theorem dropCapture_frame (s : State) (n : Nat) :
    s.dropCapture n = { s with bps := (s.dropCapture n).bps, taps := (s.dropCapture n).taps } := by
  unfold dropCapture
  dsimp only
  split <;> rfl

theorem leaveService_frame (s : State) (n : Nat) :
    s.leaveService n = { s with bps := (s.leaveService n).bps, taps := (s.leaveService n).taps } := by
  have hgate : (s.gateReset n).dropProbe n = { s with bps := ((s.gateReset n).dropProbe n).bps } := rfl
  rw [leaveService]
  generalize (s.gateReset n).dropProbe n = u at hgate
  exact (dropCapture_frame u n).trans (by rw [hgate])

/-- A cause that is set changes band paths and taps, and the port follows the band path's demand. -/
theorem setHeld_via (s : State) (n : Nat) {f : Held → Held} (h : anyHeld (f (s.bp n).prot.held) = true) :
    s.setHeld n f = s ∨ ∃ u : State, u = { s with bps := u.bps, taps := u.taps } ∧ s.setHeld n f = u.cxOf n := by
  have hcase := setHeld_cases s n f
  generalize f (s.bp n).prot.held = held at h hcase
  generalize s.setHeld n f = t at hcase
  cases hcase with
  | same => exact .inl rfl
  | mute p =>
    have hset : (s.noteHeld n held).setBp n { (s.noteHeld n held).bp n with prot := p } =
      { s with bps := ((s.noteHeld n held).setBp n { (s.noteHeld n held).bp n with prot := p }).bps } := rfl
    generalize (s.noteHeld n held).setBp n { (s.noteHeld n held).bp n with prot := p } = u at hset
    exact .inr ⟨u.leaveService n, (leaveService_frame u n).trans (by rw [hset]), rfl⟩
  | release =>
    refine .inr ⟨s.noteHeld n held, rfl, ?_⟩
    rw [release_of_blocked (.inr (by rw [noteHeld_bp]; exact h))]

theorem cxBound_of_img (h : t.img = s.img) (n : Nat) : t.cxBound n = s.cxBound n := by
  rw [cxBound, planN, plan, h]
  rfl

theorem setHeld_demands {f : Held → Held} (hbound : s.cxBound n = some k) (h : anyHeld (f (s.bp n).prot.held) = true) :
    Demands k s (s.setHeld n f) := by
  obtain hsame | ⟨u, hu, ht⟩ := setHeld_via s n h
  · rw [hsame]
    exact Demands.refl k s
  · have himg : u.img = s.img := by rw [hu]
    have hto : u.cxOf n = u.cxDemand k := by rw [cxOf, cxBound_of_img himg, hbound]
    rw [ht, hto]
    exact (Demands.of_bps hu).trans (cxDemand_demands k u)

/-- CX becomes a held cause of a band path, unless a replay keeps it. -/
def holdCx (s : State) (n : Nat) : State :=
  if s.replayMode && s.selected.contains n then s else s.setHeld n fun h => { h with cx := true }

theorem holdCx_holds (hbound : s.cxBound n = some k) (hlive : s.replayMode = false) :
    Demands k s (s.holdCx n) ∧ ((s.holdCx n).bp n).prot.held.cx = true ∧ s.otherBps (s.holdCx n) n := by
  have hhold : s.holdCx n = s.setHeld n fun h => { h with cx := true } := if_neg (by simp [hlive])
  have hset := setHeld_sets s n fun h => { h with cx := true }
  rw [hhold]
  exact ⟨setHeld_demands hbound (by simp [anyHeld]), by rw [hset.held], hset.others⟩

theorem Demands.replayMode (h : Demands k s t) : t.replayMode = s.replayMode := by
  rw [State.replayMode, show t.rpl = s.rpl by rw [h.frame]]
  rfl

theorem foldl_holdCx (l : List Nat) (hbound : ∀ n ∈ l, s.cxBound n = some k) (hlive : s.replayMode = false) :
    let t := l.foldl holdCx s
    Demands k s t ∧ (∀ n ∈ l, (t.bp n).prot.held.cx = true) ∧ ∀ n, n ∉ l → t.bp n = s.bp n := by
  induction l generalizing s with
  | nil => exact ⟨Demands.refl k s, fun _ hn => absurd hn List.not_mem_nil, fun _ _ => rfl⟩
  | cons m l ih =>
    obtain ⟨hdemands, hheld, hothers⟩ := holdCx_holds (hbound m List.mem_cons_self) hlive
    obtain ⟨htdemands, htheld, htothers⟩ := ih (s := s.holdCx m)
      (fun n hn => (cxBound_of_img (by rw [hdemands.frame]) n).trans (hbound n (List.mem_cons_of_mem m hn)))
      (hdemands.replayMode.trans hlive)
    refine ⟨hdemands.trans htdemands, fun n hn => ?_, fun n hn => ?_⟩
    · by_cases hnl : n ∈ l
      · exact htheld n hnl
      · obtain rfl := (List.mem_cons.mp hn).resolve_right hnl
        rw [List.foldl_cons, htothers n hnl]
        exact hheld
    · obtain ⟨hnm, hnl⟩ := not_or.mp (mt List.mem_cons.mpr hn)
      exact (htothers n hnl).trans (hothers n hnm)

theorem boundTo_of_img (h : t.img = s.img) (k : Nat) : t.boundTo k = s.boundTo k := by
  have hpresent : t.present = s.present := by
    funext n
    rw [present, plan, h]
    rfl
  rw [boundTo, planned, hpresent, funext (cxBound_of_img h)]
  rfl

/-- CX follows at once on every band path bound to the port, and on no other. -/
theorem cxCause_holds (k : Nat) (hlive : s.replayMode = false) :
    Demands k (s.offNever (some (BitVec.ofNat 2 k)) false) (s.cxCause k) ∧
      (∀ n ∈ s.boundTo k, ((s.cxCause k).bp n).prot.held.cx = true) ∧ ∀ n, n ∉ s.boundTo k → (s.cxCause k).bp n = s.bp n :=
  foldl_holdCx (s := s.offNever (some (BitVec.ofNat 2 k)) false) (s.boundTo k)
    (fun n hn => (cxBound_of_img (s := s) rfl n).trans (by simpa using (List.mem_filter.mp hn).2)) hlive

/-! ### The journal -/

theorem jPlace_frame (s : State) (ty : Nat) (cyc : Word) (m i : Nat) :
    (s.jPlace ty cyc m i).1 = { s with mem := (s.jPlace ty cyc m i).1.mem } := by
  induction m generalizing s i with
  | zero => rfl
  | succ m ih =>
    rw [jPlace]
    refine iteInduction (motive := fun r : State × Nat => r.1 = { s with mem := r.1.mem }) (fun _ => ?_) fun _ => rfl
    have hcells := List.foldlRecOn (motive := fun t : State => t = { s with mem := t.mem }) (List.range 4)
      (fun t j => t.setCell .hold (jAddr i + j) (s.cell .hold (jAddr ((i + 49151) % 49152) + j))) (show s = { s with mem := s.mem } from rfl)
      fun t ht j _ => by rw [setCell, ht]
    exact (ih ..).trans (by rw [hcells])

/-- An entry of the journal touches its words, the write-backs they end, the count of the journal and the channel that carries it. -/
theorem journal_frame (s : State) (ty detail : Nat) (cyc w2 w3 : Word) :
    s.journal ty detail cyc w2 w3 = { s with
      mem := (s.journal ty detail cyc w2 w3).mem, writeBacks := (s.journal ty detail cyc w2 w3).writeBacks
      rpl := (s.journal ty detail cyc w2 w3).rpl, lighters := (s.journal ty detail cyc w2 w3).lighters } := by
  unfold journal
  split
  · extract_lets i r s1 rpl s2
    have hplace : r.1 = { s with mem := r.1.mem } := jPlace_frame ..
    clear_value r
    have hentry : s1 = { r.1 with mem := s1.mem, writeBacks := s1.writeBacks } := memWrites_eq r.1 .hold _ _
    have h1 : s1 = { s with mem := s1.mem, writeBacks := s1.writeBacks } := hentry.trans (by rw [hplace])
    have h2 : s2 = { s with mem := s2.mem, writeBacks := s2.writeBacks, rpl := s2.rpl } :=
      congrArg (fun q : State => { q with rpl := s2.rpl }) h1
    clear_value s2
    rw [devServe, setLighter, h2]
  · rfl

/-! ### What an edge at a port notes -/

/-- What an edge at port `k` may leave before its cause follows: the port's own record, its counts, and entries of the journal. -/
structure Notes (k : Nat) (s t : State) : Prop where
  frame : t = { s with cx := t.cx, regs := t.regs, mem := t.mem, writeBacks := t.writeBacks, rpl := t.rpl, lighters := t.lighters }
  live : t.replayMode = s.replayMode
  ports : ∀ j, j ≠ k → t.cxPort j = s.cxPort j
  reg : ∀ a, a ≠ (F.cxStatGrantCnt k).addr → t.reg a = s.reg a

theorem Notes.refl (k : Nat) (s : State) : Notes k s s := ⟨rfl, rfl, fun _ _ => rfl, fun _ _ => rfl⟩

theorem Notes.trans (h : Notes k s t) (g : Notes k t u) : Notes k s u :=
  ⟨g.frame.trans (by rw [h.frame]), g.live.trans h.live, fun j hj => (g.ports j hj).trans (h.ports j hj),
    fun a ha => (g.reg a ha).trans (h.reg a ha)⟩

theorem Notes.setCx (k : Nat) (s : State) (p : CxPort) : Notes k s (s.setCx k p) :=
  ⟨rfl, rfl, fun _ hj => setCx_cxPort_ne s p hj, fun _ _ => rfl⟩

theorem Notes.inc (s : State) {cnt ovf : Fld} (hcnt : cnt.addr = (F.cxStatGrantCnt k).addr) (hovf : ovf.addr = (F.cxStatGrantCnt k).addr) :
    Notes k s (s.inc cnt ovf) := by
  refine ⟨?_, ?_, fun j _ => inc_cxPort s cnt ovf j, fun a ha => inc_reg_ne s (hcnt ▸ ha) (hovf ▸ ha)⟩
  · rw [inc_eq]
  · rw [inc_eq]; rfl

theorem journal_cxPort (s : State) (ty detail : Nat) (cyc w2 w3 : Word) (j : Nat) : (s.journal ty detail cyc w2 w3).cxPort j = s.cxPort j := by
  rw [journal_frame]
  rfl

theorem journal_reg (s : State) (ty detail : Nat) (cyc w2 w3 : Word) (a : Nat) : (s.journal ty detail cyc w2 w3).reg a = s.reg a := by
  rw [journal_frame]
  rfl

theorem Notes.journal (k : Nat) (s : State) (ty detail : Nat) (cyc w2 w3 : Word) : Notes k s (s.journal ty detail cyc w2 w3) :=
  ⟨by rw [journal_frame], replayMode_of_apart (journal_apart ..), fun j _ => journal_cxPort .., fun a _ => journal_reg ..⟩

theorem Notes.rd (h : Notes k s t) {f : Fld} (hf : f.addr ≠ (F.cxStatGrantCnt k).addr) : t.rd f = s.rd f := by
  rw [State.rd, h.reg _ hf]
  rfl

theorem Notes.boundTo (h : Notes k s t) : t.boundTo k = s.boundTo k := boundTo_of_img (by rw [h.frame]) k

theorem Notes.bp (h : Notes k s t) (n : Nat) : t.bp n = s.bp n := by
  rw [h.frame]
  rfl

/-- CX is held of the band paths bound to port `k` and changed on no other, and the other ports stand. -/
structure HoldsCx (k : Nat) (s t : State) : Prop where
  held : ∀ n ∈ s.boundTo k, (t.bp n).prot.held.cx = true
  bps : ∀ n, n ∉ s.boundTo k → t.bp n = s.bp n
  ports : ∀ j, j ≠ k → t.cxPort j = s.cxPort j

/-- What an edge leaves, and the cause that follows it. -/
theorem Notes.thenCause (h : Notes k s t) (hlive : s.replayMode = false) :
    HoldsCx k s (t.cxCause k) ∧ ((t.cxCause k).cxPort k).gnt = (t.cxPort k).gnt ∧
      (t.cxCause k).rd (F.cxStatWdCnt k) = t.rd (F.cxStatWdCnt k) ∧
      (s.rd (F.cxCtrlRole k) ≠ 1 → (t.cxCause k).cxPort k = t.cxPort k ∧ (t.cxCause k).regs = t.regs) := by
  obtain ⟨hdemands, hheld, hothers⟩ := cxCause_holds k (h.live.trans hlive)
  rw [h.boundTo] at hheld hothers
  refine ⟨⟨hheld, fun n hn => (hothers n hn).trans (h.bp n), fun j hj => (hdemands.ports j hj).trans (h.ports j hj)⟩,
    hdemands.gnt, hdemands.withdrawn, fun hrole => hdemands.other ?_⟩
  rwa [← h.rd (f := F.cxCtrlRole k) (by simp [F.cxCtrlRole, F.cxStatGrantCnt])] at hrole

/-- What an edge leaves, and the cause's removal 2 CLK_S cycles later. -/
theorem Notes.thenSoon (h : Notes k s t) :
    (t.offSoon (some (BitVec.ofNat 2 k)) false).bps = s.bps ∧
      (∀ j, j ≠ k → (t.offSoon (some (BitVec.ofNat 2 k)) false).cxPort j = s.cxPort j) ∧
      ⟨some (BitVec.ofNat 2 k), s.cyc + 16, false⟩ ∈ (t.offSoon (some (BitVec.ofNat 2 k)) false).heldOff := by
  have hcyc : t.cyc = s.cyc := by rw [h.frame]
  refine ⟨?_, h.ports, ?_⟩
  · rw [offSoon, h.frame]
  · rw [← hcyc]
    exact List.mem_append_right _ (List.mem_singleton.mpr rfl)

/-! ### A requester's GNT -/

theorem withdrawals (k : Nat) : Counter (F.cxStatWdCnt k) (F.cxStatWdOvf k) := by
  constructor <;> simp [F.cxStatWdCnt, F.cxStatWdOvf]

theorem requests (k : Nat) : Counter (F.cxStatGrantCnt k) (F.cxStatGrOvf k) := by
  constructor <;> simp [F.cxStatGrantCnt, F.cxStatGrOvf]

/-- The port with its GNT at a new level. -/
def gntPort (s : State) (k : Nat) (high : Bool) : CxPort :=
  { s.cxPort k with gnt := high, reqFrom := if high then none else if (s.cxPort k).req then some s.cyc else none }

/-- The state with GNT at a new level, a fall of it counted. -/
def gntCounted (s : State) (k : Nat) (high : Bool) : State :=
  if high then s.setCx k (s.gntPort k high) else (s.setCx k (s.gntPort k high)).inc (F.cxStatWdCnt k) (F.cxStatWdOvf k)

/-- The state with the edge journalled too. -/
def gntNoted (s : State) (k : Nat) (high : Bool) : State :=
  (s.gntCounted k high).journal 4 (k * 8 + 2 + bit high) (s.gntCounted k high).cycW 0 0

theorem gntCounted_notes (s : State) (k : Nat) (high : Bool) :
    Notes k s (s.gntCounted k high) ∧ (s.gntCounted k high).cxPort k = s.gntPort k high := by
  have hset := Notes.setCx k s (s.gntPort k high)
  have hown := setCx_cxPort_same s k (s.gntPort k high)
  unfold gntCounted
  split
  · exact ⟨hset, hown⟩
  · exact ⟨hset.trans (Notes.inc _ rfl rfl), (inc_cxPort ..).trans hown⟩

theorem gntNoted_notes (s : State) (k : Nat) (high : Bool) :
    Notes k s (s.gntNoted k high) ∧ (s.gntNoted k high).cxPort k = s.gntPort k high :=
  have h := gntCounted_notes s k high
  ⟨h.1.trans (Notes.journal ..), (journal_cxPort ..).trans h.2⟩

theorem gntNoted_counts (s : State) (k : Nat) : s.countsOne (s.gntNoted k false) (F.cxStatWdCnt k) := by
  have hcount := countsOne_inc (s.setCx k (s.gntPort k false)) (withdrawals k)
  rwa [countsOne, gntNoted, rd, journal_reg]

theorem gntChange_of_fall (hrole : s.rd (F.cxCtrlRole k) = 1) (hgnt : (s.cxPort k).gnt = true) :
    s.gntChange k false = (s.gntNoted k false).cxCause k := if_pos ⟨hrole, by simp [hgnt]⟩

theorem gntChange_of_rise (hrole : s.rd (F.cxCtrlRole k) = 1) (hgnt : (s.cxPort k).gnt = false) :
    s.gntChange k true = (s.gntNoted k true).offSoon (some (BitVec.ofNat 2 k)) false := if_pos ⟨hrole, by simp [hgnt]⟩

/-! ### A grantor's REQ -/

/-- The state with a change of a level journalled, where it is one. -/
def levelNoted (s : State) (changed : Bool) (detail : Nat) : State := if changed then s.journal 4 detail s.cycW 0 0 else s

/-- The state with the edges of REQ and PRI journalled and a new request counted. -/
def reqNoted (s : State) (k : Nat) (req pri : Bool) : State :=
  let t := (s.levelNoted (req != (s.cxPort k).req) (k * 8 + bit req)).levelNoted (pri != (s.cxPort k).pri) (k * 8 + 4 + bit pri)
  (if req && !(s.cxPort k).req then t.inc (F.cxStatGrantCnt k) (F.cxStatGrOvf k) else t).setCx k { s.cxPort k with req := req, pri := pri }

theorem levelNoted_notes (k : Nat) (s : State) (changed : Bool) (detail : Nat) :
    Notes k s (s.levelNoted changed detail) ∧ (s.levelNoted changed detail).regs = s.regs := by
  unfold levelNoted
  split
  · exact ⟨Notes.journal .., by rw [journal_frame]⟩
  · exact ⟨Notes.refl k s, rfl⟩

theorem reqNoted_notes (s : State) (k : Nat) (req pri : Bool) :
    Notes k s (s.reqNoted k req pri) ∧ (s.reqNoted k req pri).cxPort k = { s.cxPort k with req := req, pri := pri } ∧
      (req = true → (s.cxPort k).req = false → s.countsOne (s.reqNoted k req pri) (F.cxStatGrantCnt k)) := by
  obtain ⟨hreq, hreqs⟩ := levelNoted_notes k s (req != (s.cxPort k).req) (k * 8 + bit req)
  obtain ⟨hpri, hpris⟩ := levelNoted_notes k (s.levelNoted (req != (s.cxPort k).req) (k * 8 + bit req)) (pri != (s.cxPort k).pri) (k * 8 + 4 + bit pri)
  have hlevels := hreq.trans hpri
  have hregs := hpris.trans hreqs
  unfold reqNoted
  generalize levelNoted _ (pri != (s.cxPort k).pri) _ = t at hlevels hregs
  refine ⟨(hlevels.trans ?_).trans (Notes.setCx ..), setCx_cxPort_same .., fun hup hwas => ?_⟩
  · split
    · exact Notes.inc t rfl rfl
    · exact Notes.refl k t
  · have hcount := countsOne_inc t (requests k)
    have hrd : t.rd (F.cxStatGrantCnt k) = s.rd (F.cxStatGrantCnt k) := by
      rw [State.rd, State.reg, hregs]
      rfl
    rw [countsOne, hrd] at hcount
    rw [hup, hwas]
    exact hcount

/-- The port as its grantor yields. -/
def yieldPort (s : State) (k : Nat) : CxPort :=
  { s.cxPort k with yielding := true, grantAt := some (s.cyc + 8 * s.rd (F.cxCtrlGrantDelay k)) }

/-- The port as its grantor takes the band again. -/
def freedPort (s : State) (k : Nat) : CxPort := { s.cxPort k with yielding := false, grantAt := none, gnt := false }

/-- A request with PRI is yielded to under every policy (R166). -/
theorem cxJudge_of_privileged (hreq : (s.cxPort k).req = true) (hpri : (s.cxPort k).pri = true) (hyield : (s.cxPort k).yielding = false) :
    s.cxJudge k = (s.setCx k (s.yieldPort k)).cxCause k := by
  unfold cxJudge
  simp only [hreq, hpri, hyield, Bool.true_or, if_true]
  split <;> simp [yieldPort, hreq, hpri]

theorem cxJudge_of_release (hreq : (s.cxPort k).req = false) (hheld : (s.cxPort k).yielding = true ∨ (s.cxPort k).gnt = true) :
    s.cxJudge k = (s.setCx k (s.freedPort k)).offSoon (some (BitVec.ofNat 2 k)) false := by
  simp only [cxJudge, freedPort, hreq, if_pos hheld, Bool.false_eq_true, if_false]

/-! ### The ports as the statements put them -/

/-- A fall of GNT holds CX at once and is counted (R165). -/
theorem gntFall_holds (hrole : s.rd (F.cxCtrlRole k) = 1) (hgnt : (s.cxPort k).gnt = true) (hlive : s.replayMode = false) :
    ((s.gntChange k false).cxPort k).gnt = false ∧ HoldsCx k s (s.gntChange k false) ∧
      s.countsOne (s.gntChange k false) (F.cxStatWdCnt k) := by
  obtain ⟨hnotes, hport⟩ := gntNoted_notes s k false
  obtain ⟨hholds, hlow, hcount, -⟩ := hnotes.thenCause hlive
  rw [gntChange_of_fall hrole hgnt]
  exact ⟨by rw [hlow, hport]; rfl, hholds, hcount.trans (gntNoted_counts s k)⟩

/-- A rise of GNT changes no band path: CX is removed later (R165). -/
theorem gntRise_removes (hrole : s.rd (F.cxCtrlRole k) = 1) (hgnt : (s.cxPort k).gnt = false) :
    ((s.gntChange k true).cxPort k).gnt = true ∧ (s.gntChange k true).bps = s.bps ∧
      (∀ j, j ≠ k → (s.gntChange k true).cxPort j = s.cxPort j) ∧
      ⟨some (BitVec.ofNat 2 k), s.cyc + 16, false⟩ ∈ (s.gntChange k true).heldOff := by
  obtain ⟨hnotes, hport⟩ := gntNoted_notes s k true
  rw [gntChange_of_rise hrole hgnt]
  exact ⟨congrArg CxPort.gnt hport, hnotes.thenSoon⟩

/-- A privileged request to a grantor is counted and holds CX, and GRANT_DELAY begins (R166). -/
theorem request_yields (hrole : s.rd (F.cxCtrlRole k) = 2) (hreq : (s.cxPort k).req = false) (hyield : (s.cxPort k).yielding = false)
    (hlive : s.replayMode = false) :
    s.countsOne ((s.reqNoted k true true).cxJudge k) (F.cxStatGrantCnt k) ∧ HoldsCx k s ((s.reqNoted k true true).cxJudge k) ∧
      ((s.reqNoted k true true).cxJudge k).cxPort k = { s.cxPort k with
        req := true, pri := true, yielding := true, grantAt := some (s.cyc + 8 * s.rd (F.cxCtrlGrantDelay k)) } := by
  obtain ⟨hnotes, hport, hcount⟩ := reqNoted_notes s k true true
  have hcount := hcount rfl hreq
  generalize s.reqNoted k true true = t at hnotes hport hcount
  have hcyc : t.cyc = s.cyc := by rw [hnotes.frame]
  have hdelay : t.rd (F.cxCtrlGrantDelay k) = s.rd (F.cxCtrlGrantDelay k) := hnotes.rd (by simp [F.cxCtrlGrantDelay, F.cxStatGrantCnt])
  obtain ⟨hholds, -, -, hother⟩ := (hnotes.trans (Notes.setCx k t (t.yieldPort k))).thenCause hlive
  obtain ⟨hown, hregs⟩ := hother (by rw [hrole]; decide)
  rw [cxJudge_of_privileged (by rw [hport]) (by rw [hport]) (by rw [hport]; exact hyield)]
  refine ⟨?_, hholds, ?_⟩
  · rw [countsOne, State.rd, State.reg, hregs]
    exact hcount
  · rw [hown, setCx_cxPort_same, yieldPort, hport, hcyc, hdelay]

/-- The end of a request that is yielded to gives the band back: GNT falls at once and CX is removed later (R166). -/
theorem request_released (hheld : (s.cxPort k).yielding = true ∨ (s.cxPort k).gnt = true) :
    let t := (s.reqNoted k false false).cxJudge k
    t.bps = s.bps ∧ (∀ j, j ≠ k → t.cxPort j = s.cxPort j) ∧ ⟨some (BitVec.ofNat 2 k), s.cyc + 16, false⟩ ∈ t.heldOff ∧
      t.cxPort k = { s.cxPort k with req := false, pri := false, yielding := false, grantAt := none, gnt := false } := by
  obtain ⟨hnotes, hport, -⟩ := reqNoted_notes s k false false
  generalize s.reqNoted k false false = t at hnotes hport
  obtain ⟨hbps, hports, hoff⟩ := (hnotes.trans (Notes.setCx k t (t.freedPort k))).thenSoon
  rw [cxJudge_of_release (by rw [hport]) (by rw [hport]; exact hheld)]
  refine ⟨hbps, hports, hoff, ?_⟩
  exact (setCx_cxPort_same ..).trans (by rw [freedPort, hport])

/-- The port with its GNT driven high. -/
def grantedPort (s : State) (k : Nat) : CxPort := { s.cxPort k with gnt := true, grantAt := none }

end

end Sys2Proof.Machine.State

namespace Sys2Proof.Machine

open State

section
variable {s : State} {cx : CxId} {at' : Nat}

theorem exec_grantorReqChange_of_grantor (req pri : Bool) (hrole : s.rd (F.cxCtrlRole cx.toNat) = 2) :
    exec (.grantorReqChange cx req pri) s = .next ((s.reqNoted cx.toNat req pri).cxJudge cx.toNat) := by
  have hexec : exec (.grantorReqChange cx req pri) s = execGrantorReqChange cx req pri s := rfl
  rw [hexec, execGrantorReqChange]
  refine (if_pos hrole).trans ?_
  simp only [reqNoted, levelNoted, bne_iff_ne]

theorem exec_reqReleaseTimer_of_due (hrel : (s.cxPort cx.toNat).relAt = some at') (hdue : at' ≤ s.cyc) :
    exec (.reqReleaseTimer cx) s =
      .next (s.setCx cx.toNat { s.cxPort cx.toNat with req := false, pri := false, relAt := none, reqFrom := none }) := by
  have hexec : exec (.reqReleaseTimer cx) s = execReqReleaseTimer cx s := rfl
  simp only [hexec, execReqReleaseTimer, hrel, if_pos hdue]

theorem exec_reqUnanswered_of_due (hreq : (s.cxPort cx.toNat).reqFrom = some at') (hnoted : (s.cxPort cx.toNat).noted = false)
    (hdue : at' + secCyc ≤ s.cyc) :
    exec (.reqUnanswered cx) s =
      .next ((s.setCx cx.toNat { s.cxPort cx.toNat with noted := true }).note srcProt (Config.msgContext srcProt kNote cx.toNat)) := by
  have hexec : exec (.reqUnanswered cx) s = execReqUnanswered cx s := rfl
  simp [hexec, execReqUnanswered, hreq, hnoted, hdue]

theorem exec_grantDelayExpiry_of_due (hgrant : (s.cxPort cx.toNat).grantAt = some at') (hdue : at' ≤ s.cyc) :
    exec (.grantDelayExpiry cx) s =
      .next ((s.setCx cx.toNat (s.grantedPort cx.toNat)).inc (F.cxStatWdCnt cx.toNat) (F.cxStatWdOvf cx.toNat)) := by
  have hexec : exec (.grantDelayExpiry cx) s = execGrantDelayExpiry cx s := rfl
  simp only [hexec, execGrantDelayExpiry, hgrant, if_pos hdue]
  rfl

end

end Sys2Proof.Machine
end

section
/-! The converter lanes: loss and return of a receiving lane's lock, SYSREF misalignment, CRC errors, and the samples of a sending lane (R33, R34, R37, R57, R154). -/

namespace Sys2Proof.Machine.State

/-! ### Loss of lock (R37, R131) -/

/-- What the loss of donors may reach: band paths and taps, the coexistence ports, and the registers below CX's last. -/
structure LosesDonors (s t : State) : Prop where
  frame : t = { s with bps := t.bps, taps := t.taps, cx := t.cx, regs := t.regs }
  reg : ∀ a, 520 ≤ a → t.reg a = s.reg a

section
variable {c : Nat} {s t u : State}

theorem LosesDonors.refl (s : State) : LosesDonors s s := ⟨rfl, fun _ _ => rfl⟩

theorem LosesDonors.trans (h : LosesDonors s t) (g : LosesDonors t u) : LosesDonors s u :=
  ⟨g.frame.trans (by rw [h.frame]), fun a ha => (g.reg a ha).trans (h.reg a ha)⟩

theorem Demands.losesDonors {k : Nat} (h : Demands k s t) (hk : k < 4) : LosesDonors s t :=
  ⟨h.frame, fun a ha => h.reg a (by simp only [F.cxStatGrantCnt]; omega)⟩

theorem LosesDonors.cxOf (s : State) (n : Nat) : LosesDonors s (s.cxOf n) := by
  unfold State.cxOf
  split
  next hbound => exact (cxDemand_demands _ s).losesDonors (cxBound_lt hbound)
  · exact LosesDonors.refl s

theorem LosesDonors.of_bps (h : t = { s with bps := t.bps, taps := t.taps }) : LosesDonors s t :=
  (Demands.of_bps (k := 0) h).losesDonors (by decide)

/-- A cause that is set is the demand of one coexistence port at most. -/
theorem LosesDonors.setHeld (s : State) (n : Nat) {f : Held → Held} (h : anyHeld (f (s.bp n).prot.held) = true) :
    LosesDonors s (s.setHeld n f) := by
  obtain hsame | ⟨u, hu, hvia⟩ := setHeld_via s n h
  · rw [hsame]
    exact LosesDonors.refl s
  · rw [hvia]
    exact (LosesDonors.of_bps hu).trans (LosesDonors.cxOf u n)

theorem LosesDonors.donorLost (s : State) (n : Nat) : LosesDonors s (s.donorLost n) :=
  have hlost : LosesDonors s (s.setBp n { s.bp n with prot := s.lostProt n }) := LosesDonors.of_bps rfl
  hlost.trans (LosesDonors.setHeld _ n (f := fun h => { h with donor := true }) (by simp [anyHeld]))

/-- The band paths that watch donor `d` lose it (R131). -/
def watchersLose (s : State) (d : Nat) : State :=
  (s.watchers d).foldl (fun s w => if (s.bp w).prot.donorLost || s.replayMode then s else s.donorLost w) s

/-- The band paths fed by chain `c`. -/
def fedBy (s : State) (c : Nat) : List Nat := s.planned.filter fun n => s.chSource n == some c

theorem LosesDonors.watchersLose (s : State) (d : Nat) : LosesDonors s (s.watchersLose d) := by
  refine List.foldlRecOn (motive := LosesDonors s) _ _ (LosesDonors.refl s) fun t ht w _ => ?_
  split
  · exact ht
  · exact ht.trans (LosesDonors.donorLost t w)

/-- The state with the lock of chain `c` lost and noted, before the message; whether the sync header lock goes too is free. -/
def lockLost (s : State) (c : Nat) : State :=
  (s.free.2.setChain c { s.chain c with jrxLock := false, shLock := s.free.1.getLsbD 0 }).wr (F.chJrxStatLost c) 1

/-- The state with the message sent too. -/
def lockLostSent (s : State) (c : Nat) : State := (s.lockLost c).report (srcCh c) 7 1 (Config.msgContext (srcCh c) 7 0)

/-- The state with the watchers of its band paths told. -/
def lockLostTold (s : State) (c : Nat) : State := ((s.lockLostSent c).fedBy c).foldl watchersLose (s.lockLostSent c)

theorem lockLostTold_loses (s : State) (c : Nat) : LosesDonors (s.lockLostSent c) (s.lockLostTold c) :=
  List.foldlRecOn (motive := LosesDonors (s.lockLostSent c)) _ _ (LosesDonors.refl _) fun _ ht d _ => ht.trans (LosesDonors.watchersLose _ d)

theorem lockLostTold_chain (s : State) (c d : Nat) : (s.lockLostTold c).chain d = (s.lockLost c).chain d := by
  rw [(lockLostTold_loses s c).frame]
  exact report_chain ..

theorem lockLost_lost (s : State) (c : Nat) : (s.lockLostTold c).rdB (F.chJrxStatLost c) = true := by
  have hsent : (s.lockLostSent c).reg (F.chJrxStatLost c).addr = (s.lockLost c).reg (F.chJrxStatLost c).addr :=
    report_reg_ne _ _ _ _ _ (by simp only [F.chJrxStatLost, F.fcQueueDrop0]; omega)
  have hrd : (s.lockLost c).rd (F.chJrxStatLost c) = 1 := rd_wr_same _ (F.chJrxStatLost c) 1 (by simp [F.chJrxStatLost]) (by simp [F.chJrxStatLost])
  rw [rdB, rd, (lockLostTold_loses s c).reg _ (by simp only [F.chJrxStatLost]; omega), hsent, ← rd, hrd]
  rfl

theorem lockLost_sent (hroom : s.intakeRoom 1 = true) : s.sentNow (s.lockLostTold c) (srcCh c) 7 1 (Config.msgContext (srcCh c) 7 0) := by
  have hsent : s.sentNow (s.lockLostSent c) (srcCh c) 7 1 (Config.msgContext (srcCh c) 7 0) := sentNow_report rfl _ _ _ _ hroom
  rw [sentNow, (lockLostTold_loses s c).frame]
  exact hsent

/-! ### Return of lock (R37, R60) -/

/-- The state with the lock of chain `c` back and the message sent. -/
def lockBack (s : State) (c : Nat) : State :=
  (s.setChain c { s.chain c with jrxLock := true, shLock := true }).report (srcCh c) 7 0 (Config.msgContext (srcCh c) 7 1)

/-- A band path in service clears VALID for a start's count of samples (R60). -/
def clearsStart (s : State) (n : Nat) : State := if s.passing n && !s.replayMode then s.clearMore n (s.clearStart n) else s

/-- The state with VALID cleared on the band paths that chain `c` feeds. -/
def lockBackCleared (s : State) (c : Nat) : State := ((s.lockBack c).fedBy c).foldl clearsStart (s.lockBack c)

theorem chSource_of_img (h : t.img = s.img) (n : Nat) : t.chSource n = s.chSource n := by
  rw [chSource, plan, h]
  rfl

/-- Of a list of band paths each clears its VALID: no other changes, and nothing but band paths. -/
theorem foldl_clearsStart (l : List Nat) (s : State) :
    l.foldl clearsStart s = { s with bps := (l.foldl clearsStart s).bps } ∧ ∀ n, n ∉ l → (l.foldl clearsStart s).bp n = s.bp n := by
  induction l generalizing s with
  | nil => exact ⟨rfl, fun _ _ => rfl⟩
  | cons m l ih =>
    have hstep : s.clearsStart m = { s with bps := (s.clearsStart m).bps } ∧ ∀ n, n ≠ m → (s.clearsStart m).bp n = s.bp n := by
      unfold clearsStart
      split
      · exact ⟨rfl, fun _ hn => setBp_bp_ne s _ hn⟩
      · exact ⟨rfl, fun _ _ => rfl⟩
    obtain ⟨hframe, hothers⟩ := ih (s.clearsStart m)
    refine ⟨hframe.trans (by rw [List.foldl_cons, hstep.1]), fun n hn => ?_⟩
    obtain ⟨hnm, hnl⟩ := not_or.mp (mt List.mem_cons.mpr hn)
    exact (hothers n hnl).trans (hstep.2 n hnm)

theorem lockBackCleared_frame (s : State) (c : Nat) : s.lockBackCleared c = { s.lockBack c with bps := (s.lockBackCleared c).bps } :=
  (foldl_clearsStart _ _).1

theorem lockBackCleared_chain (s : State) (c d : Nat) :
    (s.lockBackCleared c).chain d = (s.setChain c { s.chain c with jrxLock := true, shLock := true }).chain d := by
  rw [lockBackCleared_frame]
  exact report_chain ..

theorem lockBackCleared_others (s : State) (c : Nat) {n : Nat} (hn : s.chSource n ≠ some c) : (s.lockBackCleared c).bp n = s.bp n := by
  have himg : (s.lockBack c).img = s.img := by rw [lockBack, report_eq]; rfl
  have hout : n ∉ (s.lockBack c).fedBy c := fun hin =>
    hn (by rw [← chSource_of_img himg]; simpa using (List.mem_filter.mp hin).2)
  refine ((foldl_clearsStart _ _).2 n hout).trans ?_
  rw [lockBack, report_eq]
  rfl

theorem lockBackCleared_sent (hroom : s.intakeRoom 1 = true) :
    s.sentNow (s.lockBackCleared c) (srcCh c) 7 0 (Config.msgContext (srcCh c) 7 1) := by
  have hsent : s.sentNow (s.lockBack c) (srcCh c) 7 0 (Config.msgContext (srcCh c) 7 1) := sentNow_report rfl _ _ _ _ hroom
  rw [sentNow, lockBackCleared_frame]
  exact hsent

/-! ### SYSREF misalignment (R34) -/

/-- A flag that is set stays set when another, or itself, is set. -/
theorem rdB_wr_one {f g : Fld} (hf : f.hi = f.lo) (hg : g.hi = g.lo) (hf' : f.hi < 40) (h : s.rdB f = true ∨ g = f) :
    (s.wr g 1).rdB f = true := by
  by_cases hgf : g = f
  · subst hgf
    rw [rdB, rd_wr_same s g 1 hg.ge hf', hg]
    simp
  · have hapart : g.addr ≠ f.addr ∨ g.hi < f.lo ∨ f.hi < g.lo := by
      by_contra hmeet
      refine hgf ?_
      obtain ⟨ga, gh, gl⟩ := g
      obtain ⟨fa, fh, fl⟩ := f
      simp only [Fld.mk.injEq] at *
      omega
    rw [rdB, rd_wr_ne s g f 1 hapart hg.ge hf.ge hf']
    exact h.resolve_right hgf

/-- The misalignment noted on the running lanes of chain `c`. -/
def misaligned (s : State) (c : Nat) : State :=
  let t := if (s.chain c).jrxLock then s.wr (F.chJrxStatSysrefMisalign c) 1 else s
  if (s.chain c).jtxRunning then t.wr (F.chJtxStatSysrefMisalign c) 1 else t

theorem misaligned_frame (s : State) (c : Nat) : s.misaligned c = { s with regs := (s.misaligned c).regs } := by
  unfold misaligned
  dsimp only
  split <;> split <;> rfl

/-- A flag that is set stays set over a misalignment. -/
theorem misaligned_keeps {f : Fld} (hf : f.hi = f.lo) (hf' : f.hi < 40) (h : s.rdB f = true) (c : Nat) : (s.misaligned c).rdB f = true := by
  unfold misaligned
  dsimp only
  split <;> split
  · exact rdB_wr_one hf rfl hf' (.inl (rdB_wr_one hf rfl hf' (.inl h)))
  · exact rdB_wr_one hf rfl hf' (.inl h)
  · exact rdB_wr_one hf rfl hf' (.inl h)
  · exact h

theorem misaligned_jrx (hlock : (s.chain c).jrxLock = true) : (s.misaligned c).rdB (F.chJrxStatSysrefMisalign c) = true := by
  unfold misaligned
  rw [if_pos hlock]
  have hset : (s.wr (F.chJrxStatSysrefMisalign c) 1).rdB (F.chJrxStatSysrefMisalign c) = true :=
    rdB_wr_one rfl rfl (by simp [F.chJrxStatSysrefMisalign]) (.inr rfl)
  dsimp only
  split
  · exact rdB_wr_one rfl rfl (by simp [F.chJrxStatSysrefMisalign]) (.inl hset)
  · exact hset

theorem misaligned_jtx (hrun : (s.chain c).jtxRunning = true) : (s.misaligned c).rdB (F.chJtxStatSysrefMisalign c) = true := by
  unfold misaligned
  dsimp only
  rw [if_pos hrun]
  exact rdB_wr_one rfl rfl (by simp [F.chJtxStatSysrefMisalign]) (.inr rfl)

theorem foldl_misaligned_keeps {f : Fld} (hf : f.hi = f.lo) (hf' : f.hi < 40) (l : List Nat) (h : s.rdB f = true) :
    (l.foldl misaligned s).rdB f = true :=
  List.foldlRecOn (motive := fun t : State => t.rdB f = true) _ _ h fun _ ht d _ => misaligned_keeps hf hf' ht d

/-- Over a list of chains only registers change, and each has the flags of its running lanes set. -/
theorem foldl_misaligned (l : List Nat) (s : State) :
    l.foldl misaligned s = { s with regs := (l.foldl misaligned s).regs } ∧
      (∀ c ∈ l, (s.chain c).jrxLock = true → (l.foldl misaligned s).rdB (F.chJrxStatSysrefMisalign c) = true) ∧
      ∀ c ∈ l, (s.chain c).jtxRunning = true → (l.foldl misaligned s).rdB (F.chJtxStatSysrefMisalign c) = true := by
  induction l generalizing s with
  | nil => exact ⟨rfl, fun _ hc => absurd hc List.not_mem_nil, fun _ hc => absurd hc List.not_mem_nil⟩
  | cons d l ih =>
    have hframe := misaligned_frame s d
    have hchain : ∀ c, (s.misaligned d).chain c = s.chain c := fun c => by rw [hframe]; rfl
    obtain ⟨hlframe, hjrx, hjtx⟩ := ih (s.misaligned d)
    refine ⟨hlframe.trans (by rw [List.foldl_cons, hframe]), fun c hc hlock => ?_, fun c hc hrun => ?_⟩
    · obtain rfl | hcl := List.mem_cons.mp hc
      · exact foldl_misaligned_keeps rfl (by simp [F.chJrxStatSysrefMisalign]) l (misaligned_jrx hlock)
      · exact hjrx c hcl (by rwa [hchain])
    · obtain rfl | hcl := List.mem_cons.mp hc
      · exact foldl_misaligned_keeps rfl (by simp [F.chJtxStatSysrefMisalign]) l (misaligned_jtx hrun)
      · exact hjtx c hcl (by rwa [hchain])

/-! ### CRC errors (R33) -/

theorem crcErrors (c : Nat) : Counter (F.chJrxCrcerrCount c) (F.chJrxCrcerrOvf c) := by
  constructor <;> simp [F.chJrxCrcerrCount, F.chJrxCrcerrOvf]

/-! ### The samples sent (R56, R57, R154) -/

theorem countSat_chains (s : State) (n k : Nat) : (s.countSat n k).chains = s.chains := by
  unfold countSat
  dsimp only
  split <;> rfl

theorem egressNco_chains (s : State) (n k : Nat) : (s.egressNco n k).2.chains = s.chains := by
  unfold egressNco narrowed
  dsimp only
  split
  · exact countSat_chains ..
  · rfl

/-- A contribution is added to the sum so far. -/
def addContribution (a : Cplx × State) (d : Nat × Nat) : Cplx × State := (a.1.add (a.2.egressNco d.1 d.2).1, (a.2.egressNco d.1 d.2).2)

/-- The sum of the contributions to the stream of chain `c`, and the state they leave. -/
def contributed (s : State) (c : Nat) : Cplx × State := (s.contributors c).foldl addContribution (Cplx.zero, s)

/-- The sample a sum is narrowed to (R57). -/
def jtxNarrow (x : Cplx) : Cplx := ⟨satS 16 (roundBits x.re 4), satS 16 (roundBits x.im 4)⟩

/-- The state after the contributions, a saturated sum counted. -/
def jtxCounted (s : State) (c : Nat) : State :=
  if jtxNarrow (s.contributed c).1 ≠ (⟨roundBits (s.contributed c).1.re 4, roundBits (s.contributed c).1.im 4⟩ : Cplx) then
    (s.contributed c).2.inc (F.chJtxSatcntCount c) (F.chJtxSatcntOvf c)
  else (s.contributed c).2

/-- The sample that goes out. -/
def jtxOutOf (s : State) (c : Nat) : Cplx := if (s.jtxCounted c).jtxBlank c then Cplx.zero else jtxNarrow (s.contributed c).1

theorem jtxCounted_chain (s : State) (c d : Nat) : (s.jtxCounted c).chain d = s.chain d := by
  have hsum : (s.contributed c).2.chains = s.chains :=
    List.foldlRecOn (motive := fun a : Cplx × State => a.2.chains = s.chains) _ _ rfl fun _ ha _ _ => (egressNco_chains ..).trans ha
  have hcounted : (s.jtxCounted c).chains = s.chains := by
    unfold jtxCounted
    split
    · rw [inc_eq]
      exact hsum
    · exact hsum
  rw [chain, hcounted]
  rfl

/-- A component of a sample stands in 16 bits. -/
def in16 (x : Cplx) : Prop := -32768 ≤ x.re ∧ x.re < 32768 ∧ -32768 ≤ x.im ∧ x.im < 32768

theorem satS16_mem (x : Int) : -32768 ≤ satS 16 x ∧ satS 16 x < 32768 := by
  obtain ⟨hlo, hhi⟩ := clampI_mem (signed_bounds_le 16) x
  exact ⟨hlo, Int.lt_of_le_sub_one hhi⟩

theorem in16_zero : in16 Cplx.zero := by simp [in16, Cplx.zero]

theorem in16_jtxOutOf (s : State) (c : Nat) : in16 (s.jtxOutOf c) := by
  unfold jtxOutOf
  split
  · exact in16_zero
  · exact ⟨(satS16_mem _).1, (satS16_mem _).2, satS16_mem _⟩

/-- Blanked outside TRANSMIT (R154). -/
theorem jtxOutOf_blank (hst : (s.chain c).st ≠ .transmit) : s.jtxOutOf c = Cplx.zero :=
  if_pos (by rw [jtxBlank, jtxCounted_chain]; simpa using hst)

/-- Of the chains only `c` has changed, and of it only the sample sent, which is `x` now. -/
theorem setJtxOut_moves (x : Cplx) (hchain : ∀ d, t.chain d = s.chain d) :
    let u := t.setChain c { t.chain c with jtxOut := x }
    (∀ d, d ≠ c → u.chain d = s.chain d) ∧ u.chain c = { s.chain c with jtxOut := x } :=
  ⟨fun d hd => (setChain_chain_ne t _ hd).trans (hchain d), (setChain_chain_same ..).trans (by rw [hchain])⟩

end

end Sys2Proof.Machine.State

namespace Sys2Proof.Machine

open State

section
variable {s : State} {ch : ChainId}

theorem exec_jrxLockLost_of_locked (h : (s.chain ch.toNat).jrxLock = true) : exec (.jrxLockLost ch) s = .next (s.lockLostTold ch.toNat) :=
  if_pos h

theorem exec_jrxLockRegained_of_lost (h : (s.chain ch.toNat).jrxLock = false) :
    exec (.jrxLockRegained ch) s = .next (s.lockBackCleared ch.toNat) := if_neg (by simp [h])

theorem exec_sysrefMisalign (s : State) : exec .sysrefMisalign s = .next ((List.range 16).foldl misaligned s) := rfl

theorem exec_multiblockCrcFail (ch : ChainId) (s : State) :
    exec (.multiblockCrcFail ch) s = .next (s.inc (F.chJrxCrcerrCount ch.toNat) (F.chJrxCrcerrOvf ch.toNat)) := rfl

theorem exec_jtxSample_of_silent (h : s.rfOff = true ∨ (s.chain ch.toNat).jtxRunning = false) :
    exec (.jtxSample ch) s = .next (s.setChain ch.toNat { s.chain ch.toNat with jtxOut := Cplx.zero }) := if_pos (by simpa using h)

theorem exec_jtxSample_of_running (h : ¬ (s.rfOff = true ∨ (s.chain ch.toNat).jtxRunning = false)) :
    exec (.jtxSample ch) s = .next ((s.jtxCounted ch.toNat).setChain ch.toNat
      { (s.jtxCounted ch.toNat).chain ch.toNat with jtxOut := s.jtxOutOf ch.toNat }) := if_neg (by simpa using h)

end

end Sys2Proof.Machine
end

section
/-! Coexistence ports and converter lanes as the statement puts them (R165, R166, R33, R34, R37, R57, R154). -/

namespace Sys2Proof.Machine

open State

/-- Settles O41: an edge at a port notes itself and then sets the cause of each bound band path in turn, or has it removed later; a lane's event is its chain's update and its flag, and the donors it takes touch neither; a sample is a clamp to 16 bits. -/
theorem coexistenceAndLanes : Obligations.CoexistenceAndLanes := by
  unfold Obligations.CoexistenceAndLanes
  intro s cx ch k p c l held cxOnly
  have hcx : BitVec.ofNat 2 k = cx := by simp [k]
  refine ⟨fun hrole hgnt hlive => ?_, fun hrole hgnt hlive => ?_, fun t0 hrel hdue => ?_, fun t0 hreq hnoted hdue hroom => ?_,
    fun hrole hreq hyield hlive => ?_, fun hrole hheld hlive => ?_, fun t0 hgrant hdue => ?_, fun hlock hroom => ?_, fun hlock hroom => ?_, ?_, ?_, ?_⟩
  · obtain ⟨hlow, hholds, hcount⟩ := gntFall_holds hrole hgnt hlive
    exact ⟨_, rfl, hlow, ⟨hholds.held, hholds.bps, hholds.ports⟩, hcount⟩
  · obtain ⟨hhigh, hbps, hports, hoff⟩ := gntRise_removes hrole hgnt
    rw [hcx] at hoff
    exact ⟨_, rfl, hhigh, hbps, hports, hoff⟩
  · exact ⟨_, exec_reqReleaseTimer_of_due hrel hdue, fun _ hj => setCx_cxPort_ne s _ hj, rfl, setCx_cxPort_same ..⟩
  · refine ⟨_, exec_reqUnanswered_of_due hreq hnoted hdue, fun j hj => ?_, ?_, sentNow_report rfl _ _ _ _ hroom⟩
    · rw [note, report_eq]
      exact setCx_cxPort_ne s _ hj
    · rw [note, report_eq]
      exact setCx_cxPort_same ..
  · obtain ⟨hcount, hholds, hport⟩ := request_yields hrole hreq hyield hlive
    exact ⟨_, exec_grantorReqChange_of_grantor true true hrole, hcount, ⟨hholds.held, hholds.bps, hholds.ports⟩, hport⟩
  · obtain ⟨hbps, hports, hoff, hport⟩ := request_released hheld
    rw [hcx] at hoff
    exact ⟨_, exec_grantorReqChange_of_grantor false false hrole, hbps, hports, hoff, hport⟩
  · refine ⟨_, exec_grantDelayExpiry_of_due hgrant hdue, fun j hj => (inc_cxPort ..).trans (setCx_cxPort_ne s _ hj),
      (inc_cxPort ..).trans (setCx_cxPort_same ..), countsOne_inc (s.setCx k (s.grantedPort k)) (withdrawals k), ?_⟩
    rw [inc_eq]
    rfl
  · have hown : (s.lockLost c).chain c = { s.chain c with jrxLock := false, shLock := s.free.1.getLsbD 0 } := setChain_chain_same ..
    refine ⟨_, exec_jrxLockLost_of_locked hlock, ?_, fun d hd => ?_, lockLost_lost s c, lockLost_sent hroom⟩
    · rw [lockLostTold_chain, hown]
    · exact (lockLostTold_chain ..).trans (setChain_chain_ne s.free.2 _ hd)
  · exact ⟨_, exec_jrxLockRegained_of_lost hlock, (lockBackCleared_chain ..).trans (setChain_chain_same ..),
      fun d hd => (lockBackCleared_chain ..).trans (setChain_chain_ne s _ hd), lockBackCleared_sent hroom, fun n hn => lockBackCleared_others s c hn⟩
  · obtain ⟨hframe, hjrx, hjtx⟩ := foldl_misaligned (List.range 16) s
    have hc : c ∈ List.range 16 := List.mem_range.mpr ch.isLt
    exact ⟨_, exec_sysrefMisalign s, hframe, hjrx c hc, hjtx c hc⟩
  · exact ⟨_, exec_multiblockCrcFail ch s, countsOne_inc s (crcErrors c), inc_eq ..⟩
  · by_cases hsilent : s.rfOff = true ∨ l.jtxRunning = false
    · obtain ⟨hothers, hown⟩ := setJtxOut_moves (t := s) (c := c) Cplx.zero (fun _ => rfl)
      refine ⟨_, exec_jtxSample_of_silent hsilent, hothers, ?_⟩
      rw [hown]
      exact ⟨rfl, fun _ => rfl, in16_zero⟩
    · obtain ⟨hothers, hown⟩ := setJtxOut_moves (s.jtxOutOf c) (jtxCounted_chain s c)
      refine ⟨_, exec_jtxSample_of_running hsilent, hothers, ?_⟩
      rw [hown]
      refine ⟨rfl, fun hwhy => jtxOutOf_blank ?_, in16_jtxOutOf s c⟩
      exact (or_assoc.mpr hwhy).resolve_left hsilent

end Sys2Proof.Machine
end

section
/-! What a write of a measurement or loop register finds: the journal and a replay's decision change stored words, the journal's account, its channels and the intake alone (R255, R400, R405, R434, R436). -/

namespace Sys2Proof.Machine.State

/-! ### What lies outside the measurement block -/

/-- The register lies from the measurement block up to the chains, and is not MEAS_REQ or CAL_CMD, which hold the last request alone (R432). -/
def inMeasBlock (a : Nat) : Prop := 384 ≤ a ∧ a < 1024 ∧ a ≠ 385 ∧ a ≠ 390

/-- Stored words, the journal's account, the channels and the intake may have changed, and registers of other blocks; the latches stand. -/
structure Outside (s t : State) : Prop where
  frame : t = { s with
    regs := t.regs, mem := t.mem, writeBacks := t.writeBacks, rpl := t.rpl, lighters := t.lighters, fc := t.fc }
  latched : t.latched = s.latched
  reg : ∀ a, inMeasBlock a → t.reg a = s.reg a

section
variable {s t u : State}

theorem Outside.trans (h : Outside s t) (g : Outside t u) : Outside s u :=
  ⟨g.frame.trans (by rw [h.frame]), g.latched.trans h.latched, fun a ha => (g.reg a ha).trans (h.reg a ha)⟩

/-- Words, the journal's account and channels alone have changed. -/
theorem Outside.of_words (h : t = { s with mem := t.mem, writeBacks := t.writeBacks, rpl := t.rpl, lighters := t.lighters }) :
    Outside s t := by
  refine ⟨h.trans ?_, ?_, fun a _ => ?_⟩
  · rw [h]
  · rw [State.latched, h]; rfl
  · rw [State.reg, h]; rfl

theorem Outside.refl (s : State) : Outside s s := Outside.of_words rfl

/-! ### Counts, messages and reads of the protected store -/

theorem Outside.inc (s : State) {c o : Fld} (hc : ¬ inMeasBlock c.addr) (ho : ¬ inMeasBlock o.addr) : Outside s (s.inc c o) := by
  refine ⟨by rw [inc_eq], by rw [inc_eq]; rfl, fun a ha => inc_reg_ne s ?_ ?_⟩
  · rintro rfl; exact hc ha
  · rintro rfl; exact ho ha

theorem Outside.report (s : State) (src kind hint : Nat) (ctx : Word) : Outside s (s.report src kind hint ctx) := by
  refine ⟨by rw [report_eq], by rw [report_eq]; rfl, fun a ha => report_reg_ne s _ _ _ _ ?_⟩
  rintro rfl
  exact absurd ha.1 (by decide)

theorem Outside.countCorr (s : State) (k : MemSel) (a : Nat) : Outside s (s.countCorr k a) := by
  unfold State.countCorr
  split
  · exact Outside.inc s (by simp only [inMeasBlock, F.quayMemCorrCnt]; omega) (by simp only [inMeasBlock, F.quayMemCorrOvf]; omega)
  · exact Outside.inc s (by simp [inMeasBlock, F.holdMemCorrCnt]) (by simp [inMeasBlock, F.holdMemCorrOvf])
  · exact Outside.refl s

theorem Outside.countUnc (s : State) (k : MemSel) (a : Nat) : Outside s (s.countUnc k a) := by
  unfold State.countUnc
  split
  · exact Outside.inc s (by simp only [inMeasBlock, F.quayMemUncCnt]; omega) (by simp only [inMeasBlock, F.quayMemUncOvf]; omega)
  · exact Outside.inc s (by simp [inMeasBlock, F.holdMemUncCnt]) (by simp [inMeasBlock, F.holdMemUncOvf])
  · exact Outside.refl s

theorem Outside.memRead (s : State) (k : MemSel) (a src : Nat) : Outside s (s.memRead k a src).2 := by
  unfold State.memRead
  dsimp only
  split
  · exact Outside.countUnc ..
  · split
    · exact Outside.refl s
    · exact ((Outside.countCorr s k a).trans (Outside.report ..)).trans (Outside.of_words rfl)
    · exact Outside.trans (Outside.of_words rfl) (Outside.countUnc ..)

theorem Outside.readRun (s : State) (k : MemSel) (lo hi src : Nat) : Outside s (s.readRun k lo hi src).2 := by
  refine List.foldlRecOn (motive := fun acc : Option Nat × State => Outside s acc.2) _ _ (Outside.refl s) fun acc h a _ => ?_
  dsimp only
  split
  · exact h
  · exact h.trans (Outside.memRead ..)

/-! ### The journal and the decisions of a replay -/

theorem Outside.journal (s : State) (ty detail : Nat) (cyc w2 w3 : Word) : Outside s (s.journal ty detail cyc w2 w3) :=
  Outside.of_words (journal_frame ..)

theorem Outside.ltrStop (s : State) (n code : Nat) (side : Bool) (a : Int) : Outside s (s.ltrStop n code side a) :=
  Outside.trans (Outside.of_words rfl) (Outside.report ..)

theorem Outside.jTake (s : State) : Outside s s.jTake.2 := by
  unfold State.jTake
  extract_lets a r s1
  have h1 : Outside s s1 := Outside.of_words rfl
  split
  · exact h1
  · have hrun := h1.trans (Outside.readRun s1 .hold a (a + 4) srcHold)
    split
    next heq => rw [heq] at hrun; exact hrun.trans (Outside.of_words rfl)
    next heq => rw [heq] at hrun; exact hrun.trans (Outside.ltrStop ..)

theorem Outside.diverge (s : State) (kind unit pos : Nat) : Outside s (s.diverge kind unit pos) := by
  have hcount : Outside s (s.inc F.rplStatDivCnt F.rplStatDivOvf) :=
    Outside.inc s (by simp [inMeasBlock, F.rplStatDivCnt]) (by simp [inMeasBlock, F.rplStatDivOvf])
  unfold State.diverge
  dsimp only
  split
  · exact hcount
  · exact hcount.trans (Outside.of_words rfl)

theorem Outside.decision (s : State) (e : Nat) (mailbox : Bool) (w2 w3 : Word) : Outside s (s.decision e mailbox w2 w3) := by
  unfold State.decision
  dsimp only
  split
  · exact Outside.refl s
  · split
    · split
      · split
        · exact Outside.jTake s
        · exact (Outside.jTake s).trans (Outside.diverge ..)
      · exact Outside.diverge ..
    · exact Outside.journal ..

theorem Outside.liveEntry (s : State) (who a : Nat) (w mask : Word) : Outside s (s.liveEntry who a w mask) := by
  unfold State.liveEntry
  split
  · exact Outside.journal ..
  · split
    · exact Outside.refl s
    · exact Outside.journal ..

end

/-! ### What stands -/

section
variable {s q : State} (h : Outside s q)
include h

theorem Outside.img : q.img = s.img := by rw [h.frame]
theorem Outside.cyc : q.cyc = s.cyc := by rw [h.frame]
theorem Outside.meas : q.meas = s.meas := by rw [h.frame]
theorem Outside.mcs : q.mcs = s.mcs := by rw [h.frame]
theorem Outside.adcs : q.adcs = s.adcs := by rw [h.frame]
theorem Outside.loops : q.loops = s.loops := by rw [h.frame]
theorem Outside.terms : q.terms = s.terms := by rw [h.frame]; rfl
theorem Outside.mc (n : Nat) : q.mc n = s.mc n := by rw [State.mc, h.mcs]; rfl
theorem Outside.adc (n : Nat) : q.adc n = s.adc n := by rw [State.adc, h.adcs]; rfl
theorem Outside.loop (n : Nat) : q.loop n = s.loop n := by rw [State.loop, h.loops]; rfl
theorem Outside.mcCfg (m : Nat) : q.mcCfg m = s.mcCfg m := by rw [State.mcCfg, h.img]; rfl
theorem Outside.loopCfg (j : Nat) : q.loopCfg j = s.loopCfg j := by rw [State.loopCfg, h.img]; rfl
theorem Outside.rd {f : Fld} (hf : inMeasBlock f.addr) : q.rd f = s.rd f := by rw [State.rd, h.reg _ hf]; rfl

end

/-! ### An accepted write -/

/-- A write of `w` to register `a` has acted on `q`, what the journal and a replay's decision leave of `s`; the parity of the register is good again (R434, R438). -/
structure MeasWritten (s : State) (who : Requester) (a : Nat) (w : Word) (q t : State) : Prop where
  outside : Outside s q
  plain : s.plainWriter who → q.fc = s.fc
  effect : t = { q.writeFx (reqCode who) a w with parBad := t.parBad }

theorem takesWord_iff {s : State} {who : Requester} {a : Nat} {w : Word} :
    s.takesWord who a w = true ↔ s.canReach (reqCode who) = true ∧ s.writeAns a w = .ok := by
  rw [takesWord, Bool.and_eq_true, beq_iff_eq]

/-- The layout of a register changes for the shadow table of the classes alone (R388). -/
theorem rowsNow_of_meas (s : State) {a : Nat} (ha : 384 ≤ a) : s.rowsNow a = layout a := if_neg (by omega)

theorem reqWrite_measWritten {s : State} {who : Requester} {a : Nat} {w : Word} (ha : 384 ≤ a)
    (hrows : ∀ r ∈ (layout a).getD [], r.acc ≠ .w1c) (h : s.takesWord who a w = true) :
    ∃ q, MeasWritten s who a w q (s.reqWrite (reqCode who) a w).2 := by
  obtain ⟨hreach, hans⟩ := takesWord_iff.mp h
  obtain ⟨d, hd, hplain, hwrite⟩ : ∃ d, Outside s d ∧ (s.plainWriter who → d = s) ∧
      (s.reqWrite (reqCode who) a w).2 = d.acceptWrite (reqCode who) a w := by
    rw [reqWrite, if_pos hreach, hans]
    refine ⟨_, ?_, fun hp => ?_, rfl⟩
    · split
      · exact Outside.decision ..
      · exact Outside.refl s
    · split
      next hwho => exact decision_of_plain hp hwho.1 ..
      · rfl
  rw [hwrite]
  refine ⟨d.liveEntry (reqCode who) a w (d.effMask a w ((layout a).getD [])), hd.trans (Outside.liveEntry ..), fun hp => ?_, ?_⟩
  · rw [hplain hp]
    exact (liveEntry_fc_terms ..).1
  · rw [acceptWrite, rowsNow_of_meas d ha, clearW1c_of_none _ _ _ hrows]

theorem fieldWrite_measWritten {s : State} {who : Requester} {a : Nat} {l : List (Fld × Nat)} (ha : 384 ≤ a)
    (hrows : ∀ r ∈ (layout a).getD [], r.acc ≠ .w1c) (h : s.takes who a l = true) :
    ∃ q, MeasWritten s who a (s.wordOf who a l) q (s.fieldWrite who a l) :=
  reqWrite_measWritten ha hrows h

/-! ### The effects by block (R436) -/

section
variable (s : State) (who : Nat) (w : Word)

theorem writeFx_meas {a : Nat} (hlo : 384 ≤ a) (hhi : a < 480) : s.writeFx who a w = s.writeMeas who (a - 384) w := by
  rw [writeFx]
  iterate 9 rw [if_neg (by omega)]
  rw [if_pos hhi]

theorem writeFx_fe {a : Nat} (hlo : 480 ≤ a) (hhi : a < 704) : s.writeFx who a w = s.writeFe (a - 512) w := by
  rw [writeFx]
  iterate 10 rw [if_neg (by omega)]
  rw [if_pos hhi]

end

/-- A register that holds a request takes its word beside what lies outside the block. -/
theorem Outside.storeRequest (s : State) {a : Nat} (m w : Word) (ha : a = 385 ∨ a = 390) : Outside s (s.storeBits a m w) :=
  ⟨rfl, rfl, fun b hb => setReg_reg_ne s _ fun hba => by obtain ⟨-, -, h1, h2⟩ := hb; omega⟩

end Sys2Proof.Machine.State
end

section
/-! The converters: the start of a conversion, and what waits when one ends (R176, R177, R179, R180, R191). -/

namespace Sys2Proof.Machine.State

/-! ### The loops' set points at the sample instant (R191) -/

/-- A run over the loop slots replaces each slot that qualifies by its own successor, and touches nothing else. -/
theorem foldl_setLoop {s : State} {step : State → Nat → State} {p : Nat → Prop} [DecidablePred p] {f : Nat → LoopSt → LoopSt} {l : List Nat}
    (hnodup : l.Nodup)
    (hstep : ∀ t : State, t = { s with loops := t.loops } → ∀ j, step t j = if p j then t.setLoop j (f j (t.loop j)) else t) :
    l.foldl step s = { s with loops := (l.foldl step s).loops } ∧
      ∀ j, (l.foldl step s).loop j = if j ∈ l ∧ p j then f j (s.loop j) else s.loop j := by
  induction l generalizing s with
  | nil => exact ⟨rfl, fun j => by simp⟩
  | cons k l ih =>
    obtain ⟨hk, hl⟩ := List.nodup_cons.mp hnodup
    have hfirst : step s k = if p k then s.setLoop k (f k (s.loop k)) else s := hstep s rfl k
    have hframe : step s k = { s with loops := (step s k).loops } := by rw [hfirst]; split <;> rfl
    have hloop : ∀ j, (step s k).loop j = if j = k ∧ p k then f k (s.loop k) else s.loop j := fun j => by
      rw [hfirst]
      by_cases hp : p k
      · rw [if_pos hp]
        by_cases hj : j = k
        · subst hj; rw [setLoop_loop_same, if_pos ⟨rfl, hp⟩]
        · rw [setLoop_loop_ne _ _ hj, if_neg fun h => hj h.1]
      · rw [if_neg hp, if_neg fun h => hp h.2]
    obtain ⟨hrest, hrests⟩ := ih (s := step s k) hl fun t ht j => hstep t (ht.trans (by rw [hframe])) j
    rw [List.foldl_cons]
    refine ⟨hrest.trans (by rw [hframe]), fun j => ?_⟩
    rw [hrests, hloop]
    by_cases hj : j = k
    · subst hj
      simp [hk]
    · simp [hj]

theorem loopCfg_any_iff (s : State) (j : Nat) : s.img.loops.any (fun x => x.slot.toNat == j) = true ↔ s.loopCfg j ≠ none := by
  rw [loopCfg, Ne, List.find?_eq_none]
  simp

/-- The loops of a channel take the set point that stands now; nothing else changes. -/
theorem latchSp_loops (s : State) (m : Nat) : s.latchSp m = { s with loops := (s.latchSp m).loops } ∧
    ∀ j, j < 32 → (s.latchSp m).loop j = if s.rd (F.loopCtrlMc j) = m ∧ s.loopCfg j ≠ none then
      { s.loop j with spIn := ((s.cyc, s.rdS (F.loopSpSp j)) :: (s.loop j).spIn).take 3 } else s.loop j := by
  obtain ⟨hframe, hloop⟩ := foldl_setLoop (s := s) (l := List.range 32)
    (step := fun s j => if s.rd (F.loopCtrlMc j) = m ∧ s.img.loops.any (fun x => x.slot.toNat == j) then
      s.setLoop j { s.loop j with spIn := ((s.cyc, s.rdS (F.loopSpSp j)) :: (s.loop j).spIn).take 3 } else s)
    (p := fun j => s.rd (F.loopCtrlMc j) = m ∧ s.img.loops.any (fun x => x.slot.toNat == j))
    (f := fun j l => { l with spIn := ((s.cyc, s.rdS (F.loopSpSp j)) :: l.spIn).take 3 })
    List.nodup_range fun t ht j => by rw [ht]; rfl
  refine ⟨hframe, fun j hj => (hloop j).trans (if_congr ?_ rfl rfl)⟩
  rw [loopCfg_any_iff]
  simp [hj]

/-- The loops of a channel take a sample; nothing else changes. -/
theorem feedLoops_frame (s : State) (m at_ : Nat) (v : Int) (late : Bool) :
    s.feedLoops m at_ v late = { s with loops := (s.feedLoops m at_ v late).loops } :=
  List.foldlRecOn (motive := fun t : State => t = { s with loops := t.loops }) _ _ rfl fun t ht j _ => by
    dsimp only
    split
    · rw [setLoop, ht]
    · exact ht

/-! ### A conversion starts (R172, R176, R179) -/

/-- The conversion of a channel that starts now. -/
def convNow (s : State) (m : Nat) (k : ConvKind) (late sched : Bool) : Conv :=
  ⟨k, BitVec.ofNat 5 m, s.cyc, late, (match s.mcCfg m with | some g => s.pairMode g.input | none => false) && (s.mc m).nextHi, sched,
    s.nowHi, s.nowLo⟩

/-- Converter `a` has started `v`; its loops have their set points where it stands in the scan list, and an urgent one is counted. -/
structure Starts (a : Nat) (v : Conv) (s t : State) : Prop where
  frame : t = { s with adcs := t.adcs, loops := t.loops, regs := t.regs }
  own : t.adc a = { s.adc a with conv := some v }
  others : ∀ b, b ≠ a → t.adc b = s.adc b
  loops : t.loops = if v.sched then (s.latchSp v.mc.toNat).loops else s.loops
  regs : v.kind ≠ .urgent → t.regs = s.regs
  counts : v.kind = .urgent → s.countsOne t (F.adcStatUrgCnt a)

theorem urgents (a : Nat) : Counter (F.adcStatUrgCnt a) (F.adcStatUrgOvf a) := by
  refine ⟨rfl, ?_, ?_⟩ <;> simp [F.adcStatUrgCnt, F.adcStatUrgOvf]

/-- The count of an urgent conversion. -/
def urgentCounted (s : State) (a : Nat) (k : ConvKind) : State :=
  if k = .urgent then s.inc (F.adcStatUrgCnt a) (F.adcStatUrgOvf a) else s

theorem urgentCounted_frame (s : State) (a : Nat) (k : ConvKind) : s.urgentCounted a k = { s with regs := (s.urgentCounted a k).regs } := by
  unfold urgentCounted
  split
  · exact inc_eq ..
  · rfl

theorem startConv_eq (s : State) (a m : Nat) (k : ConvKind) (late sched : Bool) :
    s.startConv a m k late sched = (({ s with loops := if sched then (s.latchSp m).loops else s.loops } : State).setAdc a
      { s.adc a with conv := some (s.convNow m k late sched) }).urgentCounted a k := by
  cases sched with
  | false => rfl
  | true =>
    have hlatch := (latchSp_loops s m).1
    rw [startConv, if_pos rfl, if_pos rfl]
    generalize s.latchSp m = t at hlatch
    rw [hlatch]
    rfl

theorem startConv_starts (s : State) (a : Nat) {m : Nat} (hm : m < 32) (k : ConvKind) (late sched : Bool) :
    Starts a (s.convNow m k late sched) s (s.startConv a m k late sched) := by
  have hmc : (BitVec.ofNat 5 m).toNat = m := by simp; omega
  rw [startConv_eq]
  generalize hx : ({ s with loops := if sched then (s.latchSp m).loops else s.loops } : State) = x
  have hframe : x = { s with loops := x.loops } := by rw [← hx]
  have hadc : ∀ b, x.adc b = s.adc b := fun b => by rw [← hx]; rfl
  generalize hy : x.setAdc a { s.adc a with conv := some (s.convNow m k late sched) } = y
  have hcount := urgentCounted_frame y a k
  have hyframe : y = { s with adcs := y.adcs, loops := x.loops } := by rw [← hy, hframe]; rfl
  have hadcs : ∀ b, (y.urgentCounted a k).adc b = y.adc b := fun b => by rw [hcount]; rfl
  refine ⟨?_, ?_, fun b hb => ?_, ?_, fun hk => ?_, fun hk => ?_⟩
  · rw [hcount, hyframe]
  · rw [hadcs, ← hy, setAdc_adc_same]
  · rw [hadcs, ← hy, setAdc_adc_ne _ _ hb, hadc]
  · rw [hcount, hyframe, ← hx, convNow, hmc]
  · rw [urgentCounted, if_neg (show k ≠ .urgent from hk), hyframe]
  · rw [urgentCounted, if_pos (show k = .urgent from hk), countsOne, show s.rd (F.adcStatUrgCnt a) = y.rd (F.adcStatUrgCnt a) by rw [hyframe]; rfl]
    exact countsOne_inc y (urgents a)

/-! ### The slot of a free and of a busy converter (R176, R177, R180) -/

section
variable {s : State} {ad : AdcId}

theorem exec_scanConversionStart_of_off (h : s.cyc % 960 ≠ 0) : exec (.scanConversionStart ad) s = .next s := if_pos h

variable {w : Word}

theorem scanEntry_of_clean {a slot : Nat} (hcell : s.cell .scan (1024 * a + slot) = ⟨w, 0, false⟩) :
    s.scanEntry a slot = (if w.getLsbD 5 then some (bitsOf w 4 0) else none, s) := by
  rw [scanEntry, memRead_of_clean _ _ _ hcell]
  rfl

variable (hedge : s.cyc % 960 = 0) (hslot : s.slotNow ≠ 1023) (hcell : s.cell .scan (1024 * ad.toNat + s.slotNow) = ⟨w, 0, false⟩)
include hedge hslot hcell

theorem exec_scanConversionStart_of_due (hnamed : w.getLsbD 5 = true) (hfree : (s.adc ad.toNat).conv = none) :
    exec (.scanConversionStart ad) s = .next (s.startConv ad.toNat (bitsOf w 4 0) .scheduled false true) := by
  show execScanConversionStart ad s = _
  simp [execScanConversionStart, hedge, hslot, scanEntry_of_clean hcell, hnamed, hfree]

theorem exec_scanConversionStart_of_busy (hnamed : w.getLsbD 5 = true) (hbusy : (s.adc ad.toNat).conv ≠ none) :
    exec (.scanConversionStart ad) s = .next (s.setAdc ad.toNat { s.adc ad.toNat with
      late := (s.adc ad.toNat).late ++ [BitVec.ofNat 5 (bitsOf w 4 0)] }) := by
  obtain ⟨v, hv⟩ := Option.ne_none_iff_exists'.mp hbusy
  show execScanConversionStart ad s = _
  simp [execScanConversionStart, hedge, hslot, scanEntry_of_clean hcell, hnamed, hv]

/-- A free entry leaves the slot to the oldest ordinary request. -/
theorem exec_scanConversionStart_of_request {x : McId} {rest : List McId} (hentry : w.getLsbD 5 = false)
    (hfree : (s.adc ad.toNat).conv = none) (hlate : (s.adc ad.toNat).late = []) (hord : (s.adc ad.toNat).ordinary = x :: rest) :
    exec (.scanConversionStart ad) s = .next ((s.setAdc ad.toNat { s.adc ad.toNat with ordinary := rest }).startConv ad.toNat x.toNat
      .requested false false) := by
  have hnone : s.scanEntry ad.toNat s.slotNow = (none, s) := by rw [scanEntry_of_clean hcell, hentry]; rfl
  show execScanConversionStart ad s = _
  simp [execScanConversionStart, hedge, hslot, hnone, hfree, hlate, hord]

end

/-! ### Waiting work once a conversion has ended (R180) -/

section
variable {a : Nat} {s : State}

/-- Waiting work is left as it stands, or converter `a` starts its first: at most converters, loops and counts change. -/
theorem nextWork_frame (a : Nat) (s : State) : s.nextWork a = { s with
      adcs := (s.nextWork a).adcs, loops := (s.nextWork a).loops, regs := (s.nextWork a).regs } ∧
    ∀ b, b ≠ a → (s.nextWork a).adc b = s.adc b := by
  have hstart : ∀ (d : Adc) (m : McId) k late sched, let t := (s.setAdc a d).startConv a m.toNat k late sched
      t = { s with adcs := t.adcs, loops := t.loops, regs := t.regs } ∧ ∀ b, b ≠ a → t.adc b = s.adc b := fun d m k late sched =>
    have h := startConv_starts (s.setAdc a d) a m.isLt k late sched
    ⟨h.frame, fun b hb => (h.others b hb).trans (setAdc_adc_ne s d hb)⟩
  unfold nextWork
  dsimp only
  split
  · exact hstart ..
  · exact hstart ..
  · exact hstart ..
  · exact ⟨rfl, fun _ _ => rfl⟩

theorem nextWork_of_idle (hu : (s.adc a).urgent = []) (ha : (s.adc a).aborted = none) (hl : (s.adc a).late = []) : s.nextWork a = s := by
  simp [nextWork, hu, ha, hl]

/-- A converter whose waiting work is `d` starts the conversion of a channel. -/
theorem setAdc_startConv_adc (d : Adc) (m : McId) (k : ConvKind) (late sched : Bool) :
    ∃ u : Conv, ((s.setAdc a d).startConv a m.toNat k late sched).adc a = { d with conv := some u } ∧
      u.kind = k ∧ u.mc = m ∧ u.at_ = s.cyc ∧ u.late = late ∧ u.sched = sched := by
  have h := (startConv_starts (s.setAdc a d) a m.isLt k late sched).own
  rw [setAdc_adc_same] at h
  exact ⟨_, h, rfl, BitVec.ofNat_toNat .. |>.trans (BitVec.setWidth_eq m), rfl, rfl, rfl⟩

theorem nextWork_of_urgent {x : McId} {rest : List McId} (hu : (s.adc a).urgent = x :: rest) :
    ((s.nextWork a).adc a).urgent = rest ∧ ∃ u, ((s.nextWork a).adc a).conv = some u ∧ u.kind = .urgent ∧ u.mc = x := by
  obtain ⟨u, hadc, hkind, hmc, -⟩ := setAdc_startConv_adc (s := s) (a := a) { s.adc a with urgent := rest } x .urgent false false
  have hwork : s.nextWork a = (s.setAdc a { s.adc a with urgent := rest }).startConv a x.toNat .urgent false false := by simp [nextWork, hu]
  rw [hwork, hadc]
  exact ⟨rfl, u, rfl, hkind, hmc⟩

theorem nextWork_of_aborted {x : McId} {sc : Bool} (hu : (s.adc a).urgent = []) (ha : (s.adc a).aborted = some (x, sc)) :
    ((s.nextWork a).adc a).aborted = none ∧
      ∃ u, ((s.nextWork a).adc a).conv = some u ∧ u.kind = .restarted ∧ u.mc = x ∧ u.sched = sc := by
  obtain ⟨u, hadc, hkind, hmc, -, -, hsched⟩ := setAdc_startConv_adc (s := s) (a := a) { s.adc a with aborted := none } x .restarted false sc
  have hwork : s.nextWork a = (s.setAdc a { s.adc a with aborted := none }).startConv a x.toNat .restarted false sc := by simp [nextWork, hu, ha]
  rw [hwork, hadc]
  exact ⟨rfl, u, rfl, hkind, hmc, hsched⟩

theorem nextWork_of_late {x : McId} {rest : List McId} (hu : (s.adc a).urgent = []) (ha : (s.adc a).aborted = none)
    (hl : (s.adc a).late = x :: rest) :
    ((s.nextWork a).adc a).late = rest ∧
      ∃ u, ((s.nextWork a).adc a).conv = some u ∧ u.kind = .scheduled ∧ u.mc = x ∧ u.late = true := by
  obtain ⟨u, hadc, hkind, hmc, -, hlate, -⟩ := setAdc_startConv_adc (s := s) (a := a) { s.adc a with late := rest } x .scheduled true true
  have hwork : s.nextWork a = (s.setAdc a { s.adc a with late := rest }).startConv a x.toNat .scheduled true true := by
    simp [nextWork, hu, ha, hl]
  rw [hwork, hadc]
  exact ⟨rfl, u, rfl, hkind, hmc, hlate⟩

end

end Sys2Proof.Machine.State
end

section
/-! A finished conversion: its result in the channel and in the channel's record (R181, R184, R199, R400). -/

namespace Sys2Proof.Machine.State

/-! ### Hold words behind the journal's ring (R400) -/

section
variable {b : Nat} (hb : 720896 ≤ b)
include hb

theorem jPlace_cell_beyond (s : State) (ty : Nat) (cyc : Word) (k i : Nat) : (s.jPlace ty cyc k i).1.cell .hold b = s.cell .hold b := by
  induction k generalizing s i with
  | zero => rfl
  | succ k ih =>
    rw [jPlace]
    refine iteInduction (motive := fun r : State × Nat => r.1.cell .hold b = s.cell .hold b) (fun _ => (ih ..).trans ?_) fun _ => rfl
    refine List.foldlRecOn (motive := fun t : State => t.cell .hold b = s.cell .hold b) _ _ rfl fun t ht j hj => ?_
    have hj4 := List.mem_range.mp hj
    rw [cell_setCell, if_neg (by rw [jAddr]; omega), ht]

theorem journal_memPeek_beyond (s : State) (ty detail : Nat) (cyc w2 w3 : Word) :
    (s.journal ty detail cyc w2 w3).memPeek .hold b = s.memPeek .hold b := by
  unfold journal
  split
  · extract_lets i r s1
    have hcell : s1.cell .hold b = s.cell .hold b := by
      have hplace : r.1.cell .hold b = s.cell .hold b := jPlace_cell_beyond hb ..
      rw [← hplace]
      exact cell_memWrites_outside _ _ _ _ _ _ fun h => by
        obtain ⟨-, -, hlt⟩ := h
        simp only [jAddr, List.length_cons, List.length_nil] at hlt
        omega
    clear_value s1
    exact congrArg Cell.word hcell
  · rfl

end

/-! ### What a result leaves -/

/-- The readings of a remote diode reach sensor slots alone (R340). -/
theorem diodeResult_frame (s : State) (pair : Nat) (hi afterLo : Bool) (lo code : BitVec 12) :
    s.diodeResult pair hi afterLo lo code = { s with thermal := (s.diodeResult pair hi afterLo lo code).thermal } :=
  List.foldlRecOn (motive := fun t : State => t = { s with thermal := t.thermal }) _ _ rfl fun t ht k _ => by
    dsimp only
    split
    · split
      · exact ht
      · split
        · rw [setTslot, ht]
        · split
          · rw [setTslot, ht]
          · exact ht
    · exact ht

/-- What a result replaces in its channel, as the statements read it. -/
def Mc.result (c : Mc) : BitVec 12 × BitVec 24 × Nat × Bool := (c.raw, c.seq, c.since, c.late)

/-- The converters and the channels. -/
def converting (s : State) : Tbl Adc × Tbl Mc := (s.adcs, s.mcs)

/-- Channel `m` holds its new result `c`, and no converter and no other channel has changed. -/
structure Judged (m : Nat) (code : BitVec 12) (late : Bool) (s q : State) : Prop where
  adcs : q.adcs = s.adcs
  result : Mc.result (q.mc m) = (code, (s.mc m).seq + 1, (s.mc m).since + 1, late)
  others : ∀ k, k ≠ m → q.mc k = s.mc k

theorem judged_of_setMc {m : Nat} {code : BitVec 12} {late : Bool} {s q : State} {c : Mc} (h : q.converting = (s.setMc m c).converting)
    (hc : Mc.result c = (code, (s.mc m).seq + 1, (s.mc m).since + 1, late)) : Judged m code late s q := by
  have hmc : ∀ k, q.mc k = (s.setMc m c).mc k := fun k => by rw [mc, show q.mcs = (s.setMc m c).mcs from congrArg (·.2) h]; rfl
  exact ⟨congrArg (·.1) h, by rw [hmc, setMc_mc_same, hc], fun k hk => (hmc k).trans (setMc_mc_ne s c hk)⟩

/-- The record of a result, its journal entry, and what its channel's loops take (R191, R199, R400). -/
def published (s : State) (g : McCfg) (v : Conv) (a : Nat) (value : Int) (fine : Word) (seq w6 : Word) (kind flags code: Nat) : State :=
  let m := v.mc.toNat
  let s := s.holdPuts (0x3FE700 + 8 * m)
    [seq, voltWord (spanOf g.input) value 1, fine, BitVec.ofNat 40 v.at_, v.timeHi, v.timeLo, w6, seq]
  let s := if (s.rd F.rplCfgJnlAdc).testBit a then
      s.journal 2 (m * 2 ^ 29 + kind * 2 ^ 27 + flags * 2 ^ 23 + code * 2 ^ 11) (BitVec.ofNat 40 v.at_) 0 0
    else s
  if v.sched then s.feedLoops m v.at_ value v.late else s

theorem takeResult_eq {s : State} {v : Conv} {g : McCfg} (a : Nat) (code : BitVec 12) (hcfg : s.mcCfg v.mc.toNat = some g) :
    ∃ q fine seq w6 kind flags, Judged v.mc.toNat code v.late s q ∧
      s.takeResult a v code = q.published g v a (s.calibrated v.mc.toNat code.toNat) fine seq w6 kind flags code.toNat := by
  unfold takeResult
  extract_lets m c0 op value entry since kind
  split
  next heq => exact absurd (hcfg.symm.trans heq) (by simp)
  next g' heq =>
  obtain rfl : g = g' := Option.some.inj (hcfg.symm.trans heq)
  extract_lets n hist out outputs den sum settled ovrs c1 c2 c3 s1 c4 watch span
  split
  next fineV q0 hfine =>
  extract_lets c5 bad s2 s3 meas s4 w0 w6
  have hc4 : Mc.result c4 = Mc.result c3 :=
    iteInduction (motive := fun c => Mc.result c = Mc.result c3)
      (fun _ => iteInduction (motive := fun c => Mc.result c = Mc.result c3) (fun _ => rfl) fun _ => rfl) fun _ => rfl
  have hc5 : Mc.result c5 = Mc.result c4 := iteInduction (motive := fun c => Mc.result c = Mc.result c4) (fun _ => rfl) fun _ => rfl
  have h1 : s1.converting = s.converting :=
    iteInduction (motive := fun t : State => t.converting = s.converting) (fun _ => by rw [diodeResult_frame]; rfl) fun _ => rfl
  have h0 : q0.converting = s1.converting := by
    split at hfine <;> exact congrArg (fun x => x.2.converting) hfine.symm
  have h2 : s2.converting = (s.setMc m { c5 with badRef := bad }).converting := by
    have hq : q0.converting = s.converting := h0.trans h1
    exact Prod.ext (congrArg (·.1) hq) (congrArg (fun x : Tbl Adc × Tbl Mc => Tbl.set (fun _ => Mc.init) x.2 m { c5 with badRef := bad }) hq)
  have h3 : s3.converting = s2.converting :=
    iteInduction (motive := fun t : State => t.converting = s2.converting) (fun _ => by rw [report_eq]; rfl) fun _ => rfl
  have h4 : s4.converting = s3.converting := by
    clear_value op
    cases op with
    | none => rfl
    | some o => exact iteInduction (motive := fun t : State => t.converting = s3.converting) (fun _ => rfl) fun _ => rfl
  have hjudged : Judged m code v.late s s4 := judged_of_setMc (h4.trans (h3.trans h2)) (hc5.trans hc4)
  exact ⟨s4, _, w0, w6, kind, mcFlags c5, hjudged, rfl⟩

/-! ### The record -/

section
variable (q : State) (g : McCfg) (v : Conv) (a : Nat) (value : Int) (fine seq w6 : Word) (kind flags code : Nat)

/-- The journal entry of a result leaves what `P` says of the state, and so does its delivery to the loops. -/
theorem published_keeps {P : State → Prop} (hput : P (q.holdPuts (0x3FE700 + 8 * v.mc.toNat)
      [seq, voltWord (spanOf g.input) value 1, fine, BitVec.ofNat 40 v.at_, v.timeHi, v.timeLo, w6, seq]))
    (hjournal : ∀ s ty detail cyc w2 w3, P s → P (s.journal ty detail cyc w2 w3))
    (hfeed : ∀ s m at_ value late, P s → P (s.feedLoops m at_ value late)) :
    P (q.published g v a value fine seq w6 kind flags code) :=
  iteInduction (fun _ => hfeed _ _ _ _ _ (iteInduction (fun _ => hjournal _ _ _ _ _ _ hput) fun _ => hput))
    fun _ => iteInduction (fun _ => hjournal _ _ _ _ _ _ hput) fun _ => hput

theorem published_converting : (q.published g v a value fine seq w6 kind flags code).converting = q.converting := by
  refine published_keeps (P := fun t => t.converting = q.converting) _ _ _ _ _ _ _ _ _ _ _ ?_ (fun s ty detail cyc w2 w3 h => ?_)
    fun s m at_ value late h => ?_
  · rw [holdPuts, memWrites_eq]; rfl
  · rw [journal_frame]; exact h
  · rw [feedLoops_frame]; exact h

theorem published_record :
    (q.published g v a value fine seq w6 kind flags code).memPeek .hold (0x3FE700 + 8 * v.mc.toNat + 1) = voltWord (spanOf g.input) value 1 ∧
    (q.published g v a value fine seq w6 kind flags code).memPeek .hold (0x3FE700 + 8 * v.mc.toNat + 3) = BitVec.ofNat 40 v.at_ := by
  refine published_keeps (P := fun t => t.memPeek .hold (0x3FE700 + 8 * v.mc.toNat + 1) = voltWord (spanOf g.input) value 1 ∧
    t.memPeek .hold (0x3FE700 + 8 * v.mc.toNat + 3) = BitVec.ofNat 40 v.at_) _ _ _ _ _ _ _ _ _ _ _ ⟨?_, ?_⟩ (fun s ty detail cyc w2 w3 h => ?_)
    fun s m at_ value late h => ?_
  · exact congrArg Cell.word (cell_memWrites_inside q .hold _ _ (i := 1) (by simp))
  · exact congrArg Cell.word (cell_memWrites_inside q .hold _ _ (i := 3) (by simp))
  · rw [journal_memPeek_beyond (by omega), journal_memPeek_beyond (by omega)]; exact h
  · rw [feedLoops_frame]; exact h

end

/-! ### The conversion ends -/

section
variable {s : State} {ad : AdcId} {v : Conv} {code : BitVec 12} {g : McCfg}

/-- Converter `a` is free and the result of `v` has been taken: what its channel and its record hold. -/
def resultTaken (s : State) (a : Nat) (v : Conv) (code : BitVec 12) : State :=
  (s.setAdc a { s.adc a with conv := none }).takeResult a v code

theorem exec_conversionComplete_of_due (hconv : (s.adc ad.toNat).conv = some v) (hdue : v.at_ + 960 ≤ s.cyc) (hlive : s.replayMode = false) :
    exec (.conversionComplete ad code) s = .next ((s.resultTaken ad.toNat v code).nextWork ad.toNat) := by
  show execConversionComplete ad code s = _
  have hlive' : ∀ d, (s.setAdc ad.toNat d).replayMode = false := fun _ => hlive
  simp [execConversionComplete, hconv, Nat.not_lt.mpr hdue, hlive', resultTaken]

/-- What a result leaves, as the statement reads it. -/
structure TakesResult (s : State) (a : Nat) (v : Conv) (code : BitVec 12) (g : McCfg) (t : State) : Prop where
  own : t.adc a = { s.adc a with conv := none }
  others : ∀ b, b ≠ a → t.adc b = s.adc b
  result : Mc.result (t.mc v.mc.toNat) = (code, (s.mc v.mc.toNat).seq + 1, (s.mc v.mc.toNat).since + 1, v.late)
  mcs : ∀ k, k ≠ v.mc.toNat → t.mc k = s.mc k
  fast : t.memPeek .hold (0x3FE700 + 8 * v.mc.toNat + 1) = voltWord (spanOf g.input) (s.calibrated v.mc.toNat code.toNat) 1
  time : t.memPeek .hold (0x3FE700 + 8 * v.mc.toNat + 3) = BitVec.ofNat 40 v.at_

theorem resultTaken_takes (a : Nat) (hcfg : s.mcCfg v.mc.toNat = some g) : TakesResult s a v code g (s.resultTaken a v code) := by
  obtain ⟨q, fine, seq, w6, kind, flags, hjudged, htaken⟩ :=
    takeResult_eq (s := s.setAdc a { s.adc a with conv := none }) a code (v := v) (g := g) hcfg
  rw [← resultTaken] at htaken
  have hconv : (s.resultTaken a v code).converting = q.converting := by rw [htaken, published_converting]
  have hadc : ∀ b, (s.resultTaken a v code).adc b = (s.setAdc a { s.adc a with conv := none }).adc b := fun b => by
    rw [adc, show (s.resultTaken a v code).adcs = q.adcs from congrArg (·.1) hconv, hjudged.adcs]; rfl
  have hmc : ∀ k, (s.resultTaken a v code).mc k = q.mc k := fun k => by
    rw [mc, show (s.resultTaken a v code).mcs = q.mcs from congrArg (·.2) hconv]; rfl
  obtain ⟨hfast, htime⟩ := published_record q g v a ((s.setAdc a { s.adc a with conv := none }).calibrated v.mc.toNat code.toNat)
    fine seq w6 kind flags code.toNat
  rw [← htaken] at hfast htime
  exact ⟨by rw [hadc, setAdc_adc_same], fun b hb => by rw [hadc, setAdc_adc_ne _ _ hb], by rw [hmc]; exact hjudged.result,
    fun k hk => (hmc k).trans (hjudged.others k hk), hfast, htime⟩

end

end Sys2Proof.Machine.State
end

section
/-! Requests for conversions, and the triggers that make them (R177, R178, R179, R196). -/

namespace Sys2Proof.Machine.State

/-! ### MEAS_REQ -/

/-- The word of a request: URGENT, GO and the channel. -/
theorem measReq_word (s : State) (who : Requester) (u : Nat) (m : McId) :
    let w := s.wordOf who 385 [(F.measReqUrgent, u), (F.measReqGo, 1), (F.measReqMc, m.toNat)]
    w.getLsbD 7 = u.testBit 0 ∧ w.getLsbD 6 = true ∧ bitsOf w 4 0 = m.toNat := by
  have hword : s.wordOf who 385 [(F.measReqUrgent, u), (F.measReqGo, 1), (F.measReqMc, m.toNat)] =
    putBits (putBits (putBits (s.restWord (reqCode who) 385) 7 7 u) 6 6 1) 4 0 m.toNat := rfl
  dsimp only
  rw [hword]
  refine ⟨?_, ?_, ?_⟩
  · rw [getLsbD_putBits _ _ _ _ _ (by decide), if_neg (by decide), getLsbD_putBits _ _ _ _ _ (by decide), if_neg (by decide),
      getLsbD_putBits _ _ _ _ _ (by decide), if_pos (by decide)]
  · rw [getLsbD_putBits _ _ _ _ _ (by decide), if_neg (by decide), getLsbD_putBits _ _ _ _ _ (by decide), if_pos (by decide)]
    rfl
  · rw [bitsOf_putBits_same _ _ (by decide) (by decide)]
    exact Nat.mod_eq_of_lt m.isLt

theorem serveDue_of_early {s : State} (h : ∀ x ∈ s.meas.trigs, s.cyc < x.due) : s.serveDue = s := by
  have hnone : s.meas.trigs.filter (fun x => decide (x.due ≤ s.cyc)) = [] :=
    List.filter_eq_nil_iff.mpr fun x hx => by simpa using h x hx
  rw [serveDue, hnone]
  rfl

/-- Where no trigger's request is due, a request by MEAS_REQ is made of what the journal and a replay's decision leave. -/
theorem measReq_asks {s : State} {who : Requester} {u : Nat} {m : McId} (hquiet : ∀ x ∈ s.meas.trigs, s.cyc < x.due)
    (h : s.takes who 385 [(F.measReqUrgent, u), (F.measReqGo, 1), (F.measReqMc, m.toNat)] = true) :
    ∃ x pb, Outside s x ∧ (s.plainWriter who → x.fc = s.fc) ∧
      s.fieldWrite who 385 [(F.measReqUrgent, u), (F.measReqGo, 1), (F.measReqMc, m.toNat)] =
        { (if u.testBit 0 then x.askUrgent m.toNat else x.askOrdinary m.toNat) with parBad := pb } := by
  obtain ⟨q, hwritten⟩ := fieldWrite_measWritten (by decide) (by decide) h
  obtain ⟨hurgent, hgo, hmc⟩ := measReq_word s who u m
  generalize s.wordOf who 385 [(F.measReqUrgent, u), (F.measReqGo, 1), (F.measReqMc, m.toNat)] = w at hwritten hurgent hgo hmc
  have hout := hwritten.outside.trans (Outside.storeRequest q (maskOf 7 7 ||| maskOf 4 0) w (.inl rfl))
  have hserve : (q.storeBits 385 (maskOf 7 7 ||| maskOf 4 0) w).serveDue = q.storeBits 385 (maskOf 7 7 ||| maskOf 4 0) w :=
    serveDue_of_early (by rw [hout.meas, hout.cyc]; exact hquiet)
  have hfx : q.writeFx (reqCode who) 385 w = if u.testBit 0 then (q.storeBits 385 (maskOf 7 7 ||| maskOf 4 0) w).askUrgent m.toNat
      else (q.storeBits 385 (maskOf 7 7 ||| maskOf 4 0) w).askOrdinary m.toNat := by
    rw [writeFx_meas _ _ _ (by decide) (by decide), writeMeas, if_neg (by decide), if_pos rfl]
    dsimp only
    rw [if_pos hgo, hserve, hurgent, hmc]
  have heffect := hwritten.effect
  rw [hfx] at heffect
  exact ⟨_, _, hout, hwritten.plain, heffect⟩

/-! ### Ordinary and urgent requests -/

section
variable {s : State} {m : McId} {g : McCfg} (hcfg : s.mcCfg m.toNat = some g)
include hcfg

theorem askOrdinary_of_room (hroom : (s.adc g.adc.toNat).ordinary.length < 8) :
    s.askOrdinary m.toNat = s.setAdc g.adc.toNat { s.adc g.adc.toNat with ordinary := (s.adc g.adc.toNat).ordinary ++ [m] } := by
  simp [askOrdinary, hcfg, hroom]

theorem askOrdinary_of_full (hfull : 8 ≤ (s.adc g.adc.toNat).ordinary.length) :
    s.askOrdinary m.toNat = (s.inc (F.adcStatDropCnt g.adc.toNat) (F.adcStatDropOvf g.adc.toNat)).report srcMeas 5 0
      (measCtx g.adc.toNat m.toNat 0) := by
  simp [askOrdinary, hcfg, Nat.not_lt.mpr hfull]

theorem askUrgent_of_free (hfree : (s.adc g.adc.toNat).conv = none) :
    s.askUrgent m.toNat = s.startConv g.adc.toNat m.toNat .urgent false false := by
  simp [askUrgent, hcfg, hfree]

theorem askUrgent_of_lesser {v : Conv} (hconv : (s.adc g.adc.toNat).conv = some v) (hkind : v.kind ≠ .urgent) :
    s.askUrgent m.toNat = (s.giveWay g.adc.toNat v).startConv g.adc.toNat m.toNat .urgent false false := by
  simp [askUrgent, hcfg, hconv, hkind]

theorem askUrgent_of_urgent {v : Conv} (hconv : (s.adc g.adc.toNat).conv = some v) (hkind : v.kind = .urgent)
    (hroom : (s.adc g.adc.toNat).urgent.length < 4) :
    s.askUrgent m.toNat = s.setAdc g.adc.toNat { s.adc g.adc.toNat with urgent := (s.adc g.adc.toNat).urgent ++ [m] } := by
  simp [askUrgent, hcfg, hconv, hkind, hroom]

end

/-- What a converter keeps of the conversion `v` that makes way: one that started at this edge waits as it did, any other is aborted. -/
def gaveWay (d : Adc) (v : Conv) (cyc : Nat) : Adc :=
  if v.at_ = cyc ∧ v.kind = .scheduled then { d with late := if v.late then v.mc :: d.late else d.late ++ [v.mc] }
  else if v.at_ = cyc ∧ v.kind = .requested then { d with ordinary := v.mc :: d.ordinary }
  else { d with aborted := some (v.mc, v.sched) }

theorem giveWay_eq (s : State) (a : Nat) (v : Conv) : s.giveWay a v = s.setAdc a (gaveWay (s.adc a) v s.cyc) := by
  unfold giveWay gaveWay
  dsimp only
  split
  · rfl
  · split <;> rfl

/-! ### Triggers (R178) -/

/-- The requests that a recognised edge makes: one of every entry that names it, due after the entry's delay. -/
def triggered (s : State) (src : TrigSrc) : List TrigWait :=
  (List.range s.img.trigs.length).filterMap fun k =>
    match s.img.trigs[k]? with
    | some t => if t.sources.contains src then some ⟨k, s.cyc + 8 * t.delay⟩ else none
    | none => none

theorem recognise_eq (s : State) (src : TrigSrc) :
    s.recognise src = { s with meas := { s.meas with trigs := s.meas.trigs ++ s.triggered src } } := rfl

theorem mem_triggered {s : State} {src : TrigSrc} {w : TrigWait} :
    w ∈ s.triggered src ↔ ∃ e ∈ s.img.trigs[w.entry]?, src ∈ e.sources ∧ w.due = s.cyc + 8 * e.delay := by
  simp only [triggered, List.mem_filterMap, List.mem_range]
  constructor
  · rintro ⟨k, hk, hw⟩
    rw [List.getElem?_eq_getElem hk] at hw
    simp only [Option.ite_none_right_eq_some, Option.some.injEq, List.contains_iff_mem] at hw
    obtain ⟨hsrc, rfl⟩ := hw
    exact ⟨_, List.getElem?_eq_getElem hk, hsrc, rfl⟩
  · rintro ⟨e, he, hsrc, hdue⟩
    obtain ⟨hk, -⟩ := List.getElem?_eq_some_iff.mp he
    refine ⟨w.entry, hk, ?_⟩
    rw [show s.img.trigs[w.entry]? = some e from he]
    simp [hsrc, ← hdue]

/-- The edge was there: a TRIG edge always is, an event or an edge of PA_EN where it waits to be recognised. -/
def edgeThere (s : State) (src : TrigSrc) : Prop :=
  match src with
  | .trig _ _ => True
  | .fe c e => (s.chain c.toNat).raised.getLsbD e.toNat = true
  | .paEn c r => (s.chain c.toNat).paEdges.getLsbD (if r then 0 else 1) = true

/-- An edge that was there is recognised on a state with the same measurement block, cycle and image. -/
theorem exec_triggerEdge_of_there {s : State} {src : TrigSrc} (h : s.edgeThere src) :
    ∃ x : State, exec (.triggerEdge src) s = .next (x.recognise src) ∧ x.meas = s.meas ∧ x.adcs = s.adcs ∧ x.cyc = s.cyc ∧ x.img = s.img := by
  cases src with
  | trig n rising =>
    have hout := Outside.journal s 3 (n.toNat + bit rising * 16) s.cycW 0 0
    exact ⟨_, rfl, hout.meas, hout.adcs, hout.cyc, hout.img⟩
  | fe c e => exact ⟨_, if_pos h, rfl, rfl, rfl, rfl⟩
  | paEn c r => exact ⟨_, if_pos h, rfl, rfl, rfl, rfl⟩

theorem exec_triggerEdge_of_absent {s : State} {c : ChainId} {r : Bool}
    (h : (s.chain c.toNat).paEdges.getLsbD (if r then 0 else 1) = false) : exec (.triggerEdge (.paEn c r)) s = .next s :=
  if_neg (by rw [h]; decide)

/-- The oldest waiting request of an entry is made where it is due and none comes before it. -/
theorem exec_triggerRequest_of_first {s : State} {entry : BitVec 5} {w : TrigWait} {pre post : List TrigWait}
    (htrigs : s.meas.trigs = pre ++ w :: post) (hentry : w.entry = entry.toNat) (hdue : w.due ≤ s.cyc)
    (hpre : ∀ x ∈ pre, x.entry ≠ entry.toNat) (hfirst : ∀ x ∈ s.meas.trigs, trigBefore x w = false) :
    exec (.triggerRequest entry) s = .next (s.serveTrig w) := by
  have hfind : s.meas.trigs.find? (fun t => t.entry == entry.toNat && decide (t.due ≤ s.cyc)) = some w := by
    rw [htrigs, List.find?_append, List.find?_eq_none.mpr fun x hx => by simp [hpre x hx]]
    simp [hentry, hdue]
  have hnone : s.meas.trigs.filter (fun x => trigBefore x w) = [] := List.filter_eq_nil_iff.mpr fun x hx => by simp [hfirst x hx]
  show execTriggerRequest entry s = _
  rw [execTriggerRequest, hfind]
  dsimp only
  rw [serveTrigs, hnone]
  rfl

theorem serveTrig_of_ordinary {s : State} {w : TrigWait} {e : TrigCfg} {pre post : List TrigWait} (htrigs : s.meas.trigs = pre ++ w :: post)
    (hpre : ∀ x ∈ pre, x.entry ≠ w.entry) (hcfg : s.img.trigs[w.entry]? = some e) (hkind : e.urgent = false) :
    s.serveTrig w = ({ s with meas := { s.meas with trigs := pre ++ post } } : State).askOrdinary e.mc.toNat := by
  have herase : s.meas.trigs.erase w = pre ++ post := by
    rw [htrigs, List.erase_append_right _ fun hw => hpre w hw rfl, List.erase_cons_head]
  rw [serveTrig, herase]
  dsimp only
  rw [hcfg]
  exact if_neg (by simp [hkind])

end Sys2Proof.Machine.State
end

section
/-! Conversions, requests and triggers as the statement puts them (R176, R177, R178, R179, R180, R181, R191, R196). -/

namespace Sys2Proof.Machine.State

theorem drops (a : Nat) : Counter (F.adcStatDropCnt a) (F.adcStatDropOvf a) := by
  refine ⟨rfl, ?_, ?_⟩ <;> simp [F.adcStatDropCnt, F.adcStatDropOvf]

/-- ADC_STAT of the four converters lies in the measurement block. -/
theorem inMeasBlock_adcStat (ad : AdcId) : inMeasBlock (386 + ad.toNat) := by
  have := ad.isLt
  simp only [inMeasBlock]
  omega

/-- A count reads what it read before. -/
theorem countsOne_of_rd {s x t : State} {f : Fld} (h : x.rd f = s.rd f) (hcount : x.countsOne t f) : s.countsOne t f := by
  rw [countsOne, ← h]
  exact hcount

theorem report_rd_ne (s : State) (src kind hint : Nat) (ctx : Word) {f : Fld} (hf : f.addr ≠ F.fcQueueDrop0.addr) :
    (s.report src kind hint ctx).rd f = s.rd f := by
  rw [rd, report_reg_ne s src kind hint ctx hf]
  rfl

section
variable {s : State} {who : Requester} {m : McId} {g : McCfg} (hcfg : s.mcCfg m.toNat = some g) (hquiet : ∀ x ∈ s.meas.trigs, s.cyc < x.due)
include hquiet

/-! ### An ordinary request (R177) -/

section
variable (h : s.takes who 385 [(F.measReqUrgent, 0), (F.measReqGo, 1), (F.measReqMc, m.toNat)] = true)
include hcfg h

theorem measReqOrdinary_queues (hroom : (s.adc g.adc.toNat).ordinary.length < 8) :
    ∃ t, exec (.measReqOrdinary who m) s = .next t ∧
      t.adc g.adc.toNat = { s.adc g.adc.toNat with ordinary := (s.adc g.adc.toNat).ordinary ++ [m] } ∧
      ∀ b, b ≠ g.adc.toNat → t.adc b = s.adc b := by
  obtain ⟨x, pb, hout, -, ht⟩ := measReq_asks hquiet h
  rw [if_neg (by decide), askOrdinary_of_room ((hout.mcCfg _).trans hcfg) (by rwa [hout.adc]), hout.adc] at ht
  exact ⟨_, congrArg Host.Outcome.next ht, setAdc_adc_same .., fun b hb => (setAdc_adc_ne x _ hb).trans (hout.adc b)⟩

theorem measReqOrdinary_drops (hfull : 8 ≤ (s.adc g.adc.toNat).ordinary.length) (hplain : s.plainWriter who) (hroom : s.intakeRoom 1 = true) :
    ∃ t, exec (.measReqOrdinary who m) s = .next t ∧ t.adcs = s.adcs ∧ s.countsOne t (F.adcStatDropCnt g.adc.toNat) ∧
      s.sentNow t srcMeas 5 0 (measCtx g.adc.toNat m.toNat 0) := by
  obtain ⟨x, pb, hout, hfc, ht⟩ := measReq_asks hquiet h
  rw [if_neg (by decide), askOrdinary_of_full ((hout.mcCfg _).trans hcfg) (by rwa [hout.adc])] at ht
  have hinc := inc_eq x (F.adcStatDropCnt g.adc.toNat) (F.adcStatDropOvf g.adc.toNat)
  have hstat : F.fcQueueDrop0.addr ≠ (F.adcStatDropCnt g.adc.toNat).addr := by
    have := g.adc.isLt
    simp only [F.fcQueueDrop0, F.adcStatDropCnt]
    omega
  refine ⟨_, congrArg Host.Outcome.next ht, ?_, countsOne_of_rd (hout.rd (inMeasBlock_adcStat g.adc)) ?_, ?_⟩
  · rw [report_eq, hinc]
    exact hout.adcs
  · exact (report_rd_ne _ _ _ _ _ hstat.symm).trans (countsOne_inc x (drops _))
  · refine sentNow_report ?_ srcMeas 5 0 _ ?_
    · rw [hinc]; exact hout.terms
    · refine (intakeRoom_of_fc ?_ 1).trans hroom
      rw [hinc]; exact hfc hplain

end

/-! ### An urgent request (R179) -/

section
variable (h : s.takes who 385 [(F.measReqUrgent, 1), (F.measReqGo, 1), (F.measReqMc, m.toNat)] = true)
include h

/-- The converter starts an urgent conversion of the channel, with what the one before left waiting. -/
theorem measReqUrgent_starts {d : Adc} (hask : ∀ x, Outside s x → ∃ y : State, y.regs = x.regs ∧ y.adc g.adc.toNat = d ∧
      x.askUrgent m.toNat = y.startConv g.adc.toNat m.toNat .urgent false false) :
    ∃ t u, exec (.measReqUrgent who m) s = .next t ∧ t.adc g.adc.toNat = { d with conv := some u } ∧ u.kind = .urgent ∧ u.mc = m ∧
      s.countsOne t (F.adcStatUrgCnt g.adc.toNat) := by
  obtain ⟨x, pb, hout, -, ht⟩ := measReq_asks hquiet h
  obtain ⟨y, hregs, hd, hy⟩ := hask x hout
  rw [if_pos (by decide), hy] at ht
  have hstart := startConv_starts y g.adc.toNat m.isLt .urgent false false
  have hrd : y.rd (F.adcStatUrgCnt g.adc.toNat) = s.rd (F.adcStatUrgCnt g.adc.toNat) := by
    rw [rd, reg, hregs]
    exact hout.rd (inMeasBlock_adcStat g.adc)
  exact ⟨_, _, congrArg Host.Outcome.next ht, hstart.own.trans (by rw [hd]), rfl, (BitVec.ofNat_toNat ..).trans (BitVec.setWidth_eq m),
    countsOne_of_rd hrd (hstart.counts rfl)⟩

include hcfg

theorem measReqUrgent_of_free (hfree : (s.adc g.adc.toNat).conv = none) :
    ∃ t u, exec (.measReqUrgent who m) s = .next t ∧ t.adc g.adc.toNat = { s.adc g.adc.toNat with conv := some u } ∧ u.kind = .urgent ∧
      u.mc = m ∧ s.countsOne t (F.adcStatUrgCnt g.adc.toNat) :=
  measReqUrgent_starts hquiet h fun x hout =>
    ⟨x, rfl, hout.adc _, askUrgent_of_free ((hout.mcCfg _).trans hcfg) (by rwa [hout.adc])⟩

theorem measReqUrgent_of_lesser {v : Conv} (hconv : (s.adc g.adc.toNat).conv = some v) (hkind : v.kind ≠ .urgent) :
    ∃ t u, exec (.measReqUrgent who m) s = .next t ∧ t.adc g.adc.toNat = { gaveWay (s.adc g.adc.toNat) v s.cyc with conv := some u } ∧
      u.kind = .urgent ∧ u.mc = m ∧ s.countsOne t (F.adcStatUrgCnt g.adc.toNat) :=
  measReqUrgent_starts hquiet h fun x hout => by
    refine ⟨x.giveWay g.adc.toNat v, ?_, ?_, askUrgent_of_lesser ((hout.mcCfg _).trans hcfg) (by rwa [hout.adc]) hkind⟩
    · rw [giveWay_eq]; rfl
    · rw [giveWay_eq, setAdc_adc_same, hout.adc, hout.cyc]

theorem measReqUrgent_of_urgent {v : Conv} (hconv : (s.adc g.adc.toNat).conv = some v) (hkind : v.kind = .urgent)
    (hroom : (s.adc g.adc.toNat).urgent.length < 4) :
    ∃ t, exec (.measReqUrgent who m) s = .next t ∧
      t.adc g.adc.toNat = { s.adc g.adc.toNat with urgent := (s.adc g.adc.toNat).urgent ++ [m] } := by
  obtain ⟨x, pb, hout, -, ht⟩ := measReq_asks hquiet h
  rw [if_pos (by decide), askUrgent_of_urgent ((hout.mcCfg _).trans hcfg) (by rwa [hout.adc]) hkind (by rwa [hout.adc]), hout.adc] at ht
  exact ⟨_, congrArg Host.Outcome.next ht, setAdc_adc_same ..⟩

end

end

/-! ### The slot of a scan list (R176, R191) -/

/-- A conversion of the scan list leaves the counts alone, and the channel's loops have their set points. -/
theorem Starts.scheduled {s t : State} {a : Nat} {v : Conv} (h : Starts a v s t) (hkind : v.kind = .scheduled) (hsched : v.sched = true) :
    t = { s with adcs := t.adcs, loops := t.loops } ∧ ∀ j, t.loop j = (s.latchSp v.mc.toNat).loop j := by
  refine ⟨h.frame.trans (by rw [h.regs (by simp [hkind])]), fun j => ?_⟩
  rw [loop, h.loops, if_pos hsched]
  rfl

theorem Starts.unscheduled {s t : State} {a : Nat} {v : Conv} (h : Starts a v s t) (hkind : v.kind ≠ .urgent) (hsched : v.sched = false) :
    t = { s with adcs := t.adcs } :=
  h.frame.trans (by rw [h.regs hkind, h.loops, hsched]; rfl)

end Sys2Proof.Machine.State
end

section
/-! The obligation on conversions, requests and triggers (R176 to R181, R191, R196, R199). -/

namespace Sys2Proof.Machine

open State

/-- Settles O42: a start is one equation for its converter, its loops and its count, whichever way it comes about; a result is judged before it is published, and publishing keeps converters and channels; a request finds of the write before it only what lies outside the block. -/
theorem conversionsAndRequests : Obligations.ConversionsAndRequests := by
  unfold Obligations.ConversionsAndRequests
  intro s ad a d slot adcsOnly
  refine ⟨exec_scanConversionStart_of_off, fun w hedge hslot hcell => ?_, fun v code g hconv hdue hlive hcfg => ?_,
    fun who m g hcfg had hquiet => ?_, fun c r => exec_triggerEdge_of_absent, fun src hsrc => ?_,
    fun entry e g w pre post hcfg htrigs hentry hdue hpre hfirst hmc had hkind hroom => ?_⟩
  · have hm : bitsOf w 4 0 < 32 := Nat.mod_lt _ (by decide)
    refine ⟨fun hnamed hfree => ?_, fun hnamed hbusy => ?_, fun x rest hentry hfree hlate hord => ?_⟩
    · have hstart := startConv_starts s a hm .scheduled false true
      obtain ⟨hframe, hloops⟩ := hstart.scheduled rfl rfl
      refine ⟨_, _, exec_scanConversionStart_of_due hedge hslot hcell hnamed hfree, hframe, hstart.others, hstart.own, fun j hj => ?_,
        rfl, rfl, rfl, rfl, rfl, rfl, rfl⟩
      exact (hloops j).trans ((latchSp_loops s _).2 j hj)
    · exact ⟨_, exec_scanConversionStart_of_busy hedge hslot hcell hnamed hbusy, ⟨rfl, fun b hb => setAdc_adc_ne s _ hb⟩, setAdc_adc_same ..⟩
    · have hstart := startConv_starts (s.setAdc a { d with ordinary := rest }) a x.isLt .requested false false
      refine ⟨_, _, exec_scanConversionStart_of_request hedge hslot hcell hentry hfree hlate hord, ⟨?_, fun b hb => ?_⟩,
        hstart.own.trans (by rw [setAdc_adc_same]), rfl, (BitVec.ofNat_toNat ..).trans (BitVec.setWidth_eq x), rfl⟩
      · exact hstart.unscheduled nofun rfl
      · exact (hstart.others b hb).trans (setAdc_adc_ne s _ hb)
  · have hres := resultTaken_takes (s := s) (code := code) a hcfg
    obtain ⟨hframe, hothers⟩ := nextWork_frame a (s.resultTaken a v code)
    have hmc : ∀ k, ((s.resultTaken a v code).nextWork a).mc k = (s.resultTaken a v code).mc k := fun k => by rw [hframe]; rfl
    have hmem : ∀ b, ((s.resultTaken a v code).nextWork a).memPeek .hold b = (s.resultTaken a v code).memPeek .hold b := fun b => by
      rw [hframe]; rfl
    obtain ⟨hraw, hseq, hsince, hlate⟩ : ((s.resultTaken a v code).mc v.mc.toNat).raw = code ∧ _ ∧ _ ∧ _ := by
      simpa only [Mc.result, Prod.mk.injEq] using hres.result
    have hown := hres.own
    generalize hx : s.resultTaken a v code = x at *
    refine ⟨x.nextWork a, (exec_conversionComplete_of_due hconv hdue hlive).trans (by rw [hx]), ?_⟩
    simp only [hmc, hmem]
    refine ⟨hraw, hseq, hsince, hlate, hres.fast, hres.time, hres.mcs, fun b hb => (hothers b hb).trans (hres.others b hb),
      fun hu ha hl => ?_, fun y rest hu => ?_, fun y sc hu ha => ?_, fun y rest hu ha hl => ?_⟩
    · rw [nextWork_of_idle (by rw [hown]; exact hu) (by rw [hown]; exact ha) (by rw [hown]; exact hl), hown]
    · exact nextWork_of_urgent (by rw [hown]; exact hu)
    · exact nextWork_of_aborted (by rw [hown]; exact hu) (by rw [hown]; exact ha)
    · exact nextWork_of_late (by rw [hown]; exact hu) (by rw [hown]; exact ha) (by rw [hown]; exact hl)
  · subst had
    refine ⟨fun h => ⟨measReqOrdinary_queues hcfg hquiet h, measReqOrdinary_drops hcfg hquiet h⟩,
      fun h => ⟨measReqUrgent_of_free hcfg hquiet h, fun v hv hkind => ?_, fun v => measReqUrgent_of_urgent hcfg hquiet h⟩⟩
    obtain ⟨t, u, hexec, hadc, hu, hum, hcount⟩ := measReqUrgent_of_lesser hcfg hquiet h hv hkind
    refine ⟨t, u, hexec, hu, hum, hcount, hadc.trans ?_⟩
    unfold gaveWay
    split
    · rfl
    · split <;> rfl
  · obtain ⟨x, hexec, hmeas, hadcs, hcyc, himg⟩ := exec_triggerEdge_of_there (s := s) (src := src) (by cases src <;> exact hsrc)
    refine ⟨_, s.triggered src, hexec, ?_, hadcs, fun w => mem_triggered⟩
    rw [recognise_eq, triggered, triggered, himg, hcyc, hmeas]
  · subst had
    rw [← hentry] at hcfg hpre
    rw [exec_triggerRequest_of_first htrigs hentry hdue (by rwa [← hentry]) hfirst, serveTrig_of_ordinary htrigs hpre hcfg hkind]
    generalize hq : ({ s with meas := { s.meas with trigs := pre ++ post } } : State) = q
    rw [askOrdinary_of_room (s := q) (by rw [← hq]; exact hmc) (by rw [← hq]; exact hroom), ← hq]
    exact ⟨_, rfl, setAdc_adc_same .., rfl, rfl⟩

end Sys2Proof.Machine
end

section
/-! Calibration operations and writes of MC_CAL (R182, R183, R184). -/

namespace Sys2Proof.Machine

/-- A channel whose filter has started over (R182). -/
def Mc.fresh (c : Mc) : Mc := { c with hist := [], ovrs := [], since := 0, outputs := 0, settled := false }

/-- An operation on channel `m` starts over with the filter. -/
def CalOp.fresh (m : Nat) (o : CalOp) : CalOp := if o.mc.toNat = m then { o with outputs := 0, taken := 0, sumNum := 0 } else o

namespace State

/-! ### The filter of a channel starts over -/

theorem restartFilter_eq (s : State) (m : Nat) : s.restartFilter m =
    { s.setMc m (s.mc m).fresh with meas := { s.meas with calOp := s.meas.calOp.map (CalOp.fresh m) } } := by
  unfold restartFilter
  dsimp only
  rw [setMc_meas]
  cases hop : s.meas.calOp with
  | none =>
    rw [Option.map_none]
    dsimp only
    rw [← hop]
    rfl
  | some o =>
    rw [Option.map_some, CalOp.fresh]
    dsimp only
    split
    · rfl
    · rw [← hop]; rfl

theorem restartFilter_mc (s : State) (m k : Nat) : (s.restartFilter m).mc k = if k = m then (s.mc m).fresh else s.mc k := by
  rw [restartFilter_eq]
  exact setMc_mc ..

theorem restartFilter_meas_of_idle {s : State} (m : Nat) (h : s.meas.calOp = none) : (s.restartFilter m).meas = s.meas := by
  rw [restartFilter_eq, h, Option.map_none, ← h]

theorem restartFilter_reg (s : State) (m a : Nat) : (s.restartFilter m).reg a = s.reg a := by
  rw [restartFilter_eq]
  rfl

theorem restartFilter_rd (s : State) (m : Nat) (f : Fld) : (s.restartFilter m).rd f = s.rd f := by
  rw [rd, restartFilter_reg]
  rfl

/-! ### CAL_CMD -/

/-- The fields of a command: OP, MC and, for CAL_FULL, FS_REF. -/
def calFields (full : Bool) (m : McId) (fs : BitVec 20) : List (Fld × Nat) :=
  if full then [(F.calCmdOp, 2), (F.calCmdMc, m.toNat), (F.calCmdFsRef, fs.toNat)] else [(F.calCmdOp, 1), (F.calCmdMc, m.toNat)]

theorem calFields_word (s : State) (who : Requester) (full : Bool) (m : McId) (fs : BitVec 20) :
    let w := s.wordOf who 390 (calFields full m fs)
    bitsOf w 7 6 = (if full then 2 else 1) ∧ bitsOf w 4 0 = m.toNat ∧ (full = true → bitsOf w 39 20 = fs.toNat) := by
  have hm : m.toNat % 2 ^ (4 - 0 + 1) = m.toNat := Nat.mod_eq_of_lt m.isLt
  have hfs : fs.toNat % 2 ^ (39 - 20 + 1) = fs.toNat := Nat.mod_eq_of_lt fs.isLt
  dsimp only
  cases full with
  | false =>
    have hword : s.wordOf who 390 (calFields false m fs) = putBits (putBits (s.restWord (reqCode who) 390) 7 6 1) 4 0 m.toNat := rfl
    rw [hword, bitsOf_putBits_same _ _ (by decide) (by decide), hm, bitsOf_putBits_ne _ _ (by decide) (by decide) (by decide) (by decide),
      bitsOf_putBits_same _ _ (by decide) (by decide)]
    exact ⟨rfl, rfl, nofun⟩
  | true =>
    have hword : s.wordOf who 390 (calFields true m fs) =
      putBits (putBits (putBits (s.restWord (reqCode who) 390) 7 6 2) 4 0 m.toNat) 39 20 fs.toNat := rfl
    rw [hword, bitsOf_putBits_same _ fs.toNat (by decide) (by decide), hfs,
      bitsOf_putBits_ne _ fs.toNat (by decide) (by decide) (by decide) (by decide),
      bitsOf_putBits_ne _ fs.toNat (by decide) (by decide) (by decide) (by decide), bitsOf_putBits_same _ m.toNat (by decide) (by decide), hm,
      bitsOf_putBits_ne _ m.toNat (by decide) (by decide) (by decide) (by decide), bitsOf_putBits_same _ _ (by decide) (by decide)]
    exact ⟨rfl, rfl, fun _ => rfl⟩

/-- CAL_STAT names the channel of an operation that runs. -/
theorem calStat_begun (s : State) {n : Nat} (hn : n < 32) :
    ((s.wr F.calStatResult 1).wr F.calStatMc n).rd F.calStatResult = 1 ∧ ((s.wr F.calStatResult 1).wr F.calStatMc n).rd F.calStatMc = n := by
  constructor
  · rw [rd_wr_ne _ F.calStatMc F.calStatResult _ (by decide) (by decide) (by decide) (by decide), rd_wr_same _ _ _ (by decide) (by decide)]
    rfl
  · rw [rd_wr_same _ _ _ (by decide) (by decide)]
    exact Nat.mod_eq_of_lt hn

/-- The operation `o` on channel `m` has begun, and the channel's filter has started over. -/
structure CalBegins (s : State) (full : Bool) (m : McId) (fs : BitVec 20) (o : CalOp) (t : State) : Prop where
  meas : t.meas = { s.meas with calOp := some o }
  kind : o.full = full
  mc : o.mc = m
  fsRef : o.full = true → o.fsRef = fs
  taken : o.taken = 0
  sum : o.sumNum = 0
  result : t.rd F.calStatResult = 1
  channel : t.rd F.calStatMc = m.toNat
  own : t.mc m.toNat = (s.mc m.toNat).fresh
  others : ∀ k, k ≠ m.toNat → t.mc k = s.mc k

theorem calStart_begins {s : State} {who : Nat} {full : Bool} {m : McId} {fs : BitVec 20} {g : McCfg} (hcfg : s.mcCfg m.toNat = some g)
    (hidle : s.meas.calOp = none) : ∃ o, CalBegins s full m fs o (s.calStart who full m.toNat fs) := by
  have hm : BitVec.ofNat 5 m.toNat = m := (BitVec.ofNat_toNat ..).trans (BitVec.setWidth_eq m)
  have hmeas := restartFilter_meas_of_idle m.toNat hidle
  have hmc := restartFilter_mc s m.toNat
  rw [calStart, hidle]
  dsimp only
  rw [hcfg]
  dsimp only
  rw [hm]
  generalize s.restartFilter m.toNat = y at hmeas hmc
  refine ⟨⟨full, m, fs, 0, 0, 0, who⟩, ?_, rfl, rfl, fun _ => rfl, rfl, rfl, (calStat_begun _ m.isLt).1, (calStat_begun _ m.isLt).2,
    (hmc _).trans (if_pos rfl), fun k hk => (hmc k).trans (if_neg hk)⟩
  rw [← hmeas]
  rfl

section
variable {s : State} {who : Requester} {full : Bool} {m : McId} {fs : BitVec 20}
  (h : s.takes who 390 (calFields full m fs) = true)
include h

/-- A command is taken on what the journal and a replay's decision leave. -/
theorem calCmd_asks : ∃ x pb fs', Outside s x ∧ (s.plainWriter who → x.fc = s.fc) ∧ (full = true → fs' = fs) ∧
    s.fieldWrite who 390 (calFields full m fs) = { x.calStart (reqCode who) full m.toNat fs' with parBad := pb } := by
  obtain ⟨q, hwritten⟩ := fieldWrite_measWritten (by decide) (by decide) h
  obtain ⟨hop, hmc, hfs⟩ := calFields_word s who full m fs
  generalize s.wordOf who 390 (calFields full m fs) = w at hwritten hop hmc hfs
  have hfx : q.writeFx (reqCode who) 390 w = (q.storeBits 390 (maskOf 39 20 ||| maskOf 4 0) w).calStart (reqCode who) full m.toNat
      (BitVec.ofNat 20 (bitsOf w 39 20)) := by
    rw [writeFx_meas _ _ _ (by decide) (by decide), writeMeas, if_neg (by decide), if_neg (by decide), if_pos rfl]
    dsimp only
    rw [hop, hmc]
    cases full <;> rfl
  have heffect := hwritten.effect
  rw [hfx] at heffect
  refine ⟨_, _, _, hwritten.outside.trans (Outside.storeRequest q _ w (.inr rfl)), hwritten.plain, fun hfull => ?_, heffect⟩
  rw [hfs hfull, BitVec.ofNat_toNat, BitVec.setWidth_eq]

theorem calCmd_starts {g : McCfg} (hcfg : s.mcCfg m.toNat = some g) (hidle : s.meas.calOp = none) :
    ∃ o, CalBegins s full m fs o (s.fieldWrite who 390 (calFields full m fs)) := by
  obtain ⟨x, pb, fs', hout, -, hfs, ht⟩ := calCmd_asks h
  obtain ⟨o, hbegins⟩ := calStart_begins (who := reqCode who) (full := full) (fs := fs') ((hout.mcCfg _).trans hcfg)
    (by rw [hout.meas]; exact hidle)
  generalize x.calStart (reqCode who) full m.toNat fs' = y at ht hbegins
  obtain ⟨hmeas, hkind, hmc, hfs', htaken, hsum, hresult, hstat, hown, hothers⟩ := hbegins
  rw [ht]
  exact ⟨o, by rw [← hout.meas]; exact hmeas, hkind, hmc, fun hfull => (hfs' hfull).trans (hfs (hkind ▸ hfull)), htaken, hsum, hresult, hstat,
    by rw [← hout.mc]; exact hown, fun k hk => (hothers k hk).trans (hout.mc k)⟩

theorem calCmd_busy (hbusy : s.meas.calOp ≠ none) (hplain : s.plainWriter who) (hroom : s.intakeRoom 1 = true) :
    (s.fieldWrite who 390 (calFields full m fs)).meas = s.meas ∧ (s.fieldWrite who 390 (calFields full m fs)).mcs = s.mcs ∧
      s.sentNow (s.fieldWrite who 390 (calFields full m fs)) srcMeas 56 0 (s.mcCtx m.toNat) := by
  obtain ⟨x, pb, fs', hout, hfc, -, ht⟩ := calCmd_asks h
  obtain ⟨o, ho⟩ := Option.ne_none_iff_exists'.mp hbusy
  rw [calStart, hout.meas, ho] at ht
  dsimp only at ht
  have hctx : x.mcCtx m.toNat = s.mcCtx m.toNat := by rw [mcCtx, mcAdc, hout.mcCfg]; rfl
  rw [hctx] at ht
  rw [ht]
  refine ⟨?_, ?_, ?_⟩
  · exact (congrArg State.meas (report_eq x ..)).trans hout.meas
  · exact (congrArg State.mcs (report_eq x ..)).trans hout.mcs
  · exact sentNow_report hout.terms srcMeas 56 0 _ ((intakeRoom_of_fc (hfc hplain) 1).trans hroom)

end

end State

end Sys2Proof.Machine
end

section
/-! The judgement of a calibration operation (R184). -/

namespace Sys2Proof.Machine

/-! ### Rounded quotients in their fields -/

/-- A rounded quotient keeps integer bounds of the exact one. -/
theorem roundEven_mem {n : Int} {d : Nat} (hd : 0 < d) {lo hi : Int} (hlo : lo * d ≤ n) (hhi : n ≤ hi * d) :
    lo ≤ roundEven n d ∧ roundEven n d ≤ hi := by
  obtain ⟨hl, hu⟩ : -(d : Int) ≤ 2 * (roundEven n d * d - n) ∧ 2 * (roundEven n d * d - n) ≤ d :=
    abs_le.mp (by rw [abs_mul, abs_two]; exact two_mul_abs_roundEven_mul_sub_le n hd)
  have hd' : (0 : Int) < d := by exact_mod_cast hd
  constructor
  · by_contra hlt
    have := mul_le_mul_of_nonneg_right (show roundEven n d ≤ lo - 1 by omega) hd'.le
    rw [sub_mul] at this
    omega
  · by_contra hlt
    have := mul_le_mul_of_nonneg_right (show hi + 1 ≤ roundEven n d by omega) hd'.le
    rw [add_mul] at this
    omega

/-- A value within a signed field reads back as it was written. -/
theorem sx_ux {w : Nat} {x : Int} (hw : 0 < w) (hlo : -(2 ^ (w - 1)) ≤ x) (hhi : x < 2 ^ (w - 1)) : sx w (ux w x % 2 ^ w) = x := by
  have hpow : (2 : Int) ^ w = 2 * 2 ^ (w - 1) := by rw [← pow_succ']; congr 1; omega
  have hnat : (2 : Nat) ^ w = 2 * 2 ^ (w - 1) := by rw [← pow_succ']; congr 1; omega
  have hcast : ((2 ^ (w - 1) : Nat) : Int) = 2 ^ (w - 1) := by push_cast; rfl
  simp only [sx, ux, hpow, hnat]
  generalize (2 : Int) ^ (w - 1) = p at *
  generalize (2 : Nat) ^ (w - 1) = q at *
  subst hcast
  have hmod : ((x % (2 * (q : Int))).toNat : Int) = x % (2 * q) := Int.toNat_of_nonneg (Int.emod_nonneg _ (by omega))
  have hlt := Int.emod_lt_of_pos x (show (0 : Int) < 2 * q by omega)
  rw [Nat.mod_mod, Nat.mod_eq_of_lt (by omega)]
  rcases le_or_gt 0 x with hx | hx
  · have hself : x % (2 * (q : Int)) = x := Int.emod_eq_of_lt hx (by omega)
    rw [if_pos (by omega), hmod, hself]
  · have hself : x % (2 * (q : Int)) = x + 2 * q := by
      rw [← Int.add_emod_right]
      exact Int.emod_eq_of_lt (by omega) (by omega)
    rw [if_neg (by omega), hmod, hself]
    omega

/-- A value within an unsigned field reads back as it was written. -/
theorem ux_of_mem {w : Nat} {x : Int} (hlo : 0 ≤ x) (hhi : x < 2 ^ w) : ux w x % 2 ^ w = x.toNat := by
  rw [ux, Int.emod_eq_of_lt hlo hhi]
  refine Nat.mod_eq_of_lt ?_
  have : ((2 ^ w : Nat) : Int) = 2 ^ w := by push_cast; rfl
  omega

namespace State

/-! ### An accepted and a refused operation -/

theorem calibrations : Counter F.calStatCalCnt F.calStatCalOvf := by
  refine ⟨rfl, ?_, ?_⟩ <;> decide

/-- What an accepted operation leaves: MC_CAL holds `w`, the operation is over, counted and time-stamped. -/
structure CalAccepted (s : State) (c : Nat) (w : Word) (t : State) : Prop where
  ended : t.meas.calOp = none
  word : t.reg (448 + c) = w
  result : t.rd F.calStatResult = 2
  counts : s.countsOne t F.calStatCalCnt
  timeHi : t.rd F.calTimeHiTime = s.nowHi.toNat
  timeLo : t.rd F.calTimeLoTime = s.nowLo.toNat

/-- An accepted operation before its journal entry: MC_CAL, CAL_STAT and CAL_TIME. -/
def calTaken (s : State) (o : CalOp) (w : Word) : State :=
  let s := ({ s with meas := { s.meas with calOp := none } } : State).setReg (448 + o.mc.toNat) w
  let s := (s.inc F.calStatCalCnt F.calStatCalOvf).wr F.calStatResult 2
  (s.wr F.calTimeHiTime s.nowHi.toNat).wr F.calTimeLoTime s.nowLo.toNat

/-- TIME_HI and TIME_LO of an event stand in their registers. -/
theorem calTime_stamped (s : State) (hi lo : Word) :
    ((s.wr F.calTimeHiTime hi.toNat).wr F.calTimeLoTime lo.toNat).rd F.calTimeHiTime = hi.toNat ∧
    ((s.wr F.calTimeHiTime hi.toNat).wr F.calTimeLoTime lo.toNat).rd F.calTimeLoTime = lo.toNat := by
  constructor
  · rw [wr_rd_ne _ _ (by decide), rd_wr_same _ _ _ (by decide) (by decide)]
    exact Nat.mod_eq_of_lt hi.isLt
  · rw [rd_wr_same _ _ _ (by decide) (by decide)]
    exact Nat.mod_eq_of_lt lo.isLt

theorem calTaken_accepted (s : State) (o : CalOp) (w : Word) : CalAccepted s o.mc.toNat w (s.calTaken o w) := by
  have hc := o.mc.isLt
  unfold calTaken
  dsimp only
  generalize hx : ({ s with meas := { s.meas with calOp := none } } : State).setReg (448 + o.mc.toNat) w = x
  have hword : x.reg (448 + o.mc.toNat) = w := by rw [← hx]; exact setReg_reg_same ..
  have hcnt : x.rd F.calStatCalCnt = s.rd F.calStatCalCnt := by
    rw [← hx, rd, setReg_reg_ne _ _ (by simp only [F.calStatCalCnt]; omega)]; rfl
  have hmeas : x.meas.calOp = none := by rw [← hx]; rfl
  have hnow : x.time = s.time := by rw [← hx]; rfl
  generalize hy : (x.inc F.calStatCalCnt F.calStatCalOvf).wr F.calStatResult 2 = y
  have hframe : y = { x with regs := y.regs } := by rw [← hy, inc_eq]; rfl
  have hresult : y.rd F.calStatResult = 2 := by rw [← hy, rd_wr_same _ _ _ (by decide) (by decide)]; rfl
  have hcount : x.countsOne y F.calStatCalCnt := by
    rw [← hy, countsOne, rd_wr_ne _ _ _ _ (.inr (.inr (by decide))) (by decide) (by decide) (by decide)]
    exact countsOne_inc x calibrations
  have hyword : y.reg (448 + o.mc.toNat) = w := by
    rw [← hy, wr_reg_ne _ _ (by simp only [F.calStatResult]; omega),
      inc_reg_ne _ (by simp only [F.calStatCalCnt]; omega) (by simp only [F.calStatCalOvf]; omega), hword]
  have htime : y.time = s.time := by rw [hframe]; exact hnow
  have hHi : y.nowHi = s.nowHi := by rw [nowHi, htime]; rfl
  have hLo : y.nowLo = s.nowLo := by rw [nowLo, htime]; rfl
  obtain ⟨hhi, hlo⟩ := calTime_stamped y y.nowHi y.nowLo
  refine ⟨?_, ?_, ?_, ?_, hhi.trans (by rw [hHi]), hlo.trans (by rw [hLo])⟩
  · exact (congrArg (fun t : State => t.meas.calOp) hframe).trans hmeas
  · rw [wr_reg_ne _ _ (by simp only [F.calTimeLoTime]; omega), wr_reg_ne _ _ (by simp only [F.calTimeHiTime]; omega), hyword]
  · rw [wr_rd_ne _ _ (by decide), wr_rd_ne _ _ (by decide), hresult]
  · rw [countsOne, wr_rd_ne _ _ (by decide), wr_rd_ne _ _ (by decide), ← hcnt]
    exact hcount

theorem calAccept_accepted (s : State) (o : CalOp) (w : Word) : CalAccepted s o.mc.toNat w (s.calAccept o w) := by
  obtain ⟨hover, hword, hresult, hcount, hhi, hlo⟩ := calTaken_accepted s o w
  have heq : s.calAccept o w = ((s.calTaken o w).journal 1 (Nat.min o.who 10 * 2 ^ 24 + (448 + o.mc.toNat)) (s.calTaken o w).cycW w
    (BitVec.allOnes 40)).restartFilter o.mc.toNat := rfl
  generalize s.calTaken o w = x at *
  have hjournal := journal_frame x 1 (Nat.min o.who 10 * 2 ^ 24 + (448 + o.mc.toNat)) x.cycW w (BitVec.allOnes 40)
  generalize x.journal 1 (Nat.min o.who 10 * 2 ^ 24 + (448 + o.mc.toNat)) x.cycW w (BitVec.allOnes 40) = y at *
  have hmeas : y.meas = x.meas := by rw [hjournal]
  have hreg : ∀ a, (y.restartFilter o.mc.toNat).reg a = x.reg a := fun a => by rw [restartFilter_reg, hjournal]; rfl
  have hrd : ∀ f, (y.restartFilter o.mc.toNat).rd f = x.rd f := fun f => by rw [rd, hreg]; rfl
  rw [heq]
  exact ⟨by rw [restartFilter_meas_of_idle _ (by rw [hmeas]; exact hover), hmeas]; exact hover, (hreg _).trans hword, (hrd _).trans hresult,
    (hrd _).trans hcount, (hrd _).trans hhi, (hrd _).trans hlo⟩

theorem calRefuse_refused (s : State) (o : CalOp) (hroom : s.intakeRoom 1 = true) :
    (s.calRefuse o).meas.calOp = none ∧ (s.calRefuse o).reg (448 + o.mc.toNat) = s.reg (448 + o.mc.toNat) ∧
      (s.calRefuse o).rd F.calStatResult = 3 ∧ s.sentNow (s.calRefuse o) srcMeas 56 0 (s.mcCtx o.mc.toNat) := by
  unfold calRefuse note
  generalize hx : ({ s with meas := { s.meas with calOp := none } } : State).wr F.calStatResult 3 = x
  have hmeas : (x.report srcMeas kNote 0 (s.mcCtx o.mc.toNat)).meas.calOp = none := by rw [report_eq, ← hx]; rfl
  refine ⟨?_, ?_, ?_, ?_⟩
  · rw [restartFilter_meas_of_idle _ hmeas]; exact hmeas
  · rw [restartFilter_reg, report_reg_ne _ _ _ _ _ (by simp only [F.fcQueueDrop0]; omega), ← hx,
      wr_reg_ne _ _ (by simp only [F.calStatResult]; omega)]
    rfl
  · rw [restartFilter_rd, report_rd_ne _ _ _ _ _ (by decide), ← hx, rd_wr_same _ _ _ (by decide) (by decide)]
    rfl
  · have hsent := sentNow_report (s := s) (t := x) (by rw [← hx]; rfl) srcMeas kNote 0 (s.mcCtx o.mc.toNat)
      ((intakeRoom_of_fc (by rw [← hx]; rfl) 1).trans hroom)
    rw [restartFilter_eq]
    exact hsent

end State

end Sys2Proof.Machine
end

section
/-! What an operation takes: OFFSET from CAL_ZERO, GAIN from CAL_FULL (R183, R184). -/

namespace Sys2Proof.Machine

open State

namespace State

section
variable {s t : State} {c : Nat} {x : Int}

theorem offset_taken (h : t.reg (448 + c) = putBits (s.reg (448 + c)) 39 20 (ux 20 x)) (hlo : -2 ^ 19 ≤ x) (hhi : x < 2 ^ 19) :
    t.rdS (F.mcCalOffset c) = x ∧ t.rd (F.mcCalGain c) = s.rd (F.mcCalGain c) := by
  simp only [rdS, rd, F.mcCalOffset, F.mcCalGain, h]
  rw [bitsOf_putBits_same _ _ (by decide) (by decide), bitsOf_putBits_ne _ _ (by decide) (by decide) (by decide) (by decide)]
  exact ⟨sx_ux (by decide) hlo hhi, rfl⟩

theorem gain_taken (h : t.reg (448 + c) = putBits (s.reg (448 + c)) 19 0 (ux 20 x)) (hlo : 0 ≤ x) (hhi : x < 2 ^ 20) :
    t.rd (F.mcCalGain c) = x.toNat ∧ t.rd (F.mcCalOffset c) = s.rd (F.mcCalOffset c) := by
  simp only [rd, F.mcCalOffset, F.mcCalGain, h]
  rw [bitsOf_putBits_same _ _ (by decide) (by decide), bitsOf_putBits_ne _ _ (by decide) (by decide) (by decide) (by decide)]
  exact ⟨ux_of_mem hlo hhi, rfl⟩

end

section
variable {s : State} {o : CalOp} {num : Int} {den : Nat}

theorem exec_calOpComplete_of_taken {g : McCfg} (hop : s.meas.calOp = some o) (hcfg : s.mcCfg o.mc.toNat = some g) (htaken : 16 ≤ o.taken) :
    exec .calOpComplete s = .next (s.calJudge o o.sumNum (2 ^ 41 * Nat.max 1 (s.filterN g ^ g.k))) := by
  show execCalOpComplete s = _
  rw [execCalOpComplete, hop]
  dsimp only
  rw [hcfg]
  exact if_neg (by omega)

theorem exec_calOpComplete_of_early {g : McCfg} (hop : s.meas.calOp = some o) (hcfg : s.mcCfg o.mc.toNat = some g) (htaken : o.taken < 16) :
    exec .calOpComplete s = .next s := by
  show execCalOpComplete s = _
  rw [execCalOpComplete, hop]
  dsimp only
  rw [hcfg]
  exact if_pos htaken

/-! ### CAL_ZERO -/

theorem calJudge_of_zero (hkind : o.full = false) : s.calJudge o num den =
    if (den : Int) < 16 * num ∨ 16 * num < -(den : Int) then s.calRefuse o
    else s.calAccept o (putBits (s.reg (448 + o.mc.toNat)) 39 20 (ux 20 (roundEven (num * 2 ^ 19) den))) := by
  rw [calJudge, hkind]
  exact if_neg (by decide)

theorem calJudge_zero_within (hkind : o.full = false) (hden : 0 < den) (hlo : -(den : Int) ≤ 16 * num) (hhi : 16 * num ≤ den) :
    CalAccepted s o.mc.toNat (putBits (s.reg (448 + o.mc.toNat)) 39 20 (ux 20 (roundEven (num * 2 ^ 19) den))) (s.calJudge o num den) ∧
      -2 ^ 19 ≤ roundEven (num * 2 ^ 19) den ∧ roundEven (num * 2 ^ 19) den < 2 ^ 19 := by
  constructor
  · rw [calJudge_of_zero hkind, if_neg (by omega)]
    exact calAccept_accepted ..
  · obtain ⟨hl, hu⟩ := roundEven_mem (n := num * 2 ^ 19) hden (lo := -2 ^ 15) (hi := 2 ^ 15) (by omega) (by omega)
    exact ⟨by omega, by omega⟩

theorem calJudge_zero_beyond (hkind : o.full = false) (h : 16 * num < -(den : Int) ∨ (den : Int) < 16 * num) :
    s.calJudge o num den = s.calRefuse o := by
  rw [calJudge_of_zero hkind, if_pos h.symm]

/-! ### CAL_FULL -/

/-- The divisor of a new GAIN: the mean less OFFSET, in 2^-19 over `den`. -/
def gainSpan (s : State) (o : CalOp) (num : Int) (den : Nat) : Int := num * 2 ^ 19 - s.rdS (F.mcCalOffset o.mc.toNat) * den

/-- FS_REF as it is divided by the size of the divisor. -/
def gainTop (s : State) (o : CalOp) (num : Int) (den : Nat) : Int :=
  if s.gainSpan o num den < 0 then -(sx 20 o.fsRef.toNat * den) else sx 20 o.fsRef.toNat * den

/-- The divisor is no less than 1/64 of the span, and the gain lies from 1/2 to 2. -/
def gainFits (s : State) (o : CalOp) (num : Int) (den : Nat) : Prop :=
  2 ^ 13 * den ≤ (s.gainSpan o num den).natAbs ∧ ((s.gainSpan o num den).natAbs : Int) ≤ 2 * s.gainTop o num den ∧
    s.gainTop o num den ≤ 2 * ((s.gainSpan o num den).natAbs : Int)

theorem calJudge_of_full (hkind : o.full = true) : s.calJudge o num den =
    if (s.gainSpan o num den).natAbs < 2 ^ 13 * den ∨ 2 * s.gainTop o num den < ((s.gainSpan o num den).natAbs : Int) ∨
        2 * ((s.gainSpan o num den).natAbs : Int) < s.gainTop o num den then s.calRefuse o
    else s.calAccept o (putBits (s.reg (448 + o.mc.toNat)) 19 0
      (ux 20 (roundEven (s.gainTop o num den * 2 ^ 18) (s.gainSpan o num den).natAbs))) := by
  rw [calJudge, hkind]
  exact if_pos rfl

theorem calJudge_full_within (hkind : o.full = true) (hden : 0 < den) (h : s.gainFits o num den) :
    let gain := roundEven (s.gainTop o num den * 2 ^ 18) (s.gainSpan o num den).natAbs
    CalAccepted s o.mc.toNat (putBits (s.reg (448 + o.mc.toNat)) 19 0 (ux 20 gain)) (s.calJudge o num den) ∧ 0 ≤ gain ∧ gain < 2 ^ 20 := by
  intro gain
  obtain ⟨hspan, hlo, hhi⟩ := h
  constructor
  · rw [calJudge_of_full hkind, if_neg (by omega)]
    exact calAccept_accepted ..
  · obtain ⟨hl, hu⟩ := roundEven_mem (n := s.gainTop o num den * 2 ^ 18) (d := (s.gainSpan o num den).natAbs) (by omega) (lo := 0) (hi := 2 ^ 19)
      (by omega) (by omega)
    exact ⟨hl, by omega⟩

theorem calJudge_full_beyond (hkind : o.full = true) (h : ¬ s.gainFits o num den) : s.calJudge o num den = s.calRefuse o := by
  unfold gainFits at h
  rw [calJudge_of_full hkind, if_pos (by omega)]

end

/-! ### A write of MC_CAL (R183) -/

theorem mcCal_rows : ∀ n < 32, ∀ r ∈ (layout (448 + n)).getD [], r.acc ≠ .w1c := by decide

/-- The word stands in MC_CAL; the channel's filter starts over, and an operation on the channel has been aborted. -/
theorem mcCalFx_taken (s : State) (m : McId) (w : Word) :
    (s.mcCalFx m.toNat w).reg (448 + m.toNat) = w ∧
      (∀ k, (s.mcCalFx m.toNat w).mc k = if k = m.toNat then (s.mc m.toNat).fresh else s.mc k) ∧
      (∀ o, s.meas.calOp = some o → o.mc = m → (s.mcCalFx m.toNat w).meas.calOp = none ∧ (s.mcCalFx m.toNat w).rd F.calStatResult = 4) ∧
      (∀ o, s.meas.calOp = some o → o.mc ≠ m → (s.mcCalFx m.toNat w).meas = s.meas) := by
  have hm := m.isLt
  have hword : (s.setReg (448 + m.toNat) w).reg (448 + m.toNat) = w := setReg_reg_same ..
  have hmcs : ∀ x : State, x.mcs = s.mcs → ∀ k, (x.restartFilter m.toNat).mc k = if k = m.toNat then (s.mc m.toNat).fresh else s.mc k := fun x hx k => by
    have hmc : ∀ j, x.mc j = s.mc j := fun j => by rw [mc, hx]; rfl
    rw [restartFilter_mc, hmc, hmc]
  unfold mcCalFx
  dsimp only [F.mcCalOffset]
  generalize hx : s.setReg (448 + m.toNat) w = x at *
  have hxmeas : x.meas = s.meas := by rw [← hx]; rfl
  have hxmcs : x.mcs = s.mcs := by rw [← hx]; rfl
  rw [hxmeas]
  cases hop : s.meas.calOp with
  | none => exact ⟨(restartFilter_reg ..).trans hword, hmcs x hxmcs, nofun, nofun⟩
  | some o =>
    dsimp only
    by_cases homc : o.mc.toNat = m.toNat
    · rw [if_pos homc]
      refine ⟨?_, hmcs _ hxmcs, fun _ _ _ => ⟨?_, ?_⟩, fun o' ho' hne => absurd (BitVec.eq_of_toNat_eq homc) (by injection ho' with h; exact h ▸ hne)⟩
      · rw [restartFilter_reg, wr_reg_ne _ _ (by simp only [F.calStatResult]; omega)]
        exact hword
      · rw [restartFilter_eq]; rfl
      · rw [restartFilter_rd, rd_wr_same _ _ _ (by decide) (by decide)]
        rfl
    · rw [if_neg homc]
      refine ⟨(restartFilter_reg ..).trans hword, hmcs x hxmcs, fun o' ho' hmc => absurd ?_ homc, fun _ _ _ => ?_⟩
      · injection ho' with h; rw [h, hmc]
      · rw [restartFilter_eq, hxmeas, hop, Option.map_some, CalOp.fresh, if_neg homc, ← hop]

theorem mcCalWrite_taken {s : State} {who : Requester} {m : McId} {offset gain : BitVec 20}
    (h : s.takesWord who (448 + m.toNat) (offset ++ gain) = true) :
    ∃ q pb, Outside s q ∧ exec (.mcCalWrite who m offset gain) s = .next { q.mcCalFx m.toNat (offset ++ gain) with parBad := pb } := by
  have hm := m.isLt
  obtain ⟨q, hout, -, heffect⟩ := reqWrite_measWritten (by omega) (mcCal_rows _ hm) h
  rw [writeFx_meas _ _ _ (by omega) (by omega), writeMeas, if_neg (by omega), if_neg (by omega), if_neg (by omega), if_neg (by omega),
    if_neg (by omega), if_pos (by omega), show 448 + m.toNat - 384 - 64 = m.toNat by omega] at heffect
  exact ⟨q, _, hout, congrArg Host.Outcome.next heffect⟩

end State

end Sys2Proof.Machine
end

section
/-! Trim sets: TRIM_ACT, and the quiet slot that puts a set in force (R187, R188). -/

namespace Sys2Proof.Machine

/-! ### A list written in a run of places -/

theorem setAt'_eq_set {α : Type} (l : List α) (i : Nat) (v : α) : setAt' l i v = l.set i v := by
  induction l generalizing i with
  | nil => rfl
  | cons x l ih =>
    cases i with
    | zero => rfl
    | succ i => exact congrArg (x :: ·) (ih i)

theorem foldl_setAt' {α : Type} (l : List α) (b n : Nat) (f : Nat → α) :
    let r := (List.range n).foldl (fun l k => setAt' l (b + k) (f k)) l
    r.length = l.length ∧ ∀ i, i < l.length → r[i]? = if b ≤ i ∧ i < b + n then some (f (i - b)) else l[i]? := by
  induction n with
  | zero => exact ⟨rfl, fun i _ => (if_neg (by omega)).symm⟩
  | succ n ih =>
    obtain ⟨hlength, hget⟩ := ih
    rw [List.range_succ, List.foldl_append, List.foldl_cons, List.foldl_nil, setAt'_eq_set]
    refine ⟨by rw [List.length_set, hlength], fun i hi => ?_⟩
    rw [List.getElem?_set]
    by_cases hin : b + n = i
    · subst hin
      rw [if_pos rfl, if_pos (by omega), if_pos (by omega), Nat.add_sub_cancel_left]
    · rw [if_neg hin, hget i hi]
      exact if_congr (by omega) rfl rfl

namespace State

/-! ### TRIM_ACT -/

/-- The set that a write of TRIM_ACT starts from: the pending one, or the one in force. -/
def trimBase (s : State) : List Nat :=
  let base := s.meas.trimNext.getD s.meas.trims
  if base.length = 26 then base else List.replicate 26 0

theorem trimBase_length (s : State) : s.trimBase.length = 26 := by
  unfold trimBase
  dsimp only
  split
  next h => exact h
  next => exact List.length_replicate

/-- A write of TRIM_ACTr makes a set pending, with its four codes in their places. -/
theorem trimActFx_pends (s : State) (r : Nat) (w : Word) : ∃ l, (s.trimActFx r w).meas.trimNext = some l ∧ (s.trimActFx r w).meas.trims = s.meas.trims ∧
    l.length = 26 ∧ ∀ k, k < 26 → l[k]? = if k / 4 = r then some (bitsOf w (39 - 10 * (k % 4)) (30 - 10 * (k % 4))) else s.trimBase[k]? := by
  obtain ⟨hlength, hget⟩ := foldl_setAt' s.trimBase (4 * r) 4 fun k => bitsOf w (39 - 10 * k) (30 - 10 * k)
  rw [trimBase_length] at hlength hget
  refine ⟨_, rfl, rfl, hlength, fun k hk => (hget k hk).trans ?_⟩
  by_cases hr : k / 4 = r
  · rw [if_pos hr, if_pos (by omega), show k - 4 * r = k % 4 by omega]
  · rw [if_neg hr, if_neg (by omega)]

theorem trimAct_rows : ∀ r < 7, ∀ x ∈ (layout (398 + r)).getD [], x.acc ≠ .w1c := by decide

theorem trimActWrite_taken {s : State} {who : Requester} {r : BitVec 3} {w : Word} (hr : r.toNat < 7) (h : s.takesWord who (398 + r.toNat) w = true) :
    ∃ q pb, Outside s q ∧ exec (.trimActWrite who r w) s = .next { q.trimActFx r.toNat w with parBad := pb } := by
  obtain ⟨q, hout, -, heffect⟩ := reqWrite_measWritten (by omega) (trimAct_rows _ hr) h
  rw [writeFx_meas _ _ _ (by omega) (by omega), writeMeas, if_neg (by omega), if_neg (by omega), if_neg (by omega), if_neg (by omega),
    if_pos (by omega), show 398 + r.toNat - 384 - 14 = r.toNat by omega] at heffect
  exact ⟨q, _, hout, (if_pos hr).trans (congrArg Host.Outcome.next heffect)⟩

/-! ### TRIM_APPLY -/

/-- Every channel of a list starts its filter over. -/
theorem foldl_restartFilter (l : List Nat) (s : State) :
    let t := l.foldl (fun s m => s.restartFilter m) s
    t = { s with mcs := t.mcs, meas := { s.meas with calOp := t.meas.calOp } } ∧
      ∀ k, t.mc k = if k ∈ l then (s.mc k).fresh else s.mc k := by
  induction l generalizing s with
  | nil => exact ⟨rfl, fun k => by simp⟩
  | cons m l ih =>
    obtain ⟨hframe, hmc⟩ := ih (s.restartFilter m)
    dsimp only at hframe hmc ⊢
    rw [List.foldl_cons]
    refine ⟨hframe.trans ?_, fun k => ?_⟩
    · rw [restartFilter_eq]
      rfl
    · rw [hmc, restartFilter_mc]
      by_cases hk : k = m
      · subst hk
        by_cases hl : k ∈ l <;> simp [hl, Mc.fresh]
      · simp [hk]

/-- Several events move a count on and leave everything but its register. -/
theorem incBy_counts {cnt ovf : Fld} (h : Counter cnt ovf) (n : Nat) (s : State) :
    s.incBy cnt ovf n = { s with regs := (s.incBy cnt ovf n).regs } ∧
      (s.incBy cnt ovf n).rd cnt = Nat.min (s.rd cnt + n) (2 ^ (cnt.hi - cnt.lo + 1) - 1) := by
  have htop : ∀ x : State, x.rd cnt < 2 ^ (cnt.hi - cnt.lo + 1) := fun x => Nat.mod_lt _ (Nat.two_pow_pos _)
  induction n generalizing s with
  | zero => exact ⟨rfl, (Nat.min_eq_left (Nat.le_sub_one_of_lt (htop s))).symm⟩
  | succ n ih =>
    obtain ⟨hframe, hcount⟩ := ih (s.inc cnt ovf)
    have hone : (s.inc cnt ovf).rd cnt = min (s.rd cnt + 1) (2 ^ (cnt.hi - cnt.lo + 1) - 1) := countsOne_inc s h
    rw [incBy]
    refine ⟨hframe.trans (by rw [inc_eq]), hcount.trans ?_⟩
    rw [hone]
    change min (min (s.rd cnt + 1) _ + n) _ = min (s.rd cnt + (n + 1)) _
    omega

theorem trimCounts : Counter F.trimStatTrimCnt F.trimStatTrimOvf := by
  refine ⟨rfl, ?_, ?_⟩ <;> decide

/-- TIME_HI and TIME_LO of the trim set in force. -/
theorem trimTime_stamped (s : State) (hi lo : Word) :
    ((s.wr F.trimTimeHiTime hi.toNat).wr F.trimTimeLoTime lo.toNat).rd F.trimTimeHiTime = hi.toNat ∧
    ((s.wr F.trimTimeHiTime hi.toNat).wr F.trimTimeLoTime lo.toNat).rd F.trimTimeLoTime = lo.toNat := by
  constructor
  · rw [wr_rd_ne _ _ (by decide), rd_wr_same _ _ _ (by decide) (by decide)]
    exact Nat.mod_eq_of_lt hi.isLt
  · rw [rd_wr_same _ _ _ (by decide) (by decide)]
    exact Nat.mod_eq_of_lt lo.isLt

/-- The pending set is in force: AUTO loops hold from now on. -/
def trimsHeld (s : State) (l : List Nat) : State :=
  (List.range 32).foldl (fun s j => if s.loopMode j = 2 then s.setLoop j { s.loop j with trimHold := some s.cyc } else s)
    ({ s with meas := { s.meas with trims := l, trimNext := none, trimExtra := 0 } } : State)

theorem trimsHeld_loops (s : State) (l : List Nat) :
    s.trimsHeld l = { s with meas := { s.meas with trims := l, trimNext := none, trimExtra := 0 }, loops := (s.trimsHeld l).loops } ∧
      ∀ j, j < 32 → (s.trimsHeld l).loop j = if s.loopMode j = 2 then { s.loop j with trimHold := some s.cyc } else s.loop j := by
  obtain ⟨hframe, hloop⟩ := foldl_setLoop (s := ({ s with meas := { s.meas with trims := l, trimNext := none, trimExtra := 0 } } : State))
    (l := List.range 32)
    (step := fun s j => if s.loopMode j = 2 then s.setLoop j { s.loop j with trimHold := some s.cyc } else s)
    (p := fun j => s.loopMode j = 2) (f := fun _ x => { x with trimHold := some s.cyc }) List.nodup_range fun t ht j => by rw [ht]; rfl
  exact ⟨hframe, fun j hj => (hloop j).trans (if_congr (by simp [hj]) rfl rfl)⟩

/-- The filters of all channels start over, and the change is counted. -/
def trimsCounted (s : State) (n : Nat) : State :=
  ((List.range 32).foldl (fun s m => s.restartFilter m) s).incBy F.trimStatTrimCnt F.trimStatTrimOvf n

theorem trimsCounted_counts (s : State) (n : Nat) :
    s.trimsCounted n = { s with
      mcs := (s.trimsCounted n).mcs, meas := { s.meas with calOp := (s.trimsCounted n).meas.calOp }, regs := (s.trimsCounted n).regs } ∧
      (∀ k, k < 32 → (s.trimsCounted n).mc k = (s.mc k).fresh) ∧
      (s.trimsCounted n).rd F.trimStatTrimCnt = Nat.min (s.rd F.trimStatTrimCnt + n) (2 ^ 23 - 1) := by
  obtain ⟨hframe, hmc⟩ := foldl_restartFilter (List.range 32) s
  unfold trimsCounted
  generalize (List.range 32).foldl (fun s m => s.restartFilter m) s = x at *
  obtain ⟨hcount, hrd⟩ := incBy_counts trimCounts n x
  have hxrd : x.rd F.trimStatTrimCnt = s.rd F.trimStatTrimCnt := by rw [hframe]; rfl
  generalize x.incBy F.trimStatTrimCnt F.trimStatTrimOvf n = y at *
  refine ⟨?_, fun k hk => ?_, hrd.trans (by rw [hxrd]; rfl)⟩
  · rw [hcount, hframe]
  · rw [hcount]
    exact (hmc k).trans (if_pos (List.mem_range.mpr hk))

theorem exec_trimApply_of_quiet {s : State} {l : List Nat} (hnext : s.meas.trimNext = some l) (hslot : s.slotNow = 1023) (hedge : s.cyc % 960 = 0)
    (hfree : ∀ a, a < 4 → (s.adc a).conv = none) :
    exec .trimApply s = .next ((((s.trimsHeld l).trimsCounted (s.meas.trimExtra + 1)).wr F.trimTimeHiTime
      ((s.trimsHeld l).trimsCounted (s.meas.trimExtra + 1)).nowHi.toNat).wr F.trimTimeLoTime
      ((s.trimsHeld l).trimsCounted (s.meas.trimExtra + 1)).nowLo.toNat) := by
  have hnone : ¬ ((List.range 4).any fun a => (s.adc a).conv.isSome) = true := by
    simp only [List.any_eq_true, List.mem_range, not_exists, not_and]
    intro a ha
    simp [hfree a ha]
  show execTrimApply s = _
  rw [execTrimApply, hnext]
  exact if_neg (by rintro (h | h | h) <;> contradiction)

theorem exec_trimApply_of_waiting {s : State} {l : List Nat} (hnext : s.meas.trimNext = some l)
    (h : s.slotNow ≠ 1023 ∨ s.cyc % 960 ≠ 0 ∨ ∃ a, a < 4 ∧ (s.adc a).conv ≠ none) : exec .trimApply s = .next s := by
  show execTrimApply s = _
  rw [execTrimApply, hnext]
  refine if_pos (h.imp_right (Or.imp_right fun ⟨a, ha, hconv⟩ => ?_))
  exact List.any_eq_true.mpr ⟨a, List.mem_range.mpr ha, Option.isSome_iff_ne_none.mpr hconv⟩

end State

/-! ### Calibration and trims as the statement puts them (R183, R184, R187) -/

open State

/-- Settles O43: a command is the journal's and then the operation's own state; the mean and the quotient lie within bounds that rounding keeps, so they read back as they were taken; a set in force is the pending one, and two runs over the slots leave each other's state alone. -/
theorem calibrationAndTrims : Obligations.CalibrationAndTrims := by
  unfold Obligations.CalibrationAndTrims
  intro s who m n
  refine ⟨fun fs row hrow htakes => ?_, fun o g hop hcfg => ?_, fun offset gain htakes => ?_, fun r w hr htakes => ?_, fun l hnext => ?_⟩
  · obtain ⟨full, hexec, hkind, hfields⟩ : ∃ full, exec row.1 s = .next (s.fieldWrite who 390 (calFields full m fs)) ∧ row.2.1 = full ∧
        row.2.2 = calFields full m fs := by
      simp only [List.mem_cons, List.not_mem_nil, or_false] at hrow
      rcases hrow with rfl | rfl
      · exact ⟨false, rfl, rfl, rfl⟩
      · exact ⟨true, rfl, rfl, rfl⟩
    rw [hfields] at htakes
    rw [hexec, hkind]
    refine ⟨fun g hcfg hidle => ?_, fun hbusy hplain hroom => ⟨_, rfl, calCmd_busy htakes hbusy hplain hroom⟩⟩
    obtain ⟨o, hmeas, hk, hmc, hfs, htaken, hsum, hresult, hstat, hown, hothers⟩ := calCmd_starts htakes hcfg hidle
    exact ⟨_, o, rfl, hmeas, hk, hmc, hfs, htaken, hsum, hresult, hstat, hown, hothers⟩
  · intro c den
    have hden : 0 < den := Nat.mul_pos (by decide) (Nat.lt_of_lt_of_le Nat.one_pos (Nat.le_max_left ..))
    refine ⟨exec_calOpComplete_of_early hop hcfg, fun htaken hkind => ⟨fun hlo hhi => ?_, fun hout hroom => ?_⟩,
      fun htaken hkind => ⟨fun hfits => ?_, fun hout hroom => ?_⟩⟩
    · obtain ⟨haccepted, hl, hu⟩ := calJudge_zero_within (s := s) hkind hden hlo hhi
      obtain ⟨hoffset, hgain⟩ := offset_taken haccepted.word hl hu
      exact ⟨_, exec_calOpComplete_of_taken hop hcfg htaken, haccepted.ended, hoffset, hgain, haccepted.result, haccepted.counts,
        haccepted.timeHi, haccepted.timeLo⟩
    · refine ⟨_, exec_calOpComplete_of_taken hop hcfg htaken, ?_⟩
      rw [calJudge_zero_beyond hkind hout]
      exact calRefuse_refused s o hroom
    · obtain ⟨haccepted, hl, hu⟩ := calJudge_full_within (s := s) hkind hden hfits
      obtain ⟨hgain, hoffset⟩ := gain_taken haccepted.word hl hu
      exact ⟨_, exec_calOpComplete_of_taken hop hcfg htaken, haccepted.ended, hgain, hoffset, haccepted.result, haccepted.counts,
        haccepted.timeHi, haccepted.timeLo⟩
    · refine ⟨_, exec_calOpComplete_of_taken hop hcfg htaken, ?_⟩
      rw [calJudge_full_beyond hkind hout]
      exact calRefuse_refused s o hroom
  · obtain ⟨q, pb, hout, hexec⟩ := mcCalWrite_taken htakes
    obtain ⟨hword, hmc, habort, hkeep⟩ := mcCalFx_taken q m (offset ++ gain)
    have hmcs : ∀ k, (q.mcCalFx n (offset ++ gain)).mc k = if k = n then (s.mc n).fresh else s.mc k := fun k => by rw [hmc, hout.mc, hout.mc]
    rw [hout.meas] at habort hkeep
    generalize q.mcCalFx m.toNat (offset ++ gain) = y at *
    exact ⟨_, hexec, hword, (hmcs n).trans (if_pos rfl), fun k hk => (hmcs k).trans (if_neg hk), habort, hkeep⟩
  · obtain ⟨q, pb, hout, hexec⟩ := trimActWrite_taken hr htakes
    obtain ⟨l, hnext, htrims, hlength, hget⟩ := trimActFx_pends q r.toNat w
    rw [trimBase, hout.meas] at hget
    rw [hout.meas] at htrims
    generalize q.trimActFx r.toNat w = y at *
    exact ⟨_, l, hexec, hnext, htrims, hlength, hget⟩
  · refine ⟨fun hslot hedge hfree => ?_, fun hwhen => exec_trimApply_of_waiting hnext (hwhen.imp_right .inl),
      fun hbusy => exec_trimApply_of_waiting hnext (.inr (.inr hbusy))⟩
    refine ⟨_, exec_trimApply_of_quiet hnext hslot hedge hfree, ?_⟩
    obtain ⟨hheld, hloops⟩ := trimsHeld_loops s l
    generalize s.trimsHeld l = x at *
    obtain ⟨hframe, hmc, hcount⟩ := trimsCounted_counts x (s.meas.trimExtra + 1)
    generalize x.trimsCounted (s.meas.trimExtra + 1) = y at *
    obtain ⟨hhi, hlo⟩ := trimTime_stamped y y.nowHi y.nowLo
    have htime : y.time = s.time := by rw [hframe, hheld]
    have hmeas : y.meas.trims = l ∧ y.meas.trimNext = none := by rw [hframe, hheld]; exact ⟨rfl, rfl⟩
    have hrd : x.rd F.trimStatTrimCnt = s.rd F.trimStatTrimCnt := by rw [hheld]; rfl
    refine ⟨hmeas.1, hmeas.2, ?_, hhi.trans (by rw [nowHi, htime]; rfl), hlo.trans (by rw [nowLo, htime]; rfl), fun k hk => ?_, fun j hj => ?_, ?_⟩
    · rw [wr_rd_ne _ _ (by decide), wr_rd_ne _ _ (by decide), hcount, hrd]
      rfl
    · exact (hmc k hk).trans (by rw [hheld]; rfl)
    · have hloop : y.loop j = x.loop j := by rw [hframe]; rfl
      have hj' := congrArg LoopSt.trimHold (hloop.trans (hloops j hj))
      exact hj'.trans (apply_ite LoopSt.trimHold ..)
    · change y.adcs = s.adcs
      rw [hframe, hheld]

end Sys2Proof.Machine
end

section
/-! A loop's write at its fixed phase: the cases of MODE and of what holds it, and the delivery of its output (R187, R191, R192, R194, R195). -/

namespace Sys2Proof.Machine

/-- A sample passes a loop that is held; a trim update before the sample holds no longer (R187). -/
def LoopSt.passed (l : LoopSt) (at_ : Nat) : LoopSt :=
  { l with sampleAt := none, trimHold := l.trimHold.filter (fun t => decide (at_ < t)) }

/-- A pattern written to a field of its own width reads back. -/
theorem ux_mod (w : Nat) (x : Int) : ux w x % 2 ^ w = ux w x := by
  refine Nat.mod_eq_of_lt ?_
  have hpow : ((2 ^ w : Nat) : Int) = 2 ^ w := by push_cast; rfl
  have hlt := Int.emod_lt_of_pos x (show (0 : Int) < 2 ^ w by positivity)
  have hnonneg := Int.emod_nonneg x (show (2 : Int) ^ w ≠ 0 by positivity)
  rw [ux]
  omega

/-- A common factor of a quotient does not change its rounding. -/
theorem roundEven_mul_mul (n : Int) {k : Nat} (hk : 0 < k) (d : Nat) : roundEven (n * k) (k * d) = roundEven n d := by
  have hk' : (0 : Int) < k := by exact_mod_cast hk
  have hmod : n * k % (k * d : Int) = k * (n % d) := by rw [mul_comm n, Int.mul_emod_mul_of_pos _ _ hk']
  have hdiv : n * k / (k * d : Int) = n / d := by rw [mul_comm n, Int.mul_ediv_mul_of_pos _ _ hk']
  have hbelow : 2 * (k * (n % d)) < (k * d : Int) ↔ 2 * (n % d) < d := by rw [mul_left_comm, mul_lt_mul_iff_right₀ hk']
  have habove : (k * d : Int) < 2 * (k * (n % d)) ↔ d < 2 * (n % d) := by rw [mul_left_comm, mul_lt_mul_iff_right₀ hk']
  simp only [roundEven, Nat.cast_mul, hmod, hdiv, hbelow, habove]

namespace State

/-- A manual output is exact (R194): its state is the word's and its code the word's, rounded. -/
theorem setU_manual (l : LoopSt) (u : Int) :
    setU l (u * 2 ^ 29) 1 = { l with u := satS 40 u, code := BitVec.ofNat 14 (clampI 0 16383 (roundEven u (2 ^ 18))).toNat } := by
  have hscale : (2 : Int) ^ 29 = ((2 ^ 29 : Nat) : Int) := by norm_num
  have hu : roundEven (u * 2 ^ 29) (2 ^ 29 * 1) = u := by
    rw [hscale, roundEven_mul_mul u (by decide)]
    simp [roundEven]
  have hcode : roundEven (u * 2 ^ 29) (2 ^ 47 * 1) = roundEven u (2 ^ 18) := by
    rw [hscale, show (2 : Nat) ^ 47 * 1 = 2 ^ 29 * 2 ^ 18 by norm_num, roundEven_mul_mul u (by decide)]
  rw [setU, hu, hcode]

/-! ### The cases of a write -/

section
variable {s : State} {j : Nat} {g : LoopCfg} {t0 : Nat}

theorem exec_loopOutputWrite_of_due {lp : LoopId} (hcfg : s.loopCfg lp.toNat = some g) (hsample : (s.loop lp.toNat).sampleAt = some t0)
    (hdue : t0 + 1472 ≤ s.setCyc) : exec (.loopOutputWrite lp) s = .next (s.loopWrite lp.toNat g t0) := by
  show execLoopOutputWrite lp s = _
  rw [execLoopOutputWrite, hsample, hcfg]
  exact if_pos hdue

theorem loopWrite_of_off (hmode : s.loopMode j = 0) : s.loopWrite j g t0 = s.setLoop j { s.loop j with sampleAt := none } :=
  if_pos (.inl hmode)

section
variable (hmode : s.loopMode j = 1 ∨ s.loopMode j = 2) (hpa : s.rd (F.loopCtrlTkind j) = 1 → s.latched = false ∧ s.boot.harbour = false)
include hmode hpa

/-- What comes before the holds of R195 is past. -/
theorem loopWrite_of_driven : s.loopWrite j g t0 =
    if s.idleHolds j g t0 then s.setLoop j { (s.loop j).passed t0 with idleHeld := true }
    else if s.quietHold j ((t0 + 1472) / 960 % 1024) then s.setLoop j ((s.loop j).passed t0)
    else
      let l := if (s.loop j).idleHeld then { s.loop j with idleHeld := false, preset := s.loopMode j == 2 } else s.loop j
      let s' := s.setLoop j l
      if l.trimHold.isSome then s'.setLoop j (l.passed t0)
      else if s.loopMode j = 1 then
        (s'.setLoop j (setU l (clampI g.outMin g.outMax (s'.rdS (F.loopManMan j)) * 2 ^ 29) 1)).loopDeliver j t0
      else (s'.setLoop j (s'.loopAuto j g)).loopDeliver j t0 := by
  have hopen : ¬ ((s.rd (F.loopCtrlTkind j) == 1 && (s.latched || s.boot.harbour)) = true) := fun h => by
    rw [Bool.and_eq_true, beq_iff_eq] at h
    obtain ⟨hl, hb⟩ := hpa h.1
    simp [hl, hb] at h
  exact (if_neg (by omega)).trans (if_neg hopen)

theorem loopWrite_of_idle (hidle : s.idleHolds j g t0 = true) :
    s.loopWrite j g t0 = s.setLoop j { (s.loop j).passed t0 with idleHeld := true } := by
  rw [loopWrite_of_driven hmode hpa, if_pos hidle]

theorem loopWrite_of_quiet (hidle : s.idleHolds j g t0 = false) (hquiet : s.quietHold j ((t0 + 1472) / 960 % 1024) = true) :
    s.loopWrite j g t0 = s.setLoop j ((s.loop j).passed t0) := by
  rw [loopWrite_of_driven hmode hpa, if_neg (by simp [hidle]), if_pos hquiet]

variable (hidle : s.idleHolds j g t0 = false) (hquiet : s.quietHold j ((t0 + 1472) / 960 % 1024) = false) (hheld : (s.loop j).idleHeld = false)
include hidle hquiet hheld

theorem loopWrite_of_free : s.loopWrite j g t0 =
    if (s.loop j).trimHold.isSome then (s.setLoop j (s.loop j)).setLoop j ((s.loop j).passed t0)
    else if s.loopMode j = 1 then
      ((s.setLoop j (s.loop j)).setLoop j (setU (s.loop j) (clampI g.outMin g.outMax (s.rdS (F.loopManMan j)) * 2 ^ 29) 1)).loopDeliver j t0
    else ((s.setLoop j (s.loop j)).setLoop j ((s.setLoop j (s.loop j)).loopAuto j g)).loopDeliver j t0 := by
  rw [loopWrite_of_driven hmode hpa, if_neg (by simp [hidle]), if_neg (by simp [hquiet])]
  simp only [hheld, Bool.false_eq_true, if_false]
  rfl

end

end

/-! ### Delivery (R191, R199) -/

/-- A delivered output stands in the loop, in LOOP_OUT and, where the loop targets another, in that one's set point. -/
structure Delivers (s : State) (j : Nat) (x : LoopSt) (t : State) : Prop where
  own : t.loop j = { x with seq := x.seq + 1, sampleAt := none }
  others : ∀ k, k ≠ j → t.loop k = s.loop k
  out : t.rd (F.loopOutOut j) = ux 40 x.u
  feeds : ∀ gi, s.rd (F.loopCtrlTkind j) = 2 → s.loopCfg (s.rd (F.loopCtrlTindex j)) = some gi → gi.spMin ≤ x.u → x.u ≤ gi.spMax →
    t.rd (F.loopSpSp (s.rd (F.loopCtrlTindex j))) = ux 40 x.u

/-- A set point that is taken stands in LOOP_SP. -/
theorem loopSpFx_rd {s : State} {j : Nat} {g : LoopCfg} {v : Int} (hcfg : s.loopCfg j = some g) (hlo : g.spMin ≤ v) (hhi : v ≤ g.spMax) :
    (s.loopSpFx j v).rd (F.loopSpSp j) = ux 40 v := by
  rw [loopSpFx, hcfg]
  dsimp only
  rw [if_pos ⟨hlo, hhi⟩, rd_wr_same _ _ _ (by simp [F.loopSpSp]) (by simp [F.loopSpSp])]
  exact ux_mod 40 v

/-- A set point changes its own register, and a message is told; the loops stand. -/
theorem loopSpFx_keeps (s : State) (j : Nat) (v : Int) : (s.loopSpFx j v).loops = s.loops ∧
    ∀ a, a ≠ 553 + 4 * j → a ≠ F.fcQueueDrop0.addr → (s.loopSpFx j v).reg a = s.reg a := by
  unfold loopSpFx
  split
  · split
    · exact ⟨rfl, fun a ha _ => wr_reg_ne _ _ ha⟩
    · exact ⟨by rw [note, report_eq], fun a _ ha => report_reg_ne _ _ _ _ _ ha⟩
  · exact ⟨rfl, fun _ _ _ => rfl⟩

theorem holdPuts_rd (s : State) (a : Nat) (l : List Word) (f : Fld) : (s.holdPuts a l).rd f = s.rd f := by
  rw [holdPuts, memWrites_eq]
  rfl

theorem holdPuts_loop (s : State) (a : Nat) (l : List Word) (j : Nat) : (s.holdPuts a l).loop j = s.loop j := by
  rw [holdPuts, memWrites_eq]
  rfl

theorem loopDeliver_delivers {s y : State} {j : Nat} {x : LoopSt} (at_ : Nat) (hframe : y = { s with loops := y.loops })
    (hothers : ∀ k, k ≠ j → y.loop k = s.loop k) (hown : y.loop j = x) : Delivers s j x (y.loopDeliver j at_) := by
  unfold loopDeliver
  extract_lets l0 l z z' w0
  have hl : l = { x with seq := x.seq + 1, sampleAt := none } := by rw [← hown]
  have hzloops : ∀ k, z.loop k = if k = j then l else s.loop k := fun k => by
    refine (setLoop_loop y j k l).trans ?_
    split
    · rfl
    next hk => exact hothers k hk
  have hzout : z.rd (F.loopOutOut j) = ux 40 x.u := by
    rw [rd_wr_same _ _ _ (by simp [F.loopOutOut]) (by simp [F.loopOutOut]), hl]
    exact ux_mod 40 x.u
  have hzrd : ∀ f : Fld, f.addr ≠ 555 + 4 * j → z.rd f = s.rd f := fun f hf => by
    rw [wr_rd_ne _ _ hf, hframe]
    rfl
  have hzcfg : ∀ k, z.loopCfg k = s.loopCfg k := fun k => by
    rw [show z.loopCfg k = y.loopCfg k from rfl, hframe]
    rfl
  have htkind : z.rd (F.loopCtrlTkind j) = s.rd (F.loopCtrlTkind j) := hzrd _ (by simp only [F.loopCtrlTkind]; omega)
  have htindex : z.rd (F.loopCtrlTindex j) = s.rd (F.loopCtrlTindex j) := hzrd _ (by simp only [F.loopCtrlTindex]; omega)
  have hz' : z' = if s.rd (F.loopCtrlTkind j) = 2 then z.loopSpFx (s.rd (F.loopCtrlTindex j)) x.u else z := by
    rw [← htkind, ← htindex, show x.u = l.u by rw [hl]]
  obtain ⟨hloops, hregs⟩ : z'.loops = z.loops ∧ z'.rd (F.loopOutOut j) = z.rd (F.loopOutOut j) := by
    obtain ⟨hkeep, hreg⟩ := loopSpFx_keeps z (s.rd (F.loopCtrlTindex j)) x.u
    rw [hz']
    split
    · refine ⟨hkeep, ?_⟩
      rw [rd, hreg _ (by simp only [F.loopOutOut]; omega) (by simp only [F.loopOutOut, F.fcQueueDrop0]; omega)]
      rfl
    · exact ⟨rfl, rfl⟩
  have hz'loops : ∀ k, z'.loop k = if k = j then l else s.loop k := fun k => by rw [loop, hloops]; exact hzloops k
  refine ⟨?_, fun k hk => ?_, ?_, fun gi hkind hcfg hlo hhi => ?_⟩
  · rw [holdPuts_loop, hz'loops, if_pos rfl, hl]
  · rw [holdPuts_loop, hz'loops, if_neg hk]
  · rw [holdPuts_rd, hregs, hzout]
  · rw [holdPuts_rd, hz', if_pos hkind]
    exact loopSpFx_rd ((hzcfg _).trans hcfg) hlo hhi

end State

end Sys2Proof.Machine
end

section
/-! The computation of a loop in AUTO (R192). -/

namespace Sys2Proof.Machine.State

/-- The set point in force, moved by at most RAMP. -/
def autoSp (l : LoopSt) (g : LoopCfg) : Int := l.spEff + clampI (-g.ramp) g.ramp (spAt l - l.spEff)

/-- The direction of the controller. -/
def autoSign (g : LoopCfg) : Int := if g.reverse then -1 else 1

/-- The error, in 2^-37. -/
def autoErr (l : LoopSt) (g : LoopCfg) : Int := autoSign g * (autoSp l g * 32 - l.sampleV)

/-- The integral with this sample's share, in 2^-61. -/
def autoInt (l : LoopSt) (g : LoopCfg) : Int := l.i * 2 ^ 29 + g.ki * autoErr l g

/-- The sum before the clamp, in 2^-61 over the denominator of the feed-forward input `x`. -/
def autoRaw (l : LoopSt) (g : LoopCfg) (x : Int × Nat) : Int :=
  (g.kp * autoErr l g + autoInt l g + g.kd * (autoSign g * (l.yPrev * 32 - l.sampleV))) * x.2 + g.kff * (x.1 - g.ffX0 * 32 * x.2)

/-- The clamped output. -/
def autoOut (l : LoopSt) (g : LoopCfg) (x : Int × Nat) : Int :=
  clampI (g.outMin * 2 ^ 29 * x.2) (g.outMax * 2 ^ 29 * x.2) (autoRaw l g x)

/-- The integral follows the error: it stands still only while the output is clamped outward. -/
def autoAdvances (l : LoopSt) (g : LoopCfg) (x : Int × Nat) : Bool :=
  decide (autoOut l g x = autoRaw l g x) || (decide (g.outMax * 2 ^ 29 * x.2 < autoRaw l g x) && decide (autoErr l g < 0)) ||
    (decide (autoRaw l g x < g.outMin * 2 ^ 29 * x.2) && decide (0 < autoErr l g))

/-- The loop after a sample, where it runs on from the one before. -/
def autoNext (l : LoopSt) (g : LoopCfg) (x : Int × Nat) : LoopSt :=
  setU { l with
    spEff := autoSp l g
    yPrev := satS 40 (roundBits l.sampleV 5)
    y := satS 40 (roundBits l.sampleV 5)
    ff := satS 40 (roundEven (g.kff * (x.1 - g.ffX0 * 32 * x.2)) (2 ^ 29 * x.2))
    i := if autoAdvances l g x then satS 40 (roundBits (autoInt l g) 29) else l.i
    clamped := !decide (autoOut l g x = autoRaw l g x) } (autoOut l g x) x.2

theorem loopAuto_of_running {s : State} {j : Nat} {l : LoopSt} (g : LoopCfg) (hown : s.loop j = l) (hrun : l.preset = false) :
    s.loopAuto j g = autoNext l g (s.ffInput g.ffSrc) := by
  subst hown
  unfold loopAuto
  generalize s.ffInput g.ffSrc = x
  exact if_neg (by simp [hrun])

theorem autoAdvances_iff (l : LoopSt) (g : LoopCfg) (x : Int × Nat) : autoAdvances l g x = true ↔
    autoOut l g x = autoRaw l g x ∨ (g.outMax * 2 ^ 29 * x.2 < autoRaw l g x ∧ autoErr l g < 0) ∨
      (autoRaw l g x < g.outMin * 2 ^ 29 * x.2 ∧ 0 < autoErr l g) := by
  simp only [autoAdvances, Bool.or_eq_true, Bool.and_eq_true, decide_eq_true_eq, or_assoc]

/-! ### The write of a loop that none holds -/

/-- A loop's state is taken and delivered. -/
theorem setLoop_loopDeliver_delivers (s : State) (j t0 : Nat) (x : LoopSt) :
    Delivers s j x (((s.setLoop j (s.loop j)).setLoop j x).loopDeliver j t0) :=
  loopDeliver_delivers t0 rfl (fun _ hk => (setLoop_loop_ne _ x hk).trans (setLoop_loop_ne s _ hk)) (setLoop_loop_same ..)

section
variable {s : State} {j : Nat} {g : LoopCfg} {t0 : Nat} (hpa : s.rd (F.loopCtrlTkind j) = 1 → s.latched = false ∧ s.boot.harbour = false)
  (hidle : s.idleHolds j g t0 = false) (hquiet : s.quietHold j ((t0 + 1472) / 960 % 1024) = false) (hheld : (s.loop j).idleHeld = false)
include hpa hidle hquiet hheld

theorem loopWrite_of_trim {at' : Nat} (hmode : s.loopMode j = 2) (htrim : (s.loop j).trimHold = some at') :
    s.loopWrite j g t0 = (s.setLoop j (s.loop j)).setLoop j { s.loop j with sampleAt := none, trimHold := if t0 < at' then some at' else none } := by
  rw [loopWrite_of_free (.inr hmode) hpa hidle hquiet hheld, if_pos (by rw [htrim]; rfl), LoopSt.passed, htrim]
  simp [Option.filter]

variable (htrim : (s.loop j).trimHold = none)
include htrim

theorem loopWrite_of_manual (hmode : s.loopMode j = 1) :
    Delivers s j (setU (s.loop j) (clampI g.outMin g.outMax (s.rdS (F.loopManMan j)) * 2 ^ 29) 1) (s.loopWrite j g t0) := by
  rw [loopWrite_of_free (.inl hmode) hpa hidle hquiet hheld, if_neg (by rw [htrim]; decide), if_pos hmode]
  exact setLoop_loopDeliver_delivers ..

theorem loopWrite_of_auto (hmode : s.loopMode j = 2) (hrun : (s.loop j).preset = false) :
    Delivers s j (autoNext (s.loop j) g (s.ffInput g.ffSrc)) (s.loopWrite j g t0) := by
  have hauto : (s.setLoop j (s.loop j)).loopAuto j g = autoNext (s.loop j) g (s.ffInput g.ffSrc) :=
    loopAuto_of_running g (setLoop_loop_same ..) hrun
  rw [loopWrite_of_free (.inr hmode) hpa hidle hquiet hheld, if_neg (by rw [htrim]; decide), if_neg (by omega), hauto]
  exact setLoop_loopDeliver_delivers ..

end

end Sys2Proof.Machine.State
end

section
/-! Writes of MODE and of a set point (R193, R194). -/

namespace Sys2Proof.Machine.State

/-! ### The output in force -/

section
variable {s q : State} (h : Outside s q)
include h

theorem Outside.paLoop (c : Nat) : q.paLoop c = s.paLoop c := by
  refine List.find?_congr fun j hj => ?_
  have hj' := List.mem_range.mp hj
  rw [h.img, h.rd (f := F.loopCtrlTkind j) (by simp only [inMeasBlock, F.loopCtrlTkind]; omega),
    h.rd (f := F.loopCtrlTindex j) (by simp only [inMeasBlock, F.loopCtrlTindex]; omega)]

theorem Outside.loopMode {j : Nat} (hj : j < 32) : q.loopMode j = s.loopMode j :=
  h.rd (by simp only [inMeasBlock, F.loopCtrlMode]; omega)

theorem Outside.paCode {c : Nat} (hc : c < 64) : q.paCode c = s.paCode c := by
  have hman : q.rd (F.paCtrlManCode c) = s.rd (F.paCtrlManCode c) := h.rd (by simp only [inMeasBlock, F.paCtrlManCode]; omega)
  have hboot : q.boot = s.boot := by rw [h.frame]
  have hpins : q.pins = s.pins := by rw [h.frame]
  rw [State.paCode, State.paCode, h.latched, hboot, hpins, h.paLoop, hman]
  cases hloop : s.paLoop c with
  | none => rfl
  | some j =>
    dsimp only
    rw [h.loopMode (List.mem_range.mp (List.mem_of_find?_eq_some hloop)), h.loop]

theorem Outside.outputNow {j : Nat} (hj : j < 32) : q.outputNow j = s.outputNow j := by
  have hindex : s.rd (F.loopCtrlTindex j) < 64 := Nat.mod_lt _ (Nat.two_pow_pos 6)
  rw [State.outputNow, State.outputNow, h.rd (f := F.loopCtrlTkind j) (by simp only [inMeasBlock, F.loopCtrlTkind]; omega),
    h.rd (f := F.loopCtrlTindex j) (by simp only [inMeasBlock, F.loopCtrlTindex]; omega), h.paCode hindex, h.loop, rdS, rdS,
    h.rd (f := F.loopSpSp (s.rd (F.loopCtrlTindex j))) (by simp only [inMeasBlock, F.loopSpSp]; omega)]

end

/-! ### MODE -/

/-- A loop's mode is `mode` now, and its output has no step: the statement's clauses on a write of MODE. -/
structure ModeTaken (s : State) (j : Nat) (mode : BitVec 2) (t : State) : Prop where
  others : ∀ k, k ≠ j → t.loop k = s.loop k
  holds : t.loopMode j = mode.toNat
  same : s.loopMode j = mode.toNat → t.loops = s.loops
  toManual : s.loopMode j = 2 → mode = 1 → t.rd (F.loopManMan j) = ux 40 (s.loop j).u ∧ (t.loop j).u = (s.loop j).u
  toAuto : s.loopMode j = 1 → mode = 2 → (t.loop j).preset = true ∧ (t.loop j).u = (s.loop j).u
  fromOff : s.loopMode j = 0 → mode ≠ 0 → (t.loop j).u = s.outputNow j

/-- MODE of a loop that changes it: the loop's state, the manual word that takes the output, and MODE. -/
theorem loopModeFx_of_change {s : State} {j mode : Nat} (hchange : s.loopMode j ≠ mode) : ∃ (l : LoopSt) (x : State), s.loopModeFx j mode =
      ((x.setLoop j l).wr (F.loopCtrlMode j) mode) ∧ x.loops = s.loops ∧ l.preset = (mode == 2) ∧
      l.u = (if s.loopMode j = 0 then s.outputNow j else (s.loop j).u) ∧
      (mode = 1 → s.loopMode j = 2 → x.rd (F.loopManMan j) = ux 40 (s.loop j).u) := by
  rw [loopModeFx]
  dsimp only
  rw [if_neg hchange]
  refine ⟨_, _, rfl, ?_, rfl, ?_, fun hmode hold => ?_⟩
  · split <;> rfl
  · split <;> rfl
  · have hon : ¬ s.loopMode j = 0 := by omega
    rw [if_pos ⟨hmode, hold⟩, if_neg hon, rd_wr_same _ _ _ (by simp [F.loopManMan]) (by simp [F.loopManMan])]
    exact ux_mod 40 _

theorem loopModeFx_taken (s : State) (j : Nat) (mode : BitVec 2) : ModeTaken s j mode (s.loopModeFx j mode.toNat) := by
  by_cases hsame : s.loopMode j = mode.toNat
  · have hstays : s.loopModeFx j mode.toNat = s := if_pos hsame
    rw [hstays]
    refine ⟨fun _ _ => rfl, hsame, fun _ => rfl, fun h h1 => ?_, fun h h2 => ?_, fun h h0 => ?_⟩
    · subst h1; rw [h] at hsame; exact absurd hsame (by decide)
    · subst h2; rw [h] at hsame; exact absurd hsame (by decide)
    · exact absurd (BitVec.eq_of_toNat_eq (y := 0) (hsame.symm.trans h)) h0
  · obtain ⟨l, x, hfx, hloops, hpreset, hu, hman⟩ := loopModeFx_of_change hsame
    rw [hfx]
    have hloop : ∀ k, ((x.setLoop j l).wr (F.loopCtrlMode j) mode.toNat).loop k = if k = j then l else s.loop k := fun k => by
      refine (setLoop_loop x j k l).trans ?_
      rw [loop, hloops]
      rfl
    refine ⟨fun k hk => (hloop k).trans (if_neg hk), ?_, fun h => absurd h hsame, fun h h1 => ⟨?_, ?_⟩, fun h h2 => ⟨?_, ?_⟩, fun h _ => ?_⟩
    · exact (rd_wr_same _ _ _ (by simp [F.loopCtrlMode]) (by simp [F.loopCtrlMode])).trans (Nat.mod_eq_of_lt mode.isLt)
    · rw [wr_rd_ne _ _ (by simp only [F.loopManMan, F.loopCtrlMode]; omega)]
      exact hman (by rw [h1]; rfl) h
    · rw [hloop, if_pos rfl, hu, if_neg (by omega)]
    · rw [hloop, if_pos rfl, hpreset, h2]; rfl
    · rw [hloop, if_pos rfl, hu, if_neg (by omega)]
    · rw [hloop, if_pos rfl, hu, if_pos h]

theorem ModeTaken.of_outside {s q t : State} {j : Nat} {mode : BitVec 2} (hj : j < 32) (h : Outside s q) (ht : ModeTaken q j mode t) :
    ModeTaken s j mode t := by
  obtain ⟨hothers, hmode, hsame, hman, hauto, hoff⟩ := ht
  rw [h.loopMode hj] at hsame hman hauto hoff
  rw [h.loop] at hman hauto
  rw [h.outputNow hj] at hoff
  rw [h.loops] at hsame
  exact ⟨fun k hk => (hothers k hk).trans (h.loop k), hmode, hsame, hman, hauto, hoff⟩

theorem loop_rows : ∀ j < 32, (∀ r ∈ (layout (552 + 4 * j)).getD [], r.acc ≠ .w1c) ∧ ∀ r ∈ (layout (553 + 4 * j)).getD [], r.acc ≠ .w1c := by
  decide

theorem loopModeWrite_taken {s : State} {who : Requester} {lp : LoopId} {mode : BitVec 2}
    (h : s.takes who (552 + 4 * lp.toNat) [(F.loopCtrlMode lp.toNat, mode.toNat)] = true) :
    ∃ t, exec (.loopModeWrite who lp mode) s = .next t ∧ ModeTaken s lp.toNat mode t := by
  have hj := lp.isLt
  obtain ⟨q, hout, -, heffect⟩ := fieldWrite_measWritten (by omega) (loop_rows _ hj).1 h
  have hword : bitsOf (s.wordOf who (552 + 4 * lp.toNat) [(F.loopCtrlMode lp.toNat, mode.toNat)]) 39 38 = mode.toNat :=
    bitsOf_wordOf s who _ _ (by decide) (by decide) mode.isLt
  rw [writeFx_fe _ _ _ (by omega) (by omega), writeFe, if_neg (by omega), if_neg (by omega), if_pos (by omega),
    show (552 + 4 * lp.toNat - 512 - 40) % 4 = 0 by omega] at heffect
  dsimp only at heffect
  rw [hword, show (552 + 4 * lp.toNat - 512 - 40) / 4 = lp.toNat by omega] at heffect
  have htaken := (loopModeFx_taken q lp.toNat mode).of_outside hj hout
  generalize q.loopModeFx lp.toNat mode.toNat = y at heffect htaken
  obtain ⟨hothers, hmode, hsame, hman, hauto, hoff⟩ := htaken
  exact ⟨_, congrArg Host.Outcome.next heffect, hothers, hmode, hsame, hman, hauto, hoff⟩

/-! ### A set point -/

/-- An accepted set point lies within the loop's bounds. -/
theorem spBounds_of_takesWord {s : State} {who : Requester} {j : Nat} {w : Word} {g : LoopCfg} (hj : j < 32) (hcfg : s.loopCfg j = some g)
    (h : s.takesWord who (553 + 4 * j) w = true) : g.spMin ≤ w.toInt ∧ w.toInt ≤ g.spMax := by
  have hlive : s.liveOk (553 + 4 * j) w = true := by
    have hans := (takesWord_iff.mp h).2
    rw [writeAns] at hans
    split at hans
    · exact absurd hans (by decide)
    · split_ifs at hans with _ _ _ hrange
      simpa using hrange
  rw [liveOk, if_neg (by omega), if_neg (by omega), if_neg (by omega), if_neg (by omega), if_neg (by omega), if_pos (by omega)] at hlive
  dsimp only at hlive
  rw [if_neg (by omega), if_pos (by omega), show (553 + 4 * j - 552) / 4 = j by omega, hcfg] at hlive
  simpa using hlive

theorem ux_toInt (w : Word) : ux 40 w.toInt = w.toNat := by
  have := w.isLt
  rw [ux, BitVec.toInt_eq_toNat_cond]
  split <;> omega

theorem loopSpWrite_taken {s : State} {who : Requester} {lp : LoopId} {w : Word} {g : LoopCfg} (hcfg : s.loopCfg lp.toNat = some g)
    (h : s.takesWord who (553 + 4 * lp.toNat) w = true) :
    ∃ t, exec (.loopSpWrite who lp w) s = .next t ∧ t.rd (F.loopSpSp lp.toNat) = w.toNat ∧ t.loops = s.loops := by
  have hj := lp.isLt
  obtain ⟨hlo, hhi⟩ := spBounds_of_takesWord hj hcfg h
  obtain ⟨q, hout, -, heffect⟩ := reqWrite_measWritten (by omega) (loop_rows _ hj).2 h
  rw [writeFx_fe _ _ _ (by omega) (by omega), writeFe, if_neg (by omega), if_neg (by omega), if_pos (by omega),
    show (553 + 4 * lp.toNat - 512 - 40) % 4 = 1 by omega] at heffect
  dsimp only at heffect
  rw [show (553 + 4 * lp.toNat - 512 - 40) / 4 = lp.toNat by omega] at heffect
  have hrd := loopSpFx_rd ((hout.loopCfg _).trans hcfg) hlo hhi
  have hloops := (loopSpFx_keeps q lp.toNat w.toInt).1.trans hout.loops
  generalize q.loopSpFx lp.toNat w.toInt = y at heffect hrd hloops
  exact ⟨_, congrArg Host.Outcome.next heffect, hrd.trans (ux_toInt w), hloops⟩

end Sys2Proof.Machine.State
end

section
/-! The obligation on the control loops (R187, R191 to R195). -/

namespace Sys2Proof.Machine

open State

/-- Settles O44: what holds a loop is decided in the order of R195, and a loop that none holds drives; its output is computed before it is delivered, and delivery changes no more of it than its sample and its count; a write of MODE keeps the output of the state it finds. -/
theorem loopControl : Obligations.LoopControl := by
  unfold Obligations.LoopControl
  intro s who lp g j l hcfg
  have hset : ∀ x : LoopSt, (s.setLoop j x).loop j = x ∧ ∀ k, k ≠ j → (s.setLoop j x).loop k = s.loop k := fun x =>
    ⟨setLoop_loop_same s j x, fun k hk => setLoop_loop_ne s x hk⟩
  refine ⟨?_, ?_, fun mode htakes => ?_, fun w htakes => loopSpWrite_taken hcfg htakes⟩
  · intro t0 hsample hdue hmode hpa run passed stays
    have hexec := exec_loopOutputWrite_of_due hcfg hsample hdue
    exact ⟨fun hidle => ⟨_, hexec.trans (congrArg Host.Outcome.next (loopWrite_of_idle hmode hpa hidle)), rfl, hset _⟩,
      fun hidle hquiet => ⟨_, hexec.trans (congrArg Host.Outcome.next (loopWrite_of_quiet hmode hpa hidle hquiet)), rfl, hset _⟩⟩
  · intro t0 hsample hdue hidle hheld hquiet hpa run inner feeds
    have hexec := exec_loopOutputWrite_of_due hcfg hsample hdue
    refine ⟨fun hmode => ⟨_, hexec.trans (congrArg Host.Outcome.next (loopWrite_of_off hmode)), rfl, (hset _).1⟩, ?_, fun at' hmode htrim => ?_, ?_⟩
    · intro hmode htrim u
      have hdelivers := loopWrite_of_manual hpa hidle hquiet hheld htrim hmode
      rw [setU_manual] at hdelivers
      obtain ⟨hown, hothers, hout, hfeeds⟩ := hdelivers
      refine ⟨_, hexec, hothers, ?_⟩
      rw [hown]
      exact ⟨rfl, rfl, rfl, rfl, hout, fun gi => by rw [hown]; exact hfeeds gi⟩
    · exact ⟨_, hexec.trans (congrArg Host.Outcome.next (loopWrite_of_trim hpa hidle hquiet hheld hmode htrim)), rfl, setLoop_loop_same ..⟩
    · intro hmode htrim hrun x d sp sg e integ raw lo hi u
      obtain ⟨hown, hothers, hout, hfeeds⟩ := loopWrite_of_auto hpa hidle hquiet hheld htrim hmode hrun
      refine ⟨_, hexec, hothers, ?_⟩
      rw [hown]
      exact ⟨rfl, rfl, rfl, if_congr (autoAdvances_iff l g x) rfl rfl, rfl, hout, fun gi => by rw [hown]; exact hfeeds gi⟩
  · obtain ⟨t, hexec, hothers, hholds, hsame, hman, hauto, hoff⟩ := loopModeWrite_taken htakes
    exact ⟨t, hexec, hothers, hholds, hsame, hman, hauto, hoff⟩

end Sys2Proof.Machine
end

section
/-! The words of engine instructions: the fields of a word put together from them, and the word put together again from its fields (R208, R209, R229). -/

namespace Sys2Proof

/-! ### Bits of a word of each format (R208) -/

theorem getLsbD_encT (op : BitVec 8) (f : T3) (i : Nat) : (encT op f).getLsbD i =
    if i < 17 then f.fn.getLsbD i else if i < 22 then f.b.getLsbD (i - 17) else if i < 27 then f.a.getLsbD (i - 22)
    else if i < 32 then f.d.getLsbD (i - 27) else op.getLsbD (i - 32) := by
  show BitVec.getLsbD (w := 8 + 5 + 5 + 5 + 17) (op ++ f.d ++ f.a ++ f.b ++ f.fn) i = _
  simp only [BitVec.getLsbD_append, Nat.sub_sub]
  split_ifs <;> first | rfl | omega

theorem getLsbD_encI (op : BitVec 8) (f : I2) (i : Nat) : (encI op f).getLsbD i =
    if i < 22 then f.imm.getLsbD i else if i < 27 then f.a.getLsbD (i - 22) else if i < 32 then f.d.getLsbD (i - 27)
    else op.getLsbD (i - 32) := by
  show BitVec.getLsbD (w := 8 + 5 + 5 + 22) (op ++ f.d ++ f.a ++ f.imm) i = _
  simp only [BitVec.getLsbD_append, Nat.sub_sub]
  split_ifs <;> first | rfl | omega

theorem getLsbD_encK (op : BitVec 8) (f : K5) (i : Nat) : (encK op f).getLsbD i =
    if i < 10 then f.mode.getLsbD i else if i < 20 then f.count.getLsbD (i - 10) else if i < 25 then f.b.getLsbD (i - 20)
    else if i < 30 then f.a.getLsbD (i - 25) else if i < 32 then f.acc.getLsbD (i - 30) else op.getLsbD (i - 32) := by
  show BitVec.getLsbD (w := 8 + 2 + 5 + 5 + 10 + 10) (op ++ f.acc ++ f.a ++ f.b ++ f.count ++ f.mode) i = _
  simp only [BitVec.getLsbD_append, Nat.sub_sub]
  split_ifs <;> first | rfl | omega

/-! ### The fields of a word, and the word of its fields -/

@[simp] theorem opOf_encT (op : BitVec 8) (f : T3) : opOf (encT op f) = op := by
  refine BitVec.eq_of_getLsbD_eq fun i hi => ?_
  rw [opOf, BitVec.getLsbD_extractLsb', getLsbD_encT]
  simp +arith [hi]

@[simp] theorem opOf_encI (op : BitVec 8) (f : I2) : opOf (encI op f) = op := by
  refine BitVec.eq_of_getLsbD_eq fun i hi => ?_
  rw [opOf, BitVec.getLsbD_extractLsb', getLsbD_encI]
  simp +arith [hi]

@[simp] theorem opOf_encK (op : BitVec 8) (f : K5) : opOf (encK op f) = op := by
  refine BitVec.eq_of_getLsbD_eq fun i hi => ?_
  rw [opOf, BitVec.getLsbD_extractLsb', getLsbD_encK]
  simp +arith [hi]

@[simp] theorem t3Of_encT (op : BitVec 8) (f : T3) : t3Of (encT op f) = f := by
  obtain ⟨d, a, b, fn⟩ := f
  simp only [t3Of, T3.mk.injEq]
  refine ⟨?_, ?_, ?_, ?_⟩ <;> refine BitVec.eq_of_getLsbD_eq fun i hi => ?_
  all_goals
    rw [BitVec.getLsbD_extractLsb', getLsbD_encT]
    simp +arith [hi]

@[simp] theorem i2Of_encI (op : BitVec 8) (f : I2) : i2Of (encI op f) = f := by
  obtain ⟨d, a, imm⟩ := f
  simp only [i2Of, I2.mk.injEq]
  refine ⟨?_, ?_, ?_⟩ <;> refine BitVec.eq_of_getLsbD_eq fun i hi => ?_
  all_goals
    rw [BitVec.getLsbD_extractLsb', getLsbD_encI]
    simp +arith [hi]

@[simp] theorem k5Of_encK (op : BitVec 8) (f : K5) : k5Of (encK op f) = f := by
  obtain ⟨acc, a, b, count, mode⟩ := f
  simp only [k5Of, K5.mk.injEq]
  refine ⟨?_, ?_, ?_, ?_, ?_⟩ <;> refine BitVec.eq_of_getLsbD_eq fun i hi => ?_
  all_goals
    rw [BitVec.getLsbD_extractLsb', getLsbD_encK]
    simp +arith [hi]

/-- A bit of a field is that bit of the word. -/
theorem getLsbD_extract_of_mem (w : Word) {lo wd i : Nat} (hlo : lo ≤ i) (hhi : i < lo + wd) :
    (w.extractLsb' lo wd).getLsbD (i - lo) = w.getLsbD i := by
  rw [BitVec.getLsbD_extractLsb', Nat.add_sub_cancel' hlo, decide_eq_true (by omega), Bool.true_and]

theorem encT_t3Of (w : Word) : encT (opOf w) (t3Of w) = w := by
  refine BitVec.eq_of_getLsbD_eq fun i hi => ?_
  rw [getLsbD_encT]
  split_ifs <;> exact getLsbD_extract_of_mem w (by omega) (by omega)

theorem encI_i2Of (w : Word) : encI (opOf w) (i2Of w) = w := by
  refine BitVec.eq_of_getLsbD_eq fun i hi => ?_
  rw [getLsbD_encI]
  split_ifs <;> exact getLsbD_extract_of_mem w (by omega) (by omega)

theorem encK_k5Of (w : Word) : encK (opOf w) (k5Of w) = w := by
  refine BitVec.eq_of_getLsbD_eq fun i hi => ?_
  rw [getLsbD_encK]
  split_ifs <;> exact getLsbD_extract_of_mem w (by omega) (by omega)

theorem encT_of_opOf {w : Word} {op : BitVec 8} (h : opOf w = op) : encT op (t3Of w) = w := by rw [← h, encT_t3Of]
theorem encI_of_opOf {w : Word} {op : BitVec 8} (h : opOf w = op) : encI op (i2Of w) = w := by rw [← h, encI_i2Of]
theorem encK_of_opOf {w : Word} {op : BitVec 8} (h : opOf w = op) : encK op (k5Of w) = w := by rw [← h, encK_k5Of]

/-! ### Decoding (R209, R229) -/

/-- Decoding the legal word of an instruction gives that instruction back: the opcode names it, and the fields are its own. -/
theorem decodeEngine_of_encode {i : Instr} {e : EngId} {w : Word} (h : encode i = some (e, w)) (hw : legalWord w = true) :
    decodeEngine e w = some i := by
  unfold encode at h
  split at h <;> cases h
  all_goals
    rw [decodeEngine, if_pos hw]
    first
      | rw [opOf_encT, t3Of_encT]
      | rw [opOf_encI, i2Of_encI]
      | rw [opOf_encK, k5Of_encK]
    rfl

/-- A word is that of the instruction it decodes to. -/
theorem encode_of_decodeEngine {i : Instr} {e : EngId} {w : Word} (h : decodeEngine e w = some i) : encode i = some (e, w) := by
  unfold decodeEngine at h
  split at h
  · split at h <;> cases h
    all_goals
      rename_i hop
      simp only [encode, BitVec.ofNat_eq_ofNat, encT_of_opOf hop, encI_of_opOf hop, encK_of_opOf hop]
  · cases h

/-- The opcodes of the instruction tables (R231 to R246). -/
def engineOps : List (BitVec 8) :=
  [0x01, 0x02, 0x03, 0x04, 0x05, 0x06, 0x07, 0x08, 0x09, 0x0A, 0x0B, 0x0C, 0x0D, 0x0E, 0x10, 0x11, 0x12, 0x13, 0x14, 0x15, 0x18, 0x19,
   0x1A, 0x1B, 0x1C, 0x20, 0x21, 0x22, 0x23, 0x24, 0x25, 0x26, 0x27, 0x28, 0x29, 0x2A, 0x2B, 0x30, 0x31, 0x32, 0x33, 0x34, 0x35, 0x36,
   0x37, 0x38, 0x39, 0x3A, 0x3B, 0x3C, 0x3D, 0x3E, 0x40, 0x41, 0x42, 0x43, 0x44, 0x45, 0x46, 0x50, 0x51, 0x52, 0x53, 0x60, 0x61, 0x62,
   0x63, 0x68, 0x69, 0x6A, 0x6B, 0x6C, 0x6D, 0x80, 0x81, 0x82, 0x83, 0x88, 0x89, 0x8A, 0x8C, 0x90, 0x91, 0x92]

theorem mem_engineOps_of_opRow : ∀ op : BitVec 8, (opRow op.toNat).isSome = true → op ∈ engineOps := by decide

theorem opRow_of_legalWord {w : Word} (hw : legalWord w = true) : (opRow (opOf w).toNat).isSome = true := by
  unfold legalWord at hw
  dsimp only at hw
  split at hw
  · exact absurd hw Bool.false_ne_true
  next hrow => rw [hrow]; rfl

/-- A legal word decodes: its opcode is one of the tables'. -/
theorem decodeEngine_of_legal (e : EngId) {w : Word} (hw : legalWord w = true) : ∃ i, decodeEngine e w = some i := by
  have hop := mem_engineOps_of_opRow _ (opRow_of_legalWord hw)
  rw [decodeEngine, if_pos hw]
  generalize opOf w = op at hop ⊢
  simp only [engineOps, List.mem_cons, List.not_mem_nil, or_false] at hop
  repeat' (rcases hop with rfl | hop)
  all_goals exact ⟨_, rfl⟩

theorem wellFormed_of_encode {i : Instr} {e : EngId} {w : Word} (h : encode i = some (e, w)) : wellFormed i = legalWord w := by
  unfold wellFormed
  rw [h]

end Sys2Proof

namespace Sys2Proof.Machine

/-- Settles O58: what encoding puts into a word its fields give back, and the opcodes of legal words are those that decoding knows. -/
theorem engineWordsRoundTrip : Obligations.EngineWordsRoundTrip := by
  unfold Obligations.EngineWordsRoundTrip
  refine fun e w => ⟨fun i hwf henc => ?_, fun hw => ?_, fun hw => ?_⟩
  · rw [wellFormed_of_encode henc] at hwf
    exact decodeEngine_of_encode henc hwf
  · obtain ⟨i, hdec⟩ := decodeEngine_of_legal e hw
    have henc := encode_of_decodeEngine hdec
    exact ⟨i, hdec, henc, (wellFormed_of_encode henc).trans hw⟩
  · rw [decodeEngine, hw]
    rfl

end Sys2Proof.Machine
end

section
/-! Registers and predicates of a task, and the instructions that change nothing but their task (R202, R206, R210, R213). -/

namespace Sys2Proof.Machine

/-! ### Registers and predicates of a task (R202) -/

@[simp] theorem Task.getW_zero (t : Task) : t.getW 0 = 0 := rfl
@[simp] theorem Task.setW_zero (t : Task) (v : Word) : t.setW 0 v = t := rfl
@[simp] theorem Task.getP_zero (t : Task) : t.getP 0 = true := rfl
@[simp] theorem Task.setP_zero (t : Task) (q : Bool) : t.setP 0 q = t := rfl

theorem Task.getW_setW (t : Task) (v : Word) {r : Nat} (m : Nat) (hr : r ≠ 0) :
    (t.setW r v).getW m = if m = r then v else t.getW m := by
  by_cases hm : m = 0
  · subst hm
    rw [if_neg hr.symm]
    rfl
  · simp only [getW, setW, if_neg hm, if_neg hr, Tbl.get_set]

@[simp] theorem Task.getP_setW (t : Task) (r m : Nat) (v : Word) : (t.setW r v).getP m = t.getP m := by
  unfold setW
  split <;> rfl

@[simp] theorem Task.getW_setP (t : Task) (r m : Nat) (q : Bool) : (t.setP r q).getW m = t.getW m := by
  unfold setP
  split <;> rfl

theorem getLsbD_one_shiftLeft {r m : Nat} (hm : m < 8) : (1#8 <<< r).getLsbD m = decide (m = r) := by
  rw [BitVec.getLsbD_shiftLeft, BitVec.getLsbD_one]
  by_cases h : m = r
  · simp [h, h ▸ hm]
  · rw [decide_eq_false h]
    by_cases hlt : m < r
    · simp [hlt]
    · simp [show m - r ≠ 0 by omega]

theorem Task.getP_setP (t : Task) (q : Bool) {r m : Nat} (hr : 1 ≤ r) (hm : m ≤ 7) :
    (t.setP r q).getP m = if m = r then q else t.getP m := by
  have hbit := getLsbD_one_shiftLeft (r := r) (m := m) (by omega)
  obtain rfl | hpos := Nat.eq_zero_or_pos m
  · rw [if_neg (by omega)]
    rfl
  · simp only [getP, setP, if_neg (show r ≠ 0 by omega), beq_eq_false_iff_ne.mpr (Nat.pos_iff_ne_zero.mp hpos), Bool.false_or]
    cases q
    · simp only [Bool.false_eq_true, if_false, BitVec.getLsbD_and, BitVec.getLsbD_not, hbit]
      by_cases h : m = r <;> simp [h]; omega
    · simp only [if_true, BitVec.getLsbD_or, hbit]
      by_cases h : m = r <;> simp [h]

namespace State

/-! ### Instructions that change nothing but their task -/

theorem inReplayQuay_congr {s t : State} (hreg : t.reg 16 = s.reg 16) (n : Nat) : t.inReplayQuay n = s.inReplayQuay n := by
  simp only [inReplayQuay, rd, F.rplCfgSetN, F.rplCfgQuay, hreg]

/-- The cycle count an engine lives by hangs on RPL_CFG, the replay and CYC (R404). -/
theorem engCyc_congr {s t : State} (hreg : t.reg 16 = s.reg 16) (hrpl : t.rpl = s.rpl) (hcyc : t.cyc = s.cyc) (n : Nat) :
    t.engCyc n = s.engCyc n := by
  have hset : t.setCyc = s.setCyc := by rw [setCyc, setCyc, hrpl, hcyc]
  rw [engCyc, engCyc, inReplayQuay_congr hreg, hset, hcyc]

theorem Fetches.engCyc {s q : State} {e : EngId} {b : BerthId} (hq : Fetches s q e b) (n : Nat) : q.engCyc n = s.engCyc n :=
  engCyc_congr (hq.regs 16 (by decide) (by simp only [F.quayMemCorrCnt]; omega)) hq.rpl hq.cyc n

/-- An instruction that is a change of its task completes where its engine stands at it, with the task and the flags its effect answers after the fetch. -/
theorem issuedAs_of_effect {s : State} {i : Instr} {e : EngId} {w : Word} {b : BerthId} {g : State → Task → Task × Bool × Bool}
    (hi : encode i = some (e, w)) (hexec : exec i s = .next (s.runTask e.toNat w g)) {x : Task} {sat acc : Bool}
    (hg : ∀ q, Fetches s q e b → g q (s.engine e.toNat).live = (x, sat, acc)) (h : s.standsAt i b = true) :
    ∃ s', exec i s = .next s' ∧ s.issuedAs s' e x sat acc := by
  have hissued := runTask_issuedAs g hi h
  rw [hg _ (fetched_fetches hi h)] at hissued
  exact ⟨_, hexec, hissued⟩

end State

end Sys2Proof.Machine
end

section
/-! The obligation on the registers of a task and the instructions that read its state (R202, R204, R231). -/

namespace Sys2Proof.Machine

open State

theorem status_eq (t : Task) :
    t.status = (if t.sat then 8 else 0) + (if t.accsat then 4 else 0) + (if t.urgent then 2 else 0) + (if t.suspended then 1 else 0) := by
  simp only [Task.status, bit]
  split_ifs <;> rfl

theorem and_not_eq_ite (x y : Bool) : (x && !y) = if y then false else x := by cases x <;> cases y <;> rfl

/-- Settles O5: the laws of the register file, and each reading instruction as a change of its task after the fetch, which leaves the cycle count and the time alone. -/
theorem taskStateAndConstants : Obligations.TaskStateAndConstants := by
  unfold Obligations.TaskStateAndConstants
  refine ⟨fun t v q => ⟨rfl, rfl, rfl, rfl, fun r m hr => t.getW_setW v m hr, fun r m hr _ hm => t.getP_setP q hr hm,
    fun r m => t.getP_setW r m v, fun r m => t.getW_setP r m q⟩, ?_⟩
  intro s e b f t
  simp only [List.forall_mem_cons, List.not_mem_nil, false_implies, implies_true, and_true]
  refine ⟨?_, ?_, ?_, ?_, ?_⟩
  · exact issuedAs_of_effect (w := encT 0x18 f) rfl rfl fun q hq => by rw [hq.engCyc]
  · refine issuedAs_of_effect (w := encT 0x19 f) rfl rfl fun q hq => ?_
    rw [nowHi, nowLo, hq.frame]
  · refine issuedAs_of_effect (w := encT 0x1A f) rfl rfl fun q _ => ?_
    rw [noFlags, status_eq]
  · exact issuedAs_of_effect (w := encT 0x1C f) rfl rfl fun q _ => rfl
  · refine issuedAs_of_effect (w := encT 0x1B f) rfl rfl fun q _ => ?_
    simp only [noFlags, and_not_eq_ite]
    rfl

end Sys2Proof.Machine
end

section
/-! The accumulators of a task: products, narrowing, and their words in the layout of the context frame (R204, R207, R234). -/

namespace Sys2Proof.Machine

/-! ### Products and narrowing -/

/-- The exact product of two complex words, the second conjugated with CONJ (R234). -/
theorem productC_eq (x y : Word) (cj : Bool) :
    productC x y cj =
      let yi := if cj then -(cOf y).im else (cOf y).im
      ⟨(cOf x).re * (cOf y).re - (cOf x).im * yi, (cOf x).re * yi + (cOf x).im * (cOf y).re⟩ := by
  cases cj <;> rfl

/-- A complex value differs from another where one of its components does. -/
theorem cplx_bne (a b : Cplx) : (a != b) = (a.re != b.re || a.im != b.im) := by
  obtain ⟨ar, ai⟩ := a
  obtain ⟨br, bi⟩ := b
  rw [Bool.eq_iff_iff]
  simp only [bne_iff_ne, Bool.or_eq_true, ne_eq, Cplx.mk.injEq]
  tauto

/-- Narrowing rounds each component and saturates it; its flag says that one saturated (R8, R207). -/
theorem narrowC_eq (c : Cplx) (k : Nat) :
    narrowC c k =
      (BitVec.ofInt 20 (satS 20 (roundBits c.re k)) ++ BitVec.ofInt 20 (satS 20 (roundBits c.im k)),
        satS 20 (roundBits c.re k) != roundBits c.re k || satS 20 (roundBits c.im k) != roundBits c.im k) := by
  simp only [narrowC, cplx_bne]
  rfl

/-! ### Words of an accumulator (R204, R234) -/

/-- Two words side by side, as a number. -/
theorem toNat_append_eq_add {m n : Nat} (x : BitVec m) (y : BitVec n) : (x ++ y).toNat = 2 ^ n * x.toNat + y.toNat := by
  rw [BitVec.toNat_append, Nat.shiftLeft_eq, Nat.mul_comm, Nat.two_pow_add_eq_or_of_lt y.isLt]

/-- The high word of a half is its upper 40 bits, the low word its last 8 bits on top of zeros. -/
theorem accWord_eq (t : Task) (k j : Nat) :
    t.accWord k j = BitVec.ofNat 40 (if j % 2 = 0 then (t.getAcc k (j / 2)).toNat / 256 else (t.getAcc k (j / 2)).toNat % 256 * 2 ^ 32) := by
  refine BitVec.eq_of_toNat_eq ?_
  simp only [Task.accWord]
  split
  · simp only [BitVec.extractLsb'_toNat, BitVec.toNat_ofNat, Nat.shiftRight_eq_div_pow]
  · rw [BitVec.toNat_ofNat]
    refine (toNat_append_eq_add _ _).trans ?_
    simp only [BitVec.toNat_ofNat, BitVec.extractLsb'_toNat, Nat.shiftRight_zero]
    omega

theorem setAccWord_eq (t : Task) (k j : Nat) (w : Word) :
    t.setAccWord k j w = t.setAcc k (j / 2) (BitVec.ofNat 48 (if j % 2 = 0 then w.toNat * 256 + (t.getAcc k (j / 2)).toNat % 256
      else (t.getAcc k (j / 2)).toNat / 256 * 256 + w.toNat / 2 ^ 32)) := by
  have hw := w.isLt
  have hh := (t.getAcc k (j / 2)).isLt
  rw [Task.setAccWord]
  congr 1
  refine BitVec.eq_of_toNat_eq ?_
  split <;> refine (toNat_append_eq_add _ _).trans ?_
  all_goals
    simp only [BitVec.toNat_ofNat, BitVec.extractLsb'_toNat, Nat.shiftRight_eq_div_pow]
    omega

end Sys2Proof.Machine
end

section
/-! The obligation on the accumulators (R204, R207, R234). -/

namespace Sys2Proof.Machine

open State

/-- Settles O11: each instruction is a change of its task, and its accumulator arithmetic is that of `accumulate`, `narrowC`, `accWord` and `setAccWord`. -/
theorem engineAccumulators : Obligations.EngineAccumulators := by
  unfold Obligations.EngineAccumulators
  intro s e b f t re im x y k yi pr pim
  have hprod : productC x y (f.fn.getLsbD 0) = ⟨pr, pim⟩ := productC_eq x y _
  simp only [List.forall_mem_cons, List.not_mem_nil, false_implies, implies_true, and_true]
  refine ⟨⟨?_, ?_⟩, ?_, ?_, ?_, ?_⟩
  · refine issuedAs_of_effect (w := encT 0x41 f) rfl rfl fun q _ => ?_
    rw [hprod]
    rfl
  · refine issuedAs_of_effect (w := encT 0x42 f) rfl rfl fun q _ => ?_
    rw [hprod]
    simp only [Int.sub_eq_add_neg]
    rfl
  · exact issuedAs_of_effect (w := encT 0x43 f) rfl rfl fun q _ => rfl
  · refine issuedAs_of_effect (w := encT 0x44 f) rfl rfl fun q _ => ?_
    simp only [narrowC_eq]
    rfl
  · refine issuedAs_of_effect (w := encT 0x45 f) rfl rfl fun q _ => ?_
    rw [noFlags, accWord_eq]
  · refine issuedAs_of_effect (w := encT 0x46 f) rfl rfl fun q _ => ?_
    rw [noFlags, setAccWord_eq]

end Sys2Proof.Machine
end

section
/-! What an instruction leaves that acts on its own engine after the fetch, and the branches (R210, R213, R238). -/

namespace Sys2Proof.Machine.State

/-- An action that opens no walk is what the issue does after the fetch. -/
theorem issue_of_noWalk {s : State} {i : Instr} {e : EngId} {w : Word} {b : BerthId} {act : State → State} (hi : encode i = some (e, w))
    (h : s.standsAt i b = true) (hwalk : ((act (s.fetched e.toNat b)).engine e.toNat).walk = none) :
    s.issue e.toNat w act = act (s.fetched e.toNat b) := by
  rw [issue_stands act hi h]
  simp only [hwalk, Option.isSome_none, Bool.false_eq_true, if_false]

namespace Fetches

variable {s q : State} {e : EngId} {b : BerthId} (hq : Fetches s q e b)
include hq

/-- An effect on its engine alone is an issue from the berth of the fetch. -/
theorem issued {t : State} {x : Engine} (ht : t = { q with engines := t.engines }) (hne : ∀ n, n ≠ e.toNat → t.engine n = q.engine n)
    (hen : t.engine e.toNat = { x with
      issuedBerth := b, issuedPc := (s.engine e.toNat).live.pc, issuedProg := (s.engine e.toNat).live.prog
      usedAt := some (s.engCyc e.toNat) }) :
    s.issueFrame t e.toNat ∧ s.issuedTo t e b x := by
  have hregs : ∀ a, t.reg a = q.reg a := fun a => by rw [ht]; rfl
  refine ⟨⟨?_, fun n hn => (hne n hn).trans (hq.others n hn), fun a ha => (hregs a).trans (hq.regsKept a ha), ?_⟩, hen⟩
  · rw [ht, hq.frame]
  · rw [intakeOnly, ht]
    exact hq.intake

/-- A change of its task alone. -/
theorem modTask_issued (g : Task → Task) :
    s.issueFrame (q.modTask e.toNat g) e.toNat ∧
      s.issuedTo (q.modTask e.toNat g) e b { s.engine e.toNat with live := g (s.engine e.toNat).live } :=
  hq.issued rfl (fun _ hn => setEngine_engine_ne _ _ hn) (by rw [modTask, setEngine_engine_same, hq.own])

end Fetches

/-! ### Branches (R210, R238) -/

/-- The condition codes that R210 defines. -/
theorem cond_eq (t : Task) {c : Nat} (r : Nat) (hc : c ≤ 21) :
    t.cond c r = (let x := (t.getW r).toInt
      if c < 8 then t.getP c else if c < 16 then !t.getP (c - 8)
      else if c = 16 then decide (x = 0) else if c = 17 then decide (x ≠ 0) else if c = 18 then decide (x < 0)
      else if c = 19 then decide (0 ≤ x) else if c = 20 then decide (0 < x) else decide (x ≤ 0)) := by
  simp only [Task.cond, bne, beq_eq_decide, ne_eq, decide_not]
  split_ifs <;> first | rfl | omega

/-- A legal branch names a condition that R210 defines. -/
theorem cond_code_le {op : BitVec 8} {f : I2} (hop : op ∈ [(0x60 : BitVec 8), 0x61, 0x62, 0x63]) (h : legalWord (encI op f) = true) :
    f.d.toNat ≤ 21 := by
  simp only [List.mem_cons, List.not_mem_nil, or_false] at hop
  rw [legalWord, opOf_encI, i2Of_encI] at h
  obtain rfl | rfl | rfl | rfl := hop <;> simp [opRow] at h <;> omega

section
variable {s : State} {i : Instr} {e : EngId} {b : BerthId} {op : BitVec 8} {f : I2} {target : Task → Int} {link : Bool}
  (hi : encode i = some (e, encI op f)) (h : s.standsAt i b = true)
  (hexec : exec i s = .next (s.issue e.toNat (encI op f) (fun s => s.branchFx e.toNat f target link)))
include hi h hexec

theorem branch_taken (hcond : (s.engine e.toNat).live.cond f.d.toNat f.a.toNat = true)
    (hlo : 0 ≤ target (s.engine e.toNat).live) (hhi : target (s.engine e.toNat).live ≤ 8191) :
    ∃ s', exec i s = .next s' ∧ s.issueFrame s' e.toNat ∧ s.issuedTo s' e b { s.engine e.toNat with live :=
      { (if link then (s.engine e.toNat).live.setW 31 (BitVec.ofNat 40 ((s.engine e.toNat).live.pc + 1)) else (s.engine e.toNat).live) with
        pc := (target (s.engine e.toNat).live).toNat } } := by
  have hq := fetched_fetches hi h
  have hact : (s.fetched e.toNat b).branchFx e.toNat f target link = (s.fetched e.toNat b).modTask e.toNat (fun t =>
      { (if link then t.setW 31 (BitVec.ofNat 40 (t.pc + 1)) else t) with pc := (target (s.engine e.toNat).live).toNat }) := by
    simp only [branchFx, hq.live, hcond, if_true, if_neg (show ¬ (target (s.engine e.toNat).live < 0 ∨ 8191 < target (s.engine e.toNat).live) by omega)]
  have hwalk : ((s.fetched e.toNat b).engine e.toNat).walk = none := by rw [hq.own]; exact hq.stands.2
  rw [issue_of_noWalk hi h (by rw [hact, modTask, setEngine_engine_same]; exact hwalk), hact] at hexec
  exact ⟨_, hexec, hq.modTask_issued _⟩

theorem branch_not_taken (hcond : (s.engine e.toNat).live.cond f.d.toNat f.a.toNat = false) :
    ∃ s', exec i s = .next s' ∧ s.issueFrame s' e.toNat ∧ s.issuedTo s' e b { s.engine e.toNat with live :=
      { (s.engine e.toNat).live with pc := (s.engine e.toNat).live.pc + 1 } } := by
  have hq := fetched_fetches hi h
  have hact : (s.fetched e.toNat b).branchFx e.toNat f target link = (s.fetched e.toNat b).stepPc e.toNat := by
    simp only [branchFx, hq.live, hcond, Bool.false_eq_true, if_false]
  have hwalk : ((s.fetched e.toNat b).engine e.toNat).walk = none := by rw [hq.own]; exact hq.stands.2
  rw [issue_of_noWalk hi h (by rw [hact, stepPc, modTask, setEngine_engine_same]; exact hwalk), hact] at hexec
  exact ⟨_, hexec, hq.modTask_issued _⟩

end

end Sys2Proof.Machine.State
end

section
/-! The obligation on branches and calls (R210, R238). -/

namespace Sys2Proof.Machine

open State

/-- Settles O15: the four instructions are one branch, each with its target and its link. -/
theorem engineBranches : Obligations.EngineBranches := by
  unfold Obligations.EngineBranches
  intro s e b f n en t c x taken near far
  have hrow : ∀ {i : Instr} {op : BitVec 8} (target : Task → Int) (link : Bool), op ∈ [(0x60 : BitVec 8), 0x61, 0x62, 0x63] →
      encode i = some (e, encI op f) →
      exec i s = .next (s.issue e.toNat (encI op f) (fun s => s.branchFx e.toNat f target link)) → s.standsAt i b = true →
      (taken = true → 0 ≤ target t → target t ≤ 8191 →
        ∃ s', exec i s = .next s' ∧ s.issueFrame s' n ∧
          s.issuedTo s' e b { en with live := { (if link then t.setW 31 (BitVec.ofNat 40 (t.pc + 1)) else t) with pc := (target t).toNat } }) ∧
      (taken = false →
        ∃ s', exec i s = .next s' ∧ s.issueFrame s' n ∧ s.issuedTo s' e b { en with live := { t with pc := t.pc + 1 } }) := by
    intro i op target link hop hi hexec h
    have hcond : t.cond c f.a.toNat = taken := cond_eq t f.a.toNat (cond_code_le hop (fetched_facts hi h).2.2.2.2)
    exact ⟨fun htaken hlo hhi => branch_taken hi h hexec (hcond.trans htaken) hlo hhi,
      fun htaken => branch_not_taken hi h hexec (hcond.trans htaken)⟩
  simp only [List.forall_mem_cons, List.not_mem_nil, false_implies, implies_true, and_true]
  exact ⟨hrow (fun t => t.pc + f.imm.toInt) false (by decide) rfl rfl, hrow (fun t => t.pc + f.imm.toInt) true (by decide) rfl rfl,
    hrow (fun t => t.addr f.a.toNat f.imm) false (by decide) rfl rfl, hrow (fun t => t.addr f.a.toNat f.imm) true (by decide) rfl rfl⟩

end Sys2Proof.Machine
end

section
/-! The mailboxes of an engine: MRECV, MSEND and MSTAT, inbound words that become visible, and outbound words on their way to the management ring (R222, R223, R246). -/

namespace Sys2Proof.Machine.State

theorem fullCounter (n : Nat) : Counter (F.engMbStatFullCnt n) (F.engMbStatFullOvf n) :=
  ⟨rfl, by simp [F.engMbStatFullCnt, F.engMbStatFullOvf], by simp [F.engMbStatFullCnt, F.engMbStatFullOvf]⟩

theorem ringCounter (n : Nat) : Counter (F.engMbStatRingDrop n) (F.engMbStatRingOvf n) :=
  ⟨rfl, by simp [F.engMbStatRingDrop, F.engMbStatRingOvf], by simp [F.engMbStatRingDrop, F.engMbStatRingOvf]⟩

theorem inc_engine (s : State) (cnt ovf : Fld) (n : Nat) : (s.inc cnt ovf).engine n = s.engine n := by rw [inc_eq]; rfl

/-! ### MRECV, MSEND and MSTAT (R246) -/

/-- The engine that a step of PC leaves behind a change of its engine. -/
theorem setEngine_stepPc_engine (q : State) (n : Nat) {y : Engine} {p : Nat} (hpc : y.live.pc = p) :
    ((q.setEngine n y).stepPc n).engine n = { y with live := { y.live with pc := p + 1 } } := by
  subst hpc
  rw [stepPc, modTask, setEngine_engine_same, setEngine_engine_same]

theorem setEngine_stepPc_engine_ne (q : State) {n m : Nat} (y : Engine) (h : m ≠ n) : ((q.setEngine n y).stepPc n).engine m = q.engine m := by
  rw [stepPc, modTask, setEngine_engine_ne _ _ h, setEngine_engine_ne _ _ h]

/-- An instruction that makes its engine `y` and steps PC is issued as that. -/
theorem issuedTo_of_stepPc {s : State} {i : Instr} {e : EngId} {b : BerthId} {w : Word} {act : State → State} {x y : Engine}
    (hi : encode i = some (e, w)) (h : s.standsAt i b = true) (hexec : exec i s = .next (s.issue e.toNat w act))
    (hact : act (s.fetched e.toNat b) = ((s.fetched e.toNat b).setEngine e.toNat y).stepPc e.toNat)
    (hy : y = { x with
      issuedBerth := b, issuedPc := (s.engine e.toNat).live.pc, issuedProg := (s.engine e.toNat).live.prog
      usedAt := some (s.engCyc e.toNat) })
    (hwalk : x.walk = none) (hpc : x.live.pc = (s.engine e.toNat).live.pc) :
    ∃ s', exec i s = .next s' ∧ s.issueFrame s' e.toNat ∧
      s.issuedTo s' e b { x with live := { x.live with pc := (s.engine e.toNat).live.pc + 1 } } := by
  have heng := setEngine_stepPc_engine (s.fetched e.toNat b) e.toNat (y := y) (p := (s.engine e.toNat).live.pc) (by rw [hy]; exact hpc)
  rw [issue_of_noWalk hi h (by rw [hact, heng, hy]; exact hwalk), hact] at hexec
  exact ⟨_, hexec, (fetched_fetches hi h).issued rfl (fun n hn => setEngine_stepPc_engine_ne _ y hn) (by rw [heng, hy])⟩

section
variable {s : State} {e : EngId} {b : BerthId} {f : T3}

/-- The oldest visible word is taken, and the words around it stay. -/
theorem mrecv_takes {w : InWord} {pre post : List InWord} (h : s.standsAt (.mrecv e f) b = true)
    (hbox : (s.engine e.toNat).inbox = pre ++ w :: post) (hw : w.visible = true) (hpre : ∀ x ∈ pre, x.visible = false) :
    ∃ s', exec (.mrecv e f) s = .next s' ∧ s.issueFrame s' e.toNat ∧ s.issuedTo s' e b { s.engine e.toNat with
      inbox := pre ++ post
      live := { ((s.engine e.toNat).live.setW f.d.toNat w.word).setP (f.fn.toNat % 8) true with pc := (s.engine e.toNat).live.pc + 1 } } := by
  have hi : encode (.mrecv e f) = some (e, encT 0x90 f) := rfl
  have hq := fetched_fetches hi h
  have hfind : (s.engine e.toNat).inbox.find? (fun x => x.visible) = some w :=
    List.find?_eq_some_iff_append.mpr ⟨hw, pre, post, hbox, fun x hx => by rw [hpre x hx]; rfl⟩
  have herase : (s.engine e.toNat).inbox.erase w = pre ++ post := by
    have hnot : w ∉ pre := fun hmem => absurd hw (by rw [hpre w hmem]; exact Bool.false_ne_true)
    rw [hbox, List.erase_append_right _ hnot, List.erase_cons_head]
  exact issuedTo_of_stepPc (act := fun s => s.mrecvFx e.toNat f) (x := { s.engine e.toNat with
      inbox := pre ++ post
      live := ((s.engine e.toNat).live.setW f.d.toNat w.word).setP (f.fn.toNat % 8) true })
    hi h rfl (by simp only [mrecvFx, hq.own, hfind, herase]) rfl hq.stands.2 (by simp only [setP_pc, setW_pc])

/-- A change of its task by `g` and a step of PC. -/
theorem Fetches.modTask_stepPc_engine {q : State} (hq : Fetches s q e b) {g : Task → Task}
    (hpc : (g (s.engine e.toNat).live).pc = (s.engine e.toNat).live.pc) :
    ((q.modTask e.toNat g).stepPc e.toNat).engine e.toNat =
      { q.engine e.toNat with live := { g (s.engine e.toNat).live with pc := (s.engine e.toNat).live.pc + 1 } } := by
  rw [modTask, hq.live]
  exact setEngine_stepPc_engine _ _ hpc

theorem Fetches.modTask_stepPc_issuedAs {q : State} (hq : Fetches s q e b) {g : Task → Task}
    (hpc : (g (s.engine e.toNat).live).pc = (s.engine e.toNat).live.pc) :
    s.issuedAs ((q.modTask e.toNat g).stepPc e.toNat) e (g (s.engine e.toNat).live) false false :=
  hq.issuedAs rfl (fun _ hn => setEngine_stepPc_engine_ne _ _ hn) (hq.modTask_stepPc_engine hpc)

/-- An instruction that changes its task by `g` and steps PC is issued as that. -/
theorem issuedAs_of_stepPc {i : Instr} {w : Word} {act : State → State} (g : Task → Task) (hi : encode i = some (e, w))
    (h : s.standsAt i b = true) (hexec : exec i s = .next (s.issue e.toNat w act))
    (hact : ∀ q, Fetches s q e b → act q = (q.modTask e.toNat g).stepPc e.toNat)
    (hpc : (g (s.engine e.toNat).live).pc = (s.engine e.toNat).live.pc) :
    ∃ s', exec i s = .next s' ∧ s.issuedAs s' e (g (s.engine e.toNat).live) false false := by
  have hq := fetched_fetches hi h
  have hwalk : ((act (s.fetched e.toNat b)).engine e.toNat).walk = none := by
    rw [hact _ hq, hq.modTask_stepPc_engine hpc, hq.own]
    exact hq.stands.2
  rw [issue_of_noWalk hi h hwalk, hact _ hq] at hexec
  exact ⟨_, hexec, hq.modTask_stepPc_issuedAs hpc⟩

/-- With no visible word zero is written, and the predicate is false. -/
theorem mrecv_none (h : s.standsAt (.mrecv e f) b = true) (hnone : ∀ x ∈ (s.engine e.toNat).inbox, x.visible = false) :
    ∃ s', exec (.mrecv e f) s = .next s' ∧
      s.issuedAs s' e (((s.engine e.toNat).live.setW f.d.toNat 0).setP (f.fn.toNat % 8) false) false false := by
  have hfind : (s.engine e.toNat).inbox.find? (fun x => x.visible) = none :=
    List.find?_eq_none.mpr fun x hx => by rw [hnone x hx]; exact Bool.false_ne_true
  exact issuedAs_of_stepPc (act := fun s => s.mrecvFx e.toNat f) (fun t => (t.setW f.d.toNat 0).setP (f.fn.toNat % 8) false)
    (w := encT 0x90 f) rfl h rfl (fun q hq => by simp only [mrecvFx, hq.own, hfind]) (by rw [setP_pc, setW_pc])

/-- A word is appended while fewer than 8 wait. -/
theorem msend_room (h : s.standsAt (.msend e f) b = true) (hroom : (s.engine e.toNat).outbox.length < 8) :
    ∃ s', exec (.msend e f) s = .next s' ∧ s.issueFrame s' e.toNat ∧ s.issuedTo s' e b { s.engine e.toNat with
      outbox := (s.engine e.toNat).outbox ++ [(s.engine e.toNat).live.getW f.a.toNat]
      live := { (s.engine e.toNat).live.setP (f.fn.toNat % 8) true with pc := (s.engine e.toNat).live.pc + 1 } } := by
  have hi : encode (.msend e f) = some (e, encT 0x91 f) := rfl
  have hq := fetched_fetches hi h
  exact issuedTo_of_stepPc (act := fun s => s.msendFx e.toNat f) (x := { s.engine e.toNat with
      outbox := (s.engine e.toNat).outbox ++ [(s.engine e.toNat).live.getW f.a.toNat]
      live := (s.engine e.toNat).live.setP (f.fn.toNat % 8) true })
    hi h rfl (by simp only [msendFx, hq.own, if_pos hroom]) rfl hq.stands.2 (by simp only [setP_pc])

/-- A word that finds 8 waiting is counted. -/
theorem msend_full (h : s.standsAt (.msend e f) b = true) (hfull : 8 ≤ (s.engine e.toNat).outbox.length) :
    ∃ s', exec (.msend e f) s = .next s' ∧ s.otherEngines s' e.toNat ∧
      s.issuedTo s' e b { s.engine e.toNat with
        live := { (s.engine e.toNat).live.setP (f.fn.toNat % 8) false with pc := (s.engine e.toNat).live.pc + 1 } } ∧
      s.countsOne s' (F.engMbStatFullCnt e.toNat) := by
  have hi : encode (.msend e f) = some (e, encT 0x91 f) := rfl
  have hq := fetched_fetches hi h
  generalize hr : (s.fetched e.toNat b).inc (F.engMbStatFullCnt e.toNat) (F.engMbStatFullOvf e.toNat) = r
  have heng : ∀ n, r.engine n = (s.fetched e.toNat b).engine n := fun n => by rw [← hr, inc_engine]
  have hact : (s.fetched e.toNat b).msendFx e.toNat f = (r.modTask e.toNat (fun t => t.setP (f.fn.toNat % 8) false)).stepPc e.toNat := by
    simp only [msendFx, hq.own, if_neg (Nat.not_lt.mpr hfull), hr]
  have hexec : exec (.msend e f) s = .next (s.issue e.toNat (encT 0x91 f) (fun s => s.msendFx e.toNat f)) := rfl
  rw [issue_of_noWalk hi h (by
    rw [hact, stepPc, modTask, modTask, setEngine_engine_same, setEngine_engine_same, heng, hq.own]; exact hq.stands.2), hact] at hexec
  refine ⟨_, hexec, fun n hn => ?_, ?_, ?_⟩
  · rw [stepPc, modTask, modTask, setEngine_engine_ne _ _ hn, setEngine_engine_ne _ _ hn, heng, hq.others n hn]
  · simp only [State.issuedTo, stepPc, modTask, setEngine_engine_same, heng, hq.own, setP_pc]
  · have hrd : (s.fetched e.toNat b).rd (F.engMbStatFullCnt e.toNat) = s.rd (F.engMbStatFullCnt e.toNat) := by
      rw [rd, rd, hq.regs _ (by simp only [F.engMbStatFullCnt, F.fcQueueDrop0]; omega)
        (by simp only [F.engMbStatFullCnt, F.quayMemCorrCnt]; omega)]
    refine countsOne_of_rd hrd ?_
    have hcount := countsOne_inc (s.fetched e.toNat b) (fullCounter e.toNat)
    rwa [hr] at hcount

/-- MSTAT reads how many words wait on either side. -/
theorem mstat_outcome (h : s.standsAt (.mstat e f) b = true) :
    ∃ s', exec (.mstat e f) s = .next s' ∧ s.issuedAs s' e ((s.engine e.toNat).live.setW f.d.toNat
      (BitVec.ofNat 40 ((s.engine e.toNat).outbox.length * 16 + ((s.engine e.toNat).inbox.filter (fun w => w.visible)).length))) false false :=
  issuedAs_of_stepPc (fun t => t.setW f.d.toNat (BitVec.ofNat 40 ((s.engine e.toNat).outbox.length * 16 +
      ((s.engine e.toNat).inbox.filter (fun w => w.visible)).length))) (w := encT 0x92 f) rfl h rfl
    (fun q hq => by simp only [hq.own]) (by rw [setW_pc])

end

/-! ### Inbound words (R222) -/

section
variable {s : State} {e : EngId} (hquay : s.inReplayQuay e.toNat = false)
include hquay

theorem engCyc_of_outside : s.engCyc e.toNat = s.cyc := by rw [engCyc, hquay]; rfl

/-- The oldest word not yet visible becomes so when it is due; outside a recording no journal takes note of it. -/
theorem mailboxWordVisible_due {w : InWord} {pre post : List InWord} (hjournal : s.journals s.cycW = false)
    (hbox : (s.engine e.toNat).inbox = pre ++ w :: post) (hw : w.visible = false) (hpre : ∀ x ∈ pre, x.visible = true)
    (hdue : (w.at_ + 64 + 63) / 64 * 64 ≤ s.cyc) :
    exec (.mailboxWordVisible e) s = .next (s.setEngine e.toNat { s.engine e.toNat with inbox := pre ++ { w with visible := true } :: post }) := by
  have hfind : (s.engine e.toNat).inbox.find? (fun x => !x.visible) = some w :=
    List.find?_eq_some_iff_append.mpr ⟨by rw [hw]; rfl, pre, post, hbox, fun x hx => by rw [hpre x hx]; rfl⟩
  have htake : (s.engine e.toNat).inbox.takeWhile (fun x => x.visible) = pre := by
    rw [hbox, List.takeWhile_append_of_pos hpre, List.takeWhile_cons_of_neg (by rw [hw]; exact Bool.false_ne_true), List.append_nil]
  have hdrop : (s.engine e.toNat).inbox.dropWhile (fun x => x.visible) = w :: post := by
    rw [hbox, List.dropWhile_append_of_pos hpre, List.dropWhile_cons_of_neg (by rw [hw]; exact Bool.false_ne_true)]
  have hexec : exec (.mailboxWordVisible e) s =
      .next (if s.rpl.st = .replaying ∧ s.inReplayQuay e.toNat then s else s.mbVisible e.toNat) := rfl
  rw [hexec, if_neg (by rw [hquay]; simp), mbVisible, hfind]
  dsimp only
  rw [engCyc_of_outside hquay, if_pos (show visibleAt w.at_ ≤ s.cyc from hdue), htake, hdrop, journal]
  have hstill : ∀ x, (s.setEngine e.toNat x).journals s.cycW = false := fun _ => hjournal
  rw [hstill]

/-! ### Outbound words (R223) -/

theorem outboundWordMove_early (hcyc : s.cyc % 256 ≠ (e.toNat + 128) % 256) : exec (.outboundWordMove e) s = .next s := by
  have hexec : exec (.outboundWordMove e) s = .next (s.outMove e.toNat) := rfl
  rw [hexec, outMove, engCyc_of_outside hquay]
  dsimp only
  rw [if_pos hcyc]

/-- Outside the replay quay a word sent is no decision. -/
theorem decision_of_outside (mailbox : Bool) (w2 w3 : Word) : s.decision e.toNat mailbox w2 w3 = s := by
  rw [decision, hquay]
  rfl

theorem outboundWordMove_moves {w : Word} {rest : List Word} (hcyc : s.cyc % 256 = (e.toNat + 128) % 256)
    (hbox : (s.engine e.toNat).outbox = w :: rest) :
    let t := s.setEngine e.toNat { s.engine e.toNat with outbox := rest }
    exec (.outboundWordMove e) s = .next (if s.mgmt.ring.length < 4096 then
      { t with mgmt := { s.mgmt with ring := s.mgmt.ring ++ [(w, BitVec.ofNat 40 (e.toNat * 2 ^ 32 + s.cyc % 2 ^ 32))] } }
      else t.inc (F.engMbStatRingDrop e.toNat) (F.engMbStatRingOvf e.toNat)) := by
  intro t
  have hquay' : t.inReplayQuay e.toNat = false := hquay
  have hexec : exec (.outboundWordMove e) s = .next (s.outMove e.toNat) := rfl
  rw [hexec, outMove, engCyc_of_outside hquay]
  dsimp only
  rw [if_neg (not_not.mpr hcyc), hbox]
  dsimp only
  rw [decision_of_outside hquay', engCyc_of_outside hquay']
  rfl

end

end Sys2Proof.Machine.State
end

section
/-! The obligation on the mailboxes (R222, R223, R246). -/

namespace Sys2Proof.Machine

open State

/-- Settles O23: what MRECV finds decides which word it takes, the room at the outbox what MSEND does, and the cycle and the ring what the device moves. -/
theorem mailboxes : Obligations.Mailboxes := by
  unfold Obligations.Mailboxes
  refine ⟨fun s e b f => ?_, fun s e => ?_⟩
  · intro n en t p
    exact ⟨fun h => ⟨fun w pre post hbox hw hpre => mrecv_takes h hbox hw hpre, mrecv_none h⟩,
      fun h => ⟨msend_room h, msend_full h⟩, mstat_outcome⟩
  · intro n en hquay hjournal
    refine ⟨fun w pre post hbox hw hpre hdue => ?_, outboundWordMove_early hquay, fun w rest hcyc hbox => ?_⟩
    · exact ⟨_, mailboxWordVisible_due hquay hjournal hbox hw hpre hdue, fun m hm => setEngine_engine_ne _ _ hm,
        setEngine_engine_same .., rfl⟩
    · have hexec := outboundWordMove_moves hquay hcyc hbox
      extract_lets moved at hexec
      by_cases hroom : s.mgmt.ring.length < 4096
      · rw [if_pos hroom] at hexec
        exact ⟨_, hexec, setEngine_engine_same .., fun m hm => setEngine_engine_ne _ _ hm, fun _ => rfl, fun h => absurd hroom (by omega)⟩
      · rw [if_neg hroom] at hexec
        refine ⟨_, hexec, ?_, fun m hm => ?_, fun h => absurd h hroom, fun _ => ⟨?_, ?_⟩⟩
        · rw [inc_engine, setEngine_engine_same]
        · rw [inc_engine, setEngine_engine_ne _ _ hm]
        · rw [inc_eq]; rfl
        · exact countsOne_inc _ (ringCounter e.toNat)

end Sys2Proof.Machine
end

section
/-! A page of a block instruction that failed with the code of a double fault (R225, R241, R276). -/

namespace Sys2Proof.Machine

open State

/-- The block instruction: a VMAC of one element, its stream A addressed by W1. -/
def oneElement : BlockRun := ⟨0x68, { count := 1, a := 1, b := 0, acc := 0, mode := 0 }, true⟩

/-- Engine 0 runs berth 0 in a VMAC of one element whose stream A lies on page 16, and the walk of that page is held to have failed with code 8. No berth holds a handler. -/
def doubleFaultPage : State :=
  State.reset.setEngine 0 { Engine.init with
    st := .running, running := some 0, live := (Task.init 5 0).setW 1 0x4000, block := some oneElement, blkFailed := [(16, 8)] }

theorem doubleFaultPage_runs :
    (doubleFaultPage.engine 0).block = some oneElement ∧ (doubleFaultPage.engine 0).running = some 0 ∧
      (doubleFaultPage.engine 0).walk = none ∧ (doubleFaultPage.engine 0).poisoned = none ∧ doubleFaultPage.intakeRoom 2 = true := by
  decide +kernel

/-- The streams of its one element, the first of which faults with code 8. -/
theorem doubleFaultPage_streams :
    ∃ A B, blockStreams oneElement.op oneElement.fields (doubleFaultPage.engine 0).live = [A, B] ∧
      (doubleFaultPage.engine 0).elemTarget (A.at' (doubleFaultPage.engine 0).live.prog.toNat) A.write = .fault 8 :=
  ⟨_, _, rfl, by decide +kernel⟩

/-- No message with hint C2 is sent: the fault has the hint C3 of a double fault. -/
theorem doubleFaultPage_sendsNoC2 {t : State} (h : exec (.blockElementEffect 0) doubleFaultPage = .next t) :
    ¬ doubleFaultPage.sentNow t (srcEng 0) 8 2 (engCtx 0 0 5 0) := by
  have hrun : (match exec (.blockElementEffect 0) doubleFaultPage with
      | .next t => t.fc.queue.all (fun m => m != doubleFaultPage.mkMsg (srcEng 0) 8 2 (engCtx 0 0 5 0) false)
      | _ => false) = true := by
    decide +kernel
  rw [h] at hrun
  intro hsent
  simpa using List.all_eq_true.mp hrun _ hsent

/-- Refutes O17: the page of a stream may be held as failed with any code, and a code 8 is reported with hint C3 (R225, R276), where the statement has C2 for the fault of every task but the handler's. No walk holds a page with that code; the statement speaks of every state. -/
theorem not_blockElementEffects : ¬ Obligations.BlockElementEffects := by
  unfold Obligations.BlockElementEffects
  intro h
  obtain ⟨hblock, hrun, hwalk, hclean, hroom⟩ := doubleFaultPage_runs
  obtain ⟨A, B, hstreams, hfault⟩ := doubleFaultPage_streams
  obtain ⟨-, helem⟩ := h doubleFaultPage 0 0 oneElement hblock hrun hwalk
  obtain ⟨-, -, -, -, -, hstops⟩ := helem hclean (by decide +kernel)
  obtain ⟨hfaults, -⟩ := hstops A [B] hstreams hroom
  obtain ⟨t, hexec, -, -, hsent⟩ := hfaults 8 hfault
  exact doubleFaultPage_sendsNoC2 hexec hsent

end Sys2Proof.Machine
end

section
/-! The switches of one engine: what its faults, saves and restores leave alone, and what they leave behind (R225, R255, R269 to R275). -/

namespace Sys2Proof.Machine

/-- Engine `x` has come to `y` by faults and switches: no suspension is lifted and no walk begins, and what a round start keeps stands. -/
structure Engine.Follows (x y : Engine) : Prop where
  suspended : ∀ b, x.suspended.getLsbD b = true → y.suspended.getLsbD b = true
  walk : x.walk = none → y.walk = none
  shed : y.shed = x.shed
  used : y.used = x.used
  lastUsed : y.lastUsed = x.lastUsed
  peakUsed : y.peakUsed = x.peakUsed
  restart : y.restart = x.restart

theorem Engine.Follows.refl (x : Engine) : x.Follows x := ⟨fun _ h => h, fun h => h, rfl, rfl, rfl, rfl, rfl⟩

theorem Engine.Follows.trans {x y z : Engine} (h : x.Follows y) (g : y.Follows z) : x.Follows z :=
  ⟨fun b hb => g.suspended b (h.suspended b hb), fun hw => g.walk (h.walk hw), g.shed.trans h.shed, g.used.trans h.used,
    g.lastUsed.trans h.lastUsed, g.peakUsed.trans h.peakUsed, g.restart.trans h.restart⟩

/-- Waking a berth touches what is ready alone (R270). -/
theorem Engine.wake_eq (en : Engine) (b c : Nat) :
    en.wake b c = { en with ready := (en.wake b c).ready, readyAt := (en.wake b c).readyAt } := by
  unfold wake
  split <;> rfl

theorem Engine.wake_ready (en : Engine) {b : Nat} (c : Nat) (hb : b < 16) : (en.wake b c).ready.getLsbD b = true := by
  unfold wake
  split
  next h => exact h
  next => simp [hb]

/-- What the mark of a fault leaves of an engine whose handler is in berth `handler` (R273). -/
def Engine.marked (en : Engine) (handler : Option Nat) (b code c : Nat) : Engine :=
  let x := match handler with
    | some h => if handler == some b then en else en.wake h c
    | none => en
  { x with suspended := x.suspended ||| (1#16 <<< b), lastFault := BitVec.ofNat 8 code, ready := x.ready &&& ~~~ (1#16 <<< b) }

theorem Engine.marked_eq (en : Engine) (handler : Option Nat) (b code c : Nat) :
    en.marked handler b code c = { en with
      suspended := en.suspended ||| (1#16 <<< b), lastFault := BitVec.ofNat 8 code
      ready := (en.marked handler b code c).ready, readyAt := (en.marked handler b code c).readyAt } := by
  unfold marked
  cases handler with
  | none => rfl
  | some h =>
    dsimp only
    split
    · rfl
    · rw [wake_eq]

theorem Engine.marked_ready (en : Engine) {h b : Nat} (code c : Nat) (hb : h ≠ b) (hlt : h < 16) :
    (en.marked (some h) b code c).ready.getLsbD h = true := by
  have hne : ((some h : Option Nat) == some b) = false := by simp [hb]
  have hbit : (1#16 <<< b).getLsbD h = false := by
    rw [BitVec.getLsbD_shiftLeft, BitVec.getLsbD_one]
    simp only [Bool.and_eq_false_iff, decide_eq_false_iff_not, Bool.not_eq_false', decide_eq_true_eq]
    omega
  simp only [marked, hne, Bool.false_eq_true, if_false, BitVec.getLsbD_and, BitVec.getLsbD_not, hbit, en.wake_ready c hlt, hlt]
  rfl

/-- What the fault of its running task leaves of an engine (R273, R274). -/
def Engine.faulted (en : Engine) (handler : Option Nat) (b code c : Nat) : Engine :=
  { ({ en with live := { en.live with suspended := true }, poisoned := none } : Engine).marked handler b code c with
    faultAt := some (BitVec.ofNat 4 b, c) }

theorem Engine.faulted_eq (en : Engine) (handler : Option Nat) (b code c : Nat) :
    en.faulted handler b code c = { en with
      live := { en.live with suspended := true }, poisoned := none, faultAt := some (BitVec.ofNat 4 b, c)
      suspended := en.suspended ||| (1#16 <<< b), lastFault := BitVec.ofNat 8 code
      ready := (en.faulted handler b code c).ready, readyAt := (en.faulted handler b code c).readyAt } := by
  rw [faulted, marked_eq]

theorem Engine.faulted_ready (en : Engine) {h b : Nat} (code c : Nat) (hb : h ≠ b) (hlt : h < 16) :
    (en.faulted (some h) b code c).ready.getLsbD h = true := marked_ready _ code c hb hlt

/-- The engine without its running task, which was in berth `b` (R269). -/
def Engine.put (en : Engine) (b : BerthId) : Engine :=
  { en with running := none, lastBerth := b, block := none, budgetEnd := none, walk := none, blkFailed := [] }

theorem Engine.follows_marked (en : Engine) (handler : Option Nat) (b code c : Nat) : en.Follows (en.marked handler b code c) := by
  rw [marked_eq]
  exact ⟨fun b hb => by rw [BitVec.getLsbD_or, hb, Bool.true_or], fun h => h, rfl, rfl, rfl, rfl, rfl⟩

namespace State

/-- Nothing but engine `n`, cells of protected memories, the counts of their reads and the intake has changed: no serious message is gone, and the engine follows from what it was. -/
structure Switches (n : Nat) (s t : State) : Prop where
  frame : t = { s with engines := t.engines, regs := t.regs, mem := t.mem, fc := t.fc, writeBacks := t.writeBacks }
  others : ∀ m, m ≠ n → t.engine m = s.engine m
  regs : ∀ a, a ≠ F.fcQueueDrop0.addr → (∀ q, a ≠ (F.quayMemCorrCnt q).addr) → t.reg a = s.reg a
  kept : ∀ m ∈ s.fc.queue, 2 ≤ m.hint.toNat → m ∈ t.fc.queue
  own : (s.engine n).Follows (t.engine n)

theorem Switches.refl (n : Nat) (s : State) : Switches n s s :=
  ⟨rfl, fun _ _ => rfl, fun _ _ _ => rfl, fun _ h _ => h, .refl _⟩

theorem Switches.trans {n : Nat} {s t u : State} (h : Switches n s t) (g : Switches n t u) : Switches n s u :=
  ⟨by rw [g.frame, h.frame], fun m hm => (g.others m hm).trans (h.others m hm), fun a h1 h2 => (g.regs a h1 h2).trans (h.regs a h1 h2),
    fun m hm hhint => g.kept m (h.kept m hm hhint) hhint, h.own.trans g.own⟩

section
variable {n : Nat} {s t : State} (h : Switches n s t)
include h

theorem Switches.terms : t.terms = s.terms := by rw [h.frame]; rfl
theorem Switches.img : t.img = s.img := by rw [h.frame]
theorem Switches.engCyc (m : Nat) : t.engCyc m = s.engCyc m :=
  engCyc_congr (h.regs 16 (by decide) (fun q => by simp only [F.quayMemCorrCnt]; omega)) (by rw [h.frame]) (by rw [h.frame]) m
theorem Switches.handlerOf (m : Nat) : t.handlerOf m = s.handlerOf m := by simp only [State.handlerOf, berths, engImage, h.img]
theorem Switches.berthCfg (m b : Nat) : t.berthCfg m b = s.berthCfg m b := by simp only [State.berthCfg, berths, engImage, h.img]
theorem Switches.urgentBerth (m b : Nat) : t.urgentBerth m b = s.urgentBerth m b := by
  simp only [State.urgentBerth, berthKind, h.berthCfg]

/-- A serious message that has been sent stays sent. -/
theorem Switches.sentNow {r : State} {src kind hint : Nat} {ctx : Word} (hhint : 2 ≤ hint ∧ hint < 8)
    (hsent : r.sentNow s src kind hint ctx) : r.sentNow t src kind hint ctx := by
  refine h.kept _ hsent ?_
  show 2 ≤ (BitVec.ofNat 3 hint).toNat
  rw [BitVec.toNat_ofNat]
  omega

end

theorem Switches.setEngine (s : State) {n : Nat} {x : Engine} (h : (s.engine n).Follows x) : Switches n s (s.setEngine n x) :=
  ⟨rfl, fun _ hm => setEngine_engine_ne _ _ hm, fun _ _ _ => rfl, fun _ hm _ => hm, by rwa [setEngine_engine_same]⟩

theorem Switches.report (n : Nat) (s : State) (src kind hint : Nat) (ctx : Word) : Switches n s (s.report src kind hint ctx) := by
  have heng : ∀ m, (s.report src kind hint ctx).engine m = s.engine m := fun m => by rw [report_eq]; rfl
  exact ⟨by rw [report_eq], fun m _ => heng m, fun a ha _ => report_reg_ne _ _ _ _ _ ha, fun m hm hhint => mem_offer _ hm hhint,
    by rw [heng]; exact .refl _⟩

theorem countCorr_quayReg (s : State) (k : MemSel) (m : Nat) {a : Nat} (hk : k ≠ .hold) (ha : ∀ q, a ≠ (F.quayMemCorrCnt q).addr) :
    (s.countCorr k m).reg a = s.reg a :=
  countCorr_reg_ne s k m (fun q _ => ha q) (fun h => by cases k <;> first | exact absurd rfl hk | exact absurd h (by simp [memCounts]))

theorem countUnc_quayReg (s : State) (k : MemSel) (m : Nat) {a : Nat} (hk : k ≠ .hold) (ha : ∀ q, a ≠ (F.quayMemCorrCnt q).addr) :
    (s.countUnc k m).reg a = s.reg a := by
  unfold countUnc
  split
  next q _ => exact inc_reg_ne _ (ha q) (ha q)
  next h => cases k <;> first | exact absurd rfl hk | exact absurd h (by simp [memCounts])
  next => rfl

/-- A read of any memory but hold memory. -/
theorem Switches.memRead (n : Nat) (s : State) {k : MemSel} (hk : k ≠ .hold) (a src : Nat) : Switches n s (s.memRead k a src).2 := by
  have heng : ∀ m, (s.memRead k a src).2.engine m = s.engine m := fun m => by rw [memRead_eq]; rfl
  refine ⟨by rw [memRead_eq], fun m _ => heng m, fun x hdrop hquay => ?_, fun m hm hhint => ?_, by rw [heng]; exact .refl _⟩
  · unfold State.memRead
    dsimp only
    split
    · exact countUnc_quayReg _ _ _ hk hquay
    · split
      · rfl
      · exact (report_reg_ne _ _ _ _ _ hdrop).trans (countCorr_quayReg _ _ _ hk hquay)
      · exact countUnc_quayReg _ _ _ hk hquay
  · unfold State.memRead
    dsimp only
    split
    · rwa [countUnc_eq]
    · split
      · exact hm
      · exact mem_offer _ (by rwa [countCorr_eq]) hhint
      · rwa [countUnc_eq]

theorem memWrites_engine (s : State) (k : MemSel) (a : Nat) (l : List Word) (m : Nat) : (s.memWrites k a l).engine m = s.engine m := by
  rw [memWrites_eq]
  rfl

theorem Switches.memWrites (n : Nat) (s : State) (k : MemSel) (a : Nat) (l : List Word) : Switches n s (s.memWrites k a l) := by
  exact ⟨by rw [memWrites_eq], fun m _ => memWrites_engine s k a l m, fun a _ _ => by rw [memWrites_eq]; rfl,
    fun m hm _ => by rwa [memWrites_eq], by rw [memWrites_engine]; exact .refl _⟩

/-! ### Faults -/

theorem markFault_eq (s : State) (n b code pc prog : Nat) :
    s.markFault n b code pc prog =
      (let r := s.report (srcEng n) code (engHint code (s.handlerOf n == some b)) (engCtx n b pc prog)
       r.setEngine n ((s.engine n).marked (s.handlerOf n) b code (s.engCyc n))) := by
  have hr := Switches.report n s (srcEng n) code (engHint code (s.handlerOf n == some b)) (engCtx n b pc prog)
  have heng : (s.report (srcEng n) code (engHint code (s.handlerOf n == some b)) (engCtx n b pc prog)).engine n = s.engine n := by
    rw [report_eq]; rfl
  unfold markFault Engine.marked
  dsimp only
  rw [hr.handlerOf, hr.engCyc, heng] <;> rfl

theorem markFault_engine (s : State) (n b code pc prog : Nat) :
    (s.markFault n b code pc prog).engine n = (s.engine n).marked (s.handlerOf n) b code (s.engCyc n) := by
  rw [markFault_eq]
  exact setEngine_engine_same ..

theorem Switches.markFault (n : Nat) (s : State) (b code pc prog : Nat) : Switches n s (s.markFault n b code pc prog) := by
  rw [markFault_eq]
  refine (Switches.report n s _ _ _ _).trans (Switches.setEngine _ ?_)
  have heng : ∀ src kind hint ctx, (s.report src kind hint ctx).engine n = s.engine n := fun _ _ _ _ => by rw [report_eq]; rfl
  rw [heng]
  exact Engine.follows_marked ..

/-- The message of a fault is sent where the queue has room (R225). -/
theorem markFault_sent {s : State} {n b code : Nat} (pc prog : Nat) (hroom : s.intakeRoom 1 = true) :
    s.sentNow (s.markFault n b code pc prog) (srcEng n) code (engHint code (s.handlerOf n == some b)) (engCtx n b pc prog) := by
  rw [markFault_eq]
  exact sentNow_report rfl _ _ _ _ hroom

/-- The fault of its running task, its message sent (R273). -/
theorem runFault_engine (s : State) (n b code pc : Nat) :
    (s.runFault n b code pc).engine n = (s.engine n).faulted (s.handlerOf n) b code (s.engCyc n) := by
  have hm := fun r : State => Switches.markFault n r b code pc (s.engine n).live.prog.toNat
  unfold runFault
  dsimp only
  rw [setEngine_engine_same, markFault_engine, setEngine_engine_same, (hm _).engCyc]
  rfl

theorem Switches.runFault (n : Nat) (s : State) (b code pc : Nat) : Switches n s (s.runFault n b code pc) := by
  refine ((Switches.setEngine s (x := { s.engine n with live := { (s.engine n).live with suspended := true }, poisoned := none }) ?_).trans
    (Switches.markFault n _ b code pc (s.engine n).live.prog.toNat)).trans (Switches.setEngine _ ?_)
  all_goals exact ⟨fun _ h => h, fun h => h, rfl, rfl, rfl, rfl, rfl⟩

theorem runFault_sent {s : State} {n b code : Nat} (pc : Nat) (hroom : s.intakeRoom 1 = true) :
    s.sentNow (s.runFault n b code pc) (srcEng n) code (engHint code (s.handlerOf n == some b))
      (engCtx n b pc (s.engine n).live.prog.toNat) :=
  markFault_sent (s := s.setEngine n { s.engine n with live := { (s.engine n).live with suspended := true }, poisoned := none })
    pc _ hroom

theorem runFault_mem (s : State) (n b code pc : Nat) : (s.runFault n b code pc).mem = s.mem := by
  unfold runFault
  dsimp only
  rw [setEngine_mem, markFault_eq, setEngine_mem, report_eq]
  rfl

/-! ### Frames -/

theorem Switches.suspendFrame (n : Nat) (s : State) (m b : Nat) : Switches n s (s.suspendFrame m b) :=
  Switches.memWrites n s .dmem (16384 * m + frameBase b + 50) [s.memPeek .dmem (16384 * m + frameBase b + 50) ||| 1]

theorem Switches.saveFrame (n : Nat) (s : State) (m b : Nat) (t : Task) : Switches n s (s.saveFrame m b t) := Switches.memWrites ..

/-- The reads of a frame, in order (R275). -/
theorem Switches.loadFrame (n : Nat) (s : State) (m b : Nat) : Switches n s (s.loadFrame m b).2 := by
  unfold State.loadFrame
  dsimp only
  generalize List.range 64 = l
  exact List.foldlRecOn (motive := fun acc : (List Word × Bool) × State => Switches n s acc.2) l _ (.refl n s)
    fun _ h _ _ => h.trans (.memRead n _ (by decide) _ _)

/-- A frame of clean words is the task they hold, and its reads leave no trace. -/
theorem loadFrame_of_clean {s : State} {n b : Nat}
    (h : ∀ j, j < 64 → s.cell .dmem (16384 * n + frameBase b + j) = ⟨s.memPeek .dmem (16384 * n + frameBase b + j), 0, false⟩) :
    s.loadFrame n b = ((Task.ofFrame ((List.range 64).map fun j => s.memPeek .dmem (16384 * n + frameBase b + j)), false), s) := by
  have hfold : ∀ k, k ≤ 64 → (List.range k).foldl (fun (acc : (List Word × Bool) × State) i =>
      let rr := acc.2.memRead .dmem (16384 * n + frameBase b + i) (srcEng n)
      ((acc.1.1 ++ [rr.1.word], acc.1.2 || rr.1.poison), rr.2)) (([], false), s) =
      (((List.range k).map fun j => s.memPeek .dmem (16384 * n + frameBase b + j), false), s) := by
    intro k
    induction k with
    | zero => intro _; rfl
    | succ k ih =>
      intro hk
      rw [List.range_succ, List.foldl_append, ih (by omega), List.map_append]
      simp [memRead_of_clean s .dmem (srcEng n) (h k (by omega))]
  unfold loadFrame
  rw [hfold 64 (Nat.le_refl _)]

@[simp] theorem frame_length (t : Task) (b : Nat) : (t.frame b).length = 64 := by simp [Task.frame]

theorem saveFrame_memPeek (s : State) (n b : Nat) (t : Task) {j : Nat} (hj : j < 64) :
    (s.saveFrame n b t).memPeek .dmem (16384 * n + frameBase b + j) = (t.frame b)[j]?.getD 0 := by
  have hlen : j < (t.frame b).length := by rw [frame_length]; exact hj
  rw [memPeek, saveFrame, dmemPuts, cell_memWrites_inside _ _ _ _ hlen, List.getElem?_eq_getElem hlen]
  rfl

theorem saveFrame_cell_ne (s : State) (n b : Nat) (t : Task) {k : MemSel} {a : Nat}
    (h : ¬ (k = .dmem ∧ 16384 * n + frameBase b ≤ a ∧ a < 16384 * n + frameBase b + 64)) :
    (s.saveFrame n b t).cell k a = s.cell k a :=
  cell_memWrites_outside _ _ _ _ _ _ (by rwa [frame_length])

theorem saveFrame_engine (s : State) (m b : Nat) (t : Task) (n : Nat) : (s.saveFrame m b t).engine n = s.engine n :=
  memWrites_engine ..

/-! ### Saving and restoring a task (R269, R275) -/

theorem memRead_memPeek (s : State) (k : MemSel) (a src : Nat) (j : MemSel) (x : Nat) : (s.memRead k a src).2.memPeek j x = s.memPeek j x := by
  unfold memRead
  dsimp only
  split
  · rw [countUnc_eq]; rfl
  · split
    · rfl
    · rw [report_eq, countCorr_eq]; rfl
    · rw [countUnc_eq]
      show ((s.setCell k a { s.cell k a with poison := true }).cell j x).word = (s.cell j x).word
      rw [cell_setCell]
      split
      next h => obtain ⟨rfl, rfl⟩ := h; rfl
      next => rfl

theorem loadFrame_memPeek (s : State) (m b : Nat) (k : MemSel) (a : Nat) : (s.loadFrame m b).2.memPeek k a = s.memPeek k a := by
  unfold loadFrame
  dsimp only
  generalize List.range 64 = l
  exact List.foldlRecOn (motive := fun acc : (List Word × Bool) × State => acc.2.memPeek k a = s.memPeek k a) l _ rfl
    fun _ h _ _ => (memRead_memPeek ..).trans h

theorem markFault_memPeek (s : State) (n b code pc prog : Nat) (k : MemSel) (a : Nat) :
    (s.markFault n b code pc prog).memPeek k a = s.memPeek k a := by
  rw [markFault_eq, report_eq]
  rfl

/-- Suspending a berth by its frame leaves the words of the other frames. -/
theorem suspendFrame_memPeek (s : State) (n : Nat) {u b j : Nat} (hub : u ≠ b) (hj : j < 64) :
    (s.suspendFrame n u).memPeek .dmem (16384 * n + frameBase b + j) = s.memPeek .dmem (16384 * n + frameBase b + j) := by
  have hne : ¬ (MemSel.dmem = MemSel.dmem ∧ 16384 * n + frameBase b + j = 16384 * n + frameBase u + 50) := by
    simp only [frameBase, true_and]
    omega
  rw [memPeek, suspendFrame, cell_memWrite, if_neg hne]
  rfl

theorem Switches.restore (n : Nat) (s : State) (b c : Nat) : Switches n s (s.restore n b c).2 := by
  refine (Switches.loadFrame n s n b).trans ?_
  unfold State.restore
  dsimp only
  generalize s.loadFrame n b = r
  split
  · exact (Switches.suspendFrame n _ n b).trans (Switches.markFault n _ b 5 _ _)
  · exact Switches.setEngine _ ⟨fun _ h => h, fun _ => rfl, rfl, rfl, rfl, rfl, rfl⟩

theorem restore_memPeek (s : State) (n : Nat) {u b j : Nat} (c : Nat) (hub : u ≠ b) (hj : j < 64) :
    (s.restore n u c).2.memPeek .dmem (16384 * n + frameBase b + j) = s.memPeek .dmem (16384 * n + frameBase b + j) := by
  refine Eq.trans ?_ (loadFrame_memPeek s n u .dmem (16384 * n + frameBase b + j))
  unfold restore
  dsimp only
  generalize s.loadFrame n u = r
  split
  · rw [markFault_memPeek, suspendFrame_memPeek _ _ hub hj]
  · rfl

/-- The berth a switch chooses is not suspended (R271). -/
theorem nextUrgent_not_suspended {s : State} {n c u : Nat} (h : s.nextUrgent n c = some u) : (s.engine n).suspended.getLsbD u = false := by
  unfold nextUrgent at h
  dsimp only at h
  split at h
  · split at h
    next hcan => cases h; simp only [Bool.and_eq_true, Bool.not_eq_true'] at hcan; exact hcan.1.1.2
    next => have hcan := List.find?_some h; simp only [Bool.and_eq_true, Bool.not_eq_true'] at hcan; exact hcan.1.1.2
  · have hcan := List.find?_some h; simp only [Bool.and_eq_true, Bool.not_eq_true'] at hcan; exact hcan.1.1.2

theorem timedAt_not_suspended {s : State} {n c u : Nat} (h : s.timedAt n c = some u) : (s.engine n).suspended.getLsbD u = false := by
  unfold timedAt at h
  dsimp only at h
  obtain ⟨x, hx, rfl⟩ := Option.map_eq_some_iff.mp h
  have hcan := List.find?_some hx
  simp only [Bool.and_eq_true, Bool.not_eq_true'] at hcan
  exact hcan.1.1.2

/-- What every restore keeps and the idle engine too, a switch keeps. -/
theorem switchIn_keeps {p : State → Prop} {n c : Nat} (hidle : ∀ s, p s → p (s.setEngine n { s.engine n with running := none, st := .idle }))
    (hrestore : ∀ s u, p s → (s.engine n).suspended.getLsbD u = false → p (s.restore n u c).2) (k : Nat) {s : State} (h : p s) :
    p (s.switchIn n c k) := by
  induction k generalizing s with
  | zero => exact h
  | succ k ih =>
    have hnext : ∀ u, (s.engine n).suspended.getLsbD u = false →
        p (if (s.restore n u c).1 then (s.restore n u c).2 else (s.restore n u c).2.switchIn n c k) := fun u hu => by
      split
      · exact hrestore s u h hu
      · exact ih (hrestore s u h hu)
    rw [switchIn]
    split
    next u hu => exact hnext u (nextUrgent_not_suspended hu)
    next =>
      split
      next u hu => exact hnext u (timedAt_not_suspended hu)
      next => exact hidle s h

theorem Switches.switchIn (n : Nat) (s : State) (c k : Nat) : Switches n s (s.switchIn n c k) :=
  switchIn_keeps (p := Switches n s) (fun t h => h.trans (.setEngine t ⟨fun _ h => h, fun h => h, rfl, rfl, rfl, rfl, rfl⟩))
    (fun t u h _ => h.trans (.restore n t u c)) k (.refl n s)

/-- The frame of a suspended berth keeps its words through a switch. -/
theorem switchIn_memPeek {s : State} {n b j : Nat} (c k : Nat) (hb : (s.engine n).suspended.getLsbD b = true) (hj : j < 64) :
    (s.switchIn n c k).memPeek .dmem (16384 * n + frameBase b + j) = s.memPeek .dmem (16384 * n + frameBase b + j) := by
  refine (switchIn_keeps (p := fun t => (t.engine n).suspended.getLsbD b = true ∧
      t.memPeek .dmem (16384 * n + frameBase b + j) = s.memPeek .dmem (16384 * n + frameBase b + j))
    (fun t h => ⟨(Switches.setEngine t ?_).own.suspended b h.1, h.2⟩)
    (fun t u h hu => ⟨(Switches.restore n t u c).own.suspended b h.1, (restore_memPeek t n c ?_ hj).trans h.2⟩) k ⟨hb, rfl⟩).2
  · exact ⟨fun _ h => h, fun h => h, rfl, rfl, rfl, rfl, rfl⟩
  · rintro rfl
    rw [h.1] at hu
    exact Bool.noConfusion hu

/-- The live task is put into the frame of berth `b`, and nothing runs. -/
def putAway (s : State) (n : Nat) (b : BerthId) : State :=
  (s.saveFrame n b.toNat (s.engine n).live).setEngine n ((s.engine n).put b)

theorem putAway_mem (s : State) (n : Nat) (b : BerthId) : (s.putAway n b).mem = (s.saveFrame n b.toNat (s.engine n).live).mem := by
  rw [putAway, setEngine_mem]

/-- The frame holds the task that ran. -/
theorem putAway_memPeek (s : State) (n : Nat) (b : BerthId) {j : Nat} (hj : j < 64) :
    (s.putAway n b).memPeek .dmem (16384 * n + frameBase b.toNat + j) = ((s.engine n).live.frame b.toNat)[j]?.getD 0 := by
  rw [← saveFrame_memPeek s n b.toNat (s.engine n).live hj, memPeek, memPeek, cell, cell, putAway_mem]

/-- A save changes no cell outside its frame. -/
theorem putAway_cell_ne (s : State) (n : Nat) (b : BerthId) {k : MemSel} {a : Nat}
    (h : ¬ (k = .dmem ∧ 16384 * n + frameBase b.toNat ≤ a ∧ a < 16384 * n + frameBase b.toNat + 64)) :
    (s.putAway n b).cell k a = s.cell k a := by
  rw [← saveFrame_cell_ne s n b.toNat (s.engine n).live h, cell, cell, putAway_mem]

theorem putAway_engine (s : State) (n : Nat) (b : BerthId) : (s.putAway n b).engine n = (s.engine n).put b := setEngine_engine_same ..

theorem Switches.putAway (n : Nat) (s : State) (b : BerthId) : Switches n s (s.putAway n b) := by
  refine (Switches.saveFrame n s n b.toNat (s.engine n).live).trans (Switches.setEngine _ ?_)
  rw [saveFrame_engine]
  exact ⟨fun _ h => h, fun _ => rfl, rfl, rfl, rfl, rfl, rfl⟩

theorem saveRunning_of_none {s : State} {n : Nat} (h : (s.engine n).running = none) : s.saveRunning n = s := by
  simp only [saveRunning, h]

theorem saveRunning_of_clean {s : State} {n : Nat} {b : BerthId} (h : (s.engine n).running = some b) (hclean : (s.engine n).poisoned = none) :
    s.saveRunning n = s.putAway n b := by
  unfold saveRunning
  dsimp only
  rw [h]
  dsimp only
  rw [hclean]
  dsimp only
  rw [saveFrame_engine]
  rfl

/-- A fault that poisoned data left pending is taken before the save (R237, R247). -/
theorem saveRunning_of_poisoned {s : State} {n pc : Nat} {b : BerthId} (h : (s.engine n).running = some b)
    (hpoison : (s.engine n).poisoned = some pc) : s.saveRunning n = (s.runFault n b.toNat 5 pc).putAway n b := by
  unfold saveRunning
  dsimp only
  rw [h]
  dsimp only
  rw [hpoison]
  dsimp only
  rw [saveFrame_engine]
  rfl

theorem Switches.saveRunning (n : Nat) (s : State) : Switches n s (s.saveRunning n) := by
  cases hrun : (s.engine n).running with
  | none => rw [saveRunning_of_none hrun]; exact .refl n s
  | some b =>
    cases hpoison : (s.engine n).poisoned with
    | none => rw [saveRunning_of_clean hrun hpoison]; exact .putAway n s b
    | some pc => rw [saveRunning_of_poisoned hrun hpoison]; exact (Switches.runFault n s b.toNat 5 pc).trans (.putAway n _ b)

end State
end Sys2Proof.Machine
end

section
/-! The fault of a running task: what it leaves once its context is saved and the engine has gone on (R225, R269, R271, R273). -/

namespace Sys2Proof.Machine.State

section
variable {s : State} {n : Nat} {b : BerthId}

theorem endRun_of_timed (hrun : (s.engine n).running = some b) (htimed : s.urgentBerth n b.toNat = false) :
    s.endRun n = (s.saveRunning n).setEngine n { (s.saveRunning n).engine n with
      st := .idle, ended := ((s.saveRunning n).engine n).ended ||| (1#16 <<< b.toNat) } := by
  unfold endRun
  dsimp only
  rw [hrun]
  dsimp only
  rw [htimed]
  rfl

theorem endRun_of_urgent (hrun : (s.engine n).running = some b) (hurgent : s.urgentBerth n b.toNat = true) :
    s.endRun n = (let t := (s.saveRunning n).setEngine n { (s.saveRunning n).engine n with st := .idle }
      t.switchIn n (t.engCyc n + 1) 17) := by
  unfold endRun
  dsimp only
  rw [hrun]
  dsimp only
  rw [hurgent]
  rfl

/-- What is kept by the engine's going on is kept by the end of a run from its save on. -/
theorem endRun_keeps {p : State → Prop} (hrun : (s.engine n).running = some b) (hsave : p (s.saveRunning n))
    (hst : ∀ t x, p t → (t.engine n).Follows x → p (t.setEngine n x)) (hswitch : ∀ t c, p t → p (t.switchIn n c 17)) :
    p (s.endRun n) := by
  cases hurgent : s.urgentBerth n b.toNat
  · rw [endRun_of_timed hrun hurgent]
    exact hst _ _ hsave ⟨fun _ h => h, fun h => h, rfl, rfl, rfl, rfl, rfl⟩
  · rw [endRun_of_urgent hrun hurgent]
    exact hswitch _ _ (hst _ _ hsave ⟨fun _ h => h, fun h => h, rfl, rfl, rfl, rfl, rfl⟩)

theorem runFault_suspended (s : State) (n : Nat) (b : BerthId) (code pc : Nat) :
    ((s.runFault n b.toNat code pc).engine n).suspended.getLsbD b.toNat = true := by
  have hb := b.isLt
  rw [runFault_engine, Engine.faulted_eq, BitVec.getLsbD_or]
  simp [hb]

variable (hrun : (s.engine n).running = some b) (code pc : Nat)
include hrun

/-- The context of the fault is saved, its task suspended. -/
theorem runFault_saveRunning : (s.runFault n b.toNat code pc).saveRunning n = (s.runFault n b.toNat code pc).putAway n b := by
  refine saveRunning_of_clean ?_ ?_
  · rw [runFault_engine, Engine.faulted_eq]; exact hrun
  · rw [runFault_engine, Engine.faulted_eq]

theorem taskFault_eq :
    s.taskFault n code pc = (if (s.engine n).st = .running then (s.runFault n b.toNat code pc).endRun n
      else (s.runFault n b.toNat code pc).putAway n b) := by
  unfold taskFault
  dsimp only
  rw [hrun]
  dsimp only
  rw [runFault_saveRunning hrun, runFault_engine, Engine.faulted_eq]

theorem runFault_running : ((s.runFault n b.toNat code pc).engine n).running = some b := by
  rw [runFault_engine, Engine.faulted_eq]
  exact hrun

/-- What is kept by the engine's going on is kept by the whole fault from its save on. -/
theorem taskFault_keeps {p : State → Prop} (hsave : p ((s.runFault n b.toNat code pc).putAway n b))
    (hst : ∀ t x, p t → (t.engine n).Follows x → p (t.setEngine n x)) (hswitch : ∀ t c, p t → p (t.switchIn n c 17)) :
    p (s.taskFault n code pc) := by
  rw [taskFault_eq hrun]
  split
  · exact endRun_keeps (runFault_running hrun code pc) (by rw [runFault_saveRunning hrun]; exact hsave) hst hswitch
  · exact hsave

theorem Switches.taskFault_saved : Switches n ((s.runFault n b.toNat code pc).putAway n b) (s.taskFault n code pc) :=
  taskFault_keeps hrun code pc (.refl _ _) (fun _ _ h hx => h.trans (.setEngine _ hx)) (fun _ _ h => h.trans (.switchIn _ _ _ _))

theorem Switches.taskFault_marked : Switches n (s.runFault n b.toNat code pc) (s.taskFault n code pc) :=
  (Switches.putAway n _ b).trans (.taskFault_saved hrun code pc)

theorem taskFault_walk : ((s.taskFault n code pc).engine n).walk = none :=
  (Switches.taskFault_saved hrun code pc).own.walk (by rw [putAway_engine]; rfl)

theorem taskFault_suspended : ((s.taskFault n code pc).engine n).suspended.getLsbD b.toNat = true :=
  (Switches.taskFault_marked hrun code pc).own.suspended _ (runFault_suspended s n b code pc)

theorem taskFault_others {m : Nat} (hm : m ≠ n) : (s.taskFault n code pc).engine m = s.engine m :=
  ((Switches.runFault n s b.toNat code pc).trans (.taskFault_marked hrun code pc)).others m hm

/-- The message of the fault, with hint C3 from the handler (R225). -/
theorem taskFault_sent (hcode : code ≠ 8) (hroom : s.intakeRoom 1 = true) :
    s.sentNow (s.taskFault n code pc) (srcEng n) code (if s.handlerOf n = some b.toNat then 3 else 2)
      (engCtx n b.toNat pc (s.engine n).live.prog.toNat) := by
  have hsent := runFault_sent (b := b.toNat) (code := code) (n := n) pc hroom
  have hhint : engHint code (s.handlerOf n == some b.toNat) = if s.handlerOf n = some b.toNat then 3 else 2 := by
    rw [engHint, if_neg hcode]
    by_cases h : s.handlerOf n = some b.toNat
    · simp [h, bit]
    · simp [h, bit]
  rw [hhint] at hsent
  exact (Switches.taskFault_marked hrun code pc).sentNow (by split <;> decide) hsent

/-- The frame holds the suspended task (R273). -/
theorem taskFault_memPeek {j : Nat} (hj : j < 64) :
    (s.taskFault n code pc).memPeek .dmem (16384 * n + frameBase b.toNat + j) =
      (({ (s.engine n).live with suspended := true } : Task).frame b.toNat)[j]?.getD 0 := by
  refine (taskFault_keeps hrun code pc
    (p := fun t => (t.engine n).suspended.getLsbD b.toNat = true ∧ t.memPeek .dmem (16384 * n + frameBase b.toNat + j) =
      (({ (s.engine n).live with suspended := true } : Task).frame b.toNat)[j]?.getD 0)
    ⟨(Switches.putAway n _ b).own.suspended _ (runFault_suspended s n b code pc), ?_⟩
    (fun t x h hx => ⟨(Switches.setEngine t hx).own.suspended _ h.1, h.2⟩)
    (fun t c h => ⟨(Switches.switchIn n t c 17).own.suspended _ h.1, (switchIn_memPeek c 17 h.1 hj).trans h.2⟩)).2
  rw [putAway_memPeek _ _ _ hj, runFault_engine, Engine.faulted_eq]

/-- The fault of a timed task leaves its engine idle. -/
theorem taskFault_of_timed (hst : (s.engine n).st = .running) (htimed : s.urgentBerth n b.toNat = false) :
    let x := ((s.engine n).faulted (s.handlerOf n) b.toNat code (s.engCyc n)).put b
    s.taskFault n code pc = ((s.runFault n b.toNat code pc).putAway n b).setEngine n { x with
      st := .idle, ended := (s.engine n).ended ||| (1#16 <<< b.toNat) } := by
  intro x
  have htimed' : (s.runFault n b.toNat code pc).urgentBerth n b.toNat = false := by
    rw [(Switches.runFault n s b.toNat code pc).urgentBerth]
    exact htimed
  rw [taskFault_eq hrun, if_pos hst, endRun_of_timed (runFault_running hrun code pc) htimed', runFault_saveRunning hrun,
    putAway_engine, runFault_engine]
  have hended : (((s.engine n).faulted (s.handlerOf n) b.toNat code (s.engCyc n)).put b).ended = (s.engine n).ended := by
    rw [Engine.faulted_eq]
    rfl
  rw [hended]

end

end Sys2Proof.Machine.State
end

section
/-! Where an engine address leads, the data of loads, and the walks of the translation buffer (R211, R213, R237, R248 to R252). -/

namespace Sys2Proof.Machine

/-- An entry that may not be used gives ENG_XLATE or ENG_PERM (R251). -/
theorem applyEntry_fault {w : Word} {off : Nat} {acc : Access} {c : Nat} (h : applyEntry w off acc = .fault c) : c = 3 ∨ c = 4 := by
  unfold applyEntry at h
  dsimp only at h
  split_ifs at h <;> cases h <;> simp

/-- An empty table word is not valid. -/
theorem applyEntry_zero (off : Nat) (acc : Access) : applyEntry 0 off acc = .fault 3 := by
  unfold applyEntry
  exact if_pos (by decide)

/-- A page that missed hits the entry its walk has filled in (R252). -/
theorem Engine.tlbFind_fillTlb (en : Engine) (v : Nat) (w : Word) (h : en.tlbFind en.live.table v = none) :
    (en.fillTlb v w).tlbFind en.live.table v = some ⟨en.fill, en.live.table, v, w⟩ := by
  have hnone : (en.tlb.filter (fun x => x.slot != en.fill)).find? (fun x => x.table == en.live.table && x.vpage == v) = none :=
    List.find?_eq_none.mpr fun x hx => List.find?_eq_none.mp h x (List.mem_filter.mp hx).1
  unfold Engine.tlbFind Engine.fillTlb
  rw [List.find?_append, hnone]
  simp

namespace State

/-! ### The data of a load (R213, R237) -/

theorem setEngine_twice_ne (s : State) {n m : Nat} (x y : Engine) (h : m ≠ n) :
    ((s.setEngine n x).setEngine n y).engine m = s.engine m := by
  rw [setEngine_engine_ne _ _ h, setEngine_engine_ne _ _ h]

section
variable {s : State} {e : EngId} {b : BerthId} {r : BitVec 5} {l : PendLoad}
  (hfind : (s.engine e.toNat).loads.find? (fun x => x.berth == b && x.reg == r) = some l) (hreg : l.regIn = none)
include hfind hreg

/-- The load is off the list; the rest of the engine is `rest`. -/
theorem loadDataReturn_running (hrun : (s.engine e.toNat).running = some b) :
    let rest := { s.engine e.toNat with loads := (s.engine e.toNat).loads.erase l }
    exec (.loadDataReturn e b r) s = .next ((s.setEngine e.toNat rest).setEngine e.toNat (
      if l.poison then { rest with poisoned := some ((s.engine e.toNat).poisoned.getD l.pc) }
      else { rest with live := (s.engine e.toNat).live.setW r.toNat l.word })) := by
  have hexec : exec (.loadDataReturn e b r) s = .next (s.loadReturn e.toNat b r) := rfl
  rw [hexec, loadReturn, hfind]
  dsimp only
  rw [hreg]
  dsimp only
  rw [modTask, setEngine_engine_same, hrun]
  cases l.poison
  · simp
  · cases (s.engine e.toNat).poisoned <;> simp

/-- The data of a task that does not run reaches the frame of its berth. -/
theorem loadDataReturn_saved (hrun : (s.engine e.toNat).running ≠ some b) (hpoison : l.poison = false) (hr : r ≠ 0) :
    exec (.loadDataReturn e b r) s = .next (
      (s.setEngine e.toNat { s.engine e.toNat with loads := (s.engine e.toNat).loads.erase l }).memWrite .dmem
        (16384 * e.toNat + frameBase b.toNat + r.toNat) l.word) := by
  have hexec : exec (.loadDataReturn e b r) s = .next (s.loadReturn e.toNat b r) := rfl
  rw [hexec, loadReturn, hfind]
  dsimp only
  rw [hreg]
  dsimp only
  rw [setEngine_engine_same, hpoison]
  simp only [beq_eq_false_iff_ne.mpr hrun, Bool.false_eq_true, if_false, if_neg hr]

end

/-! ### Walks (R250 to R252) -/

/-- The state in which a walk that has read its word decides. -/
def walked (s : State) (n v : Nat) : State := (s.readTable n v).2.setEngine n { (s.readTable n v).2.engine n with walk := none }

/-- What a walk that may not be used leaves. -/
def walkBad (s : State) (n : Nat) (k : WalkWait) (code : Nat) : State :=
  if k.block then (s.walked n k.vpage).setEngine n { (s.walked n k.vpage).engine n with
    blkFailed := ((s.walked n k.vpage).engine n).blkFailed ++ [(k.vpage, BitVec.ofNat 8 code)] }
  else (s.walked n k.vpage).taskFault n code ((s.walked n k.vpage).engine n).live.pc

section
variable {s : State} {e : EngId} {b : BerthId} {k : WalkWait} (hwalk : (s.engine e.toNat).walk = some k)
  (hrun : (s.engine e.toNat).running = some b)
include hwalk hrun

theorem tlbWalk_poisoned (h : (s.readTable e.toNat k.vpage).1.poison = true) :
    exec (.tlbWalk e) s = .next (s.walkBad e.toNat k 5) := by
  have hexec : exec (.tlbWalk e) s = .next (s.walkFx e.toNat) := rfl
  rw [hexec, walkFx, hwalk, hrun]
  dsimp only
  rw [if_pos h]
  rfl

theorem tlbWalk_faults {c : Nat} (hclean : (s.readTable e.toNat k.vpage).1.poison = false)
    (h : applyEntry (s.readTable e.toNat k.vpage).1.word 0 ⟨k.store, k.block⟩ = .fault c) :
    exec (.tlbWalk e) s = .next (s.walkBad e.toNat k c) := by
  have hexec : exec (.tlbWalk e) s = .next (s.walkFx e.toNat) := rfl
  rw [hexec, walkFx, hwalk, hrun]
  dsimp only
  rw [if_neg (by rw [hclean]; exact Bool.false_ne_true), h]
  rfl

theorem tlbWalk_fills (hclean : (s.readTable e.toNat k.vpage).1.poison = false)
    (h : ∀ c, applyEntry (s.readTable e.toNat k.vpage).1.word 0 ⟨k.store, k.block⟩ ≠ .fault c) :
    exec (.tlbWalk e) s = .next ((s.walked e.toNat k.vpage).setEngine e.toNat
      (((s.walked e.toNat k.vpage).engine e.toNat).fillTlb k.vpage (s.readTable e.toNat k.vpage).1.word)) := by
  have hexec : exec (.tlbWalk e) s = .next (s.walkFx e.toNat) := rfl
  rw [hexec, walkFx, hwalk, hrun]
  dsimp only
  rw [if_neg (by rw [hclean]; exact Bool.false_ne_true)]
  cases hentry : applyEntry (s.readTable e.toNat k.vpage).1.word 0 ⟨k.store, k.block⟩ with
  | fault c => exact absurd hentry (h c)
  | data a => rfl
  | quay a => rfl
  | hold a => rfl
  | miss v => rfl

end

theorem Switches.readTable (n : Nat) (s : State) (v : Nat) : Switches n s (s.readTable n v).2 := by
  unfold State.readTable
  dsimp only
  split
  · exact Switches.memRead n s (by decide) _ _
  · exact .refl n s

theorem readTable_engine (s : State) (n v m : Nat) : (s.readTable n v).2.engine m = s.engine m := by
  unfold readTable
  dsimp only
  split
  · rw [memRead_eq]; rfl
  · rfl

theorem walked_engine (s : State) (n v : Nat) : (s.walked n v).engine n = { s.engine n with walk := none } := by
  rw [walked, setEngine_engine_same, readTable_engine]

theorem walked_engine_ne (s : State) {n m : Nat} (v : Nat) (h : m ≠ n) : (s.walked n v).engine m = s.engine m := by
  rw [walked, setEngine_engine_ne _ _ h, readTable_engine]

theorem Switches.walked (n : Nat) (s : State) (v : Nat) : Switches n s (s.walked n v) :=
  (Switches.readTable n s v).trans (.setEngine _ ⟨fun _ h => h, fun _ => rfl, rfl, rfl, rfl, rfl, rfl⟩)

/-- A clean table word leaves the memories, and counts in its quay alone (R255). -/
theorem walked_clean {s : State} {n v : Nat} (ha : (s.engine n).live.table.toNat * 1024 + v < 262144)
    (hclean : (s.readTable n v).1.poison = false) : s.regsKept (s.walked n v) (countRegs n) ∧ (s.walked n v).mem = s.mem := by
  have hread : s.readTable n v = s.memRead .quay (262144 * (n / 16) + ((s.engine n).live.table.toNat * 1024 + v)) (srcQuay (n / 16)) := if_pos ha
  rw [hread] at hclean
  refine ⟨fun x hx => ?_, ?_⟩
  · simp only [countRegs, List.mem_cons, List.not_mem_nil, or_false, not_or] at hx
    obtain ⟨hquay, hhold, hdrop⟩ := hx
    refine Eq.trans ?_ (memRead_clean_reg s .quay _ _ hclean hdrop (fun q hq => ?_) (fun _ => hhold))
    · rw [walked, hread]
      rfl
    · have hq' : q = n / 16 := by
        simp only [memCounts, Option.some.injEq] at hq
        omega
      rwa [hq']
  · rw [walked, setEngine_mem, hread, memRead_clean _ _ _ _ hclean]

/-- A read sends one message at most. -/
theorem Sends.memRead (s : State) (k : MemSel) (a src : Nat) : Sends 1 s (s.memRead k a src).2 := by
  unfold State.memRead
  dsimp only
  split
  · exact (Sends.of_fc (by rw [countUnc_eq])).mono (Nat.zero_le 1)
  · split
    · exact (Sends.of_fc rfl).mono (Nat.zero_le 1)
    · have hcount : (s.countCorr k a).fc = s.fc := by rw [countCorr_eq]
      have hsent := (Sends.of_fc hcount).trans (Sends.report (s.countCorr k a) src kMemCorr 1 (BitVec.ofNat 40 (wordAddr k a)))
      exact ⟨hsent.room, hsent.kept⟩
    · exact (Sends.of_fc (by rw [countUnc_eq]; rfl)).mono (Nat.zero_le 1)

theorem Sends.walked (n : Nat) (s : State) (v : Nat) : Sends 1 s (s.walked n v) := by
  have hread : Sends 1 s (s.readTable n v).2 := by
    unfold State.readTable
    dsimp only
    split
    · exact Sends.memRead ..
    · exact (Sends.of_fc rfl).mono (Nat.zero_le 1)
  exact ⟨hread.room, hread.kept⟩

section
variable {s : State} {n : Nat} {b : BerthId} {k : WalkWait} (hrun : (s.engine n).running = some b) {code : Nat}
include hrun

/-- The waiting task is suspended at its instruction. -/
theorem walkBad_suspends (hblock : k.block = false) (hroom : s.intakeRoom 2 = true) (hcode : code ≠ 8) :
    ((s.walkBad n k code).engine n).walk = none ∧ ((s.walkBad n k code).engine n).suspended.getLsbD b.toNat = true ∧
      s.sentNow (s.walkBad n k code) (srcEng n) code (if s.handlerOf n = some b.toNat then 3 else 2)
        (engCtx n b.toNat (s.engine n).live.pc (s.engine n).live.prog.toNat) := by
  have hw := Switches.walked n s k.vpage
  have hrun' : ((s.walked n k.vpage).engine n).running = some b := by rw [walked_engine]; exact hrun
  have hsent := taskFault_sent hrun' code (s.engine n).live.pc hcode ((Sends.walked n s k.vpage).room 1 hroom)
  rw [hw.handlerOf, walked_engine] at hsent
  rw [walkBad, if_neg (by rw [hblock]; exact Bool.false_ne_true), walked_engine]
  exact ⟨taskFault_walk hrun' code _, taskFault_suspended hrun' code _, sentNow_of_terms hw.terms hsent⟩

end

/-- For a block instruction the page is held as failed. -/
theorem walkBad_holds {s : State} {n : Nat} {k : WalkWait} {code : Nat} (hblock : k.block = true) :
    s.otherEngines (s.walkBad n k code) n ∧ (s.walkBad n k code).engine n = { s.engine n with
      walk := none, blkFailed := (s.engine n).blkFailed ++ [(k.vpage, BitVec.ofNat 8 code)] } := by
  rw [walkBad, if_pos hblock, walked_engine]
  exact ⟨fun m hm => (setEngine_engine_ne _ _ hm).trans (walked_engine_ne s _ hm), setEngine_engine_same ..⟩

end State
end Sys2Proof.Machine
end

section
/-! The obligation on addresses, load data and walks (R211, R213, R237, R248 to R252). -/

namespace Sys2Proof.Machine

open State

/-- Where an engine address leads (R211, R248). -/
theorem Engine.target_cases (en : Engine) (a : Nat) (acc : Access) :
    (a < 0x4000 → en.target a acc = .data a) ∧ (0x100000 ≤ a → en.target a acc = .fault 3) ∧
      (0x4000 ≤ a → a < 0x100000 →
        (∀ x, en.tlbFind en.live.table (a / 1024) = some x → en.target a acc = applyEntry x.entry (a % 1024) acc) ∧
        (en.tlbFind en.live.table (a / 1024) = none → en.target a acc = .miss (a / 1024))) := by
  unfold target
  refine ⟨fun h => if_pos h, fun h => ?_, fun hlo hhi => ⟨fun x hx => ?_, fun hx => ?_⟩⟩
  · rw [if_neg (by omega), if_pos h]
  · rw [if_neg (by omega), if_neg (by omega), hx]
  · rw [if_neg (by omega), if_neg (by omega), hx]

/-- Settles O12: the address alone decides its range, where the task of a load is decides where its data goes, and what a walk reads decides whether its page is filled in or fails. -/
theorem addressesAndWalks : Obligations.AddressesAndWalks := by
  unfold Obligations.AddressesAndWalks
  refine ⟨Engine.target_cases, fun s e b r l => ?_, fun s e b k w => ?_⟩
  · intro n en hfind hreg rest
    refine ⟨fun hrun hpoison => ?_, fun hrun hpoison => ?_, fun hrun hpoison hr => ?_⟩
    · have hexec := loadDataReturn_running hfind hreg hrun
      rw [hpoison] at hexec
      exact ⟨_, hexec, setEngine_engine_same .., fun m hm => setEngine_twice_ne s _ _ hm, rfl⟩
    · have hexec := loadDataReturn_running hfind hreg hrun
      rw [hpoison] at hexec
      exact ⟨_, hexec, setEngine_engine_same .., fun m hm => setEngine_twice_ne s _ _ hm, rfl⟩
    · have haddr : 16384 * n + 15360 + 64 * b.toNat + r.toNat = 16384 * n + frameBase b.toNat + r.toNat := by simp only [frameBase]; omega
      refine ⟨_, loadDataReturn_saved hfind hreg hrun hpoison hr, ?_, fun j x hjx => ?_, ?_, fun m hm => ?_⟩
      · rw [haddr, cell_memWrite, if_pos ⟨rfl, rfl⟩]
      · rw [haddr] at hjx
        rw [cell_memWrite, if_neg hjx]
        rfl
      · rw [memWrite_eq]
        exact setEngine_engine_same ..
      · rw [memWrite_eq]
        exact setEngine_engine_ne _ _ hm
  · intro n en a word bad hwalk hrun
    have hbad : ∀ c, c ≠ 8 → exec (.tlbWalk e) s = .next (s.walkBad n k c) → bad c := fun c hc hexec =>
      ⟨fun hblock hroom => ⟨_, hexec, walkBad_suspends hrun hblock hroom hc⟩, fun hblock => ⟨_, hexec, walkBad_holds hblock⟩⟩
    have hread : a < 262144 → (s.readTable n k.vpage) = s.memRead .quay (262144 * (n / 16) + a) (srcQuay (n / 16)) := fun ha => if_pos ha
    refine ⟨fun ha hword huse hmiss => ?_, fun c ha hword hfault => ?_, fun ha hpoison => ?_, fun ha => ?_⟩
    · have hw : (s.readTable n k.vpage).1 = ⟨w, false⟩ := by rw [hread ha]; exact hword
      refine ⟨_, tlbWalk_fills hwalk hrun (by rw [hw]) (by rw [hw]; exact huse), ?_⟩
      have hmem : s.regsKept (s.walked n k.vpage) (countRegs n) ∧ (s.walked n k.vpage).mem = s.mem := walked_clean ha (by rw [hw])
      rw [hw, walked_engine, setEngine_engine_same, setEngine_mem]
      exact ⟨rfl, rfl, Engine.tlbFind_fillTlb _ _ _ hmiss, rfl,
        fun m hm => (setEngine_engine_ne _ _ hm).trans (walked_engine_ne s _ hm), hmem.2, hmem.1⟩
    · refine hbad c ?_ (tlbWalk_faults hwalk hrun ?_ ?_)
      · have := applyEntry_fault hfault
        omega
      · rw [hread ha]; exact congrArg (·.poison) hword
      · rw [hread ha]; exact (congrArg (fun x : ReadWord => applyEntry x.word 0 ⟨k.store, k.block⟩) hword).trans hfault
    · exact hbad 5 (by decide) (tlbWalk_poisoned hwalk hrun (by rw [hread ha]; exact hpoison))
    · have hout : s.readTable n k.vpage = (⟨0, false⟩, s) := if_neg (Nat.not_lt.mpr ha)
      refine hbad 3 (by decide) (tlbWalk_faults hwalk hrun (by rw [hout]) ?_)
      rw [hout]
      exact applyEntry_zero _ _

end Sys2Proof.Machine
end

section
/-! Where the faults of an issue are taken, and what each leaves (R211, R225, R230, R237, R238, R251, R255, R273). -/

namespace Sys2Proof.Machine

/-- The address of a load or a store faults with ENG_XLATE or ENG_PERM (R251). -/
theorem Engine.target_fault {en : Engine} {a c : Nat} {acc : Access} (h : en.target a acc = .fault c) : c = 3 ∨ c = 4 := by
  unfold Engine.target at h
  split_ifs at h with hdata hout
  · cases h
    exact .inl rfl
  · split at h
    · exact applyEntry_fault h
    · cases h

namespace State

theorem setEngine_cell (s : State) (n : Nat) (x : Engine) (k : MemSel) (a : Nat) : (s.setEngine n x).cell k a = s.cell k a := rfl

theorem runFault_cell (s : State) (n b code pc : Nat) (k : MemSel) (a : Nat) : (s.runFault n b code pc).cell k a = s.cell k a := by
  rw [cell, cell, runFault_mem]

/-- A read marks no cell of another memory. -/
theorem memRead_cell_ne (s : State) (a src : Nat) {k j : MemSel} (x : Nat) (hj : j ≠ k) : (s.memRead k a src).2.cell j x = s.cell j x := by
  unfold memRead
  dsimp only
  split
  · rw [countUnc_eq]; rfl
  · split
    · rfl
    · rw [report_eq, countCorr_eq]; rfl
    · rw [countUnc_eq]
      exact (cell_setCell s k j a x _).trans (if_neg fun h => hj h.1)

/-- Engine `n` runs berth `b` in `q` with the task it has in `s`, and no more than a fetch lies between them. -/
structure FaultsAt (s q : State) (n : Nat) (b : BerthId) : Prop where
  switches : Switches n s q
  room : q.intakeRoom 1 = true
  running : (q.engine n).running = some b
  st : (q.engine n).st = .running
  live : (q.engine n).live = (s.engine n).live
  suspended : (q.engine n).suspended = (s.engine n).suspended
  ended : (q.engine n).ended = (s.engine n).ended
  cell : ∀ k a, k ≠ .imem → q.cell k a = s.cell k a

namespace FaultsAt

variable {s : State} {n : Nat} {b : BerthId}

theorem refl (hrun : (s.engine n).running = some b) (hst : (s.engine n).st = .running) (hroom : s.intakeRoom 2 = true) :
    FaultsAt s s n b :=
  ⟨.refl n s, intakeRoom_mono hroom (by decide), hrun, hst, rfl, rfl, rfl, fun _ _ _ => rfl⟩

/-- The fetch of an issue. -/
theorem fetch (hrun : (s.engine n).running = some b) (hst : (s.engine n).st = .running) (hroom : s.intakeRoom 2 = true) (a src : Nat) :
    FaultsAt s (s.memRead .imem a src).2 n b := by
  have heng : (s.memRead .imem a src).2.engine n = s.engine n := by rw [memRead_eq]; rfl
  exact ⟨.memRead n s (by decide) a src, (Sends.memRead s .imem a src).room 1 hroom, by rw [heng]; exact hrun, by rw [heng]; exact hst,
    by rw [heng], by rw [heng], by rw [heng], fun k x hk => memRead_cell_ne s a src x hk⟩

/-- The state in which an instruction acts that its engine stands at. -/
theorem fetched {e : EngId} (hrun : (s.engine e.toNat).running = some b) (hst : (s.engine e.toNat).st = .running)
    (hroom : s.intakeRoom 2 = true) : FaultsAt s (s.fetched e.toNat b) e.toNat b := by
  have hf := fetch hrun hst hroom (8192 * e.toNat + (s.engine e.toNat).live.pc) (srcEng e.toNat)
  have hset := Switches.setEngine (s.memRead .imem (8192 * e.toNat + (s.engine e.toNat).live.pc) (srcEng e.toNat)).2 (n := e.toNat)
    (x := (s.fetched e.toNat b).engine e.toNat) (by rw [fetched_engine]; exact ⟨fun _ h => h, fun h => h, rfl, rfl, rfl, rfl, rfl⟩)
  rw [fetched_engine] at hset
  refine ⟨hf.switches.trans hset, hf.room, ?_, ?_, ?_, ?_, ?_, hf.cell⟩ <;> rw [fetched_engine]
  · exact hf.running
  · exact hf.st
  · exact hf.live
  · exact hf.suspended
  · exact hf.ended

variable {q : State} (hq : FaultsAt s q n b)
include hq

theorem memPeek {code pc j : Nat} (hj : j < 64) :
    (q.taskFault n code pc).memPeek .dmem (16384 * n + 15360 + 64 * b.toNat + j) =
      (({ (s.engine n).live with suspended := true } : Task).frame b.toNat)[j]?.getD 0 := by
  have haddr : 16384 * n + 15360 + 64 * b.toNat + j = 16384 * n + frameBase b.toNat + j := by simp only [frameBase]; omega
  rw [haddr, taskFault_memPeek hq.running code pc hj, hq.live]

/-- The fault of a timed task leaves its engine idle, and the handler ready (R269, R273). -/
theorem timed {code : Nat} (pc : Nat) (htimed : s.urgentBerth n b.toNat = false) (hother : s.handlerOf n ≠ some b.toNat) :
    let s' := q.taskFault n code pc
    s.otherEngines s' n ∧ (s'.engine n).running = none ∧ (s'.engine n).st = .idle ∧
      (s'.engine n).lastBerth = b ∧ (s'.engine n).lastFault = BitVec.ofNat 8 code ∧
      (s'.engine n).suspended = (s.engine n).suspended ||| (1#16 <<< b.toNat) ∧
      (∀ h, s.handlerOf n = some h → h < 16 → (s'.engine n).ready.getLsbD h = true) ∧
      (s'.engine n).ended = (s.engine n).ended ||| (1#16 <<< b.toNat) ∧
      ∀ k a, k ≠ .imem → ¬(k = .dmem ∧ 16384 * n + 15360 + 64 * b.toNat ≤ a ∧ a < 16384 * n + 15424 + 64 * b.toNat) →
        s'.cell k a = s.cell k a := by
  have hfault := taskFault_of_timed hq.running code pc hq.st (by rw [hq.switches.urgentBerth]; exact htimed)
  have hothers : s.otherEngines (q.taskFault n code pc) n := fun m hm =>
    (taskFault_others hq.running code pc hm).trans (hq.switches.others m hm)
  extract_lets x at hfault
  have hx := (q.engine n).faulted_eq (q.handlerOf n) b.toNat code (q.engCyc n)
  refine ⟨hothers, ?_⟩
  rw [hfault, setEngine_engine_same]
  refine ⟨rfl, rfl, rfl, ?_, ?_, fun h hh hlt => ?_, ?_, fun k a hk ha => ?_⟩
  · exact congrArg Engine.lastFault hx
  · exact (congrArg Engine.suspended hx).trans (by rw [hq.suspended])
  · have hready := (q.engine n).faulted_ready code (q.engCyc n) (fun heq => hother (by rw [hh, heq])) hlt
    rwa [← hh, ← hq.switches.handlerOf] at hready
  · rw [hq.ended]
  · rw [setEngine_cell, putAway_cell_ne, runFault_cell, hq.cell k a hk]
    rintro ⟨hmem, hlo, hhi⟩
    simp only [frameBase] at hlo hhi
    exact ha ⟨hmem, by omega, by omega⟩

/-- What a fault leaves behind (R225, R273). -/
theorem outcome {code : Nat} (pc : Nat) (hcode : code ≠ 8) :
    let s' := q.taskFault n code pc
    (s'.engine n).suspended.getLsbD b.toNat = true ∧
      s.sentNow s' (srcEng n) code (if s.handlerOf n = some b.toNat then 3 else 2)
        (engCtx n b.toNat pc (s.engine n).live.prog.toNat) ∧
      (∀ j, j < 64 → s'.memPeek .dmem (16384 * n + 15360 + 64 * b.toNat + j) =
        (({ (s.engine n).live with suspended := true } : Task).frame b.toNat)[j]?.getD 0) := by
  have hsent := taskFault_sent hq.running code pc hcode hq.room
  rw [hq.switches.handlerOf, hq.live] at hsent
  exact ⟨taskFault_suspended hq.running code pc, sentNow_of_terms hq.switches.terms hsent, fun _ hj => hq.memPeek hj⟩

end FaultsAt

/-! ### Faults before the instruction acts (R230, R237, R255) -/

section
variable {s : State} {n : Nat} {b : BerthId} {w : Word} {act : State → State} (hrun : (s.engine n).running = some b)
  (hst : (s.engine n).st = .running) (hblock : (s.engine n).block = none) (hwalk : (s.engine n).walk = none)
include hrun hst hblock hwalk

theorem issue_of_poisoned {pc : Nat} (hpoison : (s.engine n).poisoned = some pc) : s.issue n w act = s.taskFault n 5 pc := by
  simp [issue, hrun, hst, hblock, hwalk, hpoison]

variable (hclean : (s.engine n).poisoned = none)
include hclean

theorem issue_past_end (hpc : 8192 ≤ (s.engine n).live.pc) : s.issue n w act = s.taskFault n 2 (s.engine n).live.pc := by
  simp [issue, hrun, hst, hblock, hwalk, hclean, hpc]

variable (hpc : (s.engine n).live.pc < 8192)
include hpc

theorem issue_poisoned_word (hpoison : (s.memRead .imem (8192 * n + (s.engine n).live.pc) (srcEng n)).1.poison = true) :
    s.issue n w act = (s.memRead .imem (8192 * n + (s.engine n).live.pc) (srcEng n)).2.taskFault n 5 (s.engine n).live.pc := by
  simp [issue, hrun, hst, hblock, hwalk, hclean, hpoison, Nat.not_le.mpr hpc]

theorem issue_illegal_word (hword : (s.memRead .imem (8192 * n + (s.engine n).live.pc) (srcEng n)).1.poison = false)
    (hillegal : legalWord (s.memRead .imem (8192 * n + (s.engine n).live.pc) (srcEng n)).1.word = false) :
    s.issue n w act = (s.memRead .imem (8192 * n + (s.engine n).live.pc) (srcEng n)).2.taskFault n 1 (s.engine n).live.pc := by
  simp [issue, hrun, hst, hblock, hwalk, hclean, hword, hillegal, Nat.not_le.mpr hpc]

end

/-- Every engine instruction is an issue of its word. -/
theorem exec_eq_issue {i : Instr} {e : EngId} {w : Word} (s : State) (hi : encode i = some (e, w)) :
    ∃ act, exec i s = .next (s.issue e.toNat w act) := by
  unfold encode at hi
  split at hi <;> cases hi
  all_goals exact ⟨_, rfl⟩

/-! ### Faults of an instruction that acts -/

section
variable {s q : State} {e : EngId} {b : BerthId} (hq : Fetches s q e b)
include hq

theorem Fetches.rowsNow (a : Nat) : q.rowsNow a = s.rowsNow a := by
  have hreg : q.reg 263 = s.reg 263 := hq.regs 263 (by decide) (by simp only [F.quayMemCorrCnt]; omega)
  have hshadow : q.rdB F.clsSelShadow = s.rdB F.clsSelShadow := by simp only [rdB, rd, F.clsSelShadow, hreg]
  rw [State.rowsNow, State.rowsNow, hshadow]

/-- The refusals of a store that hang on the register alone stand after the fetch (R436). -/
theorem Fetches.writeAns {a : Nat} {w : Word} {x : Ans} (hx : x = .unmapped ∨ x = .noField ∨ x = .reservedBit) (h : s.writeAns a w = x) :
    q.writeAns a w = x := by
  have hboot : q.boot = s.boot := by rw [hq.frame]
  unfold State.writeAns at h ⊢
  rw [hq.rowsNow, hboot]
  split at h
  · exact h
  · split_ifs at h ⊢ <;> first | exact h | (subst h; simp at hx)

theorem Fetches.ldrFx_unmapped {f : I2} (h : layout ((s.engine e.toNat).live.addr f.a.toNat f.imm) = none) :
    q.ldrFx e.toNat f = q.taskFault e.toNat 3 (s.engine e.toNat).live.pc := by
  simp only [ldrFx, hq.live, fabricRead, h]

theorem Fetches.strFx_unmapped {f : I2}
    (h : s.writeAns ((s.engine e.toNat).live.addr f.a.toNat f.imm) ((s.engine e.toNat).live.getW f.d.toNat) = .unmapped) :
    q.strFx e.toNat f = q.taskFault e.toNat 3 (s.engine e.toNat).live.pc := by
  simp only [strFx, hq.live, hq.writeAns (.inl rfl) h]

theorem Fetches.strFx_refused {f : I2}
    (h : s.writeAns ((s.engine e.toNat).live.addr f.a.toNat f.imm) ((s.engine e.toNat).live.getW f.d.toNat) = .noField ∨
      s.writeAns ((s.engine e.toNat).live.addr f.a.toNat f.imm) ((s.engine e.toNat).live.getW f.d.toNat) = .reservedBit) :
    q.strFx e.toNat f = q.taskFault e.toNat 4 (s.engine e.toNat).live.pc := by
  obtain h | h := h
  · simp only [strFx, hq.live, hq.writeAns (.inr (.inl rfl)) h]
  · simp only [strFx, hq.live, hq.writeAns (.inr (.inr rfl)) h]

theorem Fetches.branchFx_outside {f : I2} {target : Task → Int} {link : Bool}
    (hcond : (s.engine e.toNat).live.cond f.d.toNat f.a.toNat = true)
    (hout : target (s.engine e.toNat).live < 0 ∨ 8191 < target (s.engine e.toNat).live) :
    q.branchFx e.toNat f target link = q.taskFault e.toNat 2 (s.engine e.toNat).live.pc := by
  simp only [branchFx, hq.live, hcond, if_true, if_pos hout]

theorem Fetches.target (a : Nat) (acc : Access) : (q.engine e.toNat).target a acc = (s.engine e.toNat).target a acc := by
  rw [hq.own]
  rfl

theorem Fetches.loadFx_fault {f : I2} {c : Nat}
    (h : (s.engine e.toNat).target ((s.engine e.toNat).live.addr f.a.toNat f.imm) ⟨false, false⟩ = .fault c) :
    q.loadFx e.toNat f = q.taskFault e.toNat c (s.engine e.toNat).live.pc := by
  simp only [loadFx, hq.live, hq.target, h]

theorem Fetches.storeFx_fault {f : I2} {c : Nat}
    (h : (s.engine e.toNat).target ((s.engine e.toNat).live.addr f.a.toNat f.imm) ⟨true, false⟩ = .fault c) :
    q.storeFx e.toNat f = q.taskFault e.toNat c (s.engine e.toNat).live.pc := by
  simp only [storeFx, hq.live, hq.target, h]

/-- The context area is not written (R211). -/
theorem Fetches.storeFx_context {f : I2} {x : Nat}
    (h : (s.engine e.toNat).target ((s.engine e.toNat).live.addr f.a.toNat f.imm) ⟨true, false⟩ = .data x) (hx : 0x3C00 ≤ x) :
    q.storeFx e.toNat f = q.taskFault e.toNat 4 (s.engine e.toNat).live.pc := by
  simp only [storeFx, hq.live, hq.target, h, if_pos hx]

end

/-- An instruction that faults as it acts completes as the fault. -/
theorem exec_of_fault {s : State} {i : Instr} {e : EngId} {w : Word} {b : BerthId} {act : State → State} {code pc : Nat}
    (hi : encode i = some (e, w)) (h : s.standsAt i b = true) (hexec : exec i s = .next (s.issue e.toNat w act))
    (hact : act (s.fetched e.toNat b) = (s.fetched e.toNat b).taskFault e.toNat code pc) :
    exec i s = .next ((s.fetched e.toNat b).taskFault e.toNat code pc) := by
  have hq := fetched_fetches hi h
  have hrun : ((s.fetched e.toNat b).engine e.toNat).running = some b := by rw [hq.own]; exact hq.stands.1
  rw [hexec, issue_of_noWalk hi h (by rw [hact]; exact taskFault_walk hrun code pc), hact]

end State

end Sys2Proof.Machine
end

section
/-! The obligation on engine faults (R211, R225, R230, R237, R238, R251, R255, R273). -/

namespace Sys2Proof.Machine

open State

/-- Settles O19: each fault is the fault of the running task, taken before the fetch, at the fetch or where the instruction acts. -/
theorem engineFaults : Obligations.EngineFaults := by
  unfold Obligations.EngineFaults
  intro s e b i w n en t fetch faults address hi hrun hst hblock hwalk hroom
  have hfaults : ∀ {q : State} {code pc : Nat}, FaultsAt s q n b → code ≠ 8 → exec i s = .next (q.taskFault n code pc) → faults code pc := by
    intro q code pc hq hcode hexec
    obtain ⟨hsuspended, hsent, hframe⟩ := hq.outcome pc hcode
    exact ⟨_, hexec, hsuspended, hsent, hframe, fun htimed hother => hq.timed pc htimed hother⟩
  have hhere := FaultsAt.refl hrun hst hroom
  have hfetch := FaultsAt.fetch hrun hst hroom (8192 * n + t.pc) (srcEng n)
  have hacts : ∀ {act : State → State} {code : Nat}, code ≠ 8 → s.standsAt i b = true → exec i s = .next (s.issue n w act) →
      (Fetches s (s.fetched n b) e b → act (s.fetched n b) = (s.fetched n b).taskFault n code t.pc) → faults code t.pc := by
    intro act code hcode hstands hexec hact
    exact hfaults (.fetched hrun hst hroom) hcode (exec_of_fault hi hstands hexec (hact (fetched_fetches hi hstands)))
  obtain ⟨act, hexec⟩ := exec_eq_issue s hi
  refine ⟨fun pc hp => ?_, fun hp hpc => ?_, fun hp hpc hpoison => ?_, fun hp hpc hword hillegal => ?_, fun f h hif hl => ?_, fun f h hif hl => ?_,
    fun f h hif hl => ?_, fun f h hif hc hl => ?_, fun f h hif hc hl => ?_, fun f c h hif hl => ?_, fun f c h hif hl => ?_,
    fun f x h hif hl hx => ?_⟩
  · exact hfaults hhere (by decide) (by rw [hexec, issue_of_poisoned hrun hst hblock hwalk hp])
  · exact hfaults hhere (by decide) (by rw [hexec, issue_past_end hrun hst hblock hwalk hp hpc])
  · exact hfaults hfetch (by decide) (by rw [hexec, issue_poisoned_word hrun hst hblock hwalk hp hpc hpoison])
  · exact hfaults hfetch (by decide) (by rw [hexec, issue_illegal_word hrun hst hblock hwalk hp hpc hword hillegal])
  · subst hif; cases hi
    exact hacts (by decide) h rfl fun hq => hq.ldrFx_unmapped hl
  · subst hif; cases hi
    exact hacts (by decide) h rfl fun hq => hq.strFx_unmapped hl
  · subst hif; cases hi
    exact hacts (by decide) h rfl fun hq => hq.strFx_refused hl
  · obtain rfl | rfl := hif <;> cases hi
    all_goals exact hacts (by decide) h rfl fun hq => hq.branchFx_outside hc hl
  · have hout : ((t.addr f.a.toNat f.imm : Nat) : Int) < 0 ∨ 8191 < ((t.addr f.a.toNat f.imm : Nat) : Int) := .inr (Int.ofNat_lt.mpr hl)
    obtain rfl | rfl := hif <;> cases hi
    all_goals exact hacts (by decide) h rfl fun hq => hq.branchFx_outside hc hout
  · subst hif; cases hi
    exact hacts (by have := Engine.target_fault hl; omega) h rfl fun hq => hq.loadFx_fault hl
  · subst hif; cases hi
    exact hacts (by have := Engine.target_fault hl; omega) h rfl fun hq => hq.storeFx_fault hl
  · subst hif; cases hi
    exact hacts (by decide) h rfl fun hq => hq.storeFx_context hl hx

end Sys2Proof.Machine
end

section
/-! Berth rounds and switches: what a switch chooses and restores, and the events of the schedule (R220, R227, R237, R269 to R271, R351). -/

namespace Sys2Proof.Machine

/-- The engine with task `t` resumed in berth `b` by a switch at cycle `c` (R269). -/
def Engine.resumed (en : Engine) (t : Task) (b c : Nat) (budget : Option Nat) : Engine :=
  { en with
    live := t, runFrom := c + 12, running := some (BitVec.ofNat 4 b), st := .running, ready := en.ready &&& ~~~(1#16 <<< b)
    budgetEnd := budget, poisoned := none, block := none, walk := none, blkFailed := [] }

namespace State

/-! ### What a switch looks at -/

theorem berths_congr {s t : State} (himg : t.img = s.img) (n : Nat) : t.berths n = s.berths n := by rw [berths, berths, engImage, engImage, himg]

theorem shedBerth_congr {s t : State} {n : Nat} (himg : t.img = s.img) (hshed : (t.engine n).shed = (s.engine n).shed) (b : Nat) :
    t.shedBerth n b = s.shedBerth n b := by
  rw [shedBerth, shedBerth, berthCfg, berthCfg, berths_congr himg, hshed]

theorem urgentBerth_congr {s t : State} (himg : t.img = s.img) (n b : Nat) : t.urgentBerth n b = s.urgentBerth n b := by
  rw [urgentBerth, urgentBerth, berthKind, berthKind, berthCfg, berthCfg, berths_congr himg]

theorem nextUrgent_congr {s t : State} {n : Nat} (himg : t.img = s.img) (hready : (t.engine n).ready = (s.engine n).ready)
    (hreadyAt : (t.engine n).readyAt = (s.engine n).readyAt) (hsusp : (t.engine n).suspended = (s.engine n).suspended)
    (hshed : (t.engine n).shed = (s.engine n).shed) (c : Nat) : t.nextUrgent n c = s.nextUrgent n c := by
  have hhandler : t.handlerOf n = s.handlerOf n := by rw [handlerOf, handlerOf, berths_congr himg]
  unfold nextUrgent
  dsimp only
  rw [hhandler, hready, hreadyAt, hsusp]
  simp only [shedBerth_congr himg hshed, urgentBerth_congr himg]

theorem timedAt_congr {s t : State} {n : Nat} (himg : t.img = s.img) (hsusp : (t.engine n).suspended = (s.engine n).suspended)
    (hshed : (t.engine n).shed = (s.engine n).shed) (hended : (t.engine n).ended = (s.engine n).ended) (c : Nat) :
    t.timedAt n c = s.timedAt n c := by
  simp only [timedAt, berths_congr himg, shedBerth_congr himg hshed, hsusp, hended]

theorem switchIn_of_idle {s : State} {n c : Nat} (k : Nat) (hurgent : s.nextUrgent n c = none) (htimed : s.timedAt n ((c + 12) % 1024) = none) :
    s.switchIn n c (k + 1) = s.setEngine n { s.engine n with running := none, st := .idle } := by
  rw [switchIn, hurgent]
  dsimp only
  rw [htimed]

/-! ### Restoring a clean frame (R269, R275) -/

/-- Every word of the frame of berth `b` is clean. -/
def CleanFrame (s : State) (n b : Nat) : Prop :=
  ∀ j, j < 64 → (s.cell .dmem (16384 * n + 15360 + 64 * b + j)).poison = false ∧ (s.cell .dmem (16384 * n + 15360 + 64 * b + j)).flips = 0

/-- The task that a clean frame holds. -/
def framed (s : State) (n b : Nat) : Task := Task.ofFrame ((List.range 64).map fun j => s.memPeek .dmem (16384 * n + 15360 + 64 * b + j))

theorem CleanFrame.loadFrame {s : State} {n b : Nat} (h : s.CleanFrame n b) : s.loadFrame n b = ((s.framed n b, false), s) := by
  have haddr : ∀ j, 16384 * n + frameBase b + j = 16384 * n + 15360 + 64 * b + j := fun j => by simp only [frameBase]; omega
  rw [loadFrame_of_clean, framed]
  · simp only [haddr]
  · intro j hj
    obtain ⟨hpoison, hflips⟩ := h j hj
    rw [haddr, memPeek]
    generalize s.cell .dmem (16384 * n + 15360 + 64 * b + j) = x at hpoison hflips
    obtain ⟨w, f, p⟩ := x
    cases hpoison
    cases hflips
    rfl

/-- A clean frame is restored: its task runs (R269, R271). -/
theorem CleanFrame.restore {s : State} {n b : Nat} (h : s.CleanFrame n b) (c : Nat) :
    ∃ budget, s.restore n b c =
      (true, s.setEngine n ((s.engine n).resumed { s.framed n b with urgent := s.urgentBerth n b } b c budget)) := by
  unfold State.restore
  rw [h.loadFrame]
  exact ⟨_, rfl⟩

theorem switchIn_of_urgent {s : State} {n c u : Nat} (k : Nat) (hurgent : s.nextUrgent n c = some u) (hclean : s.CleanFrame n u) :
    s.switchIn n c (k + 1) = (s.restore n u c).2 := by
  obtain ⟨budget, hrestore⟩ := hclean.restore c
  have hrun : (s.restore n u c).1 = true := by rw [hrestore]
  rw [switchIn, hurgent]
  exact if_pos hrun

/-! ### Saving the running task -/

/-- The running task is saved as it comes out of the fault that poisoned data left pending, if it did (R237, R247). -/
theorem saveRunning_saved {s : State} {n : Nat} {b : BerthId} (hrun : (s.engine n).running = some b) :
    ∃ q : State, s.saveRunning n = q.putAway n b ∧
      ((s.engine n).poisoned ≠ none → (q.engine n).suspended.getLsbD b.toNat = true ∧ (q.engine n).lastFault = 5) := by
  cases hpoison : (s.engine n).poisoned with
  | none => exact ⟨s, saveRunning_of_clean hrun hpoison, fun h => absurd rfl h⟩
  | some pc =>
    refine ⟨_, saveRunning_of_poisoned hrun hpoison, fun _ => ⟨runFault_suspended s n b 5 pc, ?_⟩⟩
    rw [runFault_engine, Engine.faulted_eq]
    rfl

/-- After a save nothing runs, and the berth is noted. -/
theorem saveRunning_engine {s : State} {n : Nat} {b : BerthId} (hrun : (s.engine n).running = some b) :
    ((s.saveRunning n).engine n).running = none ∧ ((s.saveRunning n).engine n).lastBerth = b := by
  obtain ⟨q, hsave, -⟩ := saveRunning_saved hrun
  rw [hsave, putAway_engine]
  exact ⟨rfl, rfl⟩

/-- Engine `n` waits for what a switch brings. -/
def idled (s : State) (n : Nat) : State := s.setEngine n { s.engine n with st := .idle }

theorem idled_engine (s : State) (n : Nat) : (s.idled n).engine n = { s.engine n with st := .idle } := setEngine_engine_same ..

theorem idled_engine_ne (s : State) {n m : Nat} (h : m ≠ n) : (s.idled n).engine m = s.engine m := setEngine_engine_ne _ _ h

theorem Switches.idled (n : Nat) (s : State) : Switches n s (s.idled n) :=
  .setEngine s ⟨fun _ h => h, fun h => h, rfl, rfl, rfl, rfl, rfl⟩

/-! ### The schedule's counts (R269, R270) -/

theorem overrunCounter (q : Nat) : Counter (F.quaySchedOverrunCnt q) (F.quaySchedOvrOvf q) :=
  ⟨rfl, by simp [F.quaySchedOverrunCnt, F.quaySchedOvrOvf], by simp [F.quaySchedOverrunCnt, F.quaySchedOvrOvf]⟩

theorem preemptCounter (q : Nat) : Counter (F.quaySchedPreemptCnt q) (F.quaySchedPreOvf q) :=
  ⟨rfl, by simp [F.quaySchedPreemptCnt, F.quaySchedPreOvf], by simp [F.quaySchedPreemptCnt, F.quaySchedPreOvf]⟩

/-- A switch leaves the counts of the schedule. -/
theorem Switches.sched {n : Nat} {s t : State} (h : Switches n s t) {f : Fld} {q : Nat} (hf : f.addr = (F.quaySchedOverrunCnt q).addr) :
    t.rd f = s.rd f := by
  have hreg : t.reg f.addr = s.reg f.addr := by
    refine h.regs _ ?_ (fun r => ?_) <;> rw [hf]
    · simp only [F.quaySchedOverrunCnt, F.fcQueueDrop0]
      omega
    · simp only [F.quaySchedOverrunCnt, F.quayMemCorrCnt]
      omega
  rw [rd, rd, hreg]

/-- A count of the schedule that is taken before a switch. -/
theorem Switches.counted {n : Nat} {s r t : State} {f : Fld} {q : Nat} (h : Switches n r t) (hf : f.addr = (F.quaySchedOverrunCnt q).addr)
    (hcount : s.countsOne r f) : s.countsOne t f := by
  rw [countsOne, h.sched hf]
  exact hcount

theorem inc_sched_engCyc (s : State) {cnt ovf : Fld} {q : Nat} (hc : cnt.addr = (F.quaySchedOverrunCnt q).addr) (ho : ovf.addr = cnt.addr)
    (n : Nat) : (s.inc cnt ovf).engCyc n = s.engCyc n := by
  have hne : (16 : Nat) ≠ cnt.addr := by
    rw [hc]
    simp only [F.quaySchedOverrunCnt]
    omega
  exact engCyc_congr (inc_reg_ne s hne (by rw [ho]; exact hne)) (by rw [inc_eq]) (by rw [inc_eq]) n

/-! ### The start of a timed berth (R220, R269) -/

section
variable {s : State} {e : EngId}

theorem timedBerthStart_other {b : BerthId}
    (h : ∀ k, s.berthCfg e.toNat b.toNat = some k → k.kind = .timed → (s.engCyc e.toNat + 12) % 1024 ≠ k.start) :
    exec (.timedBerthStart e b) s = .next s := by
  have hexec : exec (.timedBerthStart e b) s = .next (s.timedStart e.toNat b.toNat) := rfl
  rw [hexec, timedStart]
  dsimp only
  split
  · rfl
  next k hk =>
    rw [if_pos]
    by_cases hkind : k.kind = .timed
    · simp [h k hk hkind]
    · simp [hkind]

/-- The run of the berth's task in this round lies ahead (R245). -/
def berthOpened (s : State) (n b : Nat) : State :=
  s.setEngine n { s.engine n with ended := (s.engine n).ended &&& ~~~(1#16 <<< b) }

theorem berthOpened_engine (s : State) (n b : Nat) :
    (s.berthOpened n b).engine n = { s.engine n with ended := (s.engine n).ended &&& ~~~(1#16 <<< b) } := setEngine_engine_same ..

/-- Where nothing runs a timed berth's start is a restore from an idle engine. -/
theorem timedStart_restores {n b : Nat} {k : BerthCfg} (hlive : s.engLive n = true) (hk : s.berthCfg n b = some k)
    (hkind : k.kind = .timed) (hstart : (s.engCyc n + 12) % 1024 = k.start) (hrun : (s.engine n).running = none)
    (hsusp : (s.engine n).suspended.getLsbD b = false) (hshed : s.shedAtStart n k = false) :
    s.timedStart n b = (((s.berthOpened n b).idled n).restore n b (((s.berthOpened n b).idled n).engCyc n)).2 := by
  have hdue : ¬ ((!s.engLive n || k.kind != .timed || (s.engCyc n + 12) % 1024 != k.start) = true) := by
    simp [hlive, hkind, hstart]
  have hsaved : (s.berthOpened n b).saveRunning n = s.berthOpened n b := saveRunning_of_none (by rw [berthOpened_engine]; exact hrun)
  have hshed' : (s.berthOpened n b).shedAtStart n k = false := by rw [shedAtStart, berthOpened_engine]; exact hshed
  unfold timedStart
  dsimp only
  rw [hk]
  refine (if_neg hdue).trans ((if_neg ?_).trans ?_)
  · rw [hsusp]
    show ¬ ((_ || false || (s.berthOpened n b).shedAtStart n k) = true)
    rw [hshed', hrun]
    simp
  · show ((((s.berthOpened n b).saveRunning n).idled n).restore n b ((((s.berthOpened n b).saveRunning n).idled n).engCyc n)).2 = _
    rw [hsaved]

/-- The berth's task runs, resumed from its frame; a timed task is not urgent. -/
theorem timedBerthStart_runs {b : BerthId} {k : BerthCfg} (hlive : s.engLive e.toNat = true) (hk : s.berthCfg e.toNat b.toNat = some k)
    (hkind : k.kind = .timed) (hstart : (s.engCyc e.toNat + 12) % 1024 = k.start) (hrun : (s.engine e.toNat).running = none)
    (hsusp : (s.engine e.toNat).suspended.getLsbD b.toNat = false) (hshed : s.shedAtStart e.toNat k = false)
    (hclean : s.CleanFrame e.toNat b.toNat) :
    ∃ s', exec (.timedBerthStart e b) s = .next s' ∧ s' = { s with engines := s'.engines } ∧ s.otherEngines s' e.toNat ∧
      ∃ en c budget, s'.engine e.toNat = Engine.resumed en { s.framed e.toNat b.toNat with urgent := false } b.toNat c budget := by
  have htimed : s.urgentBerth e.toNat b.toNat = false := by
    rw [urgentBerth, berthKind, hk]
    dsimp only
    rw [hkind]
  have hexec : exec (.timedBerthStart e b) s = .next (s.timedStart e.toNat b.toNat) := rfl
  rw [timedStart_restores hlive hk hkind hstart hrun hsusp hshed] at hexec
  have hframe : (s.berthOpened e.toNat b.toNat).idled e.toNat =
      { s with engines := ((s.berthOpened e.toNat b.toNat).idled e.toNat).engines } := rfl
  have hothers : s.otherEngines ((s.berthOpened e.toNat b.toNat).idled e.toNat) e.toNat := fun m hm =>
    (idled_engine_ne _ hm).trans (setEngine_engine_ne _ _ hm)
  generalize (s.berthOpened e.toNat b.toNat).idled e.toNat = r at hexec hframe hothers
  have htask : r.framed e.toNat b.toNat = s.framed e.toNat b.toNat := by rw [hframe]; rfl
  have hcleanr : r.CleanFrame e.toNat b.toNat := by rw [hframe]; exact hclean
  have hurgent : r.urgentBerth e.toNat b.toNat = false := by rw [hframe]; exact htimed
  obtain ⟨budget, hrestore⟩ := hcleanr.restore (r.engCyc e.toNat)
  rw [hrestore, htask, hurgent] at hexec
  exact ⟨_, hexec, by rw [hframe]; rfl, fun m hm => (setEngine_engine_ne _ _ hm).trans (hothers m hm), _, _, budget, setEngine_engine_same ..⟩

/-! ### The end of a timed berth (R269) -/

variable {b : BerthId}

theorem timedBerthEnd_other {k : BerthCfg} (hrun : (s.engine e.toNat).running = some b) (hk : s.berthCfg e.toNat b.toNat = some k)
    (h : s.engCyc e.toNat % 1024 ≠ (k.start + k.len) % 1024) : exec (.timedBerthEnd e) s = .next s := by
  have hexec : exec (.timedBerthEnd e) s = .next (s.timedEnd e.toNat) := rfl
  rw [hexec, timedEnd, hrun]
  dsimp only
  rw [hk]
  simp [h]

/-- The task still running is interrupted, and the overrun counted. -/
theorem timedBerthEnd_ends {k : BerthCfg} (hrun : (s.engine e.toNat).running = some b) (hlive : s.engLive e.toNat = true)
    (hk : s.berthCfg e.toNat b.toNat = some k) (hkind : k.kind = .timed) (hend : s.engCyc e.toNat % 1024 = (k.start + k.len) % 1024) :
    exec (.timedBerthEnd e) s = .next (((s.countOverrun e.toNat).saveRunning e.toNat).idled e.toNat) := by
  have hexec : exec (.timedBerthEnd e) s = .next (s.timedEnd e.toNat) := rfl
  rw [hexec, timedEnd, hrun]
  exact congrArg _ (if_pos (by simp [hlive, hk, hkind, hend]))

theorem countOverrun_engine (s : State) (n m : Nat) : (s.countOverrun n).engine m = s.engine m := inc_engine ..

/-- What an interruption leaves, its count taken before the save. -/
theorem idled_saveRunning {s r : State} {n : Nat} {b : BerthId} (hrun : (r.engine n).running = some b) (heng : ∀ m, r.engine m = s.engine m) :
    (((r.saveRunning n).idled n).engine n).running = none ∧ (((r.saveRunning n).idled n).engine n).st = .idle ∧
      (((r.saveRunning n).idled n).engine n).lastBerth = b ∧ s.otherEngines ((r.saveRunning n).idled n) n := by
  obtain ⟨hnone, hlast⟩ := saveRunning_engine hrun
  rw [idled_engine]
  exact ⟨hnone, rfl, hlast, fun m hm => (idled_engine_ne _ hm).trans (((Switches.saveRunning n r).others m hm).trans (heng m))⟩

/-! ### Urgent tasks (R270, R271) -/

theorem urgentPreempt_other (h : s.engCyc e.toNat % 64 ≠ 0) : exec (.urgentPreempt e) s = .next s := by
  have hexec : exec (.urgentPreempt e) s = .next (s.preempt e.toNat) := rfl
  rw [hexec, preempt]
  exact congrArg _ (if_pos (by simp [h]))

/-- The switch state of a pre-emption: the timed task is counted and saved. -/
theorem urgentPreempt_takes {u : Nat} (hcyc : s.engCyc e.toNat % 64 = 0) (hrun : (s.engine e.toNat).running = some b)
    (hlive : s.engLive e.toNat = true) (htimed : s.urgentBerth e.toNat b.toNat = false)
    (hnext : s.nextUrgent e.toNat (s.engCyc e.toNat) = some u) :
    exec (.urgentPreempt e) s = .next (
      let t := ((s.inc (F.quaySchedPreemptCnt (e.toNat / 16)) (F.quaySchedPreOvf (e.toNat / 16))).saveRunning e.toNat).idled e.toNat
      t.switchIn e.toNat (t.engCyc e.toNat) 17) := by
  have hexec : exec (.urgentPreempt e) s = .next (s.preempt e.toNat) := rfl
  rw [hexec, preempt, hnext]
  dsimp only
  rw [hrun]
  dsimp only
  rw [htimed]
  exact congrArg _ (if_neg (by simp [hlive, hcyc]))

theorem urgentBudgetEnd_ends {q : Nat} (hrun : (s.engine e.toNat).running = some b) (hbudget : (s.engine e.toNat).budgetEnd = some q)
    (hq : q ≤ s.engCyc e.toNat) (hlive : s.engLive e.toNat = true) :
    exec (.urgentBudgetEnd e) s = .next (
      let t := ((s.countOverrun e.toNat).saveRunning e.toNat).idled e.toNat
      t.switchIn e.toNat (t.engCyc e.toNat) 17) := by
  have hexec : exec (.urgentBudgetEnd e) s = .next (s.budgetOut e.toNat) := rfl
  rw [hexec, budgetOut, hrun, hbudget]
  exact congrArg _ (if_pos (by simp [hlive, hq]))

end

/-- The state of a switch after a count of the schedule and the save of a task without pending fault: what the switch looks at is as it was. -/
structure Switching (s t : State) (n : Nat) (b : BerthId) : Prop where
  own : t.engine n = { (s.engine n).put b with st := .idle }
  others : s.otherEngines t n
  img : t.img = s.img
  engCyc : t.engCyc n = s.engCyc n
  cell : ∀ a, ¬ (16384 * n + 15360 + 64 * b.toNat ≤ a ∧ a < 16384 * n + 15424 + 64 * b.toNat) → t.cell .dmem a = s.cell .dmem a

theorem Switching.of_counted {s r : State} {n : Nat} {b : BerthId} (hrun : (s.engine n).running = some b)
    (hclean : (s.engine n).poisoned = none) (hregs : r = { s with regs := r.regs }) (hcyc : r.engCyc n = s.engCyc n) :
    Switching s ((r.saveRunning n).idled n) n b := by
  have heng : ∀ m, r.engine m = s.engine m := fun m => by rw [hregs]; rfl
  have hsave : r.saveRunning n = r.putAway n b := saveRunning_of_clean (by rw [heng]; exact hrun) (by rw [heng]; exact hclean)
  have hsw : Switches n r ((r.putAway n b).idled n) := (Switches.putAway n r b).trans (.idled n _)
  rw [hsave]
  refine ⟨?_, fun m hm => (hsw.others m hm).trans (heng m), ?_, (hsw.engCyc n).trans hcyc, fun a ha => ?_⟩
  · rw [idled_engine, putAway_engine, heng]
  · rw [hsw.img, hregs]
  · have hcell : ((r.putAway n b).idled n).cell .dmem a = r.cell .dmem a := by
      rw [idled, setEngine_cell]
      refine putAway_cell_ne r n b ?_
      rintro ⟨-, hlo, hhi⟩
      simp only [frameBase] at hlo hhi
      exact ha ⟨by omega, by omega⟩
    rw [hcell, hregs]
    rfl

section
variable {s t : State} {n : Nat} {b : BerthId} (h : Switching s t n b)
include h

theorem Switching.nextUrgent (c : Nat) : t.nextUrgent n c = s.nextUrgent n c := by
  refine nextUrgent_congr h.img ?_ ?_ ?_ ?_ c <;> rw [h.own] <;> rfl

theorem Switching.timedAt (c : Nat) : t.timedAt n c = s.timedAt n c := by
  refine timedAt_congr h.img ?_ ?_ ?_ c <;> rw [h.own] <;> rfl

/-- The frames of the other berths are as they were. -/
theorem Switching.cleanFrame {u : Nat} (hu : u ≠ b.toNat) (hclean : s.CleanFrame n u) : t.CleanFrame n u := by
  intro j hj
  rw [h.cell _ (by omega)]
  exact hclean j hj

end

/-! ### The start of a round (R220, R227, R351) -/

/-- What a round start keeps of the last round. -/
def roundKept (s : State) (n : Nat) : State :=
  s.setEngine n { s.engine n with
    lastUsed := Nat.min (s.engine n).used 1024, peakUsed := Nat.max (s.engine n).peakUsed (Nat.min (s.engine n).used 1024), used := 0
    shed := s.thermal.shed }

theorem roundKept_engine (s : State) (n : Nat) : (s.roundKept n).engine n = { s.engine n with
    lastUsed := Nat.min (s.engine n).used 1024, peakUsed := Nat.max (s.engine n).peakUsed (Nat.min (s.engine n).used 1024), used := 0
    shed := s.thermal.shed } := setEngine_engine_same ..

theorem roundStart_goes_on {s : State} {n : Nat} (hcyc : s.engCyc n % 1024 = 0) (hrestart : (s.engine n).restart = false) :
    s.roundStart n = if s.engLive n then (s.roundKept n).shedRunning n else s.roundKept n := by
  have hlive : (s.roundKept n).engLive n = s.engLive n := by rw [engLive, roundKept_engine]; rfl
  unfold roundStart
  refine (if_neg (not_not.mpr hcyc)).trans ((if_neg (by rw [hrestart]; decide)).trans ?_)
  rw [← hlive]
  rfl

/-- A RESTART puts every task at its entry; the engine's state follows from what it was (R227). -/
theorem roundStart_restarts {p : State → Prop} {s : State} {n : Nat} (hcyc : s.engCyc n % 1024 = 0) (hrestart : (s.engine n).restart = true)
    (hfresh : p ((s.roundKept n).freshTasks n))
    (hst : ∀ x, p (((s.roundKept n).freshTasks n).setEngine n { ((s.roundKept n).freshTasks n).engine n with st := x })) :
    p (s.roundStart n) := by
  have hgo : s.roundStart n = (let t := (s.roundKept n).freshTasks n
      match (s.engine n).st with
      | .gated => t
      | .haltedColl => if t.latched then t else t.setEngine n { t.engine n with st := .idle }
      | _ => t.setEngine n { t.engine n with st := .idle }) := by
    unfold roundStart
    exact (if_neg (not_not.mpr hcyc)).trans (if_pos hrestart)
  rw [hgo]
  cases (s.engine n).st with
  | gated => exact hfresh
  | haltedColl =>
    dsimp only
    split
    · exact hfresh
    · exact hst _
  | _ => exact hst _

theorem freshFrames_engine (s : State) (n : Nat) (l : List BerthCfg) (m : Nat) :
    (l.foldl (fun s c => s.saveFrame n c.berth.toNat (Task.init c.entry c.xbase)) s).engine m = s.engine m :=
  List.foldlRecOn (motive := fun t : State => t.engine m = s.engine m) l _ rfl fun _ h _ _ => (saveFrame_engine ..).trans h

theorem freshTasks_engine (s : State) (n : Nat) :
    (s.freshTasks n).engine n = { s.engine n with
      live := Task.init 0 0, running := none, poisoned := none, suspended := 0, ready := 0, tlb := [], fill := 0, loads := []
      walk := none, blkFailed := [], block := none, budgetEnd := none, ended := 0, restart := false } := by
  unfold freshTasks
  dsimp only
  rw [setEngine_engine_same, freshFrames_engine]

theorem freshTasks_engine_ne (s : State) {n m : Nat} (h : m ≠ n) : (s.freshTasks n).engine m = s.engine m := by
  unfold freshTasks
  dsimp only
  rw [setEngine_engine_ne _ _ h, freshFrames_engine]

/-- The first word of a fresh frame: the berth and its entry (R204). -/
theorem saveFrame_first (s : State) (n : Nat) (c : BerthCfg) :
    (s.saveFrame n c.berth.toNat (Task.init c.entry c.xbase)).memPeek .dmem (16384 * n + frameBase c.berth.toNat) =
      BitVec.ofNat 40 (c.berth.toNat * 2 ^ 36 + c.entry % 8192) :=
  saveFrame_memPeek s n c.berth.toNat (Task.init c.entry c.xbase) (j := 0) (by decide)

/-- A frame is not touched by the saves of other berths. -/
theorem freshFrames_of_others (s : State) (n : Nat) {b : BerthId} {l : List BerthCfg} (h : ∀ y ∈ l, y.berth ≠ b) :
    (l.foldl (fun s c => s.saveFrame n c.berth.toNat (Task.init c.entry c.xbase)) s).memPeek .dmem (16384 * n + frameBase b.toNat) =
      s.memPeek .dmem (16384 * n + frameBase b.toNat) :=
  List.foldlRecOn (motive := fun t : State => t.memPeek .dmem (16384 * n + frameBase b.toNat) = s.memPeek .dmem (16384 * n + frameBase b.toNat))
    l _ rfl fun t ht y hy => by
      have hne : y.berth.toNat ≠ b.toNat := fun heq => h y hy (BitVec.eq_of_toNat_eq heq)
      rw [memPeek, saveFrame_cell_ne _ _ _ _ (by simp only [frameBase, true_and]; omega)]
      exact ht

/-- The frame of a berth that one entry configures is that entry's. -/
theorem freshFrames_first (s : State) (n : Nat) {x : BerthCfg} {l : List BerthCfg} (hx : x ∈ l) (hone : ∀ y ∈ l, y.berth = x.berth → y = x) :
    (l.foldl (fun s c => s.saveFrame n c.berth.toNat (Task.init c.entry c.xbase)) s).memPeek .dmem (16384 * n + frameBase x.berth.toNat) =
      BitVec.ofNat 40 (x.berth.toNat * 2 ^ 36 + x.entry % 8192) := by
  induction l generalizing s with
  | nil => exact absurd hx List.not_mem_nil
  | cons y l ih =>
    have hone' : ∀ z ∈ l, z.berth = x.berth → z = x := fun z hz => hone z (List.mem_cons_of_mem _ hz)
    rw [List.foldl_cons]
    by_cases hl : x ∈ l
    · exact ih _ hl hone'
    · obtain rfl : x = y := (List.mem_cons.mp hx).resolve_right hl
      rw [freshFrames_of_others _ n fun z hz heq => hl (hone' z hz heq ▸ hz)]
      exact saveFrame_first s n x

theorem freshTasks_first (s : State) (n : Nat) {x : BerthCfg} (hx : x ∈ s.berths n) (hone : ∀ y ∈ s.berths n, y.berth = x.berth → y = x) :
    (s.freshTasks n).memPeek .dmem (16384 * n + frameBase x.berth.toNat) = BitVec.ofNat 40 (x.berth.toNat * 2 ^ 36 + x.entry % 8192) := by
  rw [← freshFrames_first s n hx hone, freshTasks, memPeek, memPeek]
  rfl

/-- What a RESTART leaves at the round start (R227). -/
structure Restarted (s t : State) (n : Nat) : Prop where
  others : s.otherEngines t n
  own : ∃ x, t.engine n = { ((s.roundKept n).freshTasks n).engine n with st := x }
  mem : t.mem = ((s.roundKept n).freshTasks n).mem

theorem roundStart_restarted {s : State} {n : Nat} (hcyc : s.engCyc n % 1024 = 0) (hrestart : (s.engine n).restart = true) :
    Restarted s (s.roundStart n) n := by
  have hothers : s.otherEngines ((s.roundKept n).freshTasks n) n := fun m hm =>
    (freshTasks_engine_ne _ hm).trans (setEngine_engine_ne _ _ hm)
  exact roundStart_restarts (p := fun t => Restarted s t n) hcyc hrestart ⟨hothers, ⟨_, rfl⟩, rfl⟩
    fun x => ⟨fun m hm => (setEngine_engine_ne _ _ hm).trans (hothers m hm), ⟨x, setEngine_engine_same ..⟩, rfl⟩

theorem Switches.shedRunning (n : Nat) (s : State) : Switches n s (s.shedRunning n) := by
  have hfollows : ∀ (x : Engine) st rdy, x.Follows { x with st := st, ready := rdy } := fun _ _ _ =>
    ⟨fun _ h => h, fun h => h, rfl, rfl, rfl, rfl, rfl⟩
  unfold State.shedRunning
  dsimp only
  split
  · exact .refl n s
  · split
    · exact .refl n s
    · split
      · exact ((Switches.saveRunning n s).trans (.setEngine _ (hfollows _ _ _))).trans (.switchIn n _ _ 17)
      · exact (Switches.saveRunning n s).trans (.idled n _)

/-- A berth that is not shed runs on. -/
theorem shedRunning_of_kept {s : State} {n : Nat} (h : ∀ b, (s.engine n).running = some b → s.shedBerth n b.toNat = false) :
    s.shedRunning n = s := by
  unfold shedRunning
  cases hrun : (s.engine n).running with
  | none => rfl
  | some b => simp only [h b hrun, Bool.not_false, if_true]

theorem shedRunning_of_timed {s : State} {n : Nat} {b : BerthId} (hrun : (s.engine n).running = some b)
    (hshed : s.shedBerth n b.toNat = true) (htimed : s.urgentBerth n b.toNat = false) :
    s.shedRunning n = (s.saveRunning n).idled n := by
  have htimed' : (s.saveRunning n).urgentBerth n b.toNat = false := by rw [(Switches.saveRunning n s).urgentBerth]; exact htimed
  unfold shedRunning
  dsimp only
  rw [hrun]
  dsimp only
  rw [hshed, htimed']
  rfl

end State

end Sys2Proof.Machine
end

section
/-! The obligation on berth rounds and switches (R220, R227, R237, R269 to R271, R351). -/

namespace Sys2Proof.Machine

open State

/-- What every round start keeps, whatever comes of the tasks (R220, R351). -/
theorem roundStart_keeps {s : State} {n : Nat} (hcyc : s.engCyc n % 1024 = 0) :
    s.otherEngines (s.roundStart n) n ∧ ((s.roundStart n).engine n).shed = s.thermal.shed ∧
      ((s.roundStart n).engine n).lastUsed = Nat.min (s.engine n).used 1024 ∧ ((s.roundStart n).engine n).used = 0 ∧
      ((s.roundStart n).engine n).peakUsed = Nat.max (s.engine n).peakUsed (Nat.min (s.engine n).used 1024) ∧
      ((s.roundStart n).engine n).restart = false := by
  cases hrestart : (s.engine n).restart with
  | true =>
    obtain ⟨hothers, ⟨x, hown⟩, -⟩ := roundStart_restarted hcyc hrestart
    rw [hown, freshTasks_engine, roundKept_engine]
    exact ⟨hothers, rfl, rfl, rfl, rfl, rfl⟩
  | false =>
    have hsw : Switches n (s.roundKept n) (s.roundStart n) := by
      rw [roundStart_goes_on hcyc hrestart]
      split
      · exact .shedRunning n _
      · exact .refl n _
    have hown := hsw.own
    rw [roundKept_engine] at hown
    exact ⟨fun m hm => (hsw.others m hm).trans (setEngine_engine_ne _ _ hm), hown.shed, hown.lastUsed, hown.used, hown.peakUsed,
      hown.restart.trans hrestart⟩

theorem roundKept_shedBerth (s : State) (n b : Nat) {k : BerthCfg} (hk : s.berthCfg n b = some k) :
    (s.roundKept n).shedBerth n b = (s.thermal.shed && k.shed) := by
  have hk' : (s.roundKept n).berthCfg n b = some k := hk
  rw [shedBerth, roundKept_engine, hk']

theorem roundKept_shedBerth_none (s : State) (n b : Nat) (hk : s.berthCfg n b = none) : (s.roundKept n).shedBerth n b = false := by
  have hk' : (s.roundKept n).berthCfg n b = none := hk
  rw [shedBerth, hk', Bool.and_false]

theorem urgentBerth_of_timed {s : State} {n b : Nat} {k : BerthCfg} (hk : s.berthCfg n b = some k) (hkind : k.kind = .timed) :
    s.urgentBerth n b = false := by
  rw [urgentBerth, berthKind, hk]
  dsimp only
  rw [hkind]

/-- Settles O24: each event of the schedule is a count, a save of the running task and a restore of the next, at its cycle alone. -/
theorem roundsAndSwitches : Obligations.RoundsAndSwitches := by
  unfold Obligations.RoundsAndSwitches
  intro s e n en top
  refine ⟨fun b h => timedBerthStart_other h, fun b k hlive hk hkind hstart hrun hsusp hshed hclean => ?_,
    fun b k hrun hk _ h => timedBerthEnd_other hrun hk h, fun b k hrun hlive hk hkind hend => ?_, urgentPreempt_other,
    fun b u hcyc hclean hrun hlive htimed hnext hub _ hurgent hframe => ?_, fun b q hrun hbudget hq hlive hclean hnext htimed => ?_,
    fun h => ?_, fun hcyc => ⟨_, rfl, ?_⟩⟩
  · obtain ⟨s', hexec, hs', hothers, x, c, budget, hown⟩ := timedBerthStart_runs hlive hk hkind hstart hrun hsusp hshed hclean
    refine ⟨s', hexec, ?_⟩
    rw [hown]
    exact ⟨congrArg some (BitVec.ofNat_toNat 4 b), rfl, hothers, by rw [hs'], by rw [hs'], rfl⟩
  · have hrun' : ((s.countOverrun n).engine n).running = some b := by rw [countOverrun_engine]; exact hrun
    obtain ⟨hnone, hidle, hlast, hothers⟩ := idled_saveRunning hrun' (countOverrun_engine s n)
    have hsw := (Switches.saveRunning n (s.countOverrun n)).trans (.idled n _)
    refine ⟨_, timedBerthEnd_ends hrun hlive hk hkind hend, hnone, hidle, hlast, hothers, fun hpoison => ?_,
      hsw.counted (q := n / 16) rfl (countsOne_inc s (overrunCounter (n / 16)))⟩
    obtain ⟨q, hsave, hfault⟩ := saveRunning_saved hrun'
    rw [idled_engine, hsave, putAway_engine]
    exact hfault (by rw [countOverrun_engine]; exact hpoison)
  · have hcyc' := inc_sched_engCyc s (cnt := F.quaySchedPreemptCnt (n / 16)) (ovf := F.quaySchedPreOvf (n / 16)) (q := n / 16) rfl rfl n
    have ht := Switching.of_counted hrun hclean (inc_eq s (F.quaySchedPreemptCnt (n / 16)) (F.quaySchedPreOvf (n / 16))) hcyc'
    have hsw := (Switches.saveRunning n (s.inc (F.quaySchedPreemptCnt (n / 16)) (F.quaySchedPreOvf (n / 16)))).trans (.idled n _)
    have hexec := urgentPreempt_takes hcyc hrun hlive htimed hnext
    generalize ((s.inc (F.quaySchedPreemptCnt (n / 16)) (F.quaySchedPreOvf (n / 16))).saveRunning n).idled n = t at ht hsw hexec
    have hnext' : t.nextUrgent n (t.engCyc n) = some u := by rw [ht.nextUrgent, ht.engCyc]; exact hnext
    obtain ⟨budget, hrestore⟩ := (ht.cleanFrame hub hframe).restore (t.engCyc n)
    have hcount := (hsw.trans (Switches.restore n t u (t.engCyc n))).counted (f := F.quaySchedPreemptCnt (n / 16)) (q := n / 16) rfl (countsOne_inc s (preemptCounter (n / 16)))
    dsimp only at hexec
    rw [switchIn_of_urgent 16 hnext' (ht.cleanFrame hub hframe)] at hexec
    rw [hrestore] at hexec hcount
    refine ⟨_, hexec, ?_, ?_, ?_, fun m hm => (setEngine_engine_ne _ _ hm).trans (ht.others m hm), hcount⟩
    · rw [setEngine_engine_same]; rfl
    · rw [setEngine_engine_same]
      exact (urgentBerth_congr ht.img n u).trans hurgent
    · rw [setEngine_engine_same, ht.own]; rfl
  · have hcyc' := inc_sched_engCyc s (cnt := F.quaySchedOverrunCnt (n / 16)) (ovf := F.quaySchedOvrOvf (n / 16)) (q := n / 16) rfl rfl n
    have ht := Switching.of_counted hrun hclean (r := s.countOverrun n) (inc_eq s _ _) hcyc'
    have hsw := (Switches.saveRunning n (s.countOverrun n)).trans (.idled n _)
    have hexec := urgentBudgetEnd_ends hrun hbudget hq hlive
    generalize ((s.countOverrun n).saveRunning n).idled n = t at ht hsw hexec
    have hnext' : t.nextUrgent n (t.engCyc n) = none := by rw [ht.nextUrgent, ht.engCyc]; exact hnext
    have htimed' : t.timedAt n ((t.engCyc n + 12) % 1024) = none := by rw [ht.timedAt, ht.engCyc]; exact htimed
    have hcount := hsw.counted (q := n / 16) rfl (countsOne_inc s (overrunCounter (n / 16)))
    dsimp only at hexec
    rw [switchIn_of_idle 16 hnext' htimed'] at hexec
    refine ⟨_, hexec, ?_, ?_, ?_, fun m hm => (setEngine_engine_ne _ _ hm).trans (ht.others m hm), hcount⟩
    · rw [setEngine_engine_same]
    · rw [setEngine_engine_same]
    · rw [setEngine_engine_same, ht.own]; rfl
  · have hexec : exec (.berthRoundStart e) s = .next (s.roundStart n) := rfl
    rw [hexec, roundStart]
    exact congrArg _ (if_pos h)
  · obtain ⟨hothers, hshed, hlastUsed, hused, hpeak, hrestart⟩ := roundStart_keeps hcyc
    refine ⟨hothers, hshed, hlastUsed, hused, hpeak, hrestart, fun hgo hkept => ?_, fun b k hgo hrun hk hkind hshed hlive => ?_, fun hgo => ?_⟩
    · have hsame : (s.roundKept n).shedRunning n = s.roundKept n := shedRunning_of_kept fun b hb => by
        rw [roundKept_engine] at hb
        cases hk : s.berthCfg n b.toNat with
        | none => exact roundKept_shedBerth_none s n b.toNat hk
        | some k => rw [roundKept_shedBerth s n b.toNat hk, Bool.and_comm]; exact hkept b k hb hk
      have hround : s.roundStart n = s.roundKept n := by rw [roundStart_goes_on hcyc hgo, hsame, ite_self]
      show s.roundStart n = _ ∧ ((s.roundStart n).engine n).live = _ ∧ ((s.roundStart n).engine n).running = _
      rw [hround, roundKept_engine]
      exact ⟨rfl, rfl, rfl⟩
    · have hrun' : ((s.roundKept n).engine n).running = some b := by rw [roundKept_engine]; exact hrun
      have hshed' : (s.roundKept n).shedBerth n b.toNat = true := by rw [roundKept_shedBerth s n b.toNat hk, Bool.and_comm]; exact hshed
      have htimed : (s.roundKept n).urgentBerth n b.toNat = false := urgentBerth_of_timed hk hkind
      have hround : s.roundStart n = ((s.roundKept n).saveRunning n).idled n := by
        rw [roundStart_goes_on hcyc hgo, if_pos hlive, shedRunning_of_timed hrun' hshed' htimed]
      obtain ⟨hnone, hidle, hlast, -⟩ := idled_saveRunning hrun' (fun _ => rfl)
      show ((s.roundStart n).engine n).running = _ ∧ ((s.roundStart n).engine n).st = _ ∧ ((s.roundStart n).engine n).lastBerth = _
      rw [hround]
      exact ⟨hnone, hidle, hlast⟩
    · obtain ⟨-, ⟨x, hown⟩, hmem⟩ := roundStart_restarted hcyc hgo
      have hentry : ∀ c, s.engImage n = some c → ∀ x ∈ c.berths, (∀ y ∈ c.berths, y.berth = x.berth → y = x) →
          (s.roundStart n).memPeek .dmem (16384 * n + 15360 + 64 * x.berth.toNat) =
            BitVec.ofNat 40 (x.berth.toNat * 2 ^ 36 + x.entry % 8192) := fun c hc x hx hone => by
        have hberths : (s.roundKept n).berths n = c.berths := by
          show s.berths n = c.berths
          rw [berths, hc]
        have haddr : 16384 * n + 15360 + 64 * x.berth.toNat = 16384 * n + frameBase x.berth.toNat := by simp only [frameBase]; omega
        rw [haddr, ← freshTasks_first (s.roundKept n) n (x := x) (by rw [hberths]; exact hx) (by rw [hberths]; exact hone),
          memPeek, memPeek, cell, cell, hmem]
      have hroundEngine : (s.roundStart n).engine n = _ := hown
      refine ⟨?_, ?_, ?_, hentry⟩
      all_goals
        refine (congrArg _ hroundEngine).trans ?_
        rw [freshTasks_engine]

end Sys2Proof.Machine
end
